-- ==== Sys2Proof/Word.lean ====
section
/-!
DEFINITION. The word types of the EZM-7160: a bus and table-space word is 32 bits (R456), a grain is 24 bits (R3,
10_sample_buffer.md), a timestamp is 64 bits (R54). Bit 0 is the least significant bit everywhere (R3).
-/

namespace Sys2Proof

/-- One 32-bit word of the host bus, the link or table space (R456, R511). -/
abbrev Word := BitVec 32

/-- One 24-bit grain (R245, R363). -/
abbrev Grain := BitVec 24

/-- One 64-bit timestamp, counting SM ticks of 1/196.608 MHz (R54). -/
abbrev Tick := BitVec 64

/-- The invalid marker 0x80_0000, which never arises from data (R245). -/
def invalidGrain : Grain := 0x800000#24

/-- A sparse store of words: (address, word) cells, addresses strictly rising, no cell equal to what an unlisted
address reads as. -/
abbrev Mem := List (Nat × Word)

end Sys2Proof
end

