-- ==== Sys2Proof/Syntax.lean ====
section
/-!
DEFINITION. The commands of the block: one constructor of Instr for each of the 188 rows of spec/opcode_table.json, with
the operands the row needs. The values an event brings from outside the model (a measurement, a pin level, what another
device drives) are operands. An index that the spec bounds is a Fin, so that it cannot name a thing the spec has not.
-/

namespace Sys2Proof

/-- The nine switchable power domains, in the order of R418. -/
inductive Dom where
  | af | gf | xf | en | sp | sb | cs | mc | th
deriving DecidableEq, Repr

/-- The three kinds of path of a channel (R222, R224). -/
inductive PathKind where
  | fast | slow | recog
deriving DecidableEq, Repr

/-- The two stream groups (R351). -/
inductive Group where
  | fast | slow
deriving DecidableEq, Repr

/-- The three targets of the interrupt controller: T0 and T1 (R393); T2 has its own row. -/
inductive HostTarget where
  | t0 | t1
deriving DecidableEq, Repr

/-- The die of a die check (R28). -/
inductive Die where
  | a | g
deriving DecidableEq, Repr

/-- The three die checks of R28. -/
inductive DieCheck where
  | temperature | pressure | drive
deriving DecidableEq, Repr

/-- What a thermal event of R124 was. -/
inductive ThermEvent where
  | gradient | overtemperature | disagreement | heater
deriving DecidableEq, Repr

/-- What the regulator measures where it can report READY (R121, R123): the mean platform and the ambient temperature in units
of 1/256 °C, and VHTR in millivolts. -/
structure PlatformMeas where
  tplat   : BitVec 16
  ambient : BitVec 16
  vhtr    : Nat
deriving DecidableEq, Repr

/-- What the leak check of an audit finds (R142, R157): the region output has moved, the sum switch is stuck closed. -/
structure LeakFound where
  moved : Bool
  stuck : Bool
deriving DecidableEq, Repr

/-- One of the two inputs of a slot that the comparators check (R200). -/
structure SlotInput where
  slot     : Fin 4
  negative : Bool
deriving DecidableEq, Repr

/-- The outcome of a bisection after a window fault (R148). -/
inductive Bisection where
  | unit (u : Fin 660) | nodeFault | none
deriving DecidableEq, Repr

/-- The quantities one audit measures (R115), in the units of R141: sensitivity deviation in 10 ppm units, offset in
µg or µ°/s, noise density in 0.01 µg/√Hz or 0.01 °/h/√Hz, common mode in µV. -/
structure AuditMeas where
  sens   : Int
  offset : Int
  noise  : Nat
  cm     : Int
deriving DecidableEq, Repr

/-- The kinds of unit of frames the writer places (R378). -/
inductive FrameUnit where
  | data (g : Group) | event | fill
deriving DecidableEq, Repr

/-- A rail or both rails of a supply dip (R447, R452). -/
inductive Rails where
  | vcore | vana | both
deriving DecidableEq, Repr

/-- The result of an erase or program sequence that the flash is commanded (R547). -/
inductive EraseKind where
  | k4 | k32 | k64
deriving DecidableEq, Repr

/-- A byte address of flash 0 or flash 1 that an explicit port command names (R544, R547, R550). -/
structure FlashPlace where
  flash1 : Bool
  addr   : BitVec 32
deriving DecidableEq, Repr

/-- Where the core writes: through the window, or by an explicit port command (R544, R545). -/
inductive ProgramAt where
  | window (addr : BitVec 32) | command (place : FlashPlace)
deriving DecidableEq, Repr

/-- What follows the writes of a PAGE_PROGRAM row (R545): a core read, or 2 µs without a further write, closes the page buffer; the
sequence that a close starts has ended before the next command. -/
structure BufferEnd where
  closes : Bool
  ends   : Bool
deriving DecidableEq, Repr

/-- An erase type of the flash's parameter table: its opcode and its maximum time in microseconds, where given (R540). -/
structure EraseType where
  opcode : BitVec 8
  maxUs  : Option Nat
deriving DecidableEq, Repr

/-- The address bytes a flash takes (R540). -/
inductive AddrBytes where
  | three | threeOrFour | four
deriving DecidableEq, Repr

/-- The items of the Basic Flash Parameter Table that the module uses (R540): log2 of the bytes, address bytes, an entry into 4-byte
mode by 0xB7, which a write enable precedes or not, the erase types, log2 of the page size. -/
structure FlashTable where
  log2  : BitVec 5
  bytes : AddrBytes
  entry : Option Bool
  k4    : Option EraseType
  k32   : Option EraseType
  k64   : Option EraseType
  page  : BitVec 4
deriving DecidableEq, Repr

/-- What the boot ROM finds on a flash (R539 to R542): whether it answers, and its parameter table, where SFDP is valid. -/
structure FlashFound where
  answers : Bool
  table   : Option FlashTable
deriving DecidableEq, Repr

/-- What is read in an image slot whose contents the model does not know (R575): its words from the first on; the rest are erased. -/
structure ImageFound where
  words : List Word
deriving DecidableEq, Repr

/-- Which of the two copies of the configuration store and of the health map have a CRC that checks when they are read (R134,
R564). -/
structure CopiesFound where
  cfgA : Bool
  cfgB : Bool
  mapA : Bool
  mapB : Bool
deriving DecidableEq, Repr

/-- What stage 4 of an auxiliary or housekeeping channel brings to an output: no value, a grain, or, for a scanned slot whose
path takes each conversion as it is (R176, R228), the modulator's output bits over the conversion window. -/
inductive Raw where
  | none | grain (g : Grain) | window (bits : List Bool)
deriving DecidableEq, Repr

/-- What an identification read finds on a TID line (R208, R211). -/
inductive TedsFound where
  | noResponse | checksumError (bytes : List (BitVec 8)) | memory (bytes : List (BitVec 8))
deriving DecidableEq, Repr

/-- The fields of a header of the timing link (R515): ADDR, OP, INDEX, COUNT. -/
structure LinkHead where
  addr  : BitVec 5
  op    : BitVec 3
  index : BitVec 6
  count : BitVec 8
deriving DecidableEq, Repr

/-- A frame of the timing link without words of its own (R516): its ADDR, and the whole words clocked after the header. -/
structure ShortFrame where
  addr  : BitVec 5
  words : Nat
deriving DecidableEq, Repr

/-- Where a frame of the timing link is cut (R513): within its header, in a later word, or in the words that the frame in progress
waits with. -/
inductive LinkCut where
  | header | frame (head : LinkHead) | waiting
deriving DecidableEq, Repr

/-- The 188 commands of the block, one per row of spec/opcode_table.json. -/
inductive Instr where
  -- resets and clock (chapters 02, 19)
  | powerOn (lspd : BitVec 2)
  | resetPin (lspd : BitVec 2)
  | watchdog (lspd : BitVec 2)
  | brownRecover (lspd : BitVec 2)
  | pllmFloor
  | pllmLock
  | pllFail
  | plleLock
  | monitorTrip
  | lclkReturn
  | sync (addr : BitVec 5) (words : List Word)
  | alignChange (align : Bool)
  | park (frame : ShortFrame)
  | parkEntryDone
  | wake (frame : ShortFrame)
  | clkenWrite (value : Word) (busy : BitVec 12)
  | gateForced (bit : Fin 12) (core : Option Word)
  | relocksClr
  -- array and thermal hold (chapters 01, 03, 04)
  | rangeWrite (ch : Fin 6) (range : Bool)
  | driveWindowExclude (g : Fin 12)
  | driveWindowInclude (g : Fin 12)
  | dieFaultSet (die : Die) (check : DieCheck)
  | dieFaultClear (die : Die) (check : DieCheck)
  | thermCtrlWrite (value : Word)
  | thermReady (gradient : BitVec 6) (plat : PlatformMeas)
  | thermFault (ev : ThermEvent) (gradient : BitVec 6) (tplat : BitVec 16)
  | thermSaturated
  | rotationStart (region : Fin 6)
  | auditStart (unit : Fin 660)
  | leakCheck (region : Fin 6) (found : LeakFound)
  | auditVerdict (region : Fin 6) (moved : Bool) (meas : AuditMeas)
  | deadAuditDue (unit : Fin 660)
  | fallowAuditDue (unit : Fin 660)
  | windowFault (cluster : Fin 36) (found : Bisection)
  | retrimDone (cluster : Fin 36)
  | healthCommit
  | residualCheck (region : Fin 6) (exceeds : BitVec 8)
  | residualRetrim (cluster : Fin 36)
  | clusterPwrWrite (value : BitVec 24)
  | clusterRejoin (cluster : Fin 24)
  -- auxiliary front end (chapter 05)
  | commit (conv : Fin 4)
  | pendingCopyStart (conv : Fin 4)
  | ampReset (conv : Fin 4)
  | overload (conv : Fin 4)
  | periodicReset (conv : Fin 4)
  | resetEnd (conv : Fin 4)
  | excitationWrite (src : Fin 4) (value : Word)
  | excitationChange (src : Fin 4)
  | excRestore (mask : BitVec 4)
  | wireBreak (conv : Fin 4) (input : SlotInput)
  | wireBreakRecovery (conv : Fin 4) (slot : Fin 4)
  | attach (port : Fin 4) (present : Bool)
  | tedsReadStart (port : Fin 4)
  | tedsDone (port : Fin 4) (found : TedsFound)
  | calCycleDone (conv : Fin 4)
  -- Harrow (chapter 06)
  | apply (ch : Fin 24)
  | biquadCommit (ch : Fin 24) (group : Group)
  | diagSelChange (sel : BitVec 2)
  | pathSettled (ch : Fin 24) (path : PathKind)
  -- recognisers, captures, Scarecrow (chapter 07)
  | evtCtrlWrite (value : Word)
  | recParamWrite (r : Fin 6) (offset : Fin 8) (value : Word)
  | impactEvent
  | impactWinExpiry
  | cadenceEvent
  | cadenceEnd
  | freefallEvent
  | transientEvent
  | transientRearm
  | tiltBlockEnd
  | setRef
  | resultSnapshotRead (r : Fin 6)
  | arm
  | trig
  | abort
  | release (slot : Fin 16)
  | ownerChange (owner : Bool)
  | slotsChange (slots : BitVec 3)
  | captureDone
  | scarTrip (high : Bool) (axes : BitVec 3)
  | scarArmed
  | scarRearm
  | scarClassify
  | scarClassTimeout
  -- spectral engine (chapter 08)
  | specRun
  | specStop
  | capGo (slot : Fin 16)
  | specAbort
  | hold (on : Bool)
  | specPublish
  | specCountersClear
  | learn
  -- state machines (chapter 09)
  | smStart (mask : BitVec 8)
  | smStop (mask : BitVec 8)
  | smTick (rate : Fin 3) (t : Tick)
  | smTimeout (m : Fin 8) (t : Tick)
  -- stream and buffer (chapter 10)
  | streamStart
  | streamStop (enable : Bool)
  | writerGateOpen
  | layoutChange (group : Group) (value : Word)
  | phaseChange (minimum : Bool)
  | unitPlace (unit : FrameUnit)
  | flush
  | dropClr
  | bufDataRead
  | bufThreshWrite (value : Word)
  -- interrupts (chapter 11)
  | intClaim (x : HostTarget)
  | intComplete (x : HostTarget) (value : Word)
  | intStatsClear
  | t2Service
  | lowWordRead (index : Fin 64)
  -- power (chapter 12)
  | pwrReqWrite (value : Word)
  | pwrReqProcess
  | demandWake (d : Dom)
  | wakeReady (d : Dom)
  | wakeTimeout (d : Dom)
  | stopDone (d : Dom)
  | idleReturn (d : Dom)
  | requestResume
  | stallCut
  | opRaise (value : BitVec 2)
  | opLower (value : BitVec 2)
  | dvfsSettled
  | dvfsFail
  | dvfsDone
  | brownWarn (rails : Rails)
  | brownRestore (depth : BitVec 2) (duration : BitVec 12)
  | powerFail (held : Bool)
  -- window (chapter 13)
  | winDataAccess (write : Bool) (value : Word)
  | winAddrWrite (value : Word)
  -- authenticated commands and mailbox (chapters 14, 17)
  | cmdArgWrite (value : Word)
  | clear
  | configCommit (flashOk : Bool)
  | configErase (flashOk : Bool)
  | calSession (flashOk : Bool)
  | unitAdmit (flashOk : Bool)
  | unitRetire (flashOk : Bool)
  | logErase (flashOk : Bool)
  | updateArm (flashOk : Bool) (found : ImageFound)
  | updateCommit (flashOk : Bool)
  | addrLock (flashOk : Bool)
  | thermLimits (flashOk : Bool)
  | keyRoll (flashOk : Bool)
  | factoryReset (flashOk : Bool)
  | lockoutEnd
  | mbxInWrite (value : Word)
  | mbxOutRead
  | mbxFlush
  | messageIncomplete
  | logRead
  | healthReport
  | sensorRead (values : Vector Word 16)
  | auxDiscover
  | calRun
  | configStage
  | configRestore
  | updateStage (flashOk : Bool)
  | captureSpill (flashOk : Bool)
  | spillRead
  | sensorMeasure (values : Vector Word 16)
  | logWrite
  | trialConfirm
  | boot (flash : FlashFound) (imageA : ImageFound) (imageB : ImageFound) (flash1 : FlashFound) (copies : CopiesFound)
  -- timing link (chapter 15)
  | nop (addr : BitVec 5) (words : Nat)
  | read (addr : BitVec 5) (index : BitVec 6) (count : BitVec 8) (words : Nat) (bus : List Word)
  | write (addr : BitVec 5) (index : BitVec 6) (count : BitVec 8) (words : List Word)
  | postedWriteCommit
  | discover (len : BitVec 8) (words : List Word)
  | assign (words : List Word)
  | linkAbort (cut : LinkCut) (words : List Word) (bus : List Word)
  | linkRelease
  | statsClr
  | attnPulse
  -- memory port (chapter 16)
  | hostTake
  | grant
  | hostTakeClear
  | modeFault
  | modeFaultResume
  | pageProgram (at_ : ProgramAt) (bytes : List (BitVec 8)) (ends : BufferEnd)
  | erase (kind : EraseKind) (place : FlashPlace) (ends : Bool)
  | flashTimeout
  -- rows without a family of their own
  | registerWrite (index : Fin 64) (value : Word)
  | pathOutput (path : PathKind) (clusters : Vector Int 36) (aux : Vector Raw 18)
  | segmentDone (valid late : Bool) (firstT lastT : Tick) (flags : BitVec 3)
  | thermReadyLoss (gradient : BitVec 6) (tplat : BitVec 16)
  | headerCrcError (header : Word)
  | resetAssert
  | unknownCommand
  | unknownService
deriving DecidableEq, Repr

end Sys2Proof
end

