-- ==== Sys2Proof/WellFormed.lean ====
section
/-!
DEFINITION. Which commands are well formed: operands that some event of the manual can have. Bounds that a type of
Syntax.lean carries (a channel, a unit, a register index) need no check here.
-/

namespace Sys2Proof

/-- The number of bytes of an identification memory fits its field of the image (R211). -/
def memoryFits : TedsFound → Bool
  | .memory m | .checksumError m => decide (m.length < 4096)
  | .noResponse => true

/-- Programmed bytes lie within one page, so that one program sequence writes them, and there is one at least (R540, R545). -/
def pageFits (page : Nat) (addr : BitVec 32) (bytes : List (BitVec 8)) : Bool :=
  !bytes.isEmpty && decide (addr.toNat % page + bytes.length ≤ page)

/-- Bytes of an erase type (R540). -/
def eraseSize : EraseKind → Nat
  | .k4 => 4096
  | .k32 => 32768
  | .k64 => 65536

/-- An erase names an address aligned to its size (R547). -/
def eraseAligned (kind : EraseKind) (addr : BitVec 32) : Bool := decide (addr.toNat % eraseSize kind = 0)

/-- The command is well formed. -/
def Instr.wellFormed : Instr → Bool
  | .tedsDone _ found => memoryFits found
  | .pageProgram _ bytes _ => !bytes.isEmpty
  | .erase kind place _ => eraseAligned kind place.addr
  | _ => true

end Sys2Proof
end

