-- ==== Sys2Proof/Decode.lean ====
section
/-!
DEFINITION. Decoding of words into commands. The block has no instruction encoding: no row of spec/opcode_table.json gives
bits, so no word spells a command. (The frames of the timing link are operands of their rows; TimingLink.lean reads them.)
-/

namespace Sys2Proof

/-- The command a word of nbits bits spells: none, as the table gives no row any bits. -/
def decodeTableWord (_nbits _w : Nat) : Option Instr := none

end Sys2Proof
end

