-- ==== Sys2Proof/Machine/State.lean ====
section
/-!
DEFINITION. The state of the block as plain data: every register, queue, buffer, mode and pin the manual gives the
EZM-7160, and the queue of waiting commands. Fields show the manual's names; the rule beside a field names it and gives
its Reset value. INVENTORY.md lists them one a line.
-/

namespace Sys2Proof.Machine

open Sys2Proof

/-- Reasons a command ends the run: there is none. The manual gives every command an effect, and an event whose conditions do not
hold is no event. -/
inductive Fault where
deriving DecidableEq, Repr

/-- Reasons a command is refused by the model. -/
inductive Refusal where
  /-- No meaning for the row yet; raised by no arm once every row has its meaning. Safe. -/
  | notModelled (mnemonic : String)
deriving DecidableEq, Repr

/-! ### Clock and timebase (02_timebase.md) -/

/-- PLL-M (R50, R51, R617). -/
inductive PllM where
  | off | rising | floor | locked
deriving DecidableEq, Repr

/-- PLL-E (R51, R420). -/
inductive PllE where
  | off | locking | locked
deriving DecidableEq, Repr

/-- Park (R84, R85). -/
inductive ParkPhase where
  | running | entering | parked
deriving DecidableEq, Repr

/-- What the clock-quality code was counted from until a change of it: the tick of the change, the state of R73 before it,
the Headland tick from which the state counts, and the Headland count with its phase at the change. -/
structure Quality where
  until_ : Tick
  state  : BitVec 2
  mark   : Nat
  ht     : Nat
  sub    : Nat
deriving DecidableEq, Repr

/-- Clock, timebase and clock enables (R48 to R94). -/
structure Clk where
  inReset      : Bool := false            -- RESET_N held low (R460)
  lspd         : BitVec 2 := 1#2          -- sampled straps (R48)
  tsc          : Tick := 0#64             -- timestamp counter (R54)
  htSub        : Nat := 0                 -- SM ticks since the last Headland tick
  ht           : Nat := 0                 -- Headland ticks since reset; HT_COUNT shows 32 bits (R452)
  htMark       : Nat := 0                 -- ht at the latest trip, end of Park or reset (R73)
  pllm         : PllM := .rising          -- R50; enabled at step 1 of R613
  plle         : PllE := .off
  relockDue    : Bool := false            -- the next lock of PLL-M is a relock (R78)
  seqHeld      : Bool := false            -- power-on sequencer holds after a trip before the floor (R80)
  frozen       : Bool := false            -- lock sequencer frozen (R80)
  coast        : Bool := false            -- CLK_STAT.COAST
  lclkPresent  : Bool := false            -- CLK_STAT.LCLK_PRESENT
  holdClk      : Bool := false            -- CLK_STAT.HOLD_CLK
  monitorArmed : Bool := true             -- R74, R84
  lostEvt      : Bool := false
  relockEvt    : Bool := false
  pllFailEvt   : Bool := false
  parkRefused  : Bool := false
  relocks      : BitVec 8 := 0#8
  park         : ParkPhase := .running
  align        : Bool := false            -- TSYNC (R71)
  epochValid   : Bool := false
  syncEvt      : Bool := false
  syncReject   : Bool := false
  stepped      : Bool := false
  step         : BitVec 16 := 0#16
  clken        : BitVec 12 := 0#12        -- CLKEN (R88)
  closing      : Vector (Option Tick) 12 := Vector.replicate 12 none -- gates that wait for an access in flight, with the tick from which (R94)
  failHt       : Option Nat := none       -- ht from which the 2 ms of PLL_FAIL count (R52)
  quals        : List Quality := []       -- changes of the clock-quality code's base, latest first (R73, R364)
  htLog        : List Tick := []          -- Headland ticks counted from LCLK while PLL-M is not locked, latest first
  modPhase     : BitVec 5 := 0#5          -- modulator divider phase against the counter (R65, R619)
deriving DecidableEq, Repr

/-! ### Harrow channels (06_harrow_chain.md) -/

/-- One path of one channel (R222, R247). -/
structure Path where
  running   : Bool := false
  sup       : Bool := false               -- suppressed (R247)
  rephasing : Bool := false               -- R68
  t0        : Tick := 0#64                -- restart instant (R247)
  supEnd    : Tick := 0#64                -- tick before which the suppression does not end (R248)
  flagEnd   : Tick := 0#64                -- the end of what carries UNSETTLED: not the part that a wire break adds (R202)
  keep      : Option (Tick × Tick) := none -- outputs up to an instant belong to the run before, restarted at another (R357)
deriving DecidableEq, Repr

/-- The biquad block of a channel and group (R241, R242). -/
structure Biquads where
  stage   : Vector Word 20 := Vector.replicate 20 0#32   -- b0 b1 b2 a1 a2 of biquads 0 to 3, staging
  stageEn : BitVec 4 := 0#4
  act     : Vector Word 20 := Vector.replicate 20 0#32
  actEn   : BitVec 4 := 0#4
  pend    : Bool := false                 -- a commit takes effect at the next output (R243)
  pendC   : Vector Word 20 := Vector.replicate 20 0#32
  pendEn  : BitVec 4 := 0#4
  s1      : Vector Word 4 := Vector.replicate 4 0#32
  s2      : Vector Word 4 := Vector.replicate 4 0#32
deriving DecidableEq, Repr

/-- One channel (R102, R236, R238, R246). -/
structure Chan where
  range     : Bool := false               -- RANGE (R102)
  tsrc      : BitVec 5 := 31#5            -- TSRC
  linUser   : Bool := false
  linClamp  : Bool := false
  outClamp  : Bool := false
  bqFault   : Bool := false
  coefErr   : Bool := false
  tsrcStale : Bool := false
  theta     : Grain := 0#24               -- last valid grain of the temperature source (R238)
  thetaOk   : Bool := false               -- a valid grain came since TSRC changed or the source path started
  userStage : Vector Word 16 := Vector.replicate 16 0#32
  userAct   : Vector Word 16 := Vector.replicate 16 0#32
  userSets  : List (Tick × Vector Word 16) := []  -- later sets with the tick from which each applies, latest first (R236)
  fast      : Path := {}
  slow      : Path := {}
  recog     : Path := {}
  bqFast    : Biquads := {}
  bqSlow    : Biquads := {}
  lastRec   : Grain := 0x800000#24        -- latest recogniser-path grain that has left stage 8 (R230, R322)
  lastT     : Tick := 0#64                -- its acquisition instant
deriving DecidableEq, Repr

/-- An output of a stream group that waits to be placed: its instant, layout, grains, flags and the clock quality at its
instant (R361, R363, R364). -/
structure GroupOut where
  t         : Tick
  mask      : BitVec 24
  relaid    : Bool                        -- the first output of a layout that a MASK write made (R357)
  grains    : Vector Grain 24
  untimed   : Bool
  degraded  : Bool
  unsettled : Bool
  supply    : Bool
  quality   : BitVec 8
  ready     : Tick                        -- tick at which it became ready (R370)
  timed     : Bool := false               -- it is the first one acquired after a step of the counter (R62)
deriving DecidableEq, Repr

/-- Harrow as a whole. -/
structure Harrow where
  chan    : Vector Chan 24 := Vector.replicate 24 {}
  diagSel : BitVec 2 := 0#2               -- DIAG_SEL of CH23 (R246)
  recT    : Tick := 0#64                  -- acquisition instant of the latest recogniser-path output
  fastNext : Tick := 0#64                 -- acquisition instant of the next output of the path (R65, R66, R619)
  slowNext : Tick := 0#64
  recNext  : Tick := 0#64
  gyroLast : List (Vector Grain 3) := []  -- latest five recogniser-path grains of CH3 to CH5, latest first (R322)
  fastOut : List GroupOut := []           -- outputs that wait to be placed, oldest first (R370)
  slowOut : List GroupOut := []
  fastLast : Option GroupOut := none      -- latest data frame of a group that is complete, for stream-rate ticks (R323)
  slowLast : Option GroupOut := none
deriving DecidableEq, Repr

/-! ### Array (01_architecture.md, 03_sensing_array.md, 04_array_health.md) -/

/-- The states of a unit (R15, R136). -/
inductive UnitState where
  | active | spare | audit | fallow | dead
deriving DecidableEq, Repr

/-- The health word of one unit (R136), and the Headland tick of the pass that made PASSES 1 (R152). -/
structure UnitHealth where
  state    : UnitState := .active
  lasting  : Bool := false                -- SEALED
  flaps    : BitVec 2 := 0#2
  fails    : BitVec 2 := 0#2
  passes   : BitVec 5 := 0#5
  cause    : BitVec 3 := 0#3
  ret      : UnitState := .active         -- RETURN, shown while STATE is Audit
  standin  : Bool := false
  sens     : BitVec 13 := 0x1000#13
  seriesHt : Int := 0
deriving DecidableEq, Repr

/-- A gain trim of a cluster from a tick on (R98, R144, R149): for each RANGE the trim it leads to, and the one a ramp starts from. -/
structure Trim where
  since : Tick
  gain  : Vector Rat 2
  was   : Vector Rat 2
deriving DecidableEq, Repr

/-- One cluster: accelerometer 0 to 23, gyro 24 to 35, Scarecrow 36 to 38 (R160). -/
structure Cluster where
  retrim     : Bool := false              -- RETRIM (R149)
  owedTrim   : Bool := false              -- a re-trim abandoned by a front-end stop (R167)
  stuck      : Bool := false              -- STUCK (R157)
  driveExcl  : Bool := false              -- DRIVE_OUT: Excluded by the drive window (R22, R108)
  residExcl  : Bool := false              -- Excluded by the residual check (R159)
  residBad   : Nat := 0                   -- consecutive comparisons out of limit
  residTrim  : Bool := false              -- a re-trim of R159 runs or is over; six comparisons have to pass
  residGood  : Nat := 0
  nodeFault  : Bool := false              -- R148
  winevt     : BitVec 8 := 0#8
  rejoin     : Bool := false              -- switched on again, out of the sum for 2 ms (R453)
  rejoinAt   : Tick := 0#64               -- tick at which it was
  iso        : Option (Bisection × Nat) := none -- isolation: what the bisection finds, SM ticks left (R148)
  trims      : List Trim := []            -- gain trims of the units in the sum, latest first (R98)
deriving DecidableEq, Repr

/-- Phases of an audit (R140). -/
inductive AuditPhase where
  | leak | pilot
deriving DecidableEq, Repr

/-- An audit in progress in a region (R140). -/
structure Audit where
  unit     : Fin 660
  ret      : UnitState
  standin  : Option (Fin 660)
  phase    : AuditPhase
  rotation : Bool                         -- a rotation audit, not a scheduled one (R139, R164)
deriving DecidableEq, Repr

/-- Rotation of one region (R139). -/
structure Rotation where
  active : Bool := false
  next   : Nat := 0                       -- index of the unit from which the rotation goes on
  due    : List (Fin 660) := []           -- scheduled audits that fell due, first first
  resume : Option (Fin 660 × Bool) := none -- a unit whose audit a lapsed condition voided; of the rotation or scheduled (R138)
  audit  : Option Audit := none
  ended  : Option Nat := none             -- Headland tick at which the latest rotation ended (R139)
deriving DecidableEq, Repr

/-- Faults of one die (R28, R30). -/
structure DieFault where
  temp  : Bool := false
  press : Bool := false
  drive : Bool := false
deriving DecidableEq, Repr

/-- Positions 0 to 15 of a cluster Active, 16 and 17 Spare, every Scarecrow unit Active (R506). -/
def defaultUnit (u : Nat) : UnitHealth :=
  if u < 648 ∧ 16 ≤ u % 18 then { state := .spare } else {}

/-- A copy of the health map in flash (R134). -/
structure MapCopy where
  seq   : Nat
  units : Vector UnitHealth 660
  cl    : Vector Cluster 39
deriving DecidableEq, Repr

/-- The supervised array (R13 to R34, R134 to R168, R453). -/
structure Arr where
  units      : Vector UnitHealth 660 := Vector.ofFn fun u => defaultUnit u.val
  cl         : Vector Cluster 39 := Vector.replicate 39 {}
  mapLoaded  : Bool := false              -- R134
  mapA       : Option MapCopy := none     -- the two copies in flash
  mapB       : Option MapCopy := none
  dirtySince : Option Nat := none         -- Headland tick of the oldest uncommitted change (R150)
  rot        : Vector Rotation 6 := Vector.replicate 6 {}
  run        : Bool := true               -- AUDIT_CTRL (R165)
  evtRot     : Bool := true
  gap        : BitVec 8 := 0#8
  rotations  : BitVec 16 := 0#16          -- AUDIT_STAT
  voids      : BitVec 16 := 0#16
  dieA       : DieFault := {}
  dieG       : DieFault := {}
  unitEvt    : Bool := false              -- ARRAY_STAT (R163)
  degrEvt    : Bool := false
  tempEvt    : Bool := false
  cavEvt     : Bool := false
  clusterPwr : BitVec 24 := 0xFFFFFF#24   -- CLUSTER_PWR (R453)
deriving DecidableEq, Repr

/-- An item of the internal non-volatile store: the copy marked newest, which is used, and the older one that the next write
replaces (R560). -/
structure Twin (α : Type) where
  newest : α
  older  : Option α := none
deriving DecidableEq, Repr

/-- The thermal hold (R118 to R127). -/
structure Therm where
  enable     : Bool := false
  setpoint   : BitVec 8 := 0x50#8
  ready      : Bool := false
  saturated  : Bool := false
  readyEvt   : Bool := false
  faultEvt   : Bool := false
  faultLatch : Bool := false
  gradient   : BitVec 6 := 0#6
  fault      : BitVec 2 := 0#2
  tplat      : BitVec 16 := 0#16
  maxCode    : BitVec 8 := 90#8           -- THERM_LIMITS, 85 °C (R120)
  power      : BitVec 9 := 290#9          -- 2.9 W
  limits     : Twin (BitVec 8 × BitVec 9) := { newest := (90#8, 290#9) } -- their two copies (R560)
  integ      : Word := 0#32               -- the regulator's integrator (R118, R418); the manual gives no content
  sub        : Nat := 0                   -- SM ticks since the latest update of THERM_STAT (R127)
  good       : Nat := 0                   -- updates in a row within the limits of READY (R121)
deriving DecidableEq, Repr

/-! ### Auxiliary front end (05_aux_front_end.md) -/

/-- A converter block: staging, pending or active (R180 to R184). -/
structure ConvBlock where
  conv  : Word := 0x200#32
  rst   : Word := 0x10#32
  a     : Vector Word 4
  b     : Vector Word 4 := Vector.replicate 4 0x100040#32
deriving DecidableEq, Repr

/-- The reset block of converter c: PIN_P 4c, PIN_N 4c + 1, REF_P 31, REF_N 31 (R183). -/
def ConvBlock.atReset (c : Nat) : ConvBlock :=
  { a := Vector.replicate 4 (BitVec.ofNat 32 (4 * c + (4 * c + 1) * 32 + 31 * 1024 + 31 * 32768)) }

/-- One converter ACc (R189, R196, R214). -/
structure Conv where
  stage     : ConvBlock
  act       : ConvBlock
  pend      : Option ConvBlock := none
  err       : BitVec 3 := 0#3
  fault     : BitVec 4 := 0#4
  start     : Tick := 0#64                -- a tick at which a scan cycle begins (R185, R188)
  resetting : Bool := false
  resets    : BitVec 8 := 0#8
  holds     : List (Tick × Option Tick) := []  -- charge resets that still flag samples: steps 1 and 3 (R196)
  timerHt   : Nat := 0                    -- Headland tick from which the periodic timer counts (R197)
  supAt     : Vector (Option Tick) 4 := Vector.replicate 4 none -- a suppressed slot: start of its first settled conversion (R190)
  supTo     : Vector Tick 4 := Vector.replicate 4 0#64 -- and the end of its suppression
  blankAt   : Option Tick := none         -- boundary from which a commit or an excitation change blanks the comparators (R200)
  stopAt    : Option Tick := none         -- tick at which the active copy stops for a pending one (R189)
  startAt   : Tick := 0#64                -- tick at which the pending copy starts
  offs      : Vector (BitVec 24) 4 := Vector.replicate 4 0#24
deriving DecidableEq, Repr

/-- One source IEn (R191 to R195). -/
structure Exc where
  word     : Word := 0x3FF00#32           -- LEVEL 0, PIN 31, RETURN 31
  live     : Word := 0x3FF00#32           -- the word whose setting is in effect
  conflict : Bool := false
  ok       : Bool := false                -- the setting in effect was neither cut nor in conflict when it took effect
  pend     : Bool := false                -- a change waits for the next step boundary
  due      : Tick := 0#64                 -- that boundary (R193)
deriving DecidableEq, Repr

/-- The auxiliary front end. -/
structure Aux where
  conv      : Vector Conv 4 := Vector.ofFn fun c => { stage := .atReset c.val, act := .atReset c.val }
  exc       : Vector Exc 4 := Vector.replicate 4 {}
  tedsAuto  : Bool := true                -- AUX_CTRL (R212)
  probeEn   : BitVec 4 := 0xF#4
  attach    : BitVec 4 := 0#4             -- AUX_STAT (R213)
  overload  : BitVec 4 := 0#4
  tedsValid : BitVec 4 := 0#4
  excCut    : BitVec 4 := 0#4
  attachEvt : BitVec 4 := 0#4
  wbEvt     : BitVec 4 := 0#4
  tedsDone  : Bool := false
  calQueue  : BitVec 4 := 0#4             -- converters whose calibration cycle is running or to come (R217)
  calNow    : Option Nat := none          -- the converter whose cycle runs
  calDone   : BitVec 4 := 0#4             -- calibrated in this run
  calTag    : Option Word := none         -- header of the CAL_RUN request to be answered
  tedsDue   : BitVec 4 := 0#4             -- a read is due 100 ms after an attach (R209)
  attachHt  : Vector Nat 4 := Vector.replicate 4 0 -- Headland tick of the latest attach
  tedsBusy  : BitVec 4 := 0#4             -- a read is in progress
  tedsTag   : Option Word := none         -- header of an AUX_DISCOVER request to be answered
  teds      : Mem := []                   -- TEDS images at TS 0x00_F000 (R211)
deriving DecidableEq, Repr

/-! ### Recognisers, captures, Scarecrow (07_recognisers.md) -/

/-- An exact dyadic number num / 2^exp, for the filters of R263 and R269. -/
structure Dyadic where
  num : Int := 0
  exp : Nat := 0
deriving DecidableEq, Repr

/-- A report a recogniser has completed and not yet made (R257, R258). -/
structure Report where
  words   : List (Nat × Word × Word)      -- result word k takes, under a mask, the bits of a word
  ts      : Tick                          -- event timestamp
  ready   : Tick                          -- tick counter then
  evt     : Bool := true                  -- false: result words only, at a counted peak that reports no event (R265)
  strokes : Nat := 0                      -- strokes that Cadence adds to COUNT (R265)
deriving DecidableEq, Repr

/-- A strike (R263). -/
structure Strike where
  ts   : Tick
  len  : Nat
  peak : Grain
  axis : BitVec 2
  neg  : Bool
deriving DecidableEq, Repr

/-- Impact at work (R263). -/
structure ImpactRun where
  started : Bool := false
  x       : Vector Int 3 := Vector.replicate 3 0
  y       : Vector Dyadic 3 := Vector.replicate 3 {}
  strike  : Option Strike := none
  quiet   : Nat := 0                      -- samples left of the quiet period
  first   : Option Strike := none         -- first strike of a possible double, ended
  second  : Bool := false                 -- the strike in progress is the second of a double
  win     : Nat := 0                      -- samples left of the double window
  due     : Option Report := none
  winDue  : Option Report := none         -- the report at the expiry of the double window
deriving DecidableEq, Repr

/-- Cadence at work (R265). -/
structure CadenceRun where
  started : Bool := false
  x       : Vector Int 3 := Vector.replicate 3 0
  y       : Vector Dyadic 3 := Vector.replicate 3 {}
  low     : Bool := false                 -- the value has been below THR/2
  since   : Option Nat := none            -- samples since the last accepted peak
  runLen  : Nat := 0                      -- consecutive in-window intervals
  hist    : List Nat := []                -- last eight in-window intervals, latest first
  due     : Option Report := none
  endDue  : Option Report := none
deriving DecidableEq, Repr

/-- Free-fall at work (R267). -/
structure FallRun where
  below : Nat := 0
  start : Tick := 0#64
  low   : Grain := 0#24
  since : Nat := 0                        -- samples since the first sample of the run
  due   : Option Report := none
deriving DecidableEq, Repr

/-- Transient at work (R269). -/
structure TransRun where
  started : Bool := false
  base    : Dyadic := {}
  hist    : List (Option Int) := []       -- latest first, at most 255
  quiet   : Nat := 0                      -- samples with no enabled condition
  rearm   : Bool := false                 -- HOLDOFF has passed
  due     : Option Report := none
deriving DecidableEq, Repr

/-- A block of the Tilt recogniser: its start, its samples, the valid ones and their sums in eighths of the common unit
(R250, R271). -/
structure TiltBlock where
  start : Tick := 0#64
  count : Nat := 0
  valid : Nat := 0
  sx    : Int := 0
  sy    : Int := 0
  sz    : Int := 0
deriving DecidableEq, Repr

/-- Tilt at work (R271). -/
structure TiltRun where
  block   : Option TiltBlock := none      -- the block in progress
  setRef  : Bool := false                 -- the next valid block becomes the reference
  due     : Option Report := none         -- what the block that has ended reports
deriving DecidableEq, Repr

/-- An EVENT frame that waits to be placed (R259, R333). -/
structure EventFrame where
  source  : BitVec 6
  ts      : Tick
  r8      : Word
  r9      : Word
  untimed : Bool
  ready   : Tick                          -- tick at which it became ready (R370)
deriving DecidableEq, Repr

/-- The recognisers (R250 to R274). -/
structure Rec where
  en       : BitVec 6 := 0#6              -- EVT_CTRL (R251)
  frame    : BitVec 6 := 0#6
  capt     : BitVec 6 := 0#6
  scarFr   : Bool := false
  evt      : BitVec 6 := 0#6              -- EVT_STAT (R252)
  lost     : Bool := false
  inval    : BitVec 6 := 0#6
  cfgErr   : BitVec 6 := 0#6
  params   : Vector (Vector Word 8) 6     -- parameter words (R264 to R274)
  results  : Vector (Vector Word 8) 6     -- result words, offsets 8 to 15
  snap     : Vector (Vector Word 8) 6     -- snapshots (R257)
  impact   : ImpactRun := {}
  cadence  : CadenceRun := {}
  fall     : FallRun := {}
  trans    : TransRun := {}
  tilt     : TiltRun := {}
  live     : BitVec 6 := 0#6              -- recognisers that run (R250)
deriving DecidableEq, Repr

/-- Parameter words of the six recognisers at reset (R264, R266, R268, R270, R272, R274). -/
def recParams0 : Vector (Vector Word 8) 6 :=
  #v[ #v[0x08000000#32, 0x00C81430#32, 0, 0, 0, 0, 0, 0],
      #v[0x0000381F#32, 0, 0x0BB80064#32, 0, 0, 0, 0, 0],
      #v[0, 0, 30#32, 0, 0, 0, 0, 0],
      #v[0x00000926#32, 0x30000000#32, 0, 100#32, 0, 0, 0, 0],
      #v[1#32, 0, 0, 0, 0, 0x3F800000#32, 0, 0],
      #v[0x00000400#32, 0, 0x41200000#32, 0, 0, 0, 0, 0] ]

/-- Result words at reset: all 0. -/
def recResults0 : Vector (Vector Word 8) 6 := Vector.replicate 6 (Vector.replicate 8 0#32)

/-- A directory word of a capture slot (R277). -/
structure Dir where
  used    : Bool := false
  spilled : Bool := false
deriving DecidableEq, Repr

/-- A trigger taken by a recording (R278, R280). -/
structure Trigger where
  came   : Tick                           -- tick at which it arrived (R279)
  at_    : Tick                           -- the trigger's instant
  source : BitVec 8
  r8     : Word
  r9     : Word
  sample : Option Tick := none            -- acquisition instant of the trigger sample, once recorded
  kept   : Nat := 0
  post   : Nat := 0
  extra  : Nat := 0                       -- samples recorded before the trigger came that lie behind the last one kept
deriving DecidableEq, Repr

/-- The recording in progress (R278). -/
structure Recording where
  mask      : BitVec 24                   -- configuration at the start of the recording
  src       : Bool
  pre       : Nat
  post      : Nat
  next      : Nat := 0                    -- index of the next sample in the data area
  held      : Nat := 0                    -- samples held, at most what the data area takes
  lastT     : Tick := 0#64                -- acquisition instant of the latest sample
  trig      : Option Trigger := none
  rate      : BitVec 4 := 0#4             -- rate code of the fast group at the start of the recording
  flags     : List (BitVec 3) := []       -- UNTIMED, DEGRADED, UNSETTLED of each sample held, latest first
deriving DecidableEq, Repr

/-- The capture store (R275 to R281). -/
structure Cap where
  arm        : Bool := false
  owner      : Bool := false
  slots      : BitVec 3 := 0#3
  spillAuto  : Bool := false
  err        : Bool := false
  capturing  : Bool := false
  full       : Bool := false
  cur        : BitVec 4 := 0#4
  mask       : BitVec 24 := 0#24
  src        : Bool := false
  pre        : BitVec 24 := 0#24
  post       : BitVec 24 := 1#24
  triggers   : BitVec 16 := 0#16
  missed     : BitVec 16 := 0#16
  dir        : Vector Dir 16 := Vector.replicate 16 {}
  seq        : Word := 0#32
  recording  : Option Recording := none
  store      : Mem := []                  -- TS 0x10_0000 to 0x17_FFFF
  recogAt    : Option Tick := none        -- tick at which the latest trigger of the recognisers arrived (R258)
  capDone    : Bool := false              -- EVT_STAT.CAP_DONE
  capMiss    : Bool := false
deriving DecidableEq, Repr

/-- Scarecrow (R282 to R287). -/
structure Scar where
  hi        : BitVec 8 := 96#8
  lo        : BitVec 8 := 19#8
  filt      : BitVec 2 := 1#2
  attn      : Bool := true
  autowake  : Bool := true
  classify  : Bool := true
  cwin      : BitVec 3 := 0#3
  trip      : Bool := false               -- EVT_STAT.SCAR_TRIP
  cls       : Bool := false               -- EVT_STAT.SCAR_CLASS
  high      : Bool := false
  axes      : BitVec 3 := 0#3
  armed     : Bool := false
  pend      : Bool := false               -- CLASS_PEND
  tripHt    : Word := 0#32
  cclass    : BitVec 3 := 0#3
  axis      : BitVec 2 := 0#2
  neg       : Bool := false
  peak      : Grain := 0#24
  ts        : Tick := 0#64
  mean      : Grain := 0#24
  winCount  : Nat := 0                    -- valid samples of the classification window so far (R286)
  winSum    : Nat := 0                    -- sum of their magnitudes
  winPeak   : Grain := 0#24
  winAxis   : BitVec 2 := 0#2             -- dominant axis at the peak and its sign
  winNeg    : Bool := false
  winLast   : Tick := 0#64                -- acquisition instant of the latest one
  pendHt    : Nat := 0                    -- Headland tick at which CLASS_PEND was set (R286)
  wakeOwed  : Bool := false               -- demand wakes to be issued at the end of Park (R285)
  wakeHold  : Bool := false               -- AF and EN held On until the classification (R285)
deriving DecidableEq, Repr

/-! ### Spectral engine (08_spectral_engine.md) -/

/-- Modes of the engine (R291). -/
inductive SpecMode where
  | idle | stream | capture
deriving DecidableEq, Repr

/-- A result bank: its number among the results completed (0: none), its header and the words of its sections (R304, R305). -/
structure Bank where
  id   : Nat := 0
  hdr  : Vector Word 64 := Vector.replicate 64 0#32
  body : List Word := []
deriving DecidableEq, Repr

/-- The configuration words of the engine (R313). -/
structure SpecCfg where
  cfg    : Word := 0x00014048#32
  avg    : BitVec 16 := 16#16
  span   : Word := 0x02010000#32
  pairs  : BitVec 28 := 0#28
  inputs : Vector Word 8 := Vector.replicate 8 0x400#32
deriving DecidableEq, Repr

/-- What the engine takes from one output of the fast paths: its acquisition instant, the value of each input, none where it is
invalid, and the flags the samples would carry in a frame (R292, R294). -/
structure SpecFrame where
  t     : Tick
  x     : Vector (Option Rat) 8
  flags : BitVec 3
deriving DecidableEq, Repr

/-- The envelope of one input at work (R298): samples since the start, the latest four inputs and outputs of the high-pass, the
latest 255 high-passed values and which of the latest 128 samples were valid, latest first. -/
structure EnvRun where
  count : Nat := 0
  xs    : List Rat := []
  ys    : List Rat := []
  us    : List Rat := []
  ok    : List Bool := []
deriving DecidableEq, Repr

/-- A segment (R293): the instants of its first and last sample, the values of every input, oldest first, and the flags. -/
structure Segment where
  firstT : Tick
  lastT  : Tick
  frames : List (Vector (Option Rat) 8)
  flags  : BitVec 3
deriving DecidableEq, Repr

/-- The spectral engine (R290 to R314). -/
structure Spec where
  mode     : SpecMode := .idle
  hold     : Bool := false
  page     : Bool := false
  capSlot  : BitVec 4 := 0#4
  doneEvt  : Bool := false
  abortEvt : Bool := false
  err      : BitVec 3 := 0#3
  waiting  : Bool := false
  stage    : SpecCfg := {}
  act      : SpecCfg := {}                -- copied at the start (R310)
  learning : Bool := false
  counts   : Vector Word 6 := Vector.replicate 6 0#32
  cycles   : Word := 0#32
  bands    : Vector Word 64 := Vector.replicate 64 0#32
  segs     : Nat := 0                     -- valid segments since the last publication (linear) or the start
  sincePub : Nat := 0                     -- valid segments since the last publication (exponential)
  firstT   : Tick := 0#64
  lastT    : Tick := 0#64
  flags    : BitVec 3 := 0#3              -- UNTIMED, DEGRADED, UNSETTLED of the contributing samples
  rate     : BitVec 4 := 0#4
  win      : List SpecFrame := []         -- samples from the start of the segment being collected on, latest first
  env      : Vector EnvRun 8 := Vector.replicate 8 {}
  lateSeg  : Bool := false                -- the segment whose last sample has come is late (R294)
  seg      : Option Segment := none       -- the segment in hand
  acc      : List Rat := []               -- averages: auto-spectra by input and bin, then Re and Im by pair and bin (R296, R297)
  anSlot   : BitVec 4 := 0#4              -- the slot analysed (R307)
  capWait  : Bool := false                -- CAP_GO waits for CS On (R308)
  capTotal : Nat := 0                     -- Q segments of the capture (R307)
  capSeen  : Nat := 0
  seq      : BitVec 16 := 0#16            -- SEQ of the newest publication
  serial   : Nat := 0                     -- results completed
  shown    : Bank := {}
  newest   : Bank := {}
deriving DecidableEq, Repr

/-! ### State machines (09_state_machines.md) -/

/-- One machine (R348). -/
structure Smc where
  cfg      : BitVec 12 := 0#12
  state    : BitVec 6 := 0#6
  running  : Bool := false
  halted   : Bool := false
  inval    : Bool := false
  cfgErr   : Bool := false
  refused  : Bool := false
  actDrop  : Bool := false
  wrapped  : Bool := false
  errCode  : BitVec 3 := 0#3
  errState : BitVec 6 := 0#6
  age      : BitVec 24 := 0#24
  runA     : BitVec 9 := 0#9
  runB     : BitVec 9 := 0#9
  timer0   : BitVec 24 := 0#24
  timer1   : BitVec 24 := 0#24
  t0run    : Bool := false
  t1run    : Bool := false
  c0       : BitVec 16 := 0#16
  c1       : BitVec 16 := 0#16
  entState : BitVec 6 := 0#6
  entFrom  : BitVec 6 := 0#6
  entCause : BitVec 2 := 0#2
  detC0    : BitVec 16 := 0#16
  detFlags : BitVec 4 := 0#4
  ts       : Tick := 0#64
  snap     : Vector Word 4 := Vector.replicate 4 0#32
  startReq : Bool := false                -- starts at its next tick (R345)
  pulse    : BitVec 6 := 0#6              -- recogniser reports since its previous tick (R318)
deriving DecidableEq, Repr

/-- The eight machines (R315 to R350). -/
structure Smcs where
  m     : Vector Smc 8 := Vector.replicate 8 {}
  prog  : Mem := []                       -- TS 0x00_5000 (R315)
  evt   : BitVec 8 := 0#8                 -- SM_EVT (R350)
  limit : BitVec 8 := 0#8
  lost  : BitVec 8 := 0#8
  flags : BitVec 4 := 0#4                 -- SM_FLAGS
  -- by rate, the tick to be evaluated: its instant, and the tick at which it fell due (R321)
  ticks : Vector (Option (Tick × Tick)) 3 := Vector.replicate 3 none
deriving DecidableEq, Repr

/-! ### Sample buffer (10_sample_buffer.md) -/

/-- A stream group of the writer (R351, R356, R357, R365). -/
structure Grp where
  mask     : BitVec 24 := 0#24            -- STREAM_x.MASK
  rate     : BitVec 4 := 0#4              -- STREAM_x.RATE
  olds     : List (Tick × BitVec 24) := [] -- pending MASK changes, oldest first: commit tick and layout until then (R357)
  layout   : Bool := false                -- a GAP LAYOUT frame is owed
  timeOwed : Bool := false                -- a TIME frame is owed
  timeFrom : List Tick := []              -- acquisition instants from each of which on a TIME frame is owed (R75, R78)
  startAt  : Tick := 0#64                 -- tick of the start of the group (R356)
  timeNext : Bool := false                -- the next output acquired owes a TIME frame (R62)
  since    : Nat := 0                     -- data frames since the latest TIME frame, the timed one included
deriving DecidableEq, Repr

/-- A word of the sample buffer: 32 data bits and the 2-bit tag (R373). -/
structure BufWord where
  data : Word
  tag  : BitVec 2
deriving DecidableEq, Repr

/-- Stream writer and sample buffer (R351 to R392). The words between RP and WP stand oldest first in `words`. -/
structure Buf where
  fast      : Grp := {}
  slow      : Grp := {}
  run       : Bool := false               -- STREAM_CTRL (R352)
  alignEp   : Bool := false
  timeEvery : BitVec 4 := 0#4
  minPhase  : Bool := false
  writing   : Bool := false               -- the writer runs (R354)
  armedGate : Bool := false               -- the writer's conditions hold but the gate of R355 is closed
  seq       : BitVec 16 := 0#16           -- sequence counter (R360)
  full      : BitVec 24 := 0#24           -- pending FULL count (R379)
  bufOff    : BitVec 24 := 0#24           -- pending BUF_OFF count (R385)
  flushGap  : List Bool := []             -- pending FLUSH gaps, each with its cut (R384)
  fillOwed  : Option (BitVec 4) := none   -- FILL frame to be placed, with its CAUSE (R369)
  events    : List EventFrame := []       -- EVENT frames ready to be placed
  words     : List BufWord := []          -- published words not yet read
  wp        : BitVec 22 := 0#22
  rp        : BitVec 22 := 0#22
  last      : BufWord := ⟨0#32, 0#2⟩      -- last word taken (R372, R376)
  thresh    : BitVec 22 := 0#22           -- BUF_THRESH
  enable    : Bool := false               -- BUF_CTRL
  keep      : Bool := false
  threshHit : Bool := false               -- BUF_STAT
  overflow  : Bool := false
  underrun  : Bool := false
  flushCut  : Bool := false
  flushDone : Bool := false
  dropped   : BitVec 16 := 0#16
  sbLost    : Bool := false               -- SB lost its contents while EN was not On (R386)
  part      : Option (List BufWord × Tick) := none -- the item being written while its gate waits, with the tick (R387)
deriving DecidableEq, Repr

/-! ### Interrupt controller (11_interrupts.md) -/

/-- Configuration of a source (R399) and its in-service mark: target and recorded priority (R405). -/
structure IntSrc where
  en     : Bool := false
  prio   : BitVec 3 := 0#3
  target : BitVec 2 := 3#2
  serv   : Option (BitVec 2 × BitVec 3) := none
deriving DecidableEq, Repr

/-- The source that a line was asserted for and that has been masked or withdrawn (R404, R407): its number, the priority it had,
whether its mask took it away, and the tick. -/
structure Gone where
  src    : BitVec 6
  prio   : BitVec 3
  masked : Bool
  at_    : Tick
deriving DecidableEq, Repr

/-- The interrupt controller (R393 to R417). Index s of `src` is source s; index 0 is not used. -/
structure Intc where
  src      : Vector IntSrc 48 := Vector.replicate 48 {}
  sel      : BitVec 6 := 0#6
  th0      : BitVec 3 := 0#3
  th1      : BitVec 3 := 0#3
  th2      : BitVec 3 := 0#3
  line0    : Bool := false                -- HIRQ_N asserted by the latest arbitration (R403)
  line1    : Bool := false
  gone0    : Option Gone := none          -- what was latest taken away from T0's line (R407)
  gone1    : Option Gone := none
  badcomp  : BitVec 16 := 0#16
  spurious : BitVec 16 := 0#16
deriving DecidableEq, Repr

/-! ### Power (12_power_domains.md) -/

/-- States of a domain (R424). -/
inductive DomState where
  | off | retain | on | waking | stopping | failed | onRefused | onHeld
deriving DecidableEq, Repr

/-- Where a stop or a wake ends (R421, R423). -/
inductive Rest where
  | off | retain | on
deriving DecidableEq, Repr

/-- One switchable domain (R418 to R438). -/
structure Domain where
  st        : DomState := .off
  target    : Rest := .off                -- where the transition in progress ends
  fromRet   : Bool := false               -- the wake in progress started from Retain
  demand    : Bool := false               -- DEMAND
  demandDue : Bool := false               -- a demand is recorded for the next Headland tick (R427)
  toRet     : BitVec 16
  toOff     : BitVec 16
  idle      : BitVec 16 := 1024#16
  stall     : BitVec 7 := 100#7
  reason    : BitVec 4 := 0#4
  stallCut  : Bool := false
  wakeHt    : Nat := 0                    -- Headland tick from which the wake's timeout runs (R435)
  wakePll   : Bool := false               -- the wake has to start PLL-E (R435)
  idleLeft  : Nat := 0                    -- idle timer (R429)
  touched   : Bool := true                -- an access since the latest Headland tick (R429)
deriving DecidableEq, Repr

/-- Phases of an operating-point change (R442 to R448); `restoring` is the wait of a restore, with EN on the hold clock. -/
inductive DvfsPhase where
  | idle | settling | restoring | relocking | lowering | dip
deriving DecidableEq, Repr

/-- The power controller. -/
structure Pwr where
  req       : BitVec 18 := 0x08000#18     -- PWR_REQ (R421)
  reqDue    : Bool := true                -- a write waits for the next Headland tick (R431)
  resumeAt  : Option Nat := none          -- first refusing domain of the request, as a place in the order of R431 (R433)
  dom       : Vector Domain 9
  refusedOnce : Bool := false             -- the latest request has set REFUSED_EVT (R433)
  wakefail  : Bool := false               -- PWR_STAT
  refused   : Bool := false
  brownEvt  : Bool := false
  opReq     : BitVec 2 := 0#2             -- DVFS (R446)
  opCur     : BitVec 2 := 0#2
  busy      : Bool := false
  fail      : Bool := false
  doneEvt   : Bool := false
  vid       : BitVec 3 := 1#3             -- code driven on VID0 to VID2
  vidPt     : BitVec 2 := 0#2             -- the operating point that VID stands for
  phase     : DvfsPhase := .idle
  phaseAt   : Tick := 0#64                -- tick at which VID took the code of a raise or restore (R442)
  goal      : BitVec 2 := 0#2             -- the point the change in progress leads to
  settle    : BitVec 16 := 200#16         -- DVFS_CFG
  margin    : Bool := true
  rail      : BitVec 2 := 0#2             -- BROWN
  depth     : BitVec 2 := 0#2
  duration  : BitVec 12 := 0#12
  dips      : BitVec 16 := 0#16
  dipRails  : BitVec 2 := 0#2             -- rails of the dip in progress
  railsLow  : BitVec 2 := 0#2             -- rails below their warning levels, as BROWN.RAIL names them (R447, R448)
  lowTicks  : BitVec 12 := 0#12           -- HT ticks below warning in the dip in progress (R452)
  backHt    : Nat := 0                    -- Headland tick from which the 1 ms timer runs (R448)
  vanaDips  : List (Tick × Option Tick) := [] -- when VANA went below its warning level and came back, latest first (R361)
  wakeSrc   : BitVec 8 := 1#8             -- WAKE_REC (R451)
  wakeDet   : BitVec 8 := 0#8
  wakeHt    : BitVec 16 := 0#16
  booted    : Bool := false               -- STATUS.BOOTED (R483)
  onceOn    : Bool := false               -- MC has reported On since the reset (R483)
deriving DecidableEq, Repr

/-- Default timeouts of R418, (TO_RET, TO_OFF). -/
def domains0 : Vector Domain 9 :=
  #v[ { toRet := 40#16, toOff := 459#16 }, { toRet := 53#16, toOff := 23593#16 }, { toRet := 27#16, toOff := 197#16 },
      { toRet := 3#16, toOff := 11#16 }, { toRet := 3#16, toOff := 11#16 }, { toRet := 2#16, toOff := 8#16 },
      { toRet := 2#16, toOff := 8#16 }, { toRet := 6#16, toOff := 7865#16 }, { toRet := 7#16, toOff := 7#16 } ]

/-! ### Host bus and window (13_host_bus.md, 14_register_map.md) -/

/-- A stalled host-bus access (R428, R462). -/
structure Stall where
  dom   : Dom
  write : Bool
  index : Fin 64
  value : Word
  since : Tick                            -- tick at which the access began (R428)
deriving DecidableEq, Repr

/-- The host's registers that no other block holds, the window, and what the pads show the host. -/
structure HostIf where
  winAddr  : BitVec 24 := 0#24            -- WIN_ADDR (R469)
  unmapped : Bool := false                -- WIN_STAT
  atEnd    : Bool := false
  latched  : Bool := false
  winLatch : Word := 0#32                 -- window latch (R466)
  latchAt  : Nat := 0                     -- its address
  tsLatch  : Option Word := none          -- high word of TS
  uidLatch : Option Word := none
  pendLatch: Option Word := none
  stall    : Option Stall := none
  rdata    : Word := 0#32                 -- value of the latest read on HD
  done     : Bool := false                -- the latest access was executed
  valid    : Bool := false                -- and the host has taken its value, the strobe being low until HWAIT_N was high (R459)
  ctrl     : BitVec 3 := 0#3              -- CTRL (R486)
  scratch  : Word := 0#32                 -- SCRATCH (R503)
  sticky   : BitVec 16 := 1#16            -- STICKY (R484, R485)
  gDir     : BitVec 8 := 0#8              -- GPIO_CTRL (R501)
  gOd      : BitVec 8 := 0#8
  gClaim   : BitVec 8 := 0#8
  gOut     : BitVec 8 := 0#8              -- GPIO_DATA
  gIn      : BitVec 8 := 0#8              -- levels sampled at the last Headland tick (R502)
  gMach    : BitVec 8 := 0#8              -- OUT bits that machines have written since that tick (R335)
deriving DecidableEq, Repr

/-! ### Timing link (15_timing_link.md) -/

/-- A posted write (R520, R521). -/
structure Posted where
  index : BitVec 6
  words : List Word
  doms  : List Dom
  woke  : Bool                            -- a domain was demand-woken for it (R522)
deriving DecidableEq, Repr

/-- The frame in progress whose response waits for domains to wake: a READ, or the status phase of a WRITE (R518, R520). -/
structure Wait where
  write : Bool
  index : BitVec 6
  count : Nat                             -- words of the block
  left  : Nat                             -- words the host clocks after the busy words
  bus   : List Word                       -- what stands on LDO in them
  doms  : List Dom                        -- the domains waited for
  woke  : Bool                            -- a domain was demand-woken for it (R522)
deriving DecidableEq, Repr

/-- The timing link (R509 to R533). -/
structure Link where
  addr     : BitVec 5 := 31#5             -- LINK_CFG (R497)
  assigned : Bool := false
  locked   : Bool := false
  errEvt   : Bool := false                -- LINK_STAT (R498)
  discEvt  : Bool := false
  lastErr  : BitVec 4 := 0#4
  aborts   : BitVec 16 := 0#16
  posted   : Option Posted := none
  wait     : Option Wait := none          -- the frame in progress that sends busy words (R517, R520)
  ldo      : List Word := []              -- words driven in the latest frame, each bit as driven or released
  attnAt   : Option Nat := none           -- Headland tick at which the latest pulse of ATTN_N started (R533)
  train    : Bool := false                -- a train of pulses has started (R533)
deriving DecidableEq, Repr

/-! ### Memory port (16_memory_port.md) -/

/-- A program or erase sequence on flash 0, or on flash 1 (R545, R547, R550). -/
inductive PortSeq where
  | program (flash1 : Bool) (addr : Nat) (bytes : List (BitVec 8))
  | erase (flash1 : Bool) (addr size : Nat)
deriving DecidableEq, Repr

/-- A transaction of its own: a read of an aligned 32-byte line, or one of the boot ROM (R539, R544). -/
inductive PortRead where
  | line (addr : Nat) | status | sfdp
deriving DecidableEq, Repr

/-- The memory port and the flash behind it (R499, R500, R534 to R558). -/
structure Mport where
  take     : Bool := false                -- HOST_TAKE
  css      : BitVec 4 := 2#4
  csh      : BitVec 4 := 2#4
  csi      : BitVec 4 := 4#4
  div      : BitVec 2 := 1#2
  granted  : Bool := false
  mfault   : Bool := false
  doneEvt  : Bool := false
  sfdp     : Bool := false
  addr4    : Bool := false
  size     : BitVec 5 := 0#5
  table    : Option FlashTable := none    -- parameters found by the latest discovery (R540)
  single   : Option PortRead := none      -- transaction of its own in progress (R537)
  seq      : Option PortSeq := none       -- sequence in progress
  polling  : Bool := false                -- which still polls the flash before its write enable (R548, R555)
  buffer   : Option (Nat × List (BitVec 8)) := none -- page buffer: first address and bytes (R545)
  bufAt    : Tick := 0#64                 -- tick of the latest write into it
  mssLow   : Bool := false                -- level of MSS_N (R534)
  mssAt    : Tick := 0#64                 -- tick from which it has been high
  waiting  : Bool := false                -- after a mode fault, until MSS_N has been high for 1 ms (R553)
  opDone   : Bool := false                -- the opcode transaction that a mode fault cut, or one before it, had completed
  coreNeed : Option Nat := none           -- address of a core read that waits for the bus (R545, R557)
  repoll   : Bool := false                -- the next command first polls the status register (R548)
  seqAt    : Tick := 0#64                 -- tick at which the sequence in progress started (R548)
  sent     : List (List Bool) := []       -- what the module drove on MDO in each transaction of the latest work (R536, R543)
  flash1   : Bool := false                -- flash 1 in use (R549, R550)
  f1Pin    : Option (BitVec 3) := none    -- its select pin under software select (R549, R551)
  flash    : List Host.Cell := []         -- flash 0: bytes programmed, an unlisted byte reads 0xFF
  flashB   : List Host.Cell := []         -- flash 1
deriving DecidableEq, Repr

/-! ### Management (17_management_security.md) -/

/-- A log record (R571). -/
structure LogRec where
  seq   : Word
  tick  : Tick
  cls   : BitVec 8
  code  : BitVec 8
  untim : Bool
  d0    : Word
  d1    : Word
  d2    : Word
deriving DecidableEq, Repr

/-- A configuration store (R564). -/
structure CfgStore where
  seq  : Word
  auto : Bool
  list : List (Nat × Word)
  ok   : Bool := true                     -- its CRC checked when it was last read (R570)
deriving DecidableEq, Repr

/-- An image slot (R575 to R580). -/
structure Slot where
  found   : Bool := true                  -- the flash is not known to hold the contents: the next read of the slot finds them
  version : Word := 0#32
  secVer  : BitVec 8 := 0#8
  passes  : Bool := false                 -- passed the checks of R576 at the latest check
  commit  : Bool := false                 -- COMMIT programmed
  attempt : Nat := 0                      -- bits of ATTEMPT at 0
  confirm : Bool := true
  reject  : Bool := false
deriving DecidableEq, Repr

/-- Update states (R578). -/
inductive UpdState where
  | idle | staging | armed | trial | fallback
deriving DecidableEq, Repr

/-- A spilled capture (R563). -/
structure Spill where
  index : BitVec 16
  words : List Word
deriving DecidableEq, Repr

/-- A mailbox request being processed (R562): its header and payload. -/
structure Request where
  hdr     : Word
  payload : List Word
deriving DecidableEq, Repr

/-- Management core, mailbox, authenticated commands, log and updates. -/
structure Mgmt where
  code      : BitVec 8 := 0#8             -- CMD_CODE (R489)
  args      : List Word := []             -- CMD_ARG queue (R490)
  ctr       : Word := 0#32
  tagLo     : Word := 0#32
  tagHi     : Word := 0#32
  zor       : Bool := false               -- Zoruimen has been started since MC last was Off or FAILED (R577, R613)
  zorHt     : Nat := 0                    -- Headland tick at which it was (R580)
  busy      : Bool := false               -- CMD_STAT (R493)
  doneEvt   : Bool := false
  rejEvt    : Bool := false
  argOvf    : Bool := false
  result    : BitVec 8 := 0#8
  fails     : BitVec 8 := 0#8
  inQ       : List Word := []             -- mailbox (R495)
  inAt      : List Tick := []             -- tick at which each word of inQ arrived (R562)
  outQ      : List Word := []
  replyEvt  : Bool := false               -- MBX_STAT (R496)
  alertEvt  : Bool := false
  lognfEvt  : Bool := false
  updEvt    : Bool := false
  inOvf     : Bool := false
  outUnder  : Bool := false
  req       : Option Request := none      -- IN_BUSY
  reply     : Option (List Word) := none  -- a whole reply that waits until it fits (R562)
  authCtr   : Word := 0#32                -- stored counter (R583)
  key       : Option (List (BitVec 8)) := none -- key rolled in; none: the key of delivery (R560, R586)
  keyGen    : Nat := 0
  keyStore  : Twin (Option (List (BitVec 8)) × Nat) := { newest := (none, 0) } -- their two copies (R560)
  consec    : BitVec 5 := 0#5
  lockStep  : BitVec 3 := 0#3
  lockout   : Bool := false
  lockAt    : Nat := 0                    -- Headland tick at which the lockout started
  lockLate  : Bool := false               -- a lockout has ended since CONSEC last was 0
  lockStore : Twin (BitVec 3 × Bool × Bool) := { newest := (0#3, false, false) } -- the two copies of the three (R560)
  staged    : Option (List (Nat × Word)) := none  -- CONFIG_STAGE (R564)
  restore   : List (Nat × Word) := []     -- what a restore of R565 has still to write
  cfgA      : Option CfgStore := none
  cfgB      : Option CfgStore := none
  calStage  : Mem := []                   -- calibration region as read (R505)
  calAct    : Mem := []                   -- calibration words in force
  calStore  : Twin Mem := { newest := [] } -- the two copies of the region (R560)
  calOpen   : Bool := false               -- SESSION
  calDenied : Bool := false               -- WR_DENIED
  calOk     : BitVec 7 := 0#7             -- CAL_STAT[6:0]
  calChecked : Bool := false              -- the first check has been made (R508)
  sens      : Vector Word 16 := Vector.replicate 16 0#32
  sensAt    : Option Tick := none         -- tick of the latest measurement since Zoruimen was started (R566)
  logQ      : List LogRec := []           -- queue of 16 (R572)
  logOvf    : Nat := 0                    -- records dropped since the latest CLASS 0x0A, CODE 0x01 record
  logDrop   : BitVec 16 := 0#16
  logOver   : BitVec 16 := 0#16
  logNext   : Word := 0#32                -- LOG_NEXT: sequence number of the next record written
  logRing   : List LogRec := []           -- records held in flash, oldest first
  logAck    : Word := 0#32
  logSel    : Word := 0#32
  slotA     : Slot := {}
  slotB     : Slot := { confirm := false }
  runSlot   : Bool := false               -- SLOT: 0 A, 1 B
  entry     : Word := 0#32                -- entry offset of the image that was started (R575)
  aOk       : Bool := false
  bOk       : Bool := false
  fallback  : Bool := false
  upd       : UpdState := .idle
  updPos    : Nat := 0                    -- next byte of an UPDATE_STAGE series
  minVer    : Option (BitVec 8) := none   -- raised value; none: the OTP value of delivery
  keyHash   : Option (List (BitVec 8)) := none -- hash of the verification key in OTP; none: that of delivery (R576)
  alert     : BitVec 8 := 0#8
  spills    : List Spill := []
  spillNext : BitVec 16 := 0#16
  pfail     : Bool := false               -- hold-up actions run: no flash operation starts (R587)
  flushMark : Bool := false               -- a rescue flush was started
  flushOk   : Bool := false               -- and completed
  rescue    : Twin (List LogRec) := { newest := [] } -- log rescue area (R560, R587)
  autoWait  : Option Nat := none          -- a slot whose spill under SPILL_AUTO waits for CS (R275, R428)
deriving DecidableEq, Repr

/-- The state of the block, with the commands that wait. -/
structure State where
  pending : List Instr
  clk     : Clk
  harrow  : Harrow
  arr     : Arr
  therm   : Therm
  aux     : Aux
  recog   : Rec
  cap     : Cap
  scar    : Scar
  spec    : Spec
  smc     : Smcs
  buf     : Buf
  int     : Intc
  pwr     : Pwr
  host    : HostIf
  link    : Link
  mport   : Mport
  mgmt    : Mgmt
  fresh   : Nat                           -- model's own: counts the free values taken so far
deriving DecidableEq, Repr

/-- CH0 to CH5 take CH22 as temperature source at reset, the others none (R246). -/
def harrow0 : Harrow :=
  { chan := Vector.ofFn fun ch => if ch.val < 6 then { tsrc := 22#5 } else {} }

/-- The module right after reset: every register at its Reset value, the sequencer of R613 before its reference moment
(LCLK not yet present), PLL-M enabled, the wake of MC requested by the reset value of PWR_REQ. -/
def State.reset : State where
  pending := []
  clk     := {}
  harrow  := harrow0
  arr     := {}
  therm   := {}
  aux     := {}
  recog   := { params := recParams0, results := recResults0, snap := recResults0 }
  cap     := {}
  scar    := {}
  spec    := {}
  smc     := {}
  buf     := {}
  int     := {}
  pwr     := { dom := domains0 }
  host    := {}
  link    := {}
  mport   := {}
  mgmt    := {}
  fresh   := 0

/-! One update function per part of the state; Sys2Proof/Laws/State.lean says what each leaves alone. -/

/-- Update of the part `clk`. -/
def State.modClk (g : Clk → Clk) (s : State) : State := { s with clk := g s.clk }

/-- Update of the part `harrow`. -/
def State.modHarrow (g : Harrow → Harrow) (s : State) : State := { s with harrow := g s.harrow }

/-- Update of the part `arr`. -/
def State.modArr (g : Arr → Arr) (s : State) : State := { s with arr := g s.arr }

/-- Update of the part `therm`. -/
def State.modTherm (g : Therm → Therm) (s : State) : State := { s with therm := g s.therm }

/-- Update of the part `aux`. -/
def State.modAux (g : Aux → Aux) (s : State) : State := { s with aux := g s.aux }

/-- Update of the part `recog`. -/
def State.modRecog (g : Rec → Rec) (s : State) : State := { s with recog := g s.recog }

/-- Update of the part `cap`. -/
def State.modCap (g : Cap → Cap) (s : State) : State := { s with cap := g s.cap }

/-- Update of the part `scar`. -/
def State.modScar (g : Scar → Scar) (s : State) : State := { s with scar := g s.scar }

/-- Update of the part `spec`. -/
def State.modSpec (g : Spec → Spec) (s : State) : State := { s with spec := g s.spec }

/-- Update of the part `smc`. -/
def State.modSmc (g : Smcs → Smcs) (s : State) : State := { s with smc := g s.smc }

/-- Update of the part `buf`. -/
def State.modBuf (g : Buf → Buf) (s : State) : State := { s with buf := g s.buf }

/-- Update of the part `int`. -/
def State.modInt (g : Intc → Intc) (s : State) : State := { s with int := g s.int }

/-- Update of the part `pwr`. -/
def State.modPwr (g : Pwr → Pwr) (s : State) : State := { s with pwr := g s.pwr }

/-- Update of the part `host`. -/
def State.modHost (g : HostIf → HostIf) (s : State) : State := { s with host := g s.host }

/-- Update of the part `link`. -/
def State.modLink (g : Link → Link) (s : State) : State := { s with link := g s.link }

/-- Update of the part `mport`. -/
def State.modMport (g : Mport → Mport) (s : State) : State := { s with mport := g s.mport }

/-- Update of the part `mgmt`. -/
def State.modMgmt (g : Mgmt → Mgmt) (s : State) : State := { s with mgmt := g s.mgmt }

end Sys2Proof.Machine
end

