-- ==== Sys2Proof/Machine/Bits.lean ====
section
/-!
DEFINITION. Bit fields of registers, write-1-to-clear bits, saturating counters and sparse stores: the helpers every block
uses (R3, R4, R5, R475).
-/

namespace Sys2Proof.Machine

open Sys2Proof

/-- A flag at bit position k of a register word. -/
def flg (b : Bool) (k : Nat) : Word := if b then 1#32 <<< k else 0#32

/-- A field placed with its lowest bit at position k of a register word. -/
def fld {n : Nat} (x : BitVec n) (k : Nat) : Word := x.setWidth 32 <<< k

/-- The n bits of a register word from bit lo upwards. -/
def bits (w : Word) (lo n : Nat) : BitVec n := (w >>> lo).setWidth n

/-- Bit k of a register word. -/
def bitAt (w : Word) (k : Nat) : Bool := w.getLsbD k

/-- A W1C flag after a write of w with the flag at bit k (R4). -/
def w1c (old : Bool) (w : Word) (k : Nat) : Bool := old && !bitAt w k

/-- A W1C field of n bits after a write of w with the field at bit lo (R4). -/
def w1cField {n : Nat} (old : BitVec n) (w : Word) (lo : Nat) : BitVec n := old &&& ~~~(bits w lo n)

/-- Bit k of x set to b. -/
def putBit {n : Nat} (x : BitVec n) (k : Nat) (b : Bool) : BitVec n :=
  if b then x ||| (1#n <<< k) else x &&& ~~~(1#n <<< k)

/-- A statistics counter after one more event: it stays at all ones (R475). -/
def satInc {n : Nat} (x : BitVec n) : BitVec n := if x = BitVec.allOnes n then x else x + 1#n

/-- A statistics counter after k more events. -/
def satAdd {n : Nat} (x : BitVec n) (k : Nat) : BitVec n :=
  if 2 ^ n ≤ x.toNat + k then BitVec.allOnes n else BitVec.ofNat n (x.toNat + k)

/-- The lowest index below fuel at which p holds, counting from i. -/
def firstFrom (p : Nat → Bool) (i : Nat) : Nat → Option Nat
  | 0 => none
  | fuel + 1 => if p i then some i else firstFrom p (i + 1) fuel

/-- The number of indexes below n at which p holds. -/
def countUpto (p : Nat → Bool) : Nat → Nat
  | 0 => 0
  | n + 1 => countUpto p n + (if p n then 1 else 0)

/-- Whether p holds at some index below n. -/
def anyUpto (p : Nat → Bool) : Nat → Bool
  | 0 => false
  | n + 1 => anyUpto p n || p n

/-- Fold over the indexes 0 to n - 1 in ascending order. -/
def foldUpto {α : Type} (f : α → Nat → α) (a : α) : Nat → α
  | 0 => a
  | n + 1 => f (foldUpto f a n) n

/-- The word a sparse store holds at an address; an unlisted address reads d. -/
def Mem.get (d : Word) : Mem → Nat → Word
  | [], _ => d
  | (a, w) :: m, b => if a = b then w else if b < a then d else Mem.get d m b

/-- A sparse store after a write. The cells stay in rising order, and no cell holds what an unlisted address reads as. -/
def Mem.put (d : Word) : Mem → Nat → Word → Mem
  | [], b, v => if v = d then [] else [(b, v)]
  | (a, w) :: m, b, v =>
    if a = b then (if v = d then m else (a, v) :: m)
    else if b < a then (if v = d then (a, w) :: m else (b, v) :: (a, w) :: m)
    else (a, w) :: Mem.put d m b v

/-- Every address of m lies above lo. -/
def Mem.above (lo : Nat) : Mem → Bool
  | [] => true
  | (a, _) :: m => lo < a && Mem.above lo m

/-- The canonical form: addresses strictly rising, no cell equal to the word an unlisted address reads as. -/
def Mem.wf (d : Word) : Mem → Bool
  | [] => true
  | (a, w) :: m => decide (w ≠ d) && Mem.above a m && Mem.wf d m

/-- The cells of m outside the addresses lo to hi. -/
def Mem.drop (lo hi : Nat) (m : Mem) : Mem := m.filter fun c => c.1 < lo || hi < c.1

/-- Words written one after another from address a on. -/
def Mem.putList (d : Word) (m : Mem) (a : Nat) : List Word → Mem
  | [] => m
  | w :: ws => Mem.putList d (Mem.put d m a w) (a + 1) ws

/-- Low and high word of a 64-bit quantity, low word first (R466). -/
def lowWord (t : Tick) : Word := t.setWidth 32

/-- High word of a 64-bit quantity. -/
def highWord (t : Tick) : Word := (t >>> 32).setWidth 32

/-- A 64-bit quantity from its two words. -/
def joinWords (lo hi : Word) : Tick := hi.setWidth 64 <<< 32 ||| lo.setWidth 64

/-- A grain as a two's complement number. -/
def grainInt (g : Grain) : Int := g.toInt

/-- A number as a 24-bit two's complement grain. -/
def intGrain (i : Int) : Grain := BitVec.ofInt 24 i

/-- The index of a domain in every per-domain field (R418). -/
def domIdx : Dom → Fin 9
  | .af => 0 | .gf => 1 | .xf => 2 | .en => 3 | .sp => 4 | .sb => 5 | .cs => 6 | .mc => 7 | .th => 8

/-- The domain of an index (R418). -/
def domOf (i : Fin 9) : Dom :=
  match i with
  | 0 => .af | 1 => .gf | 2 => .xf | 3 => .en | 4 => .sp | 5 => .sb | 6 => .cs | 7 => .mc | 8 => .th

/-- The state of a domain. -/
def State.dom (s : State) (d : Dom) : Domain := s.pwr.dom[domIdx d]

/-- Update of one domain. -/
def State.modDom (d : Dom) (g : Domain → Domain) (s : State) : State :=
  s.modPwr fun p => { p with dom := p.dom.set (domIdx d) (g p.dom[domIdx d]) }

/-- On for every purpose: ON, ON_REFUSED or ON_HELD (R425). -/
def DomState.isOn : DomState → Bool
  | .on | .onRefused | .onHeld => true
  | _ => false

/-- Whether a domain is On. -/
def State.isOn (s : State) (d : Dom) : Bool := (s.dom d).st.isOn

/-- A CLKEN bit (R88). -/
def State.clken (s : State) (k : Nat) : Bool := s.clk.clken.getLsbD k

/-- Sets one bit of STICKY (R484). -/
def State.stick (k : Nat) (s : State) : State := s.modHost fun h => { h with sticky := putBit h.sticky k true }

end Sys2Proof.Machine
end

