-- ==== Sys2Proof/Machine/Crc.lean ====
section
/-!
DEFINITION. The checks of the link and of the stores: CRC-8 and CRC-16/CCITT (R515), CRC-32 (R131, R505, R564), and
SHA-256 with HMAC (R581).
-/

namespace Sys2Proof.Machine

open Sys2Proof

/-- One bit step of a CRC whose register is shifted left, with polynomial poly and the data bit entering at the top. -/
def crcStep {n : Nat} (poly : BitVec n) (c : BitVec n) (b : Bool) : BitVec n :=
  if c.msb != b then (c <<< 1) ^^^ poly else c <<< 1

/-- A CRC over the k highest bits of an n-bit word, most significant bit first. -/
def crcBits {n m : Nat} (poly : BitVec n) (w : BitVec m) : Nat → BitVec n → BitVec n
  | 0, c => c
  | k + 1, c => crcBits poly w k (crcStep poly c (w.getLsbD k))

/-- CRC-8 of a header over its bits [31:8] (R515). -/
def crc8 (header : Word) : BitVec 8 := crcBits 0x07#8 (bits header 8 24) 24 0#8

/-- CRC-16/CCITT over words, most significant byte first, initial value 0xFFFF (R515). -/
def crc16 (ws : List Word) : BitVec 16 := ws.foldl (fun c w => crcBits 0x1021#16 w 32 c) 0xFFFF#16

/-- CRC-16/CCITT over bytes. -/
def crc16Bytes (bs : List (BitVec 8)) : BitVec 16 := bs.foldl (fun c b => crcBits 0x1021#16 b 8 c) 0xFFFF#16

/-- One bit step of the reflected CRC-32 with polynomial 0x04C1_1DB7. -/
def crc32Step (c : Word) (b : Bool) : Word :=
  if c.getLsbD 0 != b then (c >>> 1) ^^^ 0xEDB88320#32 else c >>> 1

/-- The 32 bits of a word, bit 0 first. -/
def crc32Word (c : Word) (w : Word) : Word := foldUpto (fun c k => crc32Step c (w.getLsbD k)) c 32

/-- CRC-32 over words, least significant byte first, reflected, initial value and final XOR all ones (R131, R505). -/
def crc32 (ws : List Word) : Word := ~~~(ws.foldl crc32Word 0xFFFFFFFF#32)

/-! ### SHA-256 and HMAC (R581) -/

/-- The round constants of SHA-256. -/
def shaK : List Word :=
  [0x428a2f98#32, 0x71374491#32, 0xb5c0fbcf#32, 0xe9b5dba5#32, 0x3956c25b#32, 0x59f111f1#32, 0x923f82a4#32, 0xab1c5ed5#32,
   0xd807aa98#32, 0x12835b01#32, 0x243185be#32, 0x550c7dc3#32, 0x72be5d74#32, 0x80deb1fe#32, 0x9bdc06a7#32, 0xc19bf174#32,
   0xe49b69c1#32, 0xefbe4786#32, 0x0fc19dc6#32, 0x240ca1cc#32, 0x2de92c6f#32, 0x4a7484aa#32, 0x5cb0a9dc#32, 0x76f988da#32,
   0x983e5152#32, 0xa831c66d#32, 0xb00327c8#32, 0xbf597fc7#32, 0xc6e00bf3#32, 0xd5a79147#32, 0x06ca6351#32, 0x14292967#32] ++
  [0x27b70a85#32, 0x2e1b2138#32, 0x4d2c6dfc#32, 0x53380d13#32, 0x650a7354#32, 0x766a0abb#32, 0x81c2c92e#32, 0x92722c85#32,
   0xa2bfe8a1#32, 0xa81a664b#32, 0xc24b8b70#32, 0xc76c51a3#32, 0xd192e819#32, 0xd6990624#32, 0xf40e3585#32, 0x106aa070#32,
   0x19a4c116#32, 0x1e376c08#32, 0x2748774c#32, 0x34b0bcb5#32, 0x391c0cb3#32, 0x4ed8aa4a#32, 0x5b9cca4f#32, 0x682e6ff3#32,
   0x748f82ee#32, 0x78a5636f#32, 0x84c87814#32, 0x8cc70208#32, 0x90befffa#32, 0xa4506ceb#32, 0xbef9a3f7#32, 0xc67178f2#32]

/-- The eight working words of SHA-256. -/
structure ShaRegs where
  a : Word
  b : Word
  c : Word
  d : Word
  e : Word
  f : Word
  g : Word
  h : Word
deriving DecidableEq, Repr

/-- The initial hash value of SHA-256. -/
def sha0 : ShaRegs :=
  ⟨0x6a09e667#32, 0xbb67ae85#32, 0x3c6ef372#32, 0xa54ff53a#32, 0x510e527f#32, 0x9b05688c#32, 0x1f83d9ab#32, 0x5be0cd19#32⟩

/-- One round with the sum k + w of round constant and schedule word. -/
def shaRound (r : ShaRegs) (kw : Word) : ShaRegs :=
  let s1 := r.e.rotateRight 6 ^^^ r.e.rotateRight 11 ^^^ r.e.rotateRight 25
  let ch := (r.e &&& r.f) ^^^ (~~~r.e &&& r.g)
  let t1 := r.h + s1 + ch + kw
  let s0 := r.a.rotateRight 2 ^^^ r.a.rotateRight 13 ^^^ r.a.rotateRight 22
  let maj := (r.a &&& r.b) ^^^ (r.a &&& r.c) ^^^ (r.b &&& r.c)
  ⟨t1 + s0 + maj, r.a, r.b, r.c, r.d + t1, r.e, r.f, r.g⟩

/-- The rounds over the round constants, with the last 16 schedule words held oldest first. -/
def shaRounds : List Word → List Word → ShaRegs → ShaRegs
  | [], _, r => r
  | k :: ks, win, r =>
    let w := win.headD 0#32
    let x := win.getD 1 0#32
    let y := win.getD 14 0#32
    let g0 := x.rotateRight 7 ^^^ x.rotateRight 18 ^^^ (x >>> 3)
    let g1 := y.rotateRight 17 ^^^ y.rotateRight 19 ^^^ (y >>> 10)
    shaRounds ks (win.drop 1 ++ [w + g0 + win.getD 9 0#32 + g1]) (shaRound r (k + w))

/-- The compression of one block of 16 words. -/
def shaBlock (h : ShaRegs) (block : List Word) : ShaRegs :=
  let r := shaRounds shaK block h
  ⟨h.a + r.a, h.b + r.b, h.c + r.c, h.d + r.d, h.e + r.e, h.f + r.f, h.g + r.g, h.h + r.h⟩

/-- Big-endian words of bytes; a part word at the end is filled with zero bytes. -/
def beWords : List (BitVec 8) → List Word
  | a :: b :: c :: d :: rest => (a ++ b ++ c ++ d) :: beWords rest
  | [] => []
  | rest =>
    [rest.getD 0 0#8 ++ rest.getD 1 0#8 ++ rest.getD 2 0#8 ++ rest.getD 3 0#8]

/-- The four bytes of a word, most significant first. -/
def beBytes (w : Word) : List (BitVec 8) := [bits w 24 8, bits w 16 8, bits w 8 8, bits w 0 8]

/-- The blocks of a word list, at most fuel of them. -/
def shaBlocks : Nat → List Word → ShaRegs → ShaRegs
  | 0, _, h => h
  | n + 1, ws, h => if ws.isEmpty then h else shaBlocks n (ws.drop 16) (shaBlock h (ws.take 16))

/-- SHA-256 of a byte string. -/
def sha256 (msg : List (BitVec 8)) : List (BitVec 8) :=
  let n := msg.length
  let zeros := (119 - n % 64) % 64
  let padded := msg ++ [0x80#8] ++ List.replicate zeros 0#8
  let ws := beWords padded ++ [BitVec.ofNat 32 (n * 8 / 2 ^ 32), BitVec.ofNat 32 (n * 8)]
  let r := shaBlocks (ws.length / 16 + 1) ws sha0
  [r.a, r.b, r.c, r.d, r.e, r.f, r.g, r.h].flatMap beBytes

/-- HMAC-SHA-256 under a key of at most 64 bytes. -/
def hmac (key msg : List (BitVec 8)) : List (BitVec 8) :=
  let k := key ++ List.replicate (64 - key.length) 0#8
  sha256 (k.map (· ^^^ 0x5c#8) ++ sha256 (k.map (· ^^^ 0x36#8) ++ msg))

end Sys2Proof.Machine
end

