-- ==== Sys2Proof/Config.lean ====
section
/-!
DEFINITION. What one part fixes at manufacture and the values the manual leaves open: opaque constants without a body, so
that nothing in Lean can evaluate one or prove a value of it. A statement about one holds for every value of it.
-/

namespace Sys2Proof.Config

/-- The 64-bit UID of the part ("Per part", R478, R482). -/
opaque uid : BitVec 64

/-- DEVREV of the part ("Per part", R481). -/
opaque devRev : BitVec 24

/-- The word the calibration region of the internal store holds at a table-space address at delivery (R505, R560). -/
opaque calWord : Nat → Word

/-- The device key at delivery, 32 bytes (R560, R581). -/
opaque deviceKey : Nat → BitVec 8

/-- The minimum security version in OTP at delivery (R569, R580). -/
opaque otpMinVer : BitVec 8

/-- PLL-M phase error code of QUALITY in states 0b00 and 0b01 (R73), by the Headland tick at which it is read. -/
opaque phaseError : Nat → BitVec 6

/-- Whether a number that the manual defines over the reals, and that its form cannot hold, is given by the neighbour above it (in
magnitude) or below: the manual states no rounding (R271, R273, R296, R306). -/
opaque roundFree : Rat → Bool

/-- RATIO_LAST for the masked energies and references where a reference is no number (R273). -/
opaque bandRatio : List Rat → List Word → Word

/-- BAND_MAX among the bands named, of which none has a larger quotient than the others, or where a masked reference is zero or no
number (R273 states no tie and no quotient then). -/
opaque bandMax : List Nat → Nat → BitVec 5

/-- The weight with which the Hilbert filter of R298 takes the samples at a distance: the manual gives its length, not its window. -/
opaque hilbertWeight : Nat → Rat

/-- A sample behind the end of a capture, which the delay of R298 asks for, by input and place. -/
opaque captureTail : Nat → Nat → Rat

/-- Value i of the averages of the n-th result when no segment of a capture was valid (R307 states no mean of none). -/
opaque emptyMean : Nat → Nat → Rat

/-- Instants of the header of the n-th result when no segment of a capture was valid (R304, R307). -/
opaque emptyInstant : Nat → Nat → BitVec 64

/-- Header words 4 and 5 of a capture that ABORT ended before its trigger sample came (R280, R281), by the number of free values
taken before. -/
opaque noTriggerSample : Nat → BitVec 64

/-- Whether a flush, a stop of EN or a forced gate finds an item part-way through being written, by the number of free
values taken before (R374, R382, R386, R387). -/
opaque itemPartWay : Nat → Bool

/-- Which item of the unit being written it is, from the first on, by the number of free values taken before (R374). -/
opaque itemIndex : Nat → Nat

/-- What a claim within the 2 LK cycles of R401 returns, by the number of free values taken before: 63 or the other value that R404
and R407 allow. -/
opaque lateClaim : Nat → Bool

/-- The host keeps the strobe of an access low until HWAIT_N is high, by the tick at which the access is executed (R457, R459). -/
opaque strobeHeld : Tick → Bool

/-- The host raises the strobe of a stalled access at a Headland tick (R459). -/
opaque strobeRaised : Nat → Bool

/-- Phase against the tick counter of a path or scan cycle that starts while TSYNC.ALIGN is 0 (R619). -/
opaque startPhase : Nat → Tick

/-- Whether a quotient that is no integer is rounded up, by dividend and divisor: the manual gives the quotient and no
rounding (the means of R265 and R287, BASE_AT and PEAK of R269). -/
opaque roundUp : Int → Nat → Bool

/-- The CRC-32 of a staged list (R563, R564 give the polynomial and not the bytes of the image). -/
opaque stageCrc : List (Nat × BitVec 32) → Word

/-- W0 of a LOG_READ reply without a record, by the number asked for and LOG_NEXT (R563 states it only for replies with a
record). -/
opaque logReadEmpty : Word → Word → Word

/-- The address in the log record of a flash operation of Zoruimen that failed, by the number of free values taken before
(R571 gives DATA0 as the address; R583 and R563 do not give the address at work). -/
opaque flashAddress : Nat → Word

/-- What becomes of byte i of a program or erase sequence that timed out (R548), by the number of free values taken before. -/
opaque flashByte : Nat → Nat → BitVec 8

/-- Address of the Basic Flash Parameter Table in the flash's SFDP (R539, R540). -/
opaque sfdpTable : BitVec 24

/-- Whether the opcode transaction of a sequence had completed when a mode fault came, by the number of free values taken before
(R553). -/
opaque opcodeSent : Nat → Bool

/-- Level of MSS_N, an input, at a Headland tick (R534, R552); true is high. -/
opaque mssPin : Nat → Bool

/-- The address of the byte that the management core reads through its window, where it begins a read at a Headland tick (R544). -/
opaque coreRead : Nat → Option Nat

/-- What the boot ROM sends at a Headland tick, where it begins a transaction (R539): true a status read, false an SFDP read. -/
opaque romRead : Nat → Option Bool

/-- A single transaction of the port has ended by a Headland tick (R537). -/
opaque readEnds : Nat → Bool

/-- A program or erase sequence has ended by a Headland tick: the flash is no longer busy (R545, R547). -/
opaque seqEnds : Nat → Bool

/-- The status reads before a sequence have found the flash ready by a Headland tick (R548, R555). -/
opaque pollEnds : Nat → Bool

/-- A transaction of the sequence in progress is under way at a tick, not the wait between two status reads (R545, R547). -/
opaque inTransaction : Tick → Bool

/-- Levels of MCLK and MDO at a tick within a transaction (R536). -/
opaque portLevels : Tick → Bool × Bool

/-- What the port sends for a work of Zoruimen on a store whose layout in flash is not given (R558, R563, R564, R583), by tick. -/
opaque storeSent : Tick → List (List Bool)

/-- A store of that kind survives a port command over its region, by tick and number of the store (R558). -/
opaque storeHolds : Tick → Nat → Bool

/-- The authentication counter found after a port command over a journal (R583). -/
opaque counterLeft : Tick → BitVec 32 → BitVec 32

/-- The hash of the verification key in OTP at delivery, by byte (R576). -/
opaque keyHash : Nat → BitVec 8

/-- Level of MDO between transactions while the module masters the flash bus, by Headland tick (R534 gives none). -/
opaque idleMdo : Nat → Bool

/-- Busy words before READY for a read or write of a domain that is On, at most two (R517), by the number of free values taken
before. -/
opaque busyWords : Nat → BitVec 2

/-- Level read on an undriven pin Gk without a board pull (R501). -/
opaque undrivenPin : Nat → Bool

/-- Where the number of SM ticks in a period of HT stands in its range while HT comes from LCLK and PLL-M is not locked, by the
number of free values taken before (R617: the rate of SM is not specified, but bounded). -/
opaque smPerHt : Nat → Nat

/-- Gain trim of a cluster from its factory trim and the SENS fields of the units in the sum (R98 names what the trim is
computed from, not how). -/
opaque clusterTrim : Word → List (BitVec 13) → Rat

/-- Gain trim that a re-trim measures against the pilot, by RANGE and the number of free values taken before (R149). -/
opaque measuredTrim : Nat → Nat → Rat

/-- Rate of the ramp of R144 in parts per 10^9 of full scale per millisecond, by cluster; at most 500. -/
opaque trimRamp : Nat → Nat

/-- SM ticks from the confirmation of a window fault to the end of the bisection, by the number of free values taken before
(R148 bounds it). -/
opaque bisectTicks : Nat → Nat

/-- Gradient between the halves of the platform at an update of THERM_STAT, by the number of free values taken before (R127). -/
opaque platGradient : Nat → BitVec 6

/-- Mean platform temperature at an update of THERM_STAT (R127). -/
opaque platMean : Nat → BitVec 16

/-- Which rails are back above their warning levels at a Headland tick of a dip, VCORE and VANA, by the number of free values taken
before (R447, R448: the comparators follow the board's rails). -/
opaque railsBack : Nat → BitVec 2

/-- Whether the heater drive is still at its available maximum at an update of THERM_STAT, by the number of free values taken
before (R123). -/
opaque heaterAtMax : Nat → Bool

/-- The regulator's integrator after an update (R118). -/
opaque regulator : Word → BitVec 6 → BitVec 16 → Word

/-- Third-order sinc-weighted mean of the modulator's bits over a conversion window (R176 names the weighting and gives no
coefficients). -/
opaque sinc3 : List Bool → BitVec 24

/-- Basic TEDS, 64 bits, in an identification memory (R208, R211: the layout is the standard's). -/
opaque basicTeds : List (BitVec 8) → BitVec 64

/-- Template ID in an identification memory, 0 if none (R211). -/
opaque tedsTemplate : List (BitVec 8) → BitVec 8

/-- The template is one of those of R208 that the module decodes. -/
opaque tedsKnown : BitVec 8 → Bool

/-- Words 0xE0 to 0xF6 that the decoded template yields, before they are confined to the port's pins and source (R211). -/
opaque tedsDecoded : List (BitVec 8) → Nat → Word

end Sys2Proof.Config
end

