-- ==== Sys2Proof/Machine/Ops.lean ====
section
/-!
DEFINITION. Operations every block shares: which clocks exist, the status bits behind the 47 interrupt sources with their
arbitration, the log queue and alerts of the management core, demand wakes, and the answer of a command.
-/

namespace Sys2Proof.Machine

open Sys2Proof

/-! ### Clocks -/

/-- LK exists: from LCLK or from the coast output, outside reset and Park (R75, R80, R84, R460). -/
def State.hasLk (s : State) : Bool :=
  (s.clk.lclkPresent || s.clk.coast) && s.clk.park != .parked && !s.clk.inReset && !s.clk.seqHeld

/-- The SM clock exists (R54, R617). -/
def State.hasSm (s : State) : Bool :=
  s.clk.pllm != .off && s.clk.park != .parked && !s.clk.inReset

/-- PLL-M is locked. -/
def State.locked (s : State) : Bool := s.clk.pllm == .locked

/-- HT is SM divided by 6000: PLL-M is locked, or drives HT in a coast (R75). Else HT comes from LCLK and the SM ticks in one of
its periods are not specified (R77, R617). -/
def State.htExact (s : State) : Bool := s.locked || (s.clk.coast && !s.clk.lclkPresent)

/-- At least n µs of SM ticks have passed since tick t. Before lock the rate of SM is not specified, and any time may have passed
(R617). -/
def State.usSince (s : State) (t : Tick) (n : Nat) : Bool := !s.htExact || decide (n * 196608 ≤ (s.clk.tsc - t).toNat * 1000)

/-- The domain conditions for Park (R82). -/
def State.parkDomains (s : State) : Bool :=
  (s.dom .gf).st matches .off | .failed &&
    [Dom.af, .xf, .en, .sp, .sb, .cs, .mc, .th].all fun d => (s.dom d).st matches .off | .retain | .failed

/-- CLK_STAT.PARK_READY (R72, R82): without LK, as in a reset, the bit holds its Reset value. -/
def State.parkReady (s : State) : Bool := s.hasLk && s.parkDomains

/-- The count of bits [5:0] of the clock-quality code while no lock holds (R73). -/
def logCount (n : Nat) : BitVec 6 := if n < 2 then 0#6 else BitVec.ofNat 6 (min 63 (Nat.log2 n))

/-- The clock-quality state (R73). -/
def State.qualityState (s : State) : BitVec 2 :=
  if s.locked then (if s.clk.epochValid then 0b00#2 else 0b01#2)
  else if s.clk.coast && !s.clk.lclkPresent then 0b10#2 else 0b11#2

/-- The clock-quality code of a state at Headland tick ht, the state counting from Headland tick mark (R73). -/
def qualityCode (q : BitVec 2) (mark ht : Nat) : BitVec 8 :=
  q ++ (if q.getLsbD 1 then logCount (ht - mark) else Config.phaseError ht)

/-- The clock-quality code (R73). -/
def State.quality (s : State) : BitVec 8 := qualityCode s.qualityState s.clk.htMark s.clk.ht

/-- What the clock-quality code counts from at present. -/
def State.qualityNow (s : State) : Quality := ⟨s.clk.tsc, s.qualityState, s.clk.htMark, s.clk.ht, s.clk.htSub⟩

/-- What the clock-quality code counted from at tick t: the earliest later change tells it (R361, R364). -/
def State.qualityBase (s : State) (t : Tick) : Quality :=
  s.clk.quals.foldl (fun q e => if 0 < (e.until_ - t).toInt then e else q) s.qualityNow

/-- The clock-quality state as it stood at tick t. -/
def State.stateAt (s : State) (t : Tick) : BitVec 2 := (s.qualityBase t).state

/-- The Headland ticks between tick t and the end of the span e in which it lies: counted where LCLK drove HT before a lock,
one every 6000 SM ticks elsewhere (R75, R617). -/
def State.htSince (s : State) (e : Quality) (t : Tick) : Nat :=
  if e.state = 0b11#2 then
    (s.clk.htLog.filter fun h => decide (0 < (h - t).toInt) && decide (0 ≤ (e.until_ - h).toInt)).length
  else
    let n := (e.until_ - t).toNat
    if n ≤ e.sub then 0 else (n - e.sub + 5999) / 6000

/-- The clock-quality code as it stood at tick t (R364). -/
def State.qualityAt (s : State) (t : Tick) : BitVec 8 :=
  let e := s.qualityBase t
  qualityCode e.state e.mark (e.ht - s.htSince e t)

/-- EPOCH_VALID was 0 at tick t (R361, R362): it is 1 in quality state 0b00 alone. -/
def State.untimedAt (s : State) (t : Tick) : Bool := s.stateAt t != 0b00#2

/-- The history of the clock-quality code after a command: each change of the state, or of what it counts from, is kept. -/
def State.markQuality (s t : State) : State :=
  if s.qualityState = t.qualityState ∧ s.clk.htMark = t.clk.htMark then t
  else t.modClk fun c => { c with quals := { s.qualityNow with until_ := t.clk.tsc } :: c.quals }

/-- CLK_STAT (R72). -/
def State.clkStat (s : State) : Word :=
  fld s.quality 0 ||| flg s.locked 8 ||| flg (s.clk.plle == .locked) 9 ||| flg s.clk.coast 10 |||
  flg s.clk.lclkPresent 11 ||| flg s.clk.holdClk 12 ||| flg s.parkReady 13 ||| fld s.clk.lspd 14 |||
  flg s.clk.lostEvt 16 ||| flg s.clk.relockEvt 17 ||| flg s.clk.pllFailEvt 18 ||| flg s.clk.parkRefused 19 |||
  fld s.clk.relocks 24

/-! ### Buffer level (R373, R377) -/

/-- BUF_LEVEL.LEVEL. -/
def State.level (s : State) : Nat := s.buf.words.length

/-- The condition A of R377. -/
def State.bufAbove (s : State) : Bool := s.buf.thresh != 0#22 && decide (s.buf.thresh.toNat ≤ s.level)

/-! ### Interrupt sources -/

/-- The status bits behind a source, whatever gates them (R396). -/
def State.sourceBit (s : State) (n : Nat) : Bool :=
  if n = 0 then false
  else if n ≤ 8 then s.smc.evt.getLsbD (n - 1)
  else if n ≤ 14 then s.recog.evt.getLsbD (n - 9)
  else match n with
    | 15 => s.scar.trip || s.scar.cls
    | 16 => s.buf.threshHit
    | 17 => s.buf.overflow
    | 18 => s.buf.underrun
    | 19 => s.cap.capDone
    | 20 => s.aux.wbEvt != 0#4
    | 21 => s.aux.overload != 0#4
    | 22 => s.aux.attachEvt != 0#4 || s.aux.tedsDone
    | 23 => s.arr.unitEvt
    | 24 => s.arr.degrEvt
    | 25 => s.spec.doneEvt || s.spec.abortEvt
    | 26 => s.pwr.wakefail
    | 27 => s.pwr.refused
    | 28 => s.pwr.brownEvt
    | 29 => s.pwr.doneEvt
    | 30 => s.clk.lostEvt
    | 31 => s.clk.relockEvt
    | 32 => s.clk.pllFailEvt
    | 33 => s.link.errEvt
    | 34 => s.link.discEvt
    | 35 => s.mport.mfault
    | 36 => s.mport.doneEvt
    | 37 => s.mgmt.doneEvt
    | 38 => s.mgmt.rejEvt
    | 39 => s.mgmt.replyEvt
    | 40 => s.mgmt.alertEvt
    | 41 => s.mgmt.lognfEvt
    | 42 => s.mgmt.updEvt
    | 43 => s.therm.readyEvt
    | 44 => s.therm.faultEvt
    | 45 => s.clk.syncEvt || s.clk.syncReject
    | 46 => s.arr.tempEvt
    | 47 => s.arr.cavEvt
    | _ => false

/-- Whether the word that holds a source's bit is clocked and its domain On (R397). -/
def State.sourceOpen (s : State) (n : Nat) : Bool :=
  if 1 ≤ n ∧ n ≤ 8 then s.clken 4 && s.isOn .en
  else if 16 ≤ n ∧ n ≤ 18 then s.clken 6
  else if n = 25 then s.clken 5 && s.isOn .sp
  else if n = 35 ∨ n = 36 then s.clken 8
  else if n = 43 ∨ n = 44 then s.clken 9
  else true

/-- A source is active (R395, R397). -/
def State.active (s : State) (n : Nat) : Bool := s.sourceBit n && s.sourceOpen n

/-- The configuration of a source; numbers outside 1 to 47 have none (R398). -/
def Intc.cfg (c : Intc) (n : Nat) : IntSrc := if h : n < 48 then c.src[n] else {}

/-- Update of the configuration of a source. -/
def Intc.setCfg (c : Intc) (n : Nat) (g : IntSrc → IntSrc) : Intc :=
  if h : n < 48 then { c with src := c.src.set n (g c.src[n]) } else c

/-- Threshold of a target (R400). -/
def Intc.threshold (c : Intc) (x : BitVec 2) : BitVec 3 := if x = 0#2 then c.th0 else if x = 1#2 then c.th1 else c.th2

/-- The recorded priority of source n when it is in service at target x, else 0. -/
def Intc.servedAt (c : Intc) (x : BitVec 2) (n : Nat) : Nat :=
  match (c.cfg n).serv with
  | some (y, p) => if y = x then p.toNat else 0
  | none => 0

/-- Running priority of a target: the highest recorded priority in service there, else 0 (R405, R409). -/
def Intc.running (c : Intc) (x : BitVec 2) : Nat := foldUpto (fun m n => max m (c.servedAt x n)) 0 48

/-- Source n qualifies for target x (R402, R412). -/
def State.qualifies (s : State) (x : BitVec 2) (n : Nat) : Bool :=
  let q := s.int.cfg n
  s.active n && q.en && q.target == x && decide ((s.int.threshold x).toNat < q.prio.toNat) &&
    decide (s.int.running x < q.prio.toNat) && q.serv.isNone

/-- The better of two sources: the higher priority, the lower number on a tie (R404). -/
def State.better (s : State) (best : Option Nat) (n : Nat) : Option Nat :=
  match best with
  | none => some n
  | some b => if (s.int.cfg b).prio.toNat < (s.int.cfg n).prio.toNat then some n else some b

/-- What arbitration presents to target x (R404). -/
def State.presented (s : State) (x : BitVec 2) : Option Nat :=
  foldUpto (fun best n => if s.qualifies x n then s.better best n else best) none 48

/-- EN, PRIO, TARGET or a threshold keeps source n from target x (R407). -/
def Intc.masks (c : Intc) (x : BitVec 2) (n : Nat) : Bool :=
  !((c.cfg n).en && (c.cfg n).target == x && decide ((c.threshold x).toNat < (c.cfg n).prio.toNat))

/-- The source that an asserted line stood for and that is masked or withdrawn, where nothing qualifies any longer (R404, R407). One
that has been claimed is neither. -/
def State.gone (before after : State) (x : BitVec 2) (line : Bool) : Option Gone :=
  if line && (after.presented x).isNone then
    match before.presented x with
    | some n =>
      if (after.int.cfg n).serv.isNone && (after.int.masks x n || !after.active n) then
        some ⟨BitVec.ofNat 6 n, (before.int.cfg n).prio, after.active n, after.clk.tsc⟩
      else none
    | none => none
  else none

/-- Arbitration after a command or a tick: the lines follow what qualifies; without LK they keep their levels (R394, R403). -/
def State.arbitrate (before after : State) : State :=
  if after.hasLk then
    after.modInt fun c =>
      { c with
        line0 := (after.presented 0#2).isSome
        line1 := (after.presented 1#2).isSome
        gone0 := (State.gone before after 0#2 before.int.line0).or c.gone0
        gone1 := (State.gone before after 1#2 before.int.line1).or c.gone1 }
  else after

/-- SM ticks in one cycle of LK (R48, R53). -/
def State.lkTicks (s : State) : Nat := if s.clk.lspd = 0#2 then 48 else if s.clk.lspd = 2#2 then 12 else 24

/-- At most n LK cycles have passed since tick t; before the lock of PLL-M the rate of SM is not specified (R617). -/
def State.withinLk (s : State) (t : Tick) (n : Nat) : Bool := !s.htExact || decide ((s.clk.tsc - t).toNat ≤ n * s.lkTicks)

/-- The answer of a command that leaves s for t: the next state is t after arbitration. -/
def answer (s t : State) : Host.Outcome State Fault Refusal := .next (State.arbitrate s t)

/-- The answer of a reset: what stood before it leaves nothing behind in the arbitration (R393). -/
def answerFresh (t : State) : Host.Outcome State Fault Refusal := answer t t

/-- The answer of an event whose conditions hold or do not hold: without them it is no event and changes nothing. -/
def event (ok : Bool) (s t : State) : Host.Outcome State Fault Refusal := if ok then answer s t else .next s

/-! ### Bytes of flash 0 (R545, R546) -/

/-- The byte flash 0 holds at an address; an erased byte is 0xFF. -/
def flashGet : List Host.Cell → Nat → BitVec 8
  | [], _ => 0xFF#8
  | (a, w) :: m, b => if a = b then w else if b < a then 0xFF#8 else flashGet m b

/-- Flash 0 with one byte replaced, in canonical form. -/
def flashPut : List Host.Cell → Nat → BitVec 8 → List Host.Cell
  | [], b, v => if v = 0xFF#8 then [] else [(b, v)]
  | (a, w) :: m, b, v =>
    if a = b then (if v = 0xFF#8 then m else (a, v) :: m)
    else if b < a then (if v = 0xFF#8 then (a, w) :: m else (b, v) :: (a, w) :: m)
    else (a, w) :: flashPut m b v

/-- Every address of m lies above lo. -/
def flashAbove (lo : Nat) : List Host.Cell → Bool
  | [] => true
  | (a, _) :: m => decide (lo < a) && flashAbove lo m

/-- The canonical form of flash 0: addresses strictly rising, no byte 0xFF listed. -/
def flashWf : List Host.Cell → Bool
  | [] => true
  | (a, w) :: m => decide (w ≠ 0xFF#8) && flashAbove a m && flashWf m

/-- Bytes programmed from an address on: bits only change from 1 to 0 (R546). -/
def flashProgram (m : List Host.Cell) (a : Nat) : List (BitVec 8) → List Host.Cell
  | [] => m
  | b :: bs => flashProgram (flashPut m a (flashGet m a &&& b)) (a + 1) bs

/-- n bytes erased from an address on. -/
def flashErase (a n : Nat) (m : List Host.Cell) : List Host.Cell := m.filter fun c => decide (c.1 < a) || decide (a + n ≤ c.1)

/-- A transaction of the port is in progress (R537): one of its own, or one of a sequence. -/
def Mport.mastering (x : Mport) (now : Tick) : Bool := x.single.isSome || (x.seq.isSome && Config.inTransaction now)

/-- The module may drive the port pins: no grant, no mode fault, and MSS_N high or a transaction in progress (R535, R538, R553). -/
def Mport.drives (x : Mport) (now : Tick) : Bool := !x.granted && !x.waiting && (x.mastering now || !x.mssLow)

/-- A transaction with flash 1 is in progress (R550). -/
def Mport.onFlash1 (x : Mport) (now : Tick) : Bool :=
  x.mastering now && match x.seq with
    | some (.program true _ _) | some (.erase true _ _) => true
    | _ => false

/-! ### Log, alerts, demands -/

/-- A record for the log queue; at a full queue it is dropped and counted, and the next record written reports the
overflow (R571, R572). -/
def State.log (cls code : BitVec 8) (d0 d1 d2 : Word) (s : State) : State :=
  if s.mgmt.logQ.length < 16 then
    s.modMgmt fun m =>
      { m with logQ := m.logQ ++ [⟨0#32, s.clk.tsc, cls, code, !s.clk.epochValid, d0, d1, d2⟩] }
  else s.modMgmt fun m => { m with logDrop := satInc m.logDrop, logOvf := m.logOvf + 1 }

/-- A core access that ends in a bus error, which Zoruimen logs with its address (R44, R90, R308, R436, R437, R544). -/
def State.coreError (addr : Word) (s : State) : State := s.log 0x09#8 0x01#8 addr 0#32 0#32

/-- A write of an item of the internal store: it replaces the older copy, which is then the newest (R560). -/
def Twin.write {α : Type} (v : α) (x : Twin α) : Twin α := { newest := v, older := some x.newest }

/-- The lockout state as the internal store holds it (R560, R585). -/
def Mgmt.lockState (m : Mgmt) : BitVec 3 × Bool × Bool := (m.lockStep, m.lockout, m.lockLate)

/-- A change of the lockout state goes to the internal store. -/
def Mgmt.keepLock (m : Mgmt) : Mgmt :=
  if m.lockStore.newest = m.lockState then m else { m with lockStore := m.lockStore.write m.lockState }

/-- An alert of R570. -/
def State.raiseAlert (code : BitVec 8) (s : State) : State :=
  s.modMgmt fun m => { m with alert := code, alertEvt := true }

/-- The field of a domain in PWR_REQ (R421). -/
def reqField (w : BitVec 18) (d : Dom) : BitVec 2 := (w >>> (2 * (domIdx d).val)).setWidth 2

/-- The resting state a field of PWR_REQ asks for (R421). -/
def restOf (f : BitVec 2) : Rest := if f = 0#2 then .off else if f = 1#2 then .retain else .on

/-- The resting state of a domain. -/
def State.resting (s : State) (d : Dom) : Rest := restOf (reqField s.pwr.req d)

/-- A demand for a domain (R427): recorded for one that is Off, in Retain or stopping; a wake that leads to Retain leads to
On instead; one that is On, FAILED or on its way to On needs none. -/
def State.demand (d : Dom) (s : State) : State :=
  match (s.dom d).st with
  | .off | .retain | .stopping => s.modDom d fun x => { x with demandDue := true }
  | .waking =>
    if (s.dom d).target = .on then s
    else s.modDom d fun x => { x with target := .on, demand := s.resting d != .on }
  | _ => s

/-- An access has reached a domain: its idle timer starts again at the next Headland tick (R429). -/
def State.touch (d : Dom) (s : State) : State := s.modDom d fun x => { x with touched := true }

/-- A demand wake starts the domain: it is Off, in Retain or on the way there (R427, R451). -/
def State.demandStarts (s : State) (d : Dom) : Bool :=
  match (s.dom d).st with
  | .off | .retain | .stopping => true
  | _ => false

/-- STATUS.THERM_READY: READY while the hold runs and TH is On (R118, R121, R438). -/
def State.thermReady (s : State) : Bool := s.therm.ready && s.isOn .th

/-! ### Pins G0 to G7 (R501, R502) -/

/-- The module drives pin Gk: a flash select that it claims, while it masters the flash bus, or an output, but for an open-drain
one that drives 1 (R501, R535, R551). While CLKEN.GPIO is 0 every pin is an input. -/
def State.pinDriven (s : State) (k : Nat) : Bool :=
  let h := s.host
  s.clken 10 &&
    if h.gClaim.getLsbD k then s.mport.drives s.clk.tsc
    else h.gDir.getLsbD k && !(h.gOd.getLsbD k && h.gOut.getLsbD k)

/-- Level of pin Gk: driven by the module, a claimed pin being low in the transactions of flash 1 and high between them (R551), or
what the board gives an undriven pin, which is a free value (R501). -/
def State.pin (s : State) (k : Nat) : Bool :=
  if s.pinDriven k then (if s.host.gClaim.getLsbD k then !s.mport.onFlash1 s.clk.tsc else s.host.gOut.getLsbD k)
  else Config.undrivenPin (8 * s.clk.ht + k)

/-- The levels of the pins, bit k that of Gk. -/
def State.pins (s : State) : BitVec 8 := foldUpto (fun w k => putBit w k (s.pin k)) 0#8 8

/-- GPIO_DATA.IN at a Headland tick, while the block has its clock (R88, R502). -/
def State.samplePins (s : State) : State := if s.clken 10 then s.modHost fun h => { h with gIn := s.pins } else s

/-- WAKE_REC (R451). -/
def State.wakeWord (s : State) : Word := fld s.pwr.wakeSrc 0 ||| fld s.pwr.wakeDet 8 ||| fld s.pwr.wakeHt 16

/-- A write of WAKE_REC, with its log record (R451, R571). -/
def State.wakeRec (src det : BitVec 8) (s : State) : State :=
  let t := s.modPwr fun p => { p with wakeSrc := src, wakeDet := det, wakeHt := BitVec.ofNat 16 s.clk.ht }
  t.log 0x01#8 0#8 t.wakeWord 0#32 0#32

/-- The demand wakes of a trip of Scarecrow; WAKE_REC records SCARECROW, with AXES, when they start a domain that was not On (R285,
R451). -/
def State.scarWake (s : State) : State :=
  let u := (s.demand .af).demand .en
  if s.demandStarts .af || s.demandStarts .en then u.wakeRec 0x04#8 (s.scar.axes.setWidth 8) else u

end Sys2Proof.Machine
end

