-- ==== Sys2Proof/Machine/Dvfs.lean ====
section
/-!
DEFINITION. Operating points and supply dips (R439 to R449): VID, raises, lowerings, the restore after a dip.
-/

namespace Sys2Proof.Machine

open Sys2Proof

/-- VID code of the minimum VCORE of an operating point (R439). -/
def minVid (op : BitVec 2) : Nat := if op = 0#2 then 0 else if op = 1#2 then 1 else if op = 2#2 then 3 else 6

/-- VID of an operating point (R439): MARGIN adds one step of 50 mV, at most 0b110. -/
def vidOf (op : BitVec 2) (margin : Bool) : BitVec 3 := BitVec.ofNat 3 (min 6 (minVid op + if margin then 1 else 0))

/-- VID takes the code of a point; while the module coasts it is held (R76, R445). -/
def State.driveVid (op : BitVec 2) (s : State) : State :=
  s.modPwr fun p => { p with vidPt := op, vid := if s.clk.coast then p.vid else vidOf op p.margin }

/-- DVFS (R446). -/
def State.dvfs (s : State) : Word :=
  let p := s.pwr
  fld p.opReq 0 ||| fld p.opCur 4 ||| flg p.busy 8 ||| flg p.fail 9 ||| flg p.doneEvt 10 ||| fld p.vid 12

/-- EN goes to the hold clock and PLL-E relocks (R442, R444); with EN not On only PLL-E's next start is concerned (R445). -/
def State.relockPllE (s : State) : State :=
  if s.isOn .en then
    s.modClk fun c => { c with holdClk := true, plle := if c.plle = .off then .off else .locking }
  else s

/-- VID has taken a new code: the wait for PGOOD counts from here (R442). -/
def State.stampPhase (s : State) : State := s.modPwr fun p => { p with phaseAt := s.clk.tsc }

/-- A change towards OP_REQ starts, where OP_REQ differs from the point in force (R442, R444); while the module coasts it
waits (R445). -/
def State.startChange (s : State) : State :=
  let p := s.pwr
  if p.phase != .idle || s.clk.coast || p.opReq = p.opCur then s
  else if p.opCur.toNat < p.opReq.toNat then
    ((s.modPwr fun p => { p with busy := true, fail := false, phase := .settling, goal := p.opReq }).driveVid p.opReq).stampPhase
  else
    (s.modPwr fun p => { p with busy := true, phase := .lowering, goal := p.opReq }).relockPllE

/-- The end of a change or a restore; OP_REQ written meanwhile starts the next one (R445). -/
def State.endChange (s : State) : State :=
  let again := s.pwr.opReq != s.pwr.goal
  let t := s.modPwr fun p => { p with busy := false, doneEvt := true, phase := .idle }
  if again then t.startChange else t

/-- EN runs from PLL-E again once it is locked; while the module coasts PLL-E runs at its floor (R53, R76). -/
def State.leaveHold (s : State) : State := s.modClk fun c => { c with holdClk := c.holdClk && c.plle != .locked && !c.coast }

/-- The goal of a change or restore is in force (R442, R444). -/
def State.reachGoal (s : State) : State :=
  let t := (s.modPwr fun p => { p with opCur := p.goal }).driveVid s.pwr.goal
  t.leaveHold.endChange

/-- A write of DVFS (R445, R446). -/
def State.writeDvfs (w : Word) (s : State) : State :=
  (s.modPwr fun p => { p with opReq := bits w 0 2, doneEvt := w1c p.doneEvt w 10 }).startChange

/-- DVFS_CFG (R452). -/
def Pwr.dvfsCfg (p : Pwr) : Word := fld p.settle 0 ||| flg p.margin 16

/-- A write of DVFS_CFG (R439, R452). -/
def State.writeDvfsCfg (w : Word) (s : State) : State :=
  (s.modPwr fun p => { p with settle := bits w 0 16, margin := bitAt w 16 }).driveVid s.pwr.vidPt

/-- BROWN (R452). -/
def Pwr.brown (p : Pwr) : Word := fld p.rail 0 ||| fld p.depth 2 ||| fld p.duration 4 ||| fld p.dips 16

/-- 2 ms have passed since VID took the new code (R443). -/
def State.settleLate (s : State) : Bool := s.usSince s.pwr.phaseAt 2000

/-- SETTLE µs, of which 0 acts as 1, have passed since VID took the new code, and no more than the 2 ms of the wait (R442, R443). -/
def State.settleOver (s : State) : Bool :=
  s.usSince s.pwr.phaseAt (max 1 s.pwr.settle.toNat) && (!s.htExact || decide ((s.clk.tsc - s.pwr.phaseAt).toNat ≤ 393216))

/-- A raise or a restore waits for PGOOD (R442, R448). -/
def Pwr.awaitsSupply (p : Pwr) : Bool := p.phase == .settling || p.phase == .restoring

/-- DVFS_SETTLED (R442): PGOOD has been high for SETTLE µs. With EN not On the change ends here (R445). -/
def execDvfsSettled (s : State) : Host.Outcome State Fault Refusal :=
  event (s.pwr.awaitsSupply && s.hasLk && !s.clk.coast && s.settleOver) s
    (if s.isOn .en then (s.modPwr fun p => { p with phase := .relocking }).relockPllE else s.reachGoal)

/-- DVFS_FAIL (R443, R571): EN stays at OP_CUR; after a dip PLL-E relocks at its frequency before EN leaves the hold clock. -/
def execDvfsFail (s : State) : Host.Outcome State Fault Refusal :=
  let t := (s.driveVid s.pwr.opCur).stick 8
  let t := if s.pwr.phase = .restoring then t.relockPllE else t
  let t := t.modPwr fun p => { p with fail := true }
  let t := t.endChange
  event (s.pwr.awaitsSupply && s.hasLk && !s.clk.coast && s.settleLate) s (t.log 0x02#8 0x04#8 0#32 0#32 t.dvfs)

/-- DVFS_DONE (R442, R444): PLL-E is locked at the new frequency, or EN is not On and does not need it. -/
def execDvfsDone (s : State) : Host.Outcome State Fault Refusal :=
  event ((s.pwr.phase == .relocking || s.pwr.phase == .lowering) && s.hasLk && !s.clk.coast &&
      (s.clk.plle == .locked || !s.isOn .en)) s s.reachGoal

/-! ### Dips (R447 to R449) -/

/-- The code of BROWN.RAIL. -/
def railBits : Rails → BitVec 2
  | .vcore => 1#2
  | .vana => 2#2
  | .both => 3#2

/-- BROWN_WARN (R448): a trip within a dip sends it back to its first step and sets no flag again. -/
def execBrownWarn (rails : Rails) (s : State) : Host.Outcome State Fault Refusal :=
  let r := railBits rails
  let again := s.pwr.phase == .dip
  let t := s.modPwr fun p =>
    { p with
      opCur := 0#2
      busy := true
      phase := .dip
      dipRails := if again then p.dipRails ||| r else r
      brownEvt := p.brownEvt || !again
      railsLow := p.railsLow ||| r
      vanaDips := if r.getLsbD 1 && !p.railsLow.getLsbD 1 then (s.clk.tsc, none) :: p.vanaDips else p.vanaDips
      lowTicks := if again then p.lowTicks else 0#12 }
  let t := if again then t else t.stick 3
  answer s (t.modClk fun c => { c with holdClk := c.holdClk || s.isOn .en })

/-- The 1 ms timer of R448 has run out: every rail has been back for it, in whole Headland ticks. -/
def State.railsStable (s : State) : Bool := s.pwr.railsLow == 0#2 && decide (33 ≤ s.clk.ht - s.pwr.backHt)

/-- BROWN_RESTORE (R448, R449): 1 ms after the rails are back, the BROWN word, its log record, and the restore of OP_REQ by steps 3
to 5 of R442. The operand names the dip by the duration counted. -/
def execBrownRestore (depth : BitVec 2) (duration : BitVec 12) (s : State) : Host.Outcome State Fault Refusal :=
  let t := s.modPwr fun p =>
    { p with
      rail := p.dipRails
      depth := depth
      duration := duration
      dips := satInc p.dips
      goal := p.opReq
      lowTicks := 0#12 }
  let t := t.modMgmt fun m => { m with pfail := false }
  let t := t.log 0x02#8 0x03#8 0#32 t.pwr.brown t.dvfs
  let u :=
    if s.pwr.opReq = 0#2 then t.reachGoal
    else ((t.modPwr fun p => { p with phase := .restoring }).driveVid s.pwr.opReq).stampPhase
  event (s.pwr.phase == .dip && s.hasLk && s.railsStable && duration == s.pwr.lowTicks) s u

end Sys2Proof.Machine
end

