-- ==== Sys2Proof/Machine/Paths.lean ====
section
/-!
DEFINITION. The paths of the 24 channels: which run, their start, restart and re-phase, delays and latencies
(02_timebase.md, 06_harrow_chain.md).
-/

namespace Sys2Proof.Machine

open Sys2Proof

/-- The rate code in force: 13 to 15 act as 12 (R351). -/
def rateCode (r : BitVec 4) : Nat := min r.toNat 12

/-- Period of rate code n in ticks (R63). -/
def pathPeriod (n : Nat) : Nat := 4096 * 2 ^ n

/-- The stream group of a path kind; the recogniser path has none. -/
def State.group (s : State) (g : Group) : Grp := match g with | .fast => s.buf.fast | .slow => s.buf.slow

/-- Update of a stream group. -/
def State.modGroup (g : Group) (f : Grp → Grp) (s : State) : State :=
  s.modBuf fun b => match g with | .fast => { b with fast := f b.fast } | .slow => { b with slow := f b.slow }

/-- The rate code of a path. -/
def State.pathRate (s : State) : PathKind → Nat
  | .fast => rateCode s.buf.fast.rate
  | .slow => rateCode s.buf.slow.rate
  | .recog => 0

/-- Minimum-phase mode of a path (R223, R224). -/
def State.pathMin (s : State) : PathKind → Bool
  | .recog => true
  | _ => s.buf.minPhase

/-- A path of a channel. -/
def Chan.path (c : Chan) : PathKind → Path
  | .fast => c.fast
  | .slow => c.slow
  | .recog => c.recog

/-- Update of a path of a channel. -/
def Chan.modPath (c : Chan) (k : PathKind) (f : Path → Path) : Chan :=
  match k with
  | .fast => { c with fast := f c.fast }
  | .slow => { c with slow := f c.slow }
  | .recog => { c with recog := f c.recog }

/-- A channel by its number; numbers above 23 have none. -/
def State.chan (s : State) (ch : Nat) : Chan := if h : ch < 24 then s.harrow.chan[ch] else {}

/-- Update of a channel. -/
def State.modChan (ch : Nat) (f : Chan → Chan) (s : State) : State :=
  s.modHarrow fun x => if h : ch < 24 then { x with chan := x.chan.set ch (f x.chan[ch]) } else x

/-- Update of every channel, with its number. -/
def State.mapChans (f : Nat → Chan → Chan) (s : State) : State :=
  s.modHarrow fun x => { x with chan := Vector.ofFn fun i => f i.val x.chan[i] }

/-- A set of channels: bit ch is p ch. -/
def chanMask (p : Nat → Bool) : BitVec 24 := foldUpto (fun m ch => putBit m ch (p ch)) 0#24 24

/-- The domain whose signals a channel carries (R418, R438); CH22 and CH23 run while EN is On (R229). -/
def chanDom (ch : Nat) : Dom := if ch < 3 then .af else if ch < 6 then .gf else if ch < 22 then .xf else .en

/-- The converter and slot of an auxiliary channel (R12). -/
def chanConv (ch : Nat) : Fin 4 := ⟨(ch - 6) / 4 % 4, Nat.mod_lt _ (by decide)⟩

/-- The slot of an auxiliary channel (R12). -/
def chanSlot (ch : Nat) : Nat := (ch - 6) % 4

/-- The channel of slot s of converter c (R12). -/
def slotChan (c : Fin 4) (slot : Nat) : Nat := 6 + 4 * c.val + slot

/-- Fields of a converter word (R181). -/
def convEnable (w : Word) : Bool := bitAt w 0
/-- MODE: charge. -/
def convCharge (w : Word) : Bool := bitAt w 1
/-- BIAS. -/
def convBias (w : Word) : Bool := bitAt w 3
/-- CONT. -/
def convCont (w : Word) : Bool := bitAt w 2
/-- SLOTS: number of slots minus 1. -/
def convSlots (w : Word) : Nat := (bits w 4 2).toNat
/-- CYCLE: j. -/
def convCycle (w : Word) : Nat := (bits w 8 4).toNat

/-- SETTLE of slot s of a block (R184). -/
def ConvBlock.settle (b : ConvBlock) (slot : Nat) : Nat := (bits (b.b.getD slot 0#32) 0 16).toNat

/-- WINDOW of slot s of a block (R184). -/
def ConvBlock.win (b : ConvBlock) (slot : Nat) : Nat := (bits (b.b.getD slot 0#32) 16 10).toNat

/-- Number of slots. -/
def ConvBlock.slots (b : ConvBlock) : Nat := convSlots b.conv + 1

/-- Modulator periods of the step of slot s (R185). -/
def ConvBlock.stepLen (b : ConvBlock) (slot : Nat) : Nat := 2 + b.settle slot + 8 * b.win slot

/-- Start of the step of slot s in its cycle, in modulator periods (R185). -/
def ConvBlock.stepAt (b : ConvBlock) (slot : Nat) : Nat := foldUpto (fun n i => n + b.stepLen i) 0 slot

/-- offset(s) of R188; 0 for slot 0, a continuous converter and an unused slot. -/
def ConvBlock.offset (b : ConvBlock) (slot : Nat) : BitVec 24 :=
  if convCont b.conv ∨ slot = 0 ∨ b.slots ≤ slot then 0#24
  else BitVec.ofNat 24 (b.stepAt slot + 2 + b.settle slot + 4 * b.win slot - (2 + b.settle 0 + 4 * b.win 0))

/-- Ticks of a scan cycle; a continuous converter has a boundary every 128 modulator periods (R181, R189). -/
def ConvBlock.cycle (b : ConvBlock) : Nat := if convCont b.conv then 4096 else pathPeriod (convCycle b.conv)

/-- The first tick at or after t that lies a whole number of periods P from the tick anchor. -/
def gridFrom (anchor : Tick) (P : Nat) (t : Tick) : Tick :=
  let r := (t - anchor).toNat % P
  if r = 0 then t else t + BitVec.ofNat 64 (P - r)

/-- Start of a scan cycle that puts the acquisition instant of slot 0 on a multiple of the cycle (R188). -/
def ConvBlock.alignedStart (b : ConvBlock) : Tick := -BitVec.ofNat 64 (32 * (2 + b.settle 0 + 4 * b.win 0))

/-- Slot s of converter c belongs to its active copy (R181). -/
def State.slotActive (s : State) (c : Fin 4) (slot : Nat) : Bool :=
  let w := s.aux.conv[c].act.conv
  convEnable w && decide (slot ≤ convSlots w)

/-- The block clock of a channel is enabled (R88). -/
def State.chanClock (s : State) (ch : Nat) : Bool :=
  if ch < 3 then s.clken 0 else if ch < 6 then s.clken 1 else if ch < 22 then s.clken 2 else true

/-- EN holds the state of its paths: On, in Retain, or on the way between the two (R418, R419). -/
def State.enHolds (s : State) : Bool :=
  let d := s.dom .en
  match d.st with
  | .on | .onRefused | .onHeld | .retain => true
  | .stopping => d.target == .retain
  | .waking => d.fromRet
  | .off | .failed => false

/-- The channel's source runs: its domain On, its block clocked and, for an auxiliary channel, its slot in the active
copy of a converter that is not being calibrated (R92, R181, R215, R216). EN keeps the sources it holds through Retain. -/
def State.sourceRuns (s : State) (ch : Nat) : Bool :=
  (if ch < 22 then s.isOn (chanDom ch) else s.enHolds) && s.chanClock ch &&
    (decide (ch < 6) || decide (22 ≤ ch) || s.slotActive (chanConv ch) (chanSlot ch))

/-- The fastest rate code a channel supports (R106, R175, R229). -/
def State.fastestCode (s : State) (ch : Nat) : Nat :=
  if ch < 3 then 0
  else if ch < 6 then 2
  else if ch < 22 then
    let w := s.aux.conv[chanConv ch].act.conv
    if convCharge w then 0 else if convCont w then 2 else convCycle w
  else 5

/-- A scanned slot, or CH22 and CH23, which are treated as one (R229). -/
def State.scanned (s : State) (ch : Nat) : Bool :=
  decide (22 ≤ ch) || (decide (6 ≤ ch) && !convCont s.aux.conv[chanConv ch].act.conv)

/-- Delay D of a path of rate code n, in modulator periods (R226, R228). -/
def State.pathDelay (s : State) (ch n : Nat) (minimum : Bool) : Int :=
  if s.scanned ch then
    let j := s.fastestCode ch
    if n = j then 8
    else if minimum then 1024 * 2 ^ n - 256 * 2 ^ j + 8 else 5376 * 2 ^ n - 640 * 2 ^ j + 8
  else
    let gyro : Int := if 3 ≤ ch ∧ ch < 6 then (if minimum then 512 else 1536) else 0
    gyro + (if minimum then 1024 * 2 ^ n + 6 else 5376 * 2 ^ n - 90)

/-- Filter latency L of a path of rate code n, in modulator periods (R226, R228). -/
def State.pathLatency (s : State) (ch n : Nat) (minimum : Bool) : Int :=
  if s.scanned ch then
    let j := s.fastestCode ch
    if n = j then 8
    else if minimum then 6784 * 2 ^ n - 1280 * 2 ^ j + 8 else 10752 * 2 ^ n - 1280 * 2 ^ j + 8
  else
    let gyro : Int := if 3 ≤ ch ∧ ch < 6 then (if minimum then 2048 else 3072) else 0
    gyro + (if minimum then 6784 * 2 ^ n - 188 else 10752 * 2 ^ n - 188)

/-- A channel whose values are repeated on the recogniser path (R230). -/
def State.repeated (s : State) (ch : Nat) : Bool := decide (6 ≤ ch) && decide (0 < s.fastestCode ch)

/-- The rate code whose delay and latency a path of a channel has: on the recogniser path a repeated channel has those of its
own fastest rate (R228, R230). -/
def State.pathCode (s : State) (ch : Nat) (k : PathKind) : Nat :=
  if k == .recog && s.repeated ch then s.fastestCode ch else s.pathRate k

/-- Delay D of a path of a channel. -/
def State.delayOf (s : State) (ch : Nat) (k : PathKind) : Int := s.pathDelay ch (s.pathCode ch k) (s.pathMin k)

/-- Filter latency L of a path of a channel. -/
def State.latencyOf (s : State) (ch : Nat) (k : PathKind) : Int := s.pathLatency ch (s.pathCode ch k) (s.pathMin k)

/-- Channel ch supports the rate code of the path (R106, R175, R229); on the recogniser path every channel appears
(R227, R230). -/
def State.rateOk (s : State) (ch : Nat) (k : PathKind) : Bool :=
  k == .recog || decide (s.fastestCode ch ≤ s.pathRate k)

/-- The slot offset of a channel, in modulator periods (R70, R188); 0 but for a slot of a scanned converter. -/
def State.slotOffset (s : State) (ch : Nat) : Nat :=
  if 6 ≤ ch ∧ ch < 22 then (s.aux.conv[chanConv ch].act.offset (chanSlot ch)).toNat else 0

/-- The first tick after the present one at which a modulator period begins (R95, R619). -/
def State.nextMod (s : State) : Tick :=
  let off := (s.clk.tsc.setWidth 5) - s.clk.modPhase
  s.clk.tsc + (32#64 - off.setWidth 64)

/-- The first step boundary of slot k of a converter at or after t: the start of its step, in continuous mode the next 128-period
boundary. A converter that is still to start has none before its start (R185, R193, R215). -/
def Conv.boundary (q : Conv) (slot : Nat) (t : Tick) : Tick :=
  let first := q.start + BitVec.ofNat 64 (32 * (if convCont q.act.conv then 0 else q.act.stepAt slot))
  if 0 < (first - t).toInt then first else gridFrom first q.act.cycle t

/-- Ticks of the full settling delay of a slot (R185, R200). -/
def ConvBlock.settling (b : ConvBlock) (slot : Nat) : Tick := BitVec.ofNat 64 (32 * (2 + b.settle slot))

/-- The start of the first conversion window of slot s of converter c that begins after a full settling delay from tick t on; in
continuous mode the settling delay runs from the next 128-period boundary (R190, R200, R247). -/
def State.windowFrom (s : State) (c : Fin 4) (slot : Nat) (t : Tick) : Tick :=
  let q := s.aux.conv[c]
  q.boundary slot t + q.act.settling slot

/-- The restart instant of a path of channel ch that restarts now; that of a slot that is still to settle comes no earlier than its
first settled conversion (R190, R247). -/
def State.restartAt (s : State) (ch : Nat) : Tick :=
  if 6 ≤ ch ∧ ch < 22 ∧ s.slotActive (chanConv ch) (chanSlot ch) then
    let c := chanConv ch
    let base := if convCont s.aux.conv[c].act.conv then s.nextMod else s.windowFrom c (chanSlot ch) s.clk.tsc
    match s.aux.conv[c].supAt.getD (chanSlot ch) none with
    | some t => if 0 < (t - base).toInt then t else base
    | none => base
  else s.nextMod

/-- The acquisition instant of the next output of a kind of path. -/
def State.next (s : State) : PathKind → Tick
  | .fast => s.harrow.fastNext
  | .slow => s.harrow.slowNext
  | .recog => s.harrow.recNext

/-- Update of the acquisition instant of the next output of a kind of path. -/
def State.modNext (k : PathKind) (f : Tick → Tick) (s : State) : State :=
  s.modHarrow fun h =>
    match k with
    | .fast => { h with fastNext := f h.fastNext }
    | .slow => { h with slowNext := f h.slowNext }
    | .recog => { h with recNext := f h.recNext }

/-- Period of a kind of path in ticks. -/
def State.period (s : State) (k : PathKind) : Nat := pathPeriod (s.pathRate k)

/-- A kind of path starts: its acquisition instants lie on multiples of P while ALIGN is 1, else a whole number of periods from
the next modulator period (R66, R619). -/
def State.startGrid (k : PathKind) (s : State) : State :=
  let m := s.nextMod
  let P := s.period k
  s.modNext k fun _ => if s.clk.align then gridFrom 0#64 P m else m

/-- A kind of path whose outputs did not come for a while goes on on its grid (R65, R619). -/
def State.catchUp (k : PathKind) (s : State) : State :=
  let now := s.clk.tsc
  s.modNext k fun t => if 0 < (now - t).toInt then gridFrom t (s.period k) now else t

/-- The acquisition instants of a kind of path lie on multiples of P (R65, R67). -/
def State.onGrid (s : State) (k : PathKind) : Bool := decide ((s.next k).toNat % s.period k = 0)

/-- The temperature source of a channel (R246); CH22 uses none. -/
def State.tempSource (s : State) (ch : Nat) : Option Nat :=
  let t := (s.chan ch).tsrc.toNat
  if ch = 22 then none else if 6 ≤ t ∧ t ≤ 22 then some t else none

/-- An input of the spectral engine in stream mode takes the fast path of the channel (R292). -/
def State.specTakes (s : State) (ch : Nat) : Bool :=
  s.spec.mode == .stream && s.isOn .sp &&
    anyUpto (fun k => let w := s.spec.act.inputs.getD k 0#32; bitAt w 5 && (bits w 0 5).toNat == ch) 8

/-- The channel is in a group's mask, or in a layout that a MASK change ends and of which an output is still to leave stage 8, the
next one being that of instant `next` (R222, R357). -/
def Grp.carries (g : Grp) (next : Tick) (ch : Nat) : Bool :=
  g.mask.getLsbD ch || g.olds.any fun e => decide (0 ≤ (e.1 - next).toInt) && e.2.getLsbD ch

/-- The paths of a kind that are to run, before temperature sources are added. A stream path runs whether or not the source
of its channel does; a recogniser path runs only with it (R222, R224, R292). -/
def State.baseWant (s : State) (k : PathKind) : BitVec 24 :=
  chanMask fun ch => s.enHolds &&
    match k with
    | .fast => (s.buf.run && s.buf.fast.carries s.harrow.fastNext ch) || s.specTakes ch
    | .slow => s.buf.run && s.buf.slow.carries s.harrow.slowNext ch
    | .recog => s.sourceRuns ch && (s.clken 3 || s.clken 4 || (decide (ch < 3) && s.scar.pend))

/-- One round of adding the temperature sources of the channels in m (R224). -/
def State.addSources (s : State) (m : BitVec 24) : BitVec 24 :=
  foldUpto (fun a ch =>
    match s.tempSource ch with
    | some t => if m.getLsbD ch && s.sourceRuns t then putBit a t true else a
    | none => a) m 24

/-- The recogniser paths that are to run: those of R224 and, round by round, the temperature sources of every channel
with a running path. -/
def State.wantRecog (s : State) : BitVec 24 :=
  let stream := s.baseWant .fast ||| s.baseWant .slow
  let base := s.baseWant .recog
  let all := foldUpto (fun m _ => s.addSources m) (stream ||| base) 24
  base ||| chanMask fun t =>
    s.enHolds && s.sourceRuns t && anyUpto (fun ch => all.getLsbD ch && s.tempSource ch == some t) 24

/-- The paths of a kind that run. -/
def State.runningPaths (s : State) (k : PathKind) : BitVec 24 := chanMask fun ch => ((s.chan ch).path k).running

/-- The paths of a kind that are to run. While EN is not On none starts; one that is still wanted keeps its state (R419). -/
def State.wantPaths (s : State) (k : PathKind) : BitVec 24 :=
  let want := match k with
    | .recog => s.wantRecog
    | k => s.baseWant k
  if s.isOn .en then want else want &&& s.runningPaths k

/-- The set with both partners of every triad channel in it (R239). -/
def withTriads (m : BitVec 24) : BitVec 24 :=
  m ||| (if m &&& 7#24 ≠ 0#24 then 7#24 else 0#24) ||| (if m &&& 56#24 ≠ 0#24 then 56#24 else 0#24)

/-- A path cleared and started again at t0, with the filter latency in ticks: the new t0 replaces the old one, and no suppression is
shortened (R247, R248). -/
def Path.restart (p : Path) (t0 : Tick) (latency : Int) (rephase : Bool) : Path :=
  let new := t0 + BitVec.ofInt 64 latency
  let stop := if p.sup && decide (0 < (p.supEnd - new).toInt) then p.supEnd else new
  { p with running := true, sup := true, rephasing := rephase, t0 := t0, keep := none, supEnd := stop, flagEnd := stop }

/-- Restart of the running paths of kind k in a set at given instants, triad partners with them (R239, R247). -/
def State.restartFrom (at_ : Nat → Tick) (k : PathKind) (set : BitVec 24) (rephase : Bool) (s : State) : State :=
  let m := withTriads set
  s.mapChans fun ch c =>
    if m.getLsbD ch && (c.path k).running then
      c.modPath k fun p => p.restart (at_ ch) (32 * s.latencyOf ch k) rephase
    else c

/-- Restart of the running paths of kind k in a set that restart now. -/
def State.restart (k : PathKind) (set : BitVec 24) (rephase : Bool) (s : State) : State :=
  s.restartFrom s.restartAt k set rephase

/-- Restart of every running path of a set of channels (R249). -/
def State.restartAll (set : BitVec 24) (s : State) : State :=
  ((s.restart .fast set false).restart .slow set false).restart .recog set false

/-- Restart of every running path of a set of channels at given instants. -/
def State.restartAllFrom (at_ : Nat → Tick) (set : BitVec 24) (s : State) : State :=
  ((s.restartFrom at_ .fast set false).restartFrom at_ .slow set false).restartFrom at_ .recog set false

/-- The paths of kind k brought to what is to run: one that stops discards its state with the state of its biquads, one
that starts is restarted, and a channel whose temperature source starts has no valid θ yet (R222, R238). The first path of a
kind that starts sets the grid of its instants; one that joins running paths keeps theirs, so that their frames have a common
instant (R70). -/
def State.refreshKind (k : PathKind) (s : State) : State :=
  let want := s.wantPaths k
  let old := s.runningPaths k
  let fresh := withTriads (want &&& ~~~old) &&& want
  let t := s.mapChans fun ch c =>
    let starts := k == .recog && (match s.tempSource ch with | some t => want.getLsbD t && !old.getLsbD t | none => false)
    let c := if starts then { c with thetaOk := false } else c
    if fresh.getLsbD ch then c.modPath k fun p => p.restart (s.restartAt ch) (32 * s.latencyOf ch k) false
    else if want.getLsbD ch then c
    else
      let c := c.modPath k fun _ => {}
      let zero := Vector.replicate 4 0#32
      match k with
      | .fast => { c with bqFast := { c.bqFast with s1 := zero, s2 := zero } }
      | .slow => { c with bqSlow := { c.bqSlow with s1 := zero, s2 := zero } }
      | .recog => { c with lastRec := invalidGrain }
  if old = 0#24 ∧ want ≠ 0#24 then t.startGrid k else t

/-- Every path brought to what is to run. -/
def State.refreshPaths (s : State) : State := ((s.refreshKind .fast).refreshKind .slow).refreshKind .recog

/-- A TIME frame is owed before the next data frame of a group, from an instant on where one is given (R365). -/
def State.oweTime (g : Group) (since : Option Tick) (s : State) : State :=
  s.modGroup g fun x =>
    match since with
    | none => { x with timeOwed := true }
    | some t => { x with timeFrom := x.timeFrom ++ [t] }

/-- A TIME frame is owed before the first output of both groups that is acquired from now on: the outputs that already wait come
before it (R62, R366). -/
def State.oweStep (s : State) : State :=
  (s.modGroup .fast fun x => { x with timeNext := true }).modGroup .slow fun x => { x with timeNext := true }

/-- The same for both groups. -/
def State.oweTimes (since : Option Tick) (s : State) : State := (s.oweTime .fast since).oweTime .slow since

/-- Re-phase of the paths of kind k: they restart at the aligned phase; a group whose paths re-phase owes a TIME frame
(R67, R365). -/
def State.rephaseKind (k : PathKind) (s : State) : State :=
  if s.runningPaths k = 0#24 then s
  else
    let t := (s.restart k (BitVec.allOnes 24) true).startGrid k
    match k with
    | .fast => t.oweTime .fast none
    | .slow => t.oweTime .slow none
    | .recog => t

/-- Re-phase of the kinds of path in a set. -/
def State.rephase (p : PathKind → Bool) (s : State) : State :=
  [PathKind.fast, .slow, .recog].foldl (fun t k => if p k then t.rephaseKind k else t) s

/-- At least one path is re-phasing: TSYNC.REPHASE (R68). -/
def State.rephasing (s : State) : Bool :=
  anyUpto (fun ch => let c := s.chan ch; c.fast.rephasing || c.slow.rephasing || c.recog.rephasing) 24

/-- Any path of a set of channels runs. -/
def State.anyPath (s : State) (p : Nat → Bool) : Bool :=
  anyUpto (fun ch => p ch && (let c := s.chan ch; c.fast.running || c.slow.running || c.recog.running)) 24

end Sys2Proof.Machine
end

