-- ==== Sys2Proof/Machine/Scan.lean ====
section
/-!
DEFINITION. The scans of the auxiliary converters: which run, what a commit or an excitation change suppresses, and the boundaries
at which copies start and changes take effect (05_aux_front_end.md).
-/

namespace Sys2Proof.Machine

open Sys2Proof

/-- Step word A of slot s. -/
def ConvBlock.stepA (b : ConvBlock) (slot : Nat) : Word := b.a.getD slot 0#32

/-- The block names source n in the EXC field of a step (R183, R193). -/
def ConvBlock.names (b : ConvBlock) (n : Nat) : Bool := anyUpto (fun k => bitAt (b.stepA k) (22 + n)) b.slots

/-- Update of converter c. -/
def State.modConv (c : Fin 4) (f : Conv → Conv) (s : State) : State :=
  s.modAux fun a => { a with conv := a.conv.set c (f a.conv[c]) }

/-- The active copy of converter c has stopped for its pending copy (R189). -/
def Conv.stopped (q : Conv) (now : Tick) : Bool :=
  q.pend.isSome && match q.stopAt with | some t => decide (0 ≤ (now - t).toInt) | none => false

/-- Converter c is released: its domain On and clocked (R215, R216). -/
def State.convFree (s : State) : Bool := s.isOn .xf && s.clken 2

/-- The active copy of converter c is enabled and released, and has not stopped for a pending one (R181, R189). -/
def State.convScans (s : State) (c : Fin 4) : Bool :=
  let q := s.aux.conv[c]
  convEnable q.act.conv && s.convFree && !q.stopped s.clk.tsc

/-- Converter c runs: its active copy has started too (R215, R216). -/
def State.convRuns (s : State) (c : Fin 4) : Bool :=
  s.convScans c && decide (0 ≤ (s.clk.tsc - s.aux.conv[c].start).toInt)

/-- Modulator periods from the start of its first settled conversion for which slot s of converter c stays suppressed: that
conversion, and the latency of each of its paths that runs at the commit (R190). -/
def State.suppressFor (s : State) (c : Fin 4) (slot : Nat) : Int :=
  let ch := slotChan c slot
  let x := s.chan ch
  let of (k : PathKind) : Int := if (x.path k).running && s.rateOk ch k then s.latencyOf ch k else 0
  let q := s.aux.conv[c]
  max (if convCont q.act.conv then 0 else 8 * (q.act.win slot : Int)) (max (of .fast) (max (of .slow) (of .recog)))

/-- Slot k of a converter is suppressed at a tick (R190). -/
def Conv.suppressedAt (q : Conv) (slot : Nat) (now : Tick) : Bool :=
  (q.supAt.getD slot none).isSome && decide (0 < (q.supTo.getD slot 0#64 - now).toInt)

/-- A set of slots of converter c cleared and suppressed as after a commit that takes effect at tick t: each until it has completed
one conversion that began after a full settling delay, and its paths until their latency has passed. What takes effect later
never shortens a suppression (R190, R195, R248). -/
def State.suppressSlots (c : Fin 4) (p : Nat → Bool) (t : Tick) (s : State) : State :=
  let stop (k : Nat) : Tick := s.windowFrom c k t + BitVec.ofInt 64 (32 * s.suppressFor c k)
  (s.modConv c fun q =>
    { q with
      supAt := Vector.ofFn fun k => if p k.val then some (s.windowFrom c k.val t) else q.supAt[k]
      supTo := Vector.ofFn fun k =>
        if !p k.val || (q.suppressedAt k.val s.clk.tsc && decide (0 < (q.supTo[k] - stop k.val).toInt)) then q.supTo[k]
        else stop k.val }).restartAllFrom (fun ch => s.windowFrom c (chanSlot ch) t)
    (chanMask fun ch => decide (6 ≤ ch ∧ ch < 22) && chanConv ch == c && p (chanSlot ch))

/-- Every slot of converter c cleared and suppressed (R190, R195). -/
def State.suppressConv (c : Fin 4) (t : Tick) (s : State) : State := s.suppressSlots c (fun _ => true) t

/-- A commit or an excitation change takes effect at tick t for a set of slots of converter c: the comparators of a continuous one
are blanked from its boundary on (R190, R195, R200). -/
def State.unsettle (c : Fin 4) (p : Nat → Bool) (t : Tick) (s : State) : State :=
  (s.modConv c fun q => if p 0 then { q with blankAt := some (q.boundary 0 t) } else q).suppressSlots c p t

/-- When a pending copy starts after its predecessor stops at t: at its first aligned cycle start, or, while ALIGN is 0, at the
next modulator period (R188, R189, R619). A continuous copy has no cycle to align: while ALIGN is 1 too it starts at the next
modulator period, from which its 128-period boundaries count (DESIGN CHOICE, log entry 121). -/
def State.startFor (s : State) (b : ConvBlock) (t : Tick) : Tick :=
  if s.clk.align && !convCont b.conv then gridFrom b.alignedStart b.cycle t
  else gridFrom (s.clk.modPhase.setWidth 64) 32 t

/-- The tick at which a change of source n takes effect: the next step boundary of any converter whose active configuration
names it, a 128-period boundary in continuous mode; where none names it, the next modulator period (R193). -/
def State.excBoundary (s : State) (n : Nat) : Tick :=
  let of (c : Fin 4) : List Tick :=
    let q := s.aux.conv[c]
    if !s.convScans c || !q.act.names n then []
    else (List.range q.act.slots).map fun i => q.boundary i s.nextMod
  match of 0 ++ of 1 ++ of 2 ++ of 3 with
  | [] => s.nextMod
  | t :: ts => ts.foldl (fun a b => if 0 < (a - b).toInt then b else a) t

end Sys2Proof.Machine
end

