-- ==== Sys2Proof/Machine/Capture.lean ====
section
/-!
DEFINITION. The capture store: slots, recording, triggers, completion and the CAP_CTRL and directory writes (R275 to R281).
-/

namespace Sys2Proof.Machine

open Sys2Proof

/-- Number of slots of a SLOTS code (R275). -/
def slotCount (c : BitVec 3) : Nat := if c = 0#3 then 16 else if c = 1#3 then 8 else if c = 2#3 then 4 else if c = 3#3 then 2 else 1

/-- Words of one slot (R276). -/
def slotWords (c : BitVec 3) : Nat := 524288 / slotCount c

/-- First table-space address of a slot (R276). -/
def slotBase (c : BitVec 3) (k : Nat) : Nat := 0x100000 + k * slotWords c

/-- Number of channels in a mask. -/
def popcount (m : BitVec 24) : Nat := countUpto (fun k => m.getLsbD k) 24

/-- Whole samples that the data area of a slot takes (R280). -/
def slotSamples (c : BitVec 3) (m : BitVec 24) : Nat := (slotWords c - 16) / max 1 (popcount m)

/-- A directory entry by its number. -/
def Cap.entry (c : Cap) (k : Nat) : Dir := if h : k < 16 then c.dir[k] else {}

/-- Update of a directory entry. -/
def Cap.modEntry (c : Cap) (k : Nat) (f : Dir → Dir) : Cap := if h : k < 16 then { c with dir := c.dir.set k (f c.dir[k]) } else c

/-- The lowest free slot: neither used nor being recorded (R278). -/
def Cap.lowestFree (c : Cap) : Option Nat :=
  firstFrom (fun k => !(c.entry k).used && !(c.recording.isSome && c.cur.toNat == k)) 0 (slotCount c.slots)

/-- FREE: the number of free slots (R275). -/
def Cap.free (c : Cap) : Nat :=
  countUpto (fun k => !(c.entry k).used && !(c.recording.isSome && c.cur.toNat == k)) (slotCount c.slots)

/-- Pre-trigger recording starts in the lowest free slot, whose header reads 0 until the capture completes; without a
free slot FULL is set (R276, R278). The fast group's rate code is the one its samples have. -/
def Cap.begin (c : Cap) (rate : BitVec 4) : Cap :=
  match c.lowestFree with
  | some k =>
    let b := slotBase c.slots k
    { c with
      full := false
      cur := BitVec.ofNat 4 k
      store := Mem.drop b (b + 15) c.store
      recording := some { mask := c.mask, src := c.src, pre := c.pre.toNat, post := c.post.toNat, rate := rate } }
  | none => { c with full := true, recording := none }

/-- The check of ARM = 1 (R277). -/
def Cap.armOk (c : Cap) : Bool :=
  c.mask != 0#24 && c.post != 0#24 &&
    decide ((c.pre.toNat + c.post.toNat) * popcount c.mask + 16 ≤ slotWords c.slots)

/-- Pre-trigger recording starts anew; while EN or CS is not On nothing is written, and it starts when they are On again (R278,
R438). `ports`: both are On. -/
def Cap.restart (c : Cap) (ports : Bool) (rate : BitVec 4) : Cap :=
  if ports then c.begin rate else { c with full := false, recording := none }

/-- A write of ARM = 1 while ARM is 0 (R277, R278); during a capture the new recording waits for its end. -/
def Cap.armOn (c : Cap) (ports : Bool) (rate : BitVec 4) : Cap :=
  if c.armOk then
    let c1 := { c with arm := true, err := false }
    if c.capturing then c1 else c1.restart ports rate
  else { c with err := true }

/-- Sign extension of a grain to a capture word (R276). -/
def grainWord (g : Grain) : Word := g.signExtend 32

/-- The words of one sample at index i of the data area, in ascending channel order (R276). -/
def Cap.putSample (c : Cap) (r : Recording) (grains : Vector Grain 24) : Mem :=
  let n := popcount r.mask
  let a := slotBase c.slots c.cur.toNat + 16 + r.next * n
  (foldUpto (fun (st : Mem × Nat) ch =>
    if r.mask.getLsbD ch then
      (Mem.put 0#32 st.1 st.2 (grainWord (grains.getD ch invalidGrain)), st.2 + 1)
    else st) (c.store, a) 24).1

/-- Samples at or after the trigger's instant among those recorded, when the latest lies at or after it (R278). -/
def samplesBack (r : Recording) (at_ : Tick) (period : Nat) : Nat :=
  let d := (r.lastT - at_).toInt
  if r.held = 0 ∨ d < 0 then 0 else min r.held (d.toNat / period + 1)

/-- The period of the samples a recording takes (R280). -/
def Recording.period (r : Recording) : Nat := if r.src then pathPeriod (rateCode r.rate) else 4096

/-- The trigger of a recording bound to its trigger sample as far as the samples recorded allow: PRE samples before it are kept and
POST from it on; those recorded behind the last of them are not kept (R278). -/
def bindTrigger (r : Recording) (t : Trigger) : Trigger :=
  let back := samplesBack r t.at_ r.period
  if t.sample.isSome ∨ back = 0 then t
  else { t with
    sample := some (r.lastT - BitVec.ofNat 64 ((back - 1) * r.period))
    kept := min r.pre (r.held - back)
    post := min r.post back
    extra := back - r.post }

/-- Recording is possible: CS and EN On, CLKEN.CAP 1 (R47, R290). -/
def State.capRuns (s : State) : Bool := s.isOn .cs && s.isOn .en && s.clken 7

/-- One sample of the capture source with acquisition instant t enters the recording; a capture that has its POST samples
takes no more (R278). The flags, UNTIMED, DEGRADED and UNSETTLED, are those the sample would carry in a frame (R280). -/
def State.recordSample (t : Tick) (grains : Vector Grain 24) (flags : BitVec 3) (s : State) : State :=
  match s.cap.recording with
  | none => s
  | some r =>
    let full := match r.trig with | some g => decide (r.post ≤ g.post) | none => false
    if !s.capRuns || full then s
    else
      let n := slotSamples s.cap.slots r.mask
      let store := s.cap.putSample r grains
      let r1 := { r with next := (r.next + 1) % max 1 n, held := min n (r.held + 1), lastT := t,
                         flags := (flags :: r.flags).take n }
      let trig := match r.trig with
        | some g =>
          if g.sample.isSome then some { g with post := g.post + 1 } else some (bindTrigger r1 g)
        | none => none
      s.modCap fun c => { c with store := store, recording := some { r1 with trig := trig } }

/-- EN and CS are On, so that the capture store can be written (R438). -/
def State.capPorts (s : State) : Bool := s.isOn .en && s.isOn .cs

/-- A trigger that is ignored is counted, in a word of CS, and signalled (R279, R438). -/
def State.missTrigger (s : State) : State :=
  s.modCap fun c => { c with missed := if s.isOn .cs then satInc c.missed else c.missed, capMiss := true }

/-- A trigger (R278, R279). One that comes while ARM is 1 and CLKEN.CAP is 0, so that no recording runs, starts a capture like any
other: its samples come once the block is clocked again (R88 and R279 name no outcome; DESIGN CHOICE, log entry 116). Triggers
that arrive at one tick are simultaneous: the capture keeps the instant of the one made first, and takes SOURCE with its header
words 8 and 9 from the lowest (which instant it is that several have is not stated; DESIGN CHOICE, log entry 136). -/
def State.trigger (source : BitVec 8) (at_ : Tick) (came : Tick) (r8 r9 : Word) (s : State) : State :=
  match s.cap.recording with
  | none => s.missTrigger
  | some r =>
    if !s.cap.arm || s.cap.full then s.missTrigger
    else
      match r.trig with
      | none =>
        s.modCap fun c =>
          { c with
            capturing := true
            triggers := satInc c.triggers
            recording := some { r with trig := some (bindTrigger r ⟨came, at_, source, r8, r9, none, 0, 0, 0⟩) } }
      | some g =>
        if g.came = came then
          if source < g.source then
            s.modCap fun c => { c with recording := some { r with trig := some { g with source := source, r8 := r8, r9 := r9 } } }
          else s
        else s.missTrigger

/-- A trigger of a recogniser (R258): those that report on one sample issue one trigger between them, which is ignored once. -/
def State.recogTrigger (source : BitVec 8) (at_ : Tick) (came : Tick) (r8 r9 : Word) (s : State) : State :=
  let missed := s.cap.capturing && s.cap.recording.any fun r => r.trig.any fun g => g.came != came
  if s.cap.recogAt = some came ∧ (missed ∨ !s.cap.capturing) then s
  else (s.trigger source at_ came r8 r9).modCap fun c => { c with recogAt := some came }

/-- The 16 header words of a capture (R280). The flags are those of the samples kept and recorded. -/
def Cap.header (c : Cap) (r : Recording) (g : Trigger) (at_ : Tick) (aborted : Bool) : List Word :=
  let n := slotSamples c.slots r.mask
  let oldest := if n = 0 then 0 else (r.next + 2 * n - (g.kept + g.post + g.extra)) % n
  let flags := ((r.flags.drop g.extra).take (g.kept + g.post)).foldl (· ||| ·) 0#3
  [fld g.source 0 ||| BitVec.ofNat 32 (popcount r.mask * 256) ||| fld (if r.src then r.rate else 0#4) 16 ||| flg r.src 20 |||
     flg (decide (g.kept < r.pre)) 21 ||| flg aborted 22 ||| fld flags 23,
   fld r.mask 0, BitVec.ofNat 32 g.kept, BitVec.ofNat 32 g.post, lowWord at_, highWord at_, BitVec.ofNat 32 oldest, c.seq,
   g.r8, g.r9, 0#32, 0#32, 0#32, 0#32, 0#32, 0#32]

/-- The rate code of the fast group. -/
def State.fastCode (s : State) : BitVec 4 := BitVec.ofNat 4 (rateCode s.buf.fast.rate)

/-- A capture completes: header, USED, CAP_DONE, SEQ; recording restarts while ARM stays 1 (R278, R281). When ABORT comes before
the trigger sample, all samples held lie before it, and its instant is a free value. -/
def State.completeCapture (aborted : Bool) (s : State) : State :=
  match s.cap.recording with
  | none => s
  | some r =>
    match r.trig with
    | none => s
    | some g =>
      let g := if g.sample.isSome then g else { g with kept := min r.pre r.held }
      let c := s.cap
      let at_ := g.sample.getD (Config.noTriggerSample s.fresh)
      let c1 := { c.modEntry c.cur.toNat fun d => { d with used := true, spilled := false } with
        store := Mem.putList 0#32 c.store (slotBase c.slots c.cur.toNat) (c.header r g at_ aborted)
        seq := c.seq + 1#32
        capDone := true
        capturing := false
        recording := none
        arm := c.arm && !aborted }
      { s with cap := if c1.arm then c1.restart s.capPorts s.fastCode else c1, fresh := s.fresh + 1 }

/-- ABORT (R281): a capture ends as ABORTED, pre-trigger data are discarded, ARM is cleared. -/
def State.abortCapture (s : State) : State :=
  match s.cap.recording with
  | none => s.modCap fun c => { c with arm := false, full := false }
  | some r =>
    if r.trig.isSome then (s.completeCapture true).modCap fun c => { c with arm := false, full := false }
    else s.modCap fun c => { c with arm := false, full := false, recording := none }

/-- The fast group's rate code has changed while SRC is 1: a capture in progress is aborted and pre-trigger recording
restarts (R281). -/
def State.capRateChange (s : State) : State :=
  match s.cap.recording with
  | none => s
  | some r =>
    if !r.src then s
    else
      let armed := s.cap.arm
      let t := if r.trig.isSome then s.completeCapture true else s.modCap fun c => { c with recording := none }
      t.modCap fun c => if armed then { c with arm := true }.restart s.capPorts s.fastCode else c

/-- A change of SLOTS, effective while ARM and CAPTURING are 0: every slot is released and its contents discarded (R275). -/
def Cap.setSlots (c : Cap) (v : BitVec 3) : Cap :=
  if v = c.slots ∨ c.arm ∨ c.capturing then c
  else { c with slots := v, dir := Vector.replicate 16 {}, store := [], full := false, recording := none }

/-- RELEASE of a slot: ignored for the slot being recorded and for the slot being analysed; a recording that waits for a
free slot starts (R277, R278, R308). -/
def State.releaseSlot (k : Nat) (s : State) : State :=
  let analysed := s.spec.mode == .capture && s.spec.anSlot.toNat == k
  if (s.cap.recording.isSome && s.cap.cur.toNat == k) || analysed then s
  else
    s.modCap fun c =>
      let c := c.modEntry k fun _ => {}
      if c.full && c.arm then c.restart s.capPorts s.fastCode else c

/-- A write of CAP_CTRL (R43, R275, R277, R281, R308). What the capture was before the write decides whether OWNER and SLOTS take
effect; ABORT acts before ARM and TRIG. While EN is not On a trigger is not seen and nothing is written (R438). -/
def State.writeCapCtrl (w : Word) (s : State) : State :=
  let analysing := s.spec.mode == .capture
  let owner := if s.cap.capturing || analysing then s.cap.owner else bitAt w 3
  let s := s.modCap fun c => { (if analysing then c else c.setSlots (bits w 4 3)) with spillAuto := bitAt w 7, owner := owner }
  let s := if bitAt w 2 then s.abortCapture else s
  let s := s.modCap fun c =>
    if bitAt w 2 then c
    else if bitAt w 0 then (if c.arm then c else c.armOn s.capPorts s.fastCode)
    else if c.capturing then { c with arm := false }
    else { c with arm := false, full := false, recording := none }
  if bitAt w 1 && s.isOn .en then s.trigger 0#8 (s.clk.tsc + 1#64) s.clk.tsc 0#32 0#32 else s

/-- CAP_CTRL (R275). -/
def State.capCtrl (s : State) : Word :=
  let c := s.cap
  flg c.arm 0 ||| flg c.owner 3 ||| fld c.slots 4 ||| flg c.spillAuto 7 ||| flg c.err 8 ||| flg c.capturing 9 |||
  flg c.full 10 ||| fld c.cur 16 ||| BitVec.ofNat 32 (c.free * 2 ^ 20)

/-- A directory word (R277). -/
def Cap.dirWord (c : Cap) (k : Nat) : Word :=
  flg (c.entry k).used 0 ||| flg (c.entry k).spilled 1 ||| flg (c.recording.isSome && c.cur.toNat == k) 3

/-- The RW fields of CAP_CTRL as they stand, for a write that changes one of them. -/
def State.capKeep (s : State) : Word :=
  flg s.cap.arm 0 ||| flg s.cap.owner 3 ||| fld s.cap.slots 4 ||| flg s.cap.spillAuto 7

/-- CAPTURE_DONE (R278): POST samples have been recorded. -/
def execCaptureDone (s : State) : Host.Outcome State Fault Refusal :=
  let due := match s.cap.recording with
    | some r => (match r.trig with | some g => decide (r.post ≤ g.post) | none => false)
    | none => false
  event (due && s.hasSm) s (s.completeCapture false)

end Sys2Proof.Machine
end

