-- ==== Sys2Proof/Machine/Float.lean ====
section
/-!
DEFINITION. The binary32 arithmetic of R221: round to nearest even, fused multiply-adds rounded once, subnormal operands
and results flushed to zero. A NaN of any bit pattern is one value here; results name it 0x7FC0_0000.
-/

namespace Sys2Proof.Machine

open Sys2Proof

/-- A decoded binary32 operand: NaN, infinity, or the exact number ±m · 2^e. -/
inductive Fl where
  | nan
  | inf (neg : Bool)
  | fin (neg : Bool) (m : Nat) (e : Int)
deriving DecidableEq, Repr

/-- The NaN the module's results name. -/
def fNan : Word := 0x7FC00000#32

/-- Infinity of a sign. -/
def fInf (neg : Bool) : Word := if neg then 0xFF800000#32 else 0x7F800000#32

/-- Zero of a sign. -/
def fZero (neg : Bool) : Word := if neg then 0x80000000#32 else 0#32

/-- Decoding, with a subnormal operand taken as zero of its sign (R221). -/
def fDecode (w : Word) : Fl :=
  let neg := bitAt w 31
  let ex := (bits w 23 8).toNat
  let fr := (bits w 0 23).toNat
  if ex = 255 then (if fr = 0 then .inf neg else .nan)
  else if ex = 0 then .fin neg 0 0
  else .fin neg (2 ^ 23 + fr) ((ex : Int) - 150)

/-- A NaN or an infinity (R237, R243). -/
def fNonFinite (w : Word) : Bool := bits w 23 8 = 255#8

/-- A NaN. -/
def fIsNan (w : Word) : Bool := fNonFinite w && decide (bits w 0 23 ≠ 0#23)

/-- m / 2^k rounded to the nearest integer, ties to even. -/
def rneShift (m k : Nat) : Nat :=
  let q := m / 2 ^ k
  let r := m % 2 ^ k
  if 2 ^ k < 2 * r ∨ (2 * r = 2 ^ k ∧ q % 2 = 1) then q + 1 else q

/-- ±m · 2^e rounded once to binary32, subnormal results flushed to zero with the sign of the exact result (R221). -/
def fRound (neg : Bool) (m : Nat) (e : Int) : Word :=
  if m = 0 then fZero neg
  else
    let l := Nat.log2 m
    let q := if l ≤ 23 then m * 2 ^ (23 - l) else rneShift m (l - 23)
    let ex : Int := e + (l : Int) + (if q = 2 ^ 24 then 1 else 0)
    let fr := if q = 2 ^ 24 then 0 else q - 2 ^ 23
    if ex < -126 then fZero neg
    else if 127 < ex then fInf neg
    else fld (BitVec.ofBool neg) 31 ||| BitVec.ofNat 32 ((ex + 127).toNat * 2 ^ 23 + fr)

/-- The integer (±m) · 2^k. -/
def signedShift (neg : Bool) (m k : Nat) : Int := if neg then -((m * 2 ^ k : Nat) : Int) else ((m * 2 ^ k : Nat) : Int)

/-- A sum of two exact numbers, rounded once; an exact zero from operands of unlike signs is +0. -/
def fAddExact (n1 : Bool) (m1 : Nat) (e1 : Int) (n2 : Bool) (m2 : Nat) (e2 : Int) : Word :=
  let e := if m1 = 0 then e2 else if m2 = 0 then e1 else min e1 e2
  let a := signedShift n1 m1 (if m1 = 0 then 0 else (e1 - e).toNat)
  let b := signedShift n2 m2 (if m2 = 0 then 0 else (e2 - e).toNat)
  let t := a + b
  if t = 0 then fZero (n1 && n2 && m1 == 0 && m2 == 0) else fRound (decide (t < 0)) t.natAbs e

/-- fma(a, b, c) = a · b + c, rounded once (R221). -/
def fma (a b c : Word) : Word :=
  match fDecode a, fDecode b, fDecode c with
  | .nan, _, _ => fNan
  | _, .nan, _ => fNan
  | _, _, .nan => fNan
  | .inf x, .inf y, z => fmaInf (x != y) z
  | .inf x, .fin y m _, z => if m = 0 then fNan else fmaInf (x != y) z
  | .fin x m _, .inf y, z => if m = 0 then fNan else fmaInf (x != y) z
  | .fin _ _ _, .fin _ _ _, .inf z => fInf z
  | .fin x m1 e1, .fin y m2 e2, .fin z m3 e3 => fAddExact (x != y) (m1 * m2) (e1 + e2) z m3 e3
where
  /-- An infinite product plus a third operand. -/
  fmaInf (neg : Bool) : Fl → Word
    | .inf z => if z = neg then fInf neg else fNan
    | _ => fInf neg

/-- a · b, rounded once. -/
def fMul (a b : Word) : Word :=
  match fDecode a, fDecode b with
  | .nan, _ => fNan
  | _, .nan => fNan
  | .inf x, .inf y => fInf (x != y)
  | .inf x, .fin y m _ => if m = 0 then fNan else fInf (x != y)
  | .fin x m _, .inf y => if m = 0 then fNan else fInf (x != y)
  | .fin x m1 e1, .fin y m2 e2 => fRound (x != y) (m1 * m2) (e1 + e2)

/-- The sign changed. -/
def fNeg (a : Word) : Word := a ^^^ 0x80000000#32

/-- An integer times 2^e as binary32. -/
def fOfInt (i : Int) (e : Int) : Word := fRound (decide (i < 0)) i.natAbs e

/-- A grain times 2^-23 (R231). -/
def fOfGrain (g : Grain) : Word := fOfInt (grainInt g) (-23)

/-- The largest r below 2^n with r · r ≤ m, one bit at a time from the highest. -/
def isqrt (m : Nat) : Nat → Nat → Nat
  | 0, r => r
  | n + 1, r => isqrt m n (if (r + 2 ^ n) * (r + 2 ^ n) ≤ m then r + 2 ^ n else r)

/-- The square root of a number that is not negative, rounded once. -/
def fSqrt (a : Word) : Word :=
  match fDecode a with
  | .nan => fNan
  | .inf neg => if neg then fNan else fInf false
  | .fin neg m e =>
    if m = 0 then fZero neg
    else if neg then fNan
    else
      let odd := e % 2 = 1
      let m' := (if odd then 2 * m else m) * 2 ^ 40
      let e' := (if odd then e - 1 else e) - 40
      let r := isqrt m' 33 0
      let sticky := if r * r = m' then 0 else 1
      fRound false (2 * r + sticky) (e' / 2 - 1)

/-- Sign, magnitude and exponent compared: a < b for numbers that are not NaN. -/
def fLt (a b : Word) : Bool :=
  match fDecode a, fDecode b with
  | .nan, _ => false
  | _, .nan => false
  | .inf x, .inf y => x && !y
  | .inf x, .fin _ _ _ => x
  | .fin _ _ _, .inf y => !y
  | .fin x m1 e1, .fin y m2 e2 =>
    let e := min e1 e2
    decide (signedShift x m1 (e1 - e).toNat < signedShift y m2 (e2 - e).toNat)

/-- ±m · 2^e rounded to an integer, ties to even. -/
def rneInt (neg : Bool) (m : Nat) (e : Int) : Int :=
  let q : Nat := if 0 ≤ e then m * 2 ^ e.toNat else rneShift m (-e).toNat
  if neg then -(q : Int) else (q : Int)

/-- The largest exponent a finite shift of rneInt is taken for: a larger number lies beyond every clamp here. -/
def fToIntScaled (w : Word) (scale : Int) : Option Int :=
  match fDecode w with
  | .fin neg m e => some (rneInt neg m (e + scale))
  | _ => none

/-- Stage 8 (R245): y · 2^23 rounded to a grain, ties to even, clamped to ±(2^23 − 1); the flag is OUT_CLAMP. -/
def toGrain (y : Word) : Grain × Bool :=
  match fDecode y with
  | .nan => (invalidGrain, true)
  | .inf neg => (if neg then intGrain (-(2 ^ 23 - 1)) else intGrain (2 ^ 23 - 1), true)
  | .fin neg m e =>
    let i := rneInt neg m (e + 23)
    if i < -(2 ^ 23 - 1) then (intGrain (-(2 ^ 23 - 1)), true)
    else if 2 ^ 23 - 1 < i then (intGrain (2 ^ 23 - 1), true)
    else (intGrain i, false)

/-- The clamp of R233 to [−1, 1 − 2^−23]; none for a NaN. The flag is LIN_CLAMP. -/
def linClampTo (y : Word) : Option Word × Bool :=
  if fIsNan y then (none, true)
  else if fLt y 0xBF800000#32 then (some 0xBF800000#32, true)
  else if fLt (fOfInt (2 ^ 23 - 1) (-23)) y then (some (fOfInt (2 ^ 23 - 1) (-23)), true)
  else (some y, false)

/-- A vector magnitude of R250 in binary32, from three numbers i · 2^−k; rounded to a grain, saturating at 0x7F_FFFF. The rule fixes
neither the order of the sum of squares nor the rounding to a grain: x · x is rounded, y² and z² are added fused in this order, and
the root is rounded to nearest, ties to even (DESIGN CHOICE, log entry 137). -/
def magnitude (x y z : Int × Int) : Grain :=
  let fx := fOfInt x.1 x.2
  let fy := fOfInt y.1 y.2
  let fz := fOfInt z.1 z.2
  let r := fSqrt (fma fz fz (fma fy fy (fMul fx fx)))
  match fDecode r with
  | .fin _ m e => let i := rneInt false m e; if 0x7FFFFF ≤ i then 0x7FFFFF#24 else intGrain i
  | _ => 0x7FFFFF#24

end Sys2Proof.Machine
end

