-- ==== Sys2Proof/Machine/Exact.lean ====
section
/-!
DEFINITION. The numbers that the manual defines over the reals (R271, R273, R295 to R298): cosine and square root to 240 bits of
fraction, and a real number as an integer or a binary32 word, rounded up or down as a free value says, for the manual states no
rounding there.
-/

namespace Sys2Proof.Machine

open Sys2Proof

/-- One, with 240 bits of fraction. -/
def fixOne : Nat := 2 ^ 240

/-- π with 240 bits of fraction. -/
def fixPi : Int := 5550713758724461735233077129787137796835226094488409880962709825408003150

/-- The terms of the cosine series from number n on: t is that term and x2 the square of the angle. -/
def cosTerms (x2 : Int) : Nat → Nat → Int → Int
  | 0, _, _ => 0
  | fuel + 1, n, t => t + cosTerms x2 fuel (n + 1) (-(t * x2) / ((fixOne * ((2 * n + 1) * (2 * n + 2)) : Nat) : Int))

/-- The cosine of an angle of at most 2π, both with 240 bits of fraction. -/
def fixCos (x : Int) : Int := cosTerms (x * x / (fixOne : Int)) 64 0 (fixOne : Int)

/-- The cosine of m/n of a turn; exact at the quarters. -/
def cosTurn (m n : Nat) : Rat :=
  let r := m % n
  if 4 * r % n = 0 then (match 4 * r / n with | 0 => 1 | 2 => -1 | _ => 0)
  else (fixCos (2 * fixPi * (r : Int) / (n : Int)) : Rat) / (fixOne : Rat)

/-- The sine of m/n of a turn. -/
def sinTurn (m n : Nat) : Rat := cosTurn (4 * m + 3 * n) (4 * n)

/-- The square root of a number that is not negative, cut to 240 bits of fraction; exact where these hold it. -/
def fixSqrt (q : Rat) : Rat :=
  let m := q.num.toNat * 2 ^ 480 / q.den
  ((isqrt m (Nat.log2 m / 2 + 1) 0 : Nat) : Rat) / (fixOne : Rat)

/-- The number a binary32 word holds; none for a NaN or an infinity. -/
def ratOf (w : Word) : Option Rat :=
  let ex := (bits w 23 8).toNat
  let fr := (bits w 0 23).toNat
  if ex = 255 then none
  else
    let m : Nat := if ex = 0 then fr else 2 ^ 23 + fr
    let v : Rat := ((m * 2 ^ (max ex 1) : Nat) : Rat) / ((2 ^ 150 : Nat) : Rat)
    some (if bitAt w 31 then -v else v)

/-- num / den as an integer: exact where it divides, else rounded as the free value says (Config.roundUp). -/
def quotient (num : Int) (den : Nat) : Int :=
  let q := num / (den : Int)
  if num % (den : Int) = 0 then q else if Config.roundUp num den then q + 1 else q

/-- A real number as a binary32 word: itself where it is one, else one of the two neighbours (Config.roundFree); beyond the
largest an infinity, below the least normal number zero. -/
def wordOf (q : Rat) : Word :=
  if q = 0 then 0#32
  else
    let n := q.num.natAbs
    let d := q.den
    let s : Int := 24 + (Nat.log2 d : Int) - (Nat.log2 n : Int)
    let n' := if 0 ≤ s then n * 2 ^ s.toNat else n
    let d' := if 0 ≤ s then d else d * 2 ^ (-s).toNat
    let big := decide (d' * 2 ^ 24 ≤ n')
    let d' := if big then 2 * d' else d'
    let m := n' / d'
    let up := n' % d' ≠ 0 && Config.roundFree q
    fRound (decide (q < 0)) (if up then m + 1 else m) (if big then 1 - s else -s)

/-- The component x of a vector of squared length n2, divided by the length. -/
def unitOf (x n2 : Rat) : Rat := let r := fixSqrt (x * x / n2); if x < 0 then -r else r

end Sys2Proof.Machine
end

