-- ==== Sys2Proof/Machine/Spectral.lean ====
section
/-!
DEFINITION. The spectral engine (R290 to R314): configuration, inputs, segments, envelopes, windows, estimates, averages, band
energies, publication, interruptions and its registers. The estimates are those of R296 over the numbers, with cosine and square
root to 240 bits; a word holds one of the two neighbours of its number (Exact.lean).
-/

namespace Sys2Proof.Machine

open Sys2Proof

/-! ### Fields of the configuration words (R313) -/

/-- Transform length N (R293). -/
def SpecCfg.len (c : SpecCfg) : Nat := 1024 * 2 ^ (bits c.cfg 0 3).toNat
/-- WINDOW. -/
def SpecCfg.window (c : SpecCfg) : Nat := (bits c.cfg 3 3).toNat
/-- OVERLAP. -/
def SpecCfg.overlap (c : SpecCfg) : BitVec 2 := bits c.cfg 6 2
/-- AVG_MODE: exponential. -/
def SpecCfg.expo (c : SpecCfg) : Bool := bitAt c.cfg 8
/-- COH. -/
def SpecCfg.coh (c : SpecCfg) : Bool := bitAt c.cfg 9
/-- UPDATE. -/
def SpecCfg.update (c : SpecCfg) : Nat := (bits c.cfg 16 8).toNat
/-- Hop H (R293). -/
def SpecCfg.hop (c : SpecCfg) : Nat := c.len / 2 ^ c.overlap.toNat
/-- BIN_FIRST. -/
def SpecCfg.first (c : SpecCfg) : Nat := (bits c.span 0 16).toNat
/-- BINS. -/
def SpecCfg.bins (c : SpecCfg) : Nat := (bits c.span 16 10).toNat
/-- Input word k. -/
def SpecCfg.input (c : SpecCfg) (k : Nat) : Word := c.inputs.getD k 0#32
/-- Input k is enabled. -/
def SpecCfg.enabled (c : SpecCfg) (k : Nat) : Bool := bitAt (c.input k) 5
/-- Channel of input k. -/
def SpecCfg.channel (c : SpecCfg) (k : Nat) : Nat := (bits (c.input k) 0 5).toNat
/-- Input k is an envelope. -/
def SpecCfg.envelope (c : SpecCfg) (k : Nat) : Bool := bitAt (c.input k) 6
/-- Number of enabled inputs. -/
def SpecCfg.inputCount (c : SpecCfg) : Nat := countUpto c.enabled 8
/-- Number of enabled pairs. -/
def SpecCfg.pairCount (c : SpecCfg) : Nat := countUpto (fun p => c.pairs.getLsbD p) 28
/-- Number of enabled envelope inputs. -/
def SpecCfg.envCount (c : SpecCfg) : Nat := countUpto (fun k => c.enabled k && c.envelope k) 8

/-- The number of the pair (i, j), i < j (R305). -/
def pairIndex (i j : Nat) : Nat := i * (15 - i) / 2 + j - i - 1

/-- PAIRS names a pair with a disabled input (R309). -/
def SpecCfg.badPair (c : SpecCfg) : Bool :=
  anyUpto (fun i => anyUpto (fun j =>
    decide (i < j) && c.pairs.getLsbD (pairIndex i j) && !(c.enabled i && c.enabled j)) 8) 8

/-- EN cycles of one segment (R300). -/
def SpecCfg.cycles (c : SpecCfg) : Nat :=
  c.inputCount * c.len * (8 * (10 + (bits c.cfg 0 3).toNat) + 8) + 8 * c.pairCount * c.bins + 16 * c.envCount * c.hop + 20000

/-- Words of a result (R305): the cross section starts after the spectra, the coherence section after it. -/
def SpecCfg.crossAt (c : SpecCfg) : Nat := 64 + c.bins * c.inputCount
/-- Start of the coherence section. -/
def SpecCfg.cohAt (c : SpecCfg) : Nat := c.crossAt + 2 * c.bins * c.pairCount
/-- Total words. -/
def SpecCfg.total (c : SpecCfg) : Nat := c.cohAt + (if c.coh then c.bins * c.pairCount else 0)

/-- The checks of R309 that do not depend on the mode; the lowest value that applies. -/
def SpecCfg.check (c : SpecCfg) : BitVec 3 :=
  let badCfg := decide (6 < (bits c.cfg 0 3).toNat) || decide (4 < c.window) || c.overlap == 3#2
  let badSpan := decide (c.bins < 1 ∨ 768 < c.bins ∨ c.len / 2 < c.first + c.bins - 1)
  let badAvg := if c.expo then bits c.cfg 12 4 == 0#4 || decide (c.update = 0) else c.avg == 0#16
  let badEnv := anyUpto (fun k => c.enabled k && c.envelope k &&
    (let hp := (bits (c.input k) 8 4).toNat; decide (hp < 2 ∨ 8 < hp))) 8
  if badCfg || badSpan || badAvg || badEnv then 1#3
  else if c.inputCount = 0 || c.badPair then 2#3
  else 0#3

/-- Number of segments of the capture in a slot (R307). -/
def State.capSegments (s : State) (k : Nat) : Nat :=
  let b := slotBase s.cap.slots k
  let n := (bits (Mem.get 0#32 s.cap.store (b + 2)) 0 24).toNat + (bits (Mem.get 0#32 s.cap.store (b + 3)) 0 24).toNat
  let c := s.spec.stage
  if n < c.len then 0 else (n - c.len) / max 1 c.hop + 1

/-- The check of CAP_GO for a slot (R309). -/
def State.capGoCheck (s : State) (k : Nat) : BitVec 3 :=
  let c := s.spec.stage
  let mask : BitVec 24 := bits (Mem.get 0#32 s.cap.store (slotBase s.cap.slots k + 1)) 0 24
  if c.check ≠ 0#3 then c.check
  else if s.spec.mode = .stream then 3#3
  else if !s.clken 7 || !(s.cap.entry k).used || (s.cap.recording.isSome && s.cap.cur.toNat == k) then 4#3
  else if anyUpto (fun i => c.enabled i && !mask.getLsbD (c.channel i)) 8 then 5#3
  else if s.capSegments k = 0 then 6#3
  else 0#3

/-! ### Starting, stopping, interruptions -/

/-- A counter of TS 0x00_B010 (0 SEGMENTS, 1 DROP_INVALID, 2 DROP_LATE, 3 PUBLISHED, 4 OVERWRITTEN, 5 ABANDONED) after one
more event (R314). -/
def Spec.count (x : Spec) (k : Nat) : Spec := { x with counts := x.counts.setIfInBounds k (satInc (x.counts.getD k 0#32)) }

/-- The average in progress is empty. -/
def Spec.clearAvg (x : Spec) : Spec :=
  { x with segs := 0, sincePub := 0, firstT := 0#64, lastT := 0#64, flags := 0#3, acc := [], capSeen := 0 }

/-- The average or analysis in progress is empty, and so are the segments collected: they restart (R293, R298). -/
def Spec.clearWork (x : Spec) : Spec :=
  { x.clearAvg with win := [], env := Vector.replicate 8 {}, lateSeg := false, seg := none }

/-- The average or analysis in progress is discarded and counted in ABANDONED (R311). -/
def Spec.abandon (x : Spec) (evt : Bool) : Spec :=
  { (x.count 5).clearWork with abortEvt := x.abortEvt || evt }

/-- A capture-mode analysis ends without a result (R311). -/
def Spec.endCapture (x : Spec) (evt : Bool) : Spec :=
  if x.mode = .capture then { x.abandon evt with mode := .idle, capWait := false } else x

/-- Stream mode abandons its work and goes on (R311). -/
def Spec.abandonStream (x : Spec) (evt : Bool) : Spec := if x.mode = .stream then x.abandon evt else x

/-- Coast begins: stream mode abandons its work and waits for the lock of PLL-M (R311). -/
def Spec.coast (x : Spec) : Spec := if x.mode = .stream then { x.abandon true with waiting := true } else x

/-- CLKEN.SPEC is cleared (R311). -/
def Spec.gateOff (x : Spec) : Spec :=
  match x.mode with
  | .stream => x.abandon true
  | .capture => x.endCapture true
  | .idle => x

/-- The configuration in force at a start (R310), with CYCLES (R300) and ERR 0 (R309). -/
def Spec.begin (x : Spec) (m : SpecMode) : Spec :=
  { x.clearWork with
    mode := m
    act := x.stage
    err := 0#3
    cycles := BitVec.ofNat 32 x.stage.cycles }

/-- The window switches to the newest result while HOLD is 0 (R302). -/
def Spec.show (x : Spec) : Spec := if x.hold then x else { x with shown := x.newest }

/-- EN leaves On, or SP enters Retain; the window follows HOLD (R302, R311). -/
def Spec.stopEngine (x : Spec) : Spec :=
  match x.mode with
  | .stream => { x.abandon true with mode := .idle, hold := false, waiting := false }.show
  | .capture => { x.endCapture true with hold := false }.show
  | .idle => x

/-- NEWER: a newer result than the shown one exists while HOLD is 1 (R302). -/
def Spec.newer (x : Spec) : Bool := x.hold && x.newest.id != x.shown.id

/-- Stream mode ends and abandons its work without ABORT_EVT (R311). -/
def Spec.stopStream (x : Spec) : Spec := { x.abandon false with mode := .idle, waiting := false }

/-- A write of RUN = 1 (R291, R309, R310, R311): the configuration is checked at each one. Where the check fails RUN reads 0, so that
an engine that runs stops as at a write of RUN = 0; where it passes such an engine goes on with the words it copied at its
start (DESIGN CHOICE, log entry 119). -/
def State.specRun (s : State) : State :=
  s.modSpec fun x =>
    let e := x.stage.check
    match x.mode with
    | .stream => if e ≠ 0#3 then { x.stopStream with err := e } else x
    | .capture => { x with err := if e ≠ 0#3 then e else 3#3 }
    | .idle =>
      if e ≠ 0#3 then { x with err := e }
      else { x.begin .stream with waiting := s.clk.coast, rate := BitVec.ofNat 4 (rateCode s.buf.fast.rate) }

/-- A write of CAP_GO = 1 (R307, R308, R309): checked at each one. During an analysis the check can only set ERR: the analysis goes on
(DESIGN CHOICE, log entry 119). -/
def State.specCapGo (s : State) : State :=
  let k := s.spec.capSlot.toNat
  let e := s.capGoCheck k
  if e ≠ 0#3 then s.modSpec fun x => { x with err := e }
  else if s.spec.mode = .capture then s
  else
    let q := s.capSegments k
    let rate : BitVec 4 := bits (Mem.get 0#32 s.cap.store (slotBase s.cap.slots k)) 16 4
    let wait := !s.isOn .cs
    let s := s.modSpec fun x => { x.begin .capture with anSlot := x.capSlot, capWait := wait, capTotal := q, rate := rate }
    if wait then s.demand .cs else s

/-- A write of SPEC_CTRL (R302, R307, R309, R311, R312). -/
def State.writeSpecCtrl (w : Word) (s : State) : State :=
  let s := s.modSpec fun x => { x with hold := bitAt w 3, page := bitAt w 4, capSlot := bits w 8 4 }.show
  let s := if bitAt w 2 then s.modSpec fun x => x.endCapture false else s
  let s :=
    if bitAt w 0 then s.specRun
    else if s.spec.mode = .stream then s.modSpec Spec.stopStream
    else s
  let s := if bitAt w 1 then s.specCapGo else s
  s.refreshPaths

/-- SPEC_CTRL (R312). -/
def Spec.ctrl (x : Spec) : Word :=
  flg (x.mode == .stream) 0 ||| flg x.hold 3 ||| flg x.page 4 ||| fld x.capSlot 8

/-- SEQ of a bank: 0 before the first publication (R304). -/
def Bank.seq (b : Bank) : BitVec 16 := bits (b.hdr.getD 0 0#32) 0 16

/-- SPEC_STAT (R312). -/
def Spec.stat (x : Spec) : Word :=
  flg (x.mode != .idle) 0 ||| flg (x.mode == .capture) 1 ||| flg x.doneEvt 2 ||| flg x.abortEvt 3 ||| flg x.newer 4 |||
  fld x.err 5 ||| flg x.waiting 8 ||| fld x.shown.seq 16

/-- A write of SPEC_STAT: W1C bits (R312). -/
def State.writeSpecStat (w : Word) (s : State) : State :=
  s.modSpec fun x => { x with doneEvt := w1c x.doneEvt w 2, abortEvt := w1c x.abortEvt w 3 }

/-- The engine's domains are On, its block is clocked and SM runs (R290). -/
def State.specClocked (s : State) : Bool := s.isOn .sp && s.isOn .en && s.clken 5 && s.hasSm

/-! ### Envelopes (R298) -/

/-- The number of a grain; none where it is invalid (R296). -/
def grainRat (g : Grain) : Option Rat := if g = invalidGrain then none else some ((grainInt g : Rat) / (2 ^ 23 : Nat))

/-- ENV_HP of an input. -/
def SpecCfg.envHp (c : SpecCfg) (k : Nat) : Nat := (bits (c.input k) 8 4).toNat

/-- Σ c_k v_k over a list, from number k on. -/
def tapSum (c : Nat → Rat) : Nat → List Rat → Rat
  | _, [] => 0
  | k, v :: vs => c k * v + tapSum c (k + 1) vs

/-- The product of two polynomials, lowest power first. -/
def polyMul : List Rat → List Rat → List Rat
  | [], _ => []
  | a :: as, bs => List.zipWithAll (fun x y => x.getD 0 + y.getD 0) (bs.map (a * ·)) (0 :: polyMul as bs)

/-- Coefficients of the high-pass of R298 by ENV_HP, in the order b0 to b4, a1 to a4: the digital filter of fourth order that has all
its zeros at 0, is maximally flat at f/2 and has half its power at f/2^ENV_HP, as two second-order sections of the Butterworth angles
π/8 and 3π/8 (DEDUCED, log entry 129). -/
def envHighPass (hp k : Nat) : Rat :=
  let w := sinTurn 1 (2 ^ (hp + 1)) / cosTurn 1 (2 ^ (hp + 1))
  let section_ (m : Nat) : List Rat :=
    let q := 2 * cosTurn m 16 * w
    [1 + q + w * w, 2 * (w * w - 1), 1 - q + w * w]
  let den := polyMul (section_ 1) (section_ 3)
  let num : List Rat := [1, -4, 6, -4, 1]
  (if k < 5 then num.getD k 0 else den.getD (k - 4) 0) / den.getD 0 1

/-- Tap k of the Hilbert filter of 255 taps (R298): 2/(π m) at an odd distance m from its middle and 0 at an even one, weighted by a
window that the manual leaves open. -/
def hilbertTap (k : Nat) : Rat :=
  let m : Int := (k : Int) - 127
  if m % 2 = 0 then 0 else 2 * (fixOne : Rat) / (fixPi * m) * Config.hilbertWeight m.natAbs

/-- One sample of an envelope input: the high-pass, and the envelope sample 127 samples back once there is one; none within it where
that sample is invalid or among the first 2^(ENV_HP+3) + 254. An invalid grain enters the filters as 0. -/
def EnvRun.step (e : EnvRun) (hp : Nat) (v : Option Rat) : EnvRun × Option (Option Rat) :=
  let x := v.getD 0
  let y := tapSum (envHighPass hp) 0 (x :: e.xs) - tapSum (envHighPass hp) 5 e.ys
  let e : EnvRun :=
    { count := e.count + 1, xs := (x :: e.xs).take 4, ys := (y :: e.ys).take 4, us := (y :: e.us).take 255,
      ok := (v.isSome :: e.ok).take 128 }
  match e.us[127]?, e.ok[127]? with
  | some u, some ok =>
    let h := tapSum hilbertTap 0 e.us
    (e, some (if ok && decide (2 ^ (hp + 3) + 254 ≤ e.count - 128) then some (fixSqrt (u * u + h * h)) else none))
  | _, _ => (e, none)

/-! ### Windows and estimates (R295, R296) -/

/-- The coefficients a_0, a_1, ... of a window (R295). -/
def windowCoefs (w : Nat) : List Rat :=
  match w with
  | 0 => [1]
  | 1 => [1 / 2, 1 / 2]
  | 2 => [54 / 100, 46 / 100]
  | 3 => [35875 / 100000, 48829 / 100000, 14128 / 100000, 1168 / 100000]
  | _ => [215578950 / 10 ^ 9, 416631580 / 10 ^ 9, 277263158 / 10 ^ 9, 83578947 / 10 ^ 9, 6947368 / 10 ^ 9]

/-- w[n] of a window over N samples (R295). -/
def windowAt (w len n : Nat) : Rat := tapSum (fun m => (if m % 2 = 0 then 1 else -1) * cosTurn (m * n) len) 0 (windowCoefs w)

/-- X[k] of the windowed values, as real and imaginary part (R296). -/
def transform (len k : Nat) : Nat → List Rat → Rat × Rat
  | _, [] => (0, 0)
  | n, v :: vs =>
    let r := transform len k (n + 1) vs
    (v * cosTurn (k * n) len + r.1, r.2 - v * sinTurn (k * n) len)

/-- The enabled inputs, in ascending order. -/
def SpecCfg.inputList (c : SpecCfg) : List Nat := (List.range 8).filter c.enabled

/-- The enabled pairs, in ascending order (R305). -/
def SpecCfg.pairList (c : SpecCfg) : List (Nat × Nat) :=
  (List.range 8).flatMap fun i => ((List.range 8).filter fun j => decide (i < j) && c.pairs.getLsbD (pairIndex i j)).map fun j => (i, j)

/-- The bins of the span (R299). -/
def SpecCfg.binList (c : SpecCfg) : List Nat := (List.range c.bins).map (· + c.first)

/-- Values in the averages. -/
def SpecCfg.accSize (c : SpecCfg) : Nat := c.bins * (c.inputCount + 2 * c.pairCount)

/-- The values of one input over a segment: an envelope less its mean (R298). -/
def SpecCfg.signal (c : SpecCfg) (k : Nat) (frames : List (Vector (Option Rat) 8)) : List Rat :=
  let v := frames.map fun f => (f.getD k none).getD 0
  if c.envelope k then (let mean := v.sum / (v.length : Rat); v.map (· - mean)) else v

/-- c_k / (f · Σ w²) at a rate code (R296). -/
def SpecCfg.scale (c : SpecCfg) (rate : Nat) (w : List Rat) (k : Nat) : Rat :=
  (if k = 0 ∨ 2 * k = c.len then 1 else 2) * ((2 ^ rate : Nat) : Rat) / (48000 * (w.map fun v => v * v).sum)

/-- The estimates of one segment: the auto-spectra, then Re and Im of the cross-spectra (R296). -/
def SpecCfg.estimate (c : SpecCfg) (rate : Nat) (frames : List (Vector (Option Rat) 8)) : List Rat :=
  let w := (List.range c.len).map (windowAt c.window c.len)
  let x (i k : Nat) : Rat × Rat := transform c.len k 0 (((c.signal i frames).zip w).map fun q => q.1 * q.2)
  (c.inputList.flatMap fun i => c.binList.map fun k =>
      let a := x i k
      c.scale rate w k * (a.1 * a.1 + a.2 * a.2)) ++
  c.pairList.flatMap fun p => c.binList.flatMap fun k =>
      let a := x p.1 k
      let b := x p.2 k
      [c.scale rate w k * (a.1 * b.1 + a.2 * b.2), c.scale rate w k * (a.1 * b.2 - a.2 * b.1)]

/-- The averages after one more segment: A + α (P − A) (R297). -/
def average (alpha : Rat) (acc p : List Rat) : List Rat :=
  if acc.isEmpty then p else (acc.zip p).map fun q => q.1 + alpha * (q.2 - q.1)

/-- S_ii[k] from the averages, k in the span. -/
def SpecCfg.autoOf (c : SpecCfg) (acc : List Rat) (i k : Nat) : Rat :=
  acc.getD (c.bins * (c.inputList.idxOf i) + (k - c.first)) 0

/-- Re and Im of S_ij[k] from the averages, k in the span. -/
def SpecCfg.crossOf (c : SpecCfg) (acc : List Rat) (p : Nat × Nat) (k : Nat) : Rat × Rat :=
  let n := c.bins * c.inputCount + 2 * (c.bins * c.pairList.idxOf p + (k - c.first))
  (acc.getD n 0, acc.getD (n + 1) 0)

/-- γ²_ij[k] from the averages (R296, R297). -/
def SpecCfg.coherence (c : SpecCfg) (acc : List Rat) (p : Nat × Nat) (k : Nat) : Rat :=
  let s := c.crossOf acc p k
  let d := c.autoOf acc p.1 k * c.autoOf acc p.2 k
  if d = 0 then 0 else (s.1 * s.1 + s.2 * s.2) / d

/-- The words of a result from word 64 on: auto-spectra, cross-spectra, coherence (R305). -/
def SpecCfg.sections (c : SpecCfg) (acc : List Rat) : List Word :=
  (c.inputList.flatMap fun i => c.binList.map fun k => wordOf (c.autoOf acc i k)) ++
  (c.pairList.flatMap fun p => c.binList.flatMap fun k => let s := c.crossOf acc p k; [wordOf s.1, wordOf s.2]) ++
  (if c.coh then c.pairList.flatMap fun p => c.binList.map fun k => wordOf (c.coherence acc p k) else [])

/-! ### Segments (R293, R294, R307) -/

/-- A result is complete (R297, R307). -/
def Spec.due (x : Spec) : Bool :=
  match x.mode with
  | .idle => false
  | .capture => decide (x.capTotal ≤ x.capSeen) && decide (0 < x.capTotal)
  | .stream => if x.act.expo then decide (x.act.update ≤ x.sincePub) else decide (x.act.avg.toNat ≤ x.segs)

/-- The envelope values that a sample brings, put into the frame they belong to, 127 back (R298). -/
def putEnvelopes (v : Vector (Option (Option Rat)) 8) (win : List SpecFrame) : List SpecFrame :=
  win.modify 127 fun f => { f with x := Vector.ofFn fun i => (v[i]).getD f.x[i] }

/-- The engine takes one sample of its inputs, with the acquisition instant t and the period P (R292 to R294). While ALIGN is 1 a
segment starts on a multiple of H · P; a jump of the instants breaks the segment being collected, which is dropped as invalid. A
segment whose last sample comes while the one before it is in hand is late. -/
def Spec.sample (x : Spec) (t : Tick) (g : Vector Grain 8) (flags : BitVec 3) (align : Bool) (P : Nat) : Spec :=
  let c := x.act
  let isEnv (i : Nat) : Bool := c.enabled i && c.envelope i
  let run : Vector (EnvRun × Option (Option Rat)) 8 := Vector.ofFn fun i =>
    if isEnv i.val then x.env[i].step (c.envHp i.val) (grainRat g[i]) else (x.env[i], none)
  let x := { x with env := run.map Prod.fst }
  let hop := c.hop * P
  let jump := match x.win.head? with | some f => decide (t ≠ f.t + BitVec.ofNat 64 P) | none => false
  let off := match x.win.getLast? with | some f => decide (f.t.toNat % hop ≠ 0) | none => false
  let x := if align && jump then { x.count 1 with win := [], lateSeg := false }
    else if align && off then { x with win := [], lateSeg := false } else x
  if x.win.isEmpty && align && decide (t.toNat % hop ≠ 0) then x
  else
    let f : SpecFrame := ⟨t, Vector.ofFn fun i => if isEnv i.val then none else grainRat g[i], flags⟩
    let win := putEnvelopes (run.map Prod.snd) (f :: x.win)
    let late := if win.length = c.len then x.seg.isSome else x.lateSeg
    let behind := if 0 < c.envCount then 127 else 0
    if win.length < c.len + behind then { x with win := win, lateSeg := late }
    else
      let seg := win.drop behind
      let x := { x with win := win.take (win.length - c.hop), lateSeg := false }
      if late then x.count 2
      else
        let taken : Segment :=
          { firstT := (seg.getLast?.map (·.t)).getD t
            lastT := (seg.head?.map (·.t)).getD t
            frames := seg.reverse.map (·.x)
            flags := seg.foldl (fun m f => m ||| f.flags) 0#3 }
        { x with seg := some taken }

/-- Some sample of an enabled input in the segment is invalid (R294). -/
def SpecCfg.spoils (c : SpecCfg) (g : Segment) : Bool :=
  g.frames.any fun f => anyUpto (fun i => c.enabled i && (f.getD i none).isNone) 8

/-- The averages once a segment in hand has been transformed, or dropped as invalid (R294, R297). -/
def Spec.take (x : Spec) (g : Segment) : Spec :=
  let c := x.act
  if c.spoils g then x.count 1
  else
    let m := x.segs + 1
    let slow : Rat := 1 / ((2 ^ (bits c.cfg 12 4).toNat : Nat) : Rat)
    let alpha : Rat := if c.expo && x.mode == .stream && decide (1 / (m : Rat) < slow) then slow else 1 / (m : Rat)
    { x.count 0 with
      segs := m
      sincePub := x.sincePub + 1
      acc := average alpha x.acc (c.estimate x.rate.toNat g.frames)
      firstT := if x.segs = 0 then g.firstT else x.firstT
      lastT := g.lastT
      flags := x.flags ||| g.flags }

/-- Word k of the header of the capture in the slot analysed. -/
def State.capHeader (s : State) (k : Nat) : Word := Mem.get 0#32 s.cap.store (slotBase s.cap.slots s.spec.anSlot.toNat + k)

/-- The number of samples of the capture analysed (R307). -/
def State.capLength (s : State) : Nat := (bits (s.capHeader 2) 0 24).toNat + (bits (s.capHeader 3) 0 24).toNat

/-- Sample i of a channel in the capture analysed, counted from the oldest; none where it is invalid (R276, R280, R307). -/
def State.capSample (s : State) (ch i : Nat) : Option Rat :=
  let mask : BitVec 24 := bits (s.capHeader 1) 0 24
  let n := slotSamples s.cap.slots mask
  let at_ := ((bits (s.capHeader 6) 0 24).toNat + i) % max 1 n
  grainRat ((s.capHeader (16 + at_ * popcount mask + countUpto (fun k => mask.getLsbD k) ch)).setWidth 24)

/-- The values of an input over the whole capture; what its envelope asks for behind the end is a free value (R298, R307). -/
def State.capSignal (s : State) (k : Nat) : List (Option Rat) :=
  let c := s.spec.act
  let raw := (List.range s.capLength).map (s.capSample (c.channel k))
  if c.envelope k then
    let tail := (List.range 127).map fun i => some (Config.captureTail k i)
    ((raw ++ tail).foldl (fun (q : EnvRun × List (Option Rat)) v =>
      let r := q.1.step (c.envHp k) v
      (r.1, match r.2 with | some e => e :: q.2 | none => q.2)) ({}, [])).2.reverse
  else raw

/-- The next segment of the capture analysed, with the instants of R307; the flags are those of the capture (R304). -/
def State.capSegment (s : State) : Segment :=
  let c := s.spec.act
  let at_ := s.spec.capSeen * c.hop
  let signals := (List.range 8).map fun k => if c.enabled k then s.capSignal k else []
  let T := joinWords (s.capHeader 4) (s.capHeader 5)
  let K := (bits (s.capHeader 2) 0 24).toNat
  let instant (i : Nat) : Tick := T + BitVec.ofInt 64 (((i : Int) - (K : Int)) * (pathPeriod s.spec.rate.toNat : Int))
  { firstT := instant at_
    lastT := instant (at_ + c.len - 1)
    frames := (List.range c.len).map fun n => Vector.ofFn fun k => ((signals.getD k.val []).getD (at_ + n) none)
    flags := bits (s.capHeader 0) 23 3 }

/-- What SEGMENT_DONE says of the segment completed fits a segment: its validity, instants and flags. A late segment is discarded
where its last sample is acquired (Spec.sample), so none that is completed is late (R294). -/
def Spec.names (x : Spec) (g : Segment) (valid late : Bool) (firstT lastT : Tick) (flags : BitVec 3) : Bool :=
  valid != x.act.spoils g && !late && g.firstT == firstT && g.lastT == lastT && g.flags == flags

/-- SEGMENT_DONE (R294, R307): the engine completes the segment in hand, or the next one of the capture, which the operands name. -/
def execSegmentDone (valid late : Bool) (firstT lastT : Tick) (flags : BitVec 3) (s : State) : Host.Outcome State Fault Refusal :=
  let named (g : Segment) : Bool := s.spec.names g valid late firstT lastT flags
  match s.spec.mode, s.spec.seg with
  | .capture, _ =>
    let g := s.capSegment
    event (s.specClocked && s.isOn .cs && !s.spec.capWait && decide (s.spec.capSeen < s.spec.capTotal) && named g) s
      (s.modSpec fun x => { x.take g with capSeen := x.capSeen + 1 })
  | .stream, some g => event (s.specClocked && !s.spec.due && named g) s (s.modSpec fun x => { x.take g with seg := none })
  | _, _ => .next s

/-! ### Results (R299, R301 to R306) -/

/-- FIRST of band b is at most LAST, and the Band input is enabled: only then the band has energy (R306). -/
def Spec.bandLive (x : Spec) (input b : Nat) : Bool :=
  let w := x.bands.getD (2 * b) 0#32
  decide ((bits w 0 16).toNat ≤ (bits w 16 16).toNat) && x.act.enabled input

/-- The averages of the result being published: of a capture without a valid segment they are free values. -/
def Spec.means (x : Spec) : List Rat :=
  if x.segs = 0 then (List.range x.act.accSize).map (Config.emptyMean x.serial) else x.acc

/-- E_b of the result being published: Δf times the sum of S_ii over the bins of the band in the span (R299, R306). -/
def Spec.energy (x : Spec) (input b : Nat) : Rat :=
  let c := x.act
  let w := x.bands.getD (2 * b) 0#32
  let inBand (k : Nat) : Bool := decide ((bits w 0 16).toNat ≤ k) && decide (k ≤ (bits w 16 16).toNat)
  if x.bandLive input b then
    48000 / ((2 ^ x.rate.toNat * c.len : Nat) : Rat) * ((c.binList.filter inBand).map (c.autoOf x.means input)).sum
  else 0

/-- Bin spacing Δf in Hz, binary32: 48 000 / 2^n / N, exact to one rounding (R296, R304). -/
def deltaF (rate len : Nat) : Word := fOfInt 375 (7 - (rate : Int) - (Nat.log2 len : Int))

/-- ENBW of a window in bins, in thousandths (R295). -/
def enbwBins (window : Nat) : Nat :=
  match window with
  | 0 => 1000
  | 1 => 1500
  | 2 => 1363
  | 3 => 2004
  | _ => 3770

/-- num / den · 2^e rounded once to binary32. -/
def fQuot (num den : Nat) (e : Int) : Word :=
  let q := num * 2 ^ 64 / den
  let sticky := if num * 2 ^ 64 % den = 0 then 0 else 1
  fRound false (2 * q + sticky) (e - 65)

/-- ENBW in Hz, binary32 (R304). -/
def enbwHz (window rate len : Nat) : Word := fQuot (enbwBins window * 375) 1000 (7 - (rate : Int) - (Nat.log2 len : Int))

/-- The 64-word header of the result being published, with SEQ seq (R304). -/
def Spec.header (x : Spec) (seq : BitVec 16) (input : Nat) : Vector Word 64 :=
  let c := x.act
  let w0 := fld seq 0 ||| flg (x.mode == .capture) 16 ||| fld x.flags 17 ||| fld (bits c.cfg 3 3 : BitVec 3) 20 |||
    fld c.overlap 23 ||| flg c.expo 25 ||| flg c.coh 26
  let mask := chanMask c.enabled
  let w1 := fld (bits c.cfg 0 3 : BitVec 3) 0 ||| fld x.rate 3 ||| fld (mask.setWidth 8) 8 |||
    BitVec.ofNat 32 (min x.segs 0xFFFF * 65536)
  let t0 := if x.segs = 0 then Config.emptyInstant x.serial 0 else x.firstT
  let t1 := if x.segs = 0 then Config.emptyInstant x.serial 1 else x.lastT
  let head : List Word :=
    [w0, w1, fld c.pairs 0, c.span, lowWord t0, highWord t0, lowWord t1, highWord t1,
     deltaF x.rate.toNat c.len, enbwHz c.window x.rate.toNat c.len] ++ c.inputs.toList ++
    [BitVec.ofNat 32 c.crossAt, if c.coh then BitVec.ofNat 32 c.cohAt else 0#32, BitVec.ofNat 32 c.total,
     BitVec.ofNat 32 input]
  Vector.ofFn fun i =>
    if i.val < 22 then head.getD i.val 0#32 else if i.val < 32 then 0#32 else wordOf (x.energy input (i.val - 32))

/-- Publication of the result (R301, R302, R306): the next SEQ, DONE_EVT, the newest bank, the window. -/
def Spec.publish (x : Spec) (input : Nat) : Spec :=
  let seq := x.seq + 1#16
  let bank : Bank := { id := x.serial + 1, hdr := x.header seq input, body := x.act.sections x.means }
  let energies := Vector.ofFn fun (i : Fin 64) =>
    if i.val % 2 = 1 then wordOf (x.energy input (i.val / 2)) else x.bands[i]
  let learn := x.learning && x.mode == SpecMode.stream
  let unseen := x.newer
  let y := { (x.count 3) with
    seq := seq
    serial := x.serial + 1
    doneEvt := true
    newest := bank
    bands := if learn then energies else x.bands
    learning := x.learning && !learn }
  let y := if unseen then y.count 4 else y
  let y := y.show
  match x.mode with
  | .capture => { y.clearWork with mode := .idle }
  | _ => if x.act.expo then { y with sincePub := 0 } else y.clearAvg

/-- Word i of a result bank; words past its end read 0 (R303, R305). -/
def Bank.word (b : Bank) (i : Nat) : Word :=
  if b.id = 0 then 0#32 else if i < 64 then b.hdr.getD i 0#32 else b.body.getD (i - 64) 0#32

/-- Word i of the paged window (R303). -/
def Spec.windowWord (x : Spec) (i : Nat) : Word := x.shown.word ((if x.page then 65536 else 0) + i)

/-- A read of the region at TS 0x00_B000 (R313); none where the word is unmapped. -/
def Spec.readWord (x : Spec) (o : Nat) : Option Word :=
  if o = 0 then some x.stage.cfg
  else if o = 1 then some (fld x.stage.avg 0)
  else if o = 2 then some x.stage.span
  else if o = 3 then some (fld x.stage.pairs 0)
  else if 4 ≤ o ∧ o < 12 then some (x.stage.input (o - 4))
  else if o = 12 then some (flg x.learning 1)
  else if 16 ≤ o ∧ o < 22 then some (x.counts.getD (o - 16) 0#32)
  else if o = 22 then some x.cycles
  else if 64 ≤ o ∧ o < 128 then some (x.bands.getD (o - 64) 0#32)
  else none

/-- A write of the region at TS 0x00_B000 (R306, R313). -/
def Spec.writeWord (x : Spec) (o : Nat) (w : Word) : Spec :=
  if o = 0 then { x with stage := { x.stage with cfg := w &&& 0x00FFF3FF#32 } }
  else if o = 1 then { x with stage := { x.stage with avg := bits w 0 16 } }
  else if o = 2 then { x with stage := { x.stage with span := w &&& 0x03FFFFFF#32 } }
  else if o = 3 then { x with stage := { x.stage with pairs := bits w 0 28 } }
  else if 4 ≤ o ∧ o < 12 then
    { x with stage := { x.stage with inputs := x.stage.inputs.setIfInBounds (o - 4) (w &&& 0xF7F#32) } }
  else if o = 12 then { x with learning := x.learning || bitAt w 0 }
  else if o = 16 then { x with counts := Vector.replicate 6 0#32 }
  else if 64 ≤ o ∧ o < 128 then { x with bands := x.bands.setIfInBounds (o - 64) w }
  else x

end Sys2Proof.Machine
end

