-- ==== Sys2Proof/Machine/Stream.lean ====
section
/-!
DEFINITION. The stream writer and the sample buffer: frames, packing, units, overflow, flush, the reads and writes of their
registers (10_sample_buffer.md).
-/

namespace Sys2Proof.Machine

open Sys2Proof

/-! ### Frames and packing -/

/-- The header grain of a frame (R358). -/
def frameHeader (type : Nat) (untimed degraded unsettled supply : Bool) (seq : BitVec 16) : Grain :=
  (BitVec.ofNat 4 type) ++ (BitVec.ofBool untimed) ++ (BitVec.ofBool degraded) ++ (BitVec.ofBool unsettled) ++
    (BitVec.ofBool supply) ++ seq

/-- The three bytes of a grain, least significant first (R371). -/
def grainBytes (g : Grain) : List (BitVec 8) := [g.setWidth 8, (g >>> 8).setWidth 8, (g >>> 16).setWidth 8]

/-- Words of a byte stream, lowest byte in bits [7:0]; the last word is filled with 0 and tagged with its valid bytes
(R371). -/
def packBytes : List (BitVec 8) → List BufWord
  | a :: b :: c :: d :: rest => ⟨d ++ c ++ b ++ a, 0#2⟩ :: packBytes rest
  | [a, b, c] => [⟨0#8 ++ c ++ b ++ a, 3#2⟩]
  | [a, b] => [⟨0#8 ++ 0#8 ++ b ++ a, 2#2⟩]
  | [a] => [⟨0#8 ++ 0#8 ++ 0#8 ++ a, 1#2⟩]
  | [] => []

/-- The words of an item (R371). -/
def packItem (grains : List Grain) : List BufWord := packBytes (grains.flatMap grainBytes)

/-- The three grains of a 64-bit instant, the last with 8 bits of the caller's (R364, R367). -/
def instantGrains (t : Tick) (top : BitVec 8) : List Grain :=
  [t.setWidth 24, (t >>> 24).setWidth 24, top ++ (t >>> 48).setWidth 16]

/-- A GAP frame (R368). -/
def gapFrame (untimed : Bool) (reason : BitVec 4) (rate : BitVec 4) (group : Bool) (count mask : BitVec 24)
    (seq : BitVec 16) : List Grain :=
  [frameHeader 5 untimed false false false seq,
   (reason.setWidth 24 ||| rate.setWidth 24 <<< 8 ||| (BitVec.ofBool group).setWidth 24 <<< 12), count, mask]

/-- A TIME frame (R362, R364). -/
def timeFrame (o : GroupOut) (seq : BitVec 16) : List Grain :=
  frameHeader 3 (bits (o.quality.setWidth 32) 6 2 != 0#2) false false false seq :: instantGrains o.t o.quality

/-- The grains of the channels in a mask, in ascending order (R363). -/
def maskGrains (mask : BitVec 24) (v : Vector Grain 24) : List Grain :=
  (List.range 24).filterMap fun ch => if mask.getLsbD ch then some (v.getD ch invalidGrain) else none

/-- A data frame (R361, R363). -/
def dataFrame (g : Group) (o : GroupOut) (seq : BitVec 16) : List Grain :=
  frameHeader (match g with | .fast => 1 | .slow => 2) o.untimed o.degraded o.unsettled o.supply seq ::
    maskGrains o.mask o.grains

/-- An EVENT frame (R362, R367). -/
def eventFrame (e : EventFrame) (seq : BitVec 16) : List Grain :=
  frameHeader 4 e.untimed false false false seq :: instantGrains e.ts (e.source.setWidth 8) ++
    [e.r8.setWidth 24, e.r9.setWidth 24, (e.r9 >>> 24).setWidth 24 <<< 8 ||| (e.r8 >>> 24).setWidth 24]

/-- A FILL frame (R369). -/
def fillFrame (untimed : Bool) (cause : BitVec 4) (seq : BitVec 16) : List Grain :=
  [frameHeader 6 untimed false false false seq, cause.setWidth 24]

/-! ### Placing units -/

/-- A frame that takes its sequence number when it is placed. -/
abbrev Frame := BitVec 16 → List Grain

/-- Capacity of the sample buffer in words (R373). -/
def bufWords : Nat := 2097152

/-- THRESH_HIT after a change from s to t: set when A rises (R377). -/
def State.threshEdge (s t : State) : State :=
  if t.bufAbove && !s.bufAbove then t.modBuf fun b => { b with threshHit := true } else t

/-- Words appended and published (R374). -/
def State.publish (ws : List BufWord) (s : State) : State :=
  State.threshEdge s (s.modBuf fun b => { b with words := b.words ++ ws, wp := b.wp + BitVec.ofNat 22 ws.length })

/-- The words of frames in order, with the sequence counter after them (R360, R371). -/
def frameWords : List Frame → BitVec 16 → List BufWord × BitVec 16
  | [], n => ([], n)
  | f :: fs, n =>
    let r := frameWords fs (n + 1#16)
    (packItem (f n) ++ r.1, r.2)

/-- The pending GAP frames, in the order FLUSH, FULL, BUF_OFF (R370, R384). -/
def State.pendingGaps (s : State) : List Frame :=
  let u := !s.clk.epochValid
  (s.buf.flushGap.map fun cut => gapFrame u 2#4 0#4 false (if cut then 1#24 else 0#24) 0#24) ++
  (if s.buf.full = 0#24 then [] else [gapFrame u 1#4 0#4 false s.buf.full 0#24]) ++
  (if s.buf.bufOff = 0#24 then [] else [gapFrame u 3#4 0#4 false s.buf.bufOff 0#24])

/-- Frames dropped: each takes a sequence number, counts in DROPPED and in the pending count, and sets OVERFLOW (R379,
R385). -/
def State.dropFrames (off : Bool) (n : Nat) (s : State) : State :=
  s.modBuf fun b =>
    { b with
      seq := b.seq + BitVec.ofNat 16 n
      dropped := satAdd b.dropped n
      overflow := true
      full := if off then b.full else satAdd b.full n
      bufOff := if off then satAdd b.bufOff n else b.bufOff }

/-- A unit placed or dropped whole (R378 to R380, R385): `own` are its frames after the pending GAP frames, `lost` how many
frames a drop loses. The flag says that it was placed. -/
def State.placeUnit (own : List Frame) (lost : Nat) (s : State) : State × Bool :=
  if !s.isOn .sb then ((s.demand .sb).dropFrames true lost, false)
  else
    let gaps := s.pendingGaps
    let r := frameWords (gaps ++ own) s.buf.seq
    if bufWords - s.level < r.1.length then (s.dropFrames false lost, false)
    else
      let t := s.publish r.1
      let t := t.modBuf fun b => { b with seq := r.2, flushGap := [], full := 0#24, bufOff := 0#24 }
      (if gaps.isEmpty then t else t.oweTimes none, true)

/-- The queue of outputs of a group. -/
def State.outs (s : State) : Group → List GroupOut
  | .fast => s.harrow.fastOut
  | .slow => s.harrow.slowOut

/-- Replacement of the queue of outputs of a group. -/
def State.setOuts (g : Group) (l : List GroupOut) (s : State) : State :=
  s.modHarrow fun h => match g with | .fast => { h with fastOut := l } | .slow => { h with slowOut := l }

/-- The other group. -/
def otherGroup : Group → Group
  | .fast => .slow
  | .slow => .fast

/-- A TIME frame is due before output o of group g for a reason other than a GAP frame (R365). -/
def State.timeDue (s : State) (g : Group) (o : GroupOut) : Bool :=
  let x := s.group g
  x.timeOwed || o.timed || o.relaid || x.layout ||
    (x.timeFrom.any fun t => decide (0 ≤ (o.t - t).toInt)) ||
    decide (2 ^ (6 + s.buf.timeEvery.toNat) ≤ x.since)

/-- The frames of an output of a group, with the LAYOUT and TIME frames due before it (R356, R357, R365). -/
def State.dataFrames (s : State) (g : Group) (o : GroupOut) : List Frame :=
  let x := s.group g
  let layout := x.layout || o.relaid
  let time := s.timeDue g o || layout || !s.pendingGaps.isEmpty
  (if layout then [gapFrame (!s.clk.epochValid) 4#4 (BitVec.ofNat 4 (rateCode x.rate)) (g == .slow) 0#24 o.mask] else []) ++
    (if time then [timeFrame o] else []) ++ [dataFrame g o]

/-- The oldest output of a group placed as a unit with the LAYOUT and TIME frames due before it (R356, R357, R365, R378). -/
def State.placeData (g : Group) (s : State) : State :=
  match s.outs g with
  | [] => s
  | o :: rest =>
    let x := s.group g
    let due := s.timeDue g o
    let layout := x.layout || o.relaid
    let time := due || layout || !s.pendingGaps.isEmpty
    let r := (s.setOuts g rest).placeUnit (s.dataFrames g o) (if due then 2 else 1)
    let t := r.1.modGroup g fun y =>
      { y with
        layout := layout && !r.2
        timeOwed := false
        timeFrom := y.timeFrom.filter fun t => decide ((o.t - t).toInt < 0)
        since := if (if r.2 then time else due) then 1 else y.since + 1 }
    if r.2 && layout then t.oweTime (otherGroup g) none else t

/-- An EVENT frame placed as a unit of its own (R367, R378). -/
def State.placeEvent (s : State) : State :=
  match s.buf.events with
  | [] => s
  | e :: rest => ((s.modBuf fun b => { b with events := rest }).placeUnit [eventFrame e] 1).1

/-- A FILL frame placed as a unit of its own; published while BUF_THRESH is not 0 it sets THRESH_HIT (R369). -/
def State.placeFill (s : State) : State :=
  match s.buf.fillOwed with
  | none => s
  | some cause =>
    let r := (s.modBuf fun b => { b with fillOwed := none }).placeUnit [fillFrame (!s.clk.epochValid) cause] 1
    if r.2 && r.1.buf.thresh != 0#22 then r.1.modBuf fun b => { b with threshHit := true } else r.1

/-- When the oldest unit of a kind became ready, with its place in the order of R370: EVENT frames by source, then the groups. -/
def State.readyAt (s : State) : FrameUnit → Option (Tick × Nat)
  | .event => s.buf.events.head?.map fun e => (e.ready, e.source.toNat)
  | .data .fast => (s.outs .fast).head?.map fun o => (o.ready, 64)
  | .data .slow => (s.outs .slow).head?.map fun o => (o.ready, 65)
  | .fill => none

/-- The reports that recognisers have completed and not yet made, with the recogniser. -/
def Rec.duties (x : Rec) : List (Nat × Report) :=
  [(0, x.impact.due), (0, x.impact.winDue), (1, x.cadence.endDue), (1, x.cadence.due), (2, x.fall.due), (3, x.trans.due),
    (4, x.tilt.due)].filterMap fun e => e.2.map fun p => (e.1, p)

/-- When the EVENT frames of the reports not yet made became ready, with their places in the order of R370. -/
def State.dueFrames (s : State) : List (Tick × Nat) :=
  (s.recog.duties.filter fun e => e.2.evt && s.recog.frame.getLsbD e.1).map fun e => (e.2.ready, 9 + e.1)

/-- A unit that became ready at one place of the order of R370 comes before, or at, another. -/
def comesFirst (a b : Tick × Nat) : Bool := decide (0 < (b.1 - a.1).toInt) || (b.1 == a.1 && decide (a.2 ≤ b.2))

/-- A unit is next in the order of R370: none comes before it among the units that wait and the EVENT frames of reports still to be
made (R258). -/
def State.isNext (s : State) (u : FrameUnit) : Bool :=
  match s.readyAt u with
  | none => false
  | some a => [FrameUnit.event, .data .fast, .data .slow].all (fun v => (s.readyAt v).all (comesFirst a)) &&
      s.dueFrames.all (comesFirst a)

/-- Every unit that is ready is placed, in the order of R370. -/
def State.placeReady (s : State) : State :=
  foldUpto (fun u _ =>
    if u.isNext .event then u.placeEvent
    else if u.isNext (.data .fast) then u.placeData .fast
    else if u.isNext (.data .slow) then u.placeData .slow else u)
    s (s.buf.events.length + (s.outs .fast).length + (s.outs .slow).length)

/-! ### Running, starting, stopping -/

/-- The conditions of R354 but for the gate of R355. -/
def State.writerMay (s : State) : Bool := s.buf.run && s.buf.enable && s.clken 6 && s.isOn .en

/-- The gate of R355 is open at a start of the writer. -/
def State.gateOpen (s : State) : Bool := !s.buf.alignEp || s.clk.epochValid

/-- A group starts: GAP LAYOUT and TIME precede its first data frame (R356). -/
def Grp.start (at_ : Tick) (g : Grp) : Grp :=
  { g with layout := true, timeOwed := true, timeFrom := [], timeNext := false, olds := [], since := 0, startAt := at_ }

/-- The writer starts with its groups (R354, R356); a FILL frame still owed for its last stop comes first (R369). -/
def State.startWriter (s : State) : State :=
  (s.placeFill.modBuf fun b =>
    { b with
      writing := true
      armedGate := false
      fast := if b.fast.mask = 0#24 then b.fast else b.fast.start s.clk.tsc
      slow := if b.slow.mask = 0#24 then b.slow else b.slow.start s.clk.tsc }).modHarrow
    fun h => { h with fastOut := [], slowOut := [] }

/-- The writer stops; what was not complete is not written. -/
def State.stopWriter (s : State) : State :=
  (s.modBuf fun b =>
    { b with writing := false, armedGate := false, events := [], fast := { b.fast with olds := [] }, slow := { b.slow with olds := [] } }).modHarrow
    fun h => { h with fastOut := [], slowOut := [] }

/-- The writer after a change of its conditions: it stops when one fails, and starts, or waits at the gate, when all hold
(R354, R355). -/
def State.refreshWriter (s : State) : State :=
  if !s.writerMay then (if s.buf.writing || s.buf.armedGate then s.stopWriter.refreshPaths else s)
  else if s.buf.writing then s
  else if s.buf.armedGate then (if s.buf.alignEp then s else s.startWriter)
  else if s.gateOpen then s.startWriter
  else s.modBuf fun b => { b with armedGate := true }

/-- Paths and writer brought to what the state asks for. -/
def State.refresh (s : State) : State := s.refreshPaths.refreshWriter

/-- The unit that the writer is writing where it has one to write: the next in the order of R370, or, once it has stopped, a FILL
frame (R369). -/
def State.unitInHand (s : State) : Option FrameUnit :=
  if s.buf.writing then [FrameUnit.event, .data .fast, .data .slow].find? s.isNext
  else if s.buf.fillOwed.isSome && s.clken 6 then some .fill else none

/-- The frames of a unit, the pending GAP frames before them (R356, R365, R367, R369, R378). -/
def State.unitFrames (s : State) (u : FrameUnit) : List Frame :=
  s.pendingGaps ++
    match u with
    | .event => (s.buf.events.take 1).map eventFrame
    | .fill => (s.buf.fillOwed.map fun c => fillFrame (!s.clk.epochValid) c).toList
    | .data g => match s.outs g with
      | [] => []
      | o :: _ => s.dataFrames g o

/-- The unit is no longer to be written. -/
def State.dropUnit (u : FrameUnit) (s : State) : State :=
  match u with
  | .event => s.modBuf fun b => { b with events := b.events.drop 1 }
  | .fill => s.modBuf fun b => { b with fillOwed := none }
  | .data g => s.setOuts g ((s.outs g).drop 1)

/-- The first n pending GAP frames have been written. -/
def State.gapsWritten (n : Nat) (s : State) : State :=
  let f := s.buf.flushGap.length
  let full := s.buf.full != 0#24
  s.modBuf fun b =>
    { b with
      flushGap := b.flushGap.drop n
      full := if f < n then 0#24 else b.full
      bufOff := if f + (if full then 1 else 0) < n then 0#24 else b.bufOff }

/-- What an interruption of the writer finds (R374): of the unit in hand the frames before one of them are published, and that one,
if any, is part-way through being written: it has its sequence number, its words are the second component, and the writer drops the
rest of it. Whether an item is part-way, and which, is a free value. -/
def State.cutItem (s : State) : State × Option (List BufWord) :=
  match s.unitInHand with
  | none => (s, none)
  | some u =>
    let t := { s with fresh := s.fresh + 1 }
    let fs := s.unitFrames u
    let words := (frameWords fs s.buf.seq).1
    let j := Config.itemIndex s.fresh % fs.length
    if !s.isOn .sb || decide (bufWords - s.level < words.length) || !Config.itemPartWay s.fresh then (t, none)
    else
      let before := frameWords (fs.take j) s.buf.seq
      let item := match fs[j]? with | some f => packItem (f before.2) | none => []
      let t := (t.gapsWritten j).publish before.1
      let t := t.modBuf fun b => { b with seq := before.2 + 1#16 }
      (if j + 1 = fs.length then t.dropUnit u else t, some item)

/-- An item part-way through being written is discarded (R382, R386). -/
def State.discardItem (s : State) : State := s.cutItem.1

/-- CLKEN.BUF is cleared over a writer that is not between items (R387): the item in progress is written on until it is complete or
the gate closes by force. -/
def State.holdItem (s : State) : State :=
  let r := s.cutItem
  r.1.modBuf fun b => { b with part := r.2.map fun w => (w, s.clk.tsc) }

/-- The item held by a waiting gate is complete: it is published (R374, R387). -/
def State.endItem (s : State) : State :=
  match s.buf.part with
  | some (w, _) => (s.publish w).modBuf fun b => { b with part := none }
  | none => s

/-! ### Register writes -/

/-- The rate code of a group changes: its paths restart, outputs not yet written are discarded, a running group owes LAYOUT
and TIME (R249, R281, R311, R357). -/
def State.rateChange (g : Group) (s : State) : State :=
  let k := match g with | .fast => PathKind.fast | .slow => PathKind.slow
  let s := ((s.restart k (BitVec.allOnes 24) false).startGrid k).setOuts g []
  let s := if s.buf.writing then s.modGroup g (Grp.start s.clk.tsc) else s
  match g with
  | .fast => (s.modSpec fun x =>
      { x.abandonStream false with
        rate := if x.mode = .stream then BitVec.ofNat 4 (rateCode s.buf.fast.rate) else x.rate }).capRateChange
  | .slow => s

/-- The path kind of a group. -/
def groupKind : Group → PathKind
  | .fast => .fast
  | .slow => .slow

/-- Channels added to a running group whose paths still run for an old layout start them anew: what the paths have still to
deliver of that layout keeps its validity (R222, R357). -/
def State.readd (g : Group) (set : BitVec 24) (s : State) : State :=
  let k := groupKind g
  s.mapChans fun ch c =>
    let p := c.path k
    if set.getLsbD ch && p.running && !(g == .fast && s.specTakes ch) then
      c.modPath k fun p => { p.restart (s.restartAt ch) (32 * s.latencyOf ch k) false with keep := some (s.clk.tsc, p.t0) }
    else c

/-- A write of STREAM_FAST or STREAM_SLOW (R351, R356, R357). -/
def State.writeStreamGroup (g : Group) (w : Word) (s : State) : State :=
  let x := s.group g
  let mask : BitVec 24 := bits w 0 24
  let rate : BitVec 4 := bits w 24 4
  let t := s.modGroup g fun y => { y with mask := mask, rate := rate }
  let t :=
    if rateCode rate ≠ rateCode x.rate then t.rateChange g
    else if mask ≠ x.mask ∧ s.buf.writing then
      if x.mask = 0#24 ∧ x.olds = [] then t.modGroup g (Grp.start s.clk.tsc)
      else (t.modGroup g fun y => { y with olds := y.olds ++ [(s.clk.tsc, x.mask)] }).readd g (mask &&& ~~~x.mask)
    else t
  t.refresh

/-- A write of STREAM_CTRL (R222, R249, R311, R352, R369, R618). A stop leaves the frames that are complete written (R369). -/
def State.writeStreamCtrl (w : Word) (s : State) : State :=
  let stop := s.buf.run && !bitAt w 0 && s.buf.writing
  let s := if stop then s.placeReady else s
  let phase := bitAt w 8 != s.buf.minPhase
  let t := s.modBuf fun b =>
    { b with
      run := bitAt w 0
      alignEp := bitAt w 1
      timeEvery := bits w 4 4
      minPhase := bitAt w 8
      fillOwed := if stop then some 1#4 else b.fillOwed }
  let t := if phase then
      ((t.restart .fast (BitVec.allOnes 24) false).restart .slow (BitVec.allOnes 24) false).modSpec fun x => x.abandonStream false
    else t
  t.refresh

/-- A flush (R382 to R384): every published item is removed, an item part-way is cut, and each running group owes LAYOUT
and TIME. -/
def State.flush (s : State) : State :=
  let r := s.cutItem
  let cut := r.2.isSome
  let s := r.1
  let relay (g : Grp) : Grp := if s.buf.writing && g.mask != 0#24 then { g with layout := true, timeOwed := true } else g
  s.modBuf fun b =>
    { b with
      words := []
      rp := b.wp
      flushDone := true
      flushCut := b.flushCut || cut
      flushGap := b.flushGap ++ [cut]
      fast := relay b.fast
      slow := relay b.slow }

/-- A write of BUF_CTRL (R369, R381, R382, R391): a clear of DROPPED comes before what the write drops (R477). -/
def State.writeBufCtrl (w : Word) (s : State) : State :=
  let stop := s.buf.enable && !bitAt w 0 && s.buf.writing
  let s := if bitAt w 2 then s.modBuf fun b => { b with dropped := 0#16 } else s
  let s := if stop then s.placeReady else s
  let t := s.modBuf fun b =>
    { b with
      enable := bitAt w 0
      keep := bitAt w 3
      fillOwed := if stop then some 2#4 else b.fillOwed }
  let t := t.refreshWriter
  if bitAt w 1 then t.flush else t

/-- A write of BUF_THRESH (R377, R390). -/
def State.writeBufThresh (w : Word) (s : State) : State :=
  State.threshEdge s (s.modBuf fun b => { b with thresh := bits w 0 22 })

/-- A write of BUF_STAT: W1C bits (R392). -/
def State.writeBufStat (w : Word) (s : State) : State :=
  s.modBuf fun b =>
    { b with
      threshHit := w1c b.threshHit w 0
      overflow := w1c b.overflow w 1
      underrun := w1c b.underrun w 2
      flushCut := w1c b.flushCut w 3
      flushDone := w1c b.flushDone w 4 }

/-! ### Register reads -/

/-- STREAM_FAST or STREAM_SLOW (R351). -/
def Grp.word (g : Grp) : Word := fld g.mask 0 ||| fld g.rate 24

/-- STREAM_CTRL (R352). -/
def Buf.streamCtrl (b : Buf) : Word := flg b.run 0 ||| flg b.alignEp 1 ||| fld b.timeEvery 4 ||| flg b.minPhase 8

/-- BUF_LEVEL (R389). -/
def State.bufLevel (s : State) : Word :=
  BitVec.ofNat 32 s.level ||| flg (decide (s.level = 0)) 24 ||| fld s.buf.last.tag 26

/-- BUF_CTRL (R391). -/
def Buf.ctrl (b : Buf) : Word := flg b.enable 0 ||| flg b.keep 3

/-- BUF_STAT (R392). -/
def Buf.stat (b : Buf) : Word :=
  flg b.threshHit 0 ||| flg b.overflow 1 ||| flg b.underrun 2 ||| flg b.flushCut 3 ||| flg b.flushDone 4 ||| fld b.dropped 16

/-- A read of BUF_DATA that is executed: the oldest word, or at level 0 the last word taken, with UNDERRUN (R375, R376). -/
def State.popWord (s : State) : Word × State :=
  match s.buf.words with
  | [] => (s.buf.last.data, s.modBuf fun b => { b with underrun := true })
  | w :: ws => (w.data, s.modBuf fun b => { b with words := ws, rp := b.rp + 1#22, last := w })

/-! ### Power of SB and EN (R385, R386) -/

/-- SB enters Off or fails: contents, WP and RP are lost. -/
def State.sbOff (s : State) : State :=
  s.modBuf fun b => { b with words := [], wp := 0#22, rp := 0#22, last := ⟨0#32, 0#2⟩, sbLost := true }

/-- SB holds its contents: it is On or in Retain, or on the way between the two, or has not yet reached Off (R385, R418, R419). -/
def State.sbHolds (s : State) : Bool :=
  match (s.dom .sb).st with
  | .off | .failed => false
  | .waking => (s.dom .sb).fromRet
  | .on | .onRefused | .onHeld | .retain | .stopping => true

/-- EN leaves On: an item part-way is discarded; SB's retention register holds WP and the sequence counter. -/
def State.bufEnLeaves (s : State) : State :=
  s.discardItem.modBuf fun b => { b with sbLost := !s.sbHolds, part := none }

/-- EN returns to On: WP and the sequence counter are restored when SB still holds its contents, else both are 0. -/
def State.bufEnReturns (s : State) : State :=
  if s.buf.sbLost then s.modBuf fun b => { b with seq := 0#16, words := [], wp := 0#22, rp := 0#22, sbLost := false } else s

/-! ### Commands -/

/-- WRITER_GATE_OPEN (R355): the gate opens once EPOCH_VALID is 1. -/
def execWriterGateOpen (s : State) : Host.Outcome State Fault Refusal :=
  event (s.buf.armedGate && s.writerMay && s.gateOpen && s.hasSm) s s.startWriter

/-- UNIT_PLACE (R370, R379): the writer places the next unit, or drops it. A FILL frame is written once the writer has stopped,
and only while CLKEN.BUF is 1 and EN is On (R387). -/
def execUnitPlace (unit : FrameUnit) (s : State) : Host.Outcome State Fault Refusal :=
  match unit with
  | .data g => event (s.buf.writing && s.hasSm && s.isNext (.data g)) s (s.placeData g)
  | .event => event (s.buf.writing && s.hasSm && s.isNext .event) s s.placeEvent
  | .fill => event (s.buf.fillOwed.isSome && s.clken 6 && s.isOn .en && s.hasSm) s s.placeFill

end Sys2Proof.Machine
end

