-- ==== Sys2Proof/Machine/Clock.lean ====
section
/-!
DEFINITION. Resets, the two PLLs, the missing-edge monitor, coast, the epoch, Park and its end (02_timebase.md,
19_bring_up.md).
-/

namespace Sys2Proof.Machine

open Sys2Proof

/-! ### Resets (R450, R460, R485, R559, R613) -/

/-- The management state that a reset leaves in the internal store, in OTP and in flash (R34, R134, R560, R569, R573, R583,
R585); a lockout in force starts again at its full duration. -/
def Mgmt.afterReset (m : Mgmt) : Mgmt :=
  { authCtr := m.authCtr, key := m.keyStore.newest.1, keyGen := m.keyStore.newest.2, keyStore := m.keyStore,
    lockStep := m.lockStore.newest.1,
    lockout := m.lockStore.newest.2.1, lockLate := m.lockStore.newest.2.2, lockStore := m.lockStore, cfgA := m.cfgA, cfgB := m.cfgB,
    calStage := m.calStore.newest, calAct := m.calStore.newest, calStore := m.calStore,
    logNext := m.logNext, logRing := m.logRing, logAck := m.logNext, slotA := m.slotA,
    slotB := m.slotB, runSlot := m.runSlot, minVer := m.minVer, keyHash := m.keyHash, spills := m.spills, spillNext := m.spillNext,
    flushMark := m.flushMark, flushOk := m.flushOk, rescue := m.rescue }

/-- The module after a reset: every register at its Reset value, what is not volatile kept (R460, R485, R613). -/
def State.afterReset (s : State) (lspd : BitVec 2) (cause : BitVec 16) (src : BitVec 8) : State :=
  { State.reset with
    pending := s.pending
    fresh := s.fresh + 1
    clk := { lspd := lspd }
    arr := { mapA := s.arr.mapA, mapB := s.arr.mapB }
    therm := { maxCode := s.therm.limits.newest.1, power := s.therm.limits.newest.2, limits := s.therm.limits }
    host := { sticky := cause }
    mport := { flash := s.mport.flash, flashB := s.mport.flashB }
    mgmt := s.mgmt.afterReset
    pwr := { dom := domains0, wakeSrc := src } }

/-- Steps 1 and 3 of R613 once LCLK is present: LK runs, PLL-M is enabled, and the reset value of PWR_REQ starts the wake of
MC from Off. The phase of the modulator divider is a free value (R619). -/
def State.startUp (s : State) : State :=
  let t := (s.modClk fun c =>
    { c with lclkPresent := true, pllm := .rising, failHt := some c.ht, modPhase := (Config.startPhase s.fresh).setWidth 5 }).modPwr fun p =>
    { p with reqDue := false }
  let t := t.modDom .mc fun d => { d with st := .waking, target := .on, fromRet := false }
  { t with fresh := t.fresh + 1 }

/-- A release of a reset: the reset state with its cause, then the start-up sequence. -/
def State.releaseReset (s : State) (lspd : BitVec 2) (cause : BitVec 16) (src : BitVec 8) : State :=
  (s.afterReset lspd cause src).startUp

/-- The module wake record of a reset (R571). -/
def State.wakeLog (s : State) : State := s.log 0x01#8 0#8 s.wakeWord 0#32 0#32

/-- POWER_ON (R613). -/
def execPowerOn (lspd : BitVec 2) (s : State) : Host.Outcome State Fault Refusal :=
  answerFresh (s.releaseReset lspd 0x0001#16 0x01#8).wakeLog

/-- RESET_PIN (R613). -/
def execResetPin (lspd : BitVec 2) (s : State) : Host.Outcome State Fault Refusal :=
  answerFresh (s.releaseReset lspd 0x0002#16 0x02#8).wakeLog

/-- BROWN_RECOVER (R450). -/
def execBrownRecover (lspd : BitVec 2) (s : State) : Host.Outcome State Fault Refusal :=
  answerFresh (s.releaseReset lspd 0x0008#16 0x06#8).wakeLog

/-- RESET_ASSERT (R460): every register at its Reset value, no clock, until release. -/
def execResetAssert (s : State) : Host.Outcome State Fault Refusal :=
  answerFresh ((s.afterReset s.clk.lspd 0x0002#16 0x02#8).modClk fun c => { c with inReset := true, pllm := .off })

/-! ### PLLs -/

/-- EN is On or in Retain: PLL-E is to run (R78, R420); a waking EN waits for it (R435). -/
def State.wantsPllE (s : State) : Bool := (s.dom .en).st.isOn || (s.dom .en).st matches .retain | .waking

/-- PLL-M locks (R51, R78, R87): after a coast, an abort or a PLL_FAIL the lock is a relock; a change of the operating point
that waited for it starts (R445). -/
def State.lockPllM (s : State) : State :=
  let relock := s.clk.relockDue
  let t := s.modClk fun c => { c with pllm := .locked, frozen := false, relockDue := false, failHt := none }
  let t := if s.wantsPllE then t.modClk fun c => { c with plle := .locking, holdClk := relock && (s.dom .en).st != .waking } else t
  let t := t.modSpec fun x => { x with waiting := false }
  if relock then
    let t := t.modClk fun c => { c with coast := false, relockEvt := true, relocks := satInc c.relocks }
    let t := t.log 0x03#8 0x02#8 t.clkStat 0#32 0#32
    let t := (t.driveVid t.pwr.vidPt).startChange
    if t.buf.writing then t.oweTimes (some t.clk.tsc) else t
  else t

/-- PLLM_FLOOR (R50). -/
def execPllmFloor (s : State) : Host.Outcome State Fault Refusal :=
  event (s.clk.pllm == .rising && s.hasSm) s (s.modClk fun c => { c with pllm := .floor })

/-- PLLM_LOCK (R51). -/
def execPllmLock (s : State) : Host.Outcome State Fault Refusal :=
  event (s.clk.pllm == .floor && s.hasSm && s.clk.lclkPresent) s (State.markQuality s s.lockPllM)

/-- 2 ms have passed since LCLK became present, in whole Headland ticks, and PLL_FAIL has not come since (R52). -/
def State.failDue (s : State) : Bool := s.clk.failHt.any fun h => decide (65 ≤ s.clk.ht - h)

/-- PLL_FAIL (R52): the lock that follows it is a relock. -/
def execPllFail (s : State) : Host.Outcome State Fault Refusal :=
  event ((s.clk.pllm == .rising || s.clk.pllm == .floor) && s.hasSm && s.clk.lclkPresent && s.failDue) s
    (let t := s.modClk fun c => { c with pllFailEvt := true, relockDue := true, failHt := none }
     t.log 0x03#8 0x03#8 t.clkStat 0#32 0#32)

/-- PLLE_LOCK (R51): EN leaves the hold clock, unless a change of the operating point or a dip keeps it there. -/
def execPlleLock (s : State) : Host.Outcome State Fault Refusal :=
  event (s.clk.plle == .locking && s.locked) s
    (s.modClk fun c => { c with plle := .locked, holdClk := c.holdClk && s.pwr.phase != .idle && s.pwr.phase != .settling })

/-! ### Coast (R74 to R81) -/

/-- The monitor trips while PLL-M is locked: coast (R75). -/
def State.enterCoast (s : State) : State :=
  let t := s.modClk fun c =>
    { c with
      coast := true, lclkPresent := false, epochValid := false, lostEvt := true, htMark := c.ht, relockDue := true,
      holdClk := false, pllm := .floor, plle := if c.plle = .off then .off else .locking }
  let t := (t.stick 4).modSpec Spec.coast
  let t := if s.buf.writing then t.oweTimes (some s.clk.tsc) else t
  t.log 0x03#8 0x01#8 t.clkStat 0#32 0#32

/-- LK has lost its clock, or the host has raised the strobe: a stalled access, whose sample edge has not come, is not executed
(R459, R460). -/
def State.dropStall (s : State) : State := s.modHost fun h => { h with stall := none }

/-- MONITOR_TRIP (R72, R75, R80). A trip after LCLK has returned from a coast and before PLL-M has locked again falls between
the two rules; the model takes it as a trip during start-up (DESIGN CHOICE, log entry 113). -/
def execMonitorTrip (s : State) : Host.Outcome State Fault Refusal :=
  event (s.clk.monitorArmed && s.clk.lclkPresent && s.clk.park == .running && !s.clk.inReset) s
    (State.markQuality s <| match s.clk.pllm with
     | .locked => s.enterCoast
     | .floor =>
       let t := s.modClk fun c =>
         { c with coast := true, lclkPresent := false, frozen := true, lostEvt := true, htMark := c.ht, relockDue := true,
                  holdClk := false }
       (((t.stick 4).stick 5).modSpec Spec.coast).log 0x03#8 0x04#8 t.clkStat 0#32 0#32
     | _ => (s.modClk fun c =>
         { c with lclkPresent := false, seqHeld := true, pllm := .off, lostEvt := true, htMark := c.ht }).dropStall)

/-- LCLK_RETURN (R77, R80): LCLK is present again; a held sequencer restarts the start-up sequence without a reset. -/
def execLclkReturn (s : State) : Host.Outcome State Fault Refusal :=
  event (!s.clk.lclkPresent && s.clk.park == .running && !s.clk.inReset) s
    (let t := s.modLink fun x => { x with train := false }
     if s.clk.seqHeld then
       let t := (t.modClk fun c => { c with lclkPresent := true, seqHeld := false, pllm := .rising, failHt := some c.ht }).stick 5
       t.log 0x03#8 0x04#8 t.clkStat 0#32 0#32
     else State.markQuality s (t.modClk fun c => { c with lclkPresent := true, failHt := some c.ht }))

/-! ### Epoch (R56 to R62, R67, R69, R619) -/

/-- TSYNC.STEP of a difference D: exact to ±32 767, else 0x8000 (R71). -/
def stepField (d : Int) : BitVec 16 := if -32767 ≤ d ∧ d ≤ 32767 then BitVec.ofInt 16 d else 0x8000#16

/-- Every instant that the block holds moves with the counter (R619): those of paths, stream groups and user sets, and what the
clock quality has been. -/
def State.shiftPaths (d : Tick) (s : State) : State :=
  let s := s.modClk fun c =>
    { c with quals := c.quals.map fun e => { e with until_ := e.until_ + d }, htLog := c.htLog.map (· + d) }
  let g (x : Grp) : Grp := { x with olds := x.olds.map fun e => (e.1 + d, e.2), timeFrom := x.timeFrom.map (· + d), startAt := x.startAt + d }
  let s := s.modBuf fun b =>
    { b with fast := g b.fast, slow := g b.slow, events := b.events.map fun e => { e with ready := e.ready + d },
             part := b.part.map fun e => (e.1, e.2 + d) }
  let outs (l : List GroupOut) : List GroupOut := l.map fun o => { o with ready := o.ready + d }
  let s := s.modHarrow fun h => { h with fastOut := outs h.fastOut, slowOut := outs h.slowOut }
  let s := ((s.modNext .fast (· + d)).modNext .slow (· + d)).modNext .recog (· + d)
  let cl (c : Cluster) : Cluster :=
    { c with trims := c.trims.map fun x => { x with since := x.since + d }, rejoinAt := c.rejoinAt + d }
  let s := s.modArr fun a => { a with cl := a.cl.map cl }
  let f (p : Path) : Path :=
    { p with t0 := p.t0 + d, supEnd := p.supEnd + d, flagEnd := p.flagEnd + d, keep := p.keep.map fun e => (e.1 + d, e.2 + d) }
  s.mapChans fun _ c =>
    { c with fast := f c.fast, slow := f c.slow, recog := f c.recog, lastT := c.lastT + d,
             userSets := c.userSets.map fun e => (e.1 + d, e.2) }

/-- What the converters and sources hold as instants moves with the counter (R619). -/
def State.shiftScans (d : Tick) (s : State) : State :=
  s.modAux fun a =>
    { a with
      conv := a.conv.map fun q =>
        { q with
          start := q.start + d
          startAt := q.startAt + d
          stopAt := q.stopAt.map (· + d)
          supAt := q.supAt.map fun t => t.map (· + d)
          supTo := q.supTo.map (· + d)
          blankAt := q.blankAt.map (· + d)
          holds := q.holds.map fun h => (h.1 + d, h.2.map (· + d)) }
      exc := a.exc.map fun e => { e with due := e.due + d } }

/-- What is counted from a tick moves with the counter (R619): a stalled access (R428), a change of the operating point (R442), a
gate that waits (R94), the words of a message (R562), a measurement (R566), a sequence of the memory port (R548), the dips of VANA
(R361), a source taken away (R407), a tick of the machines (R321), and the reports that are ready (R370). -/
def State.shiftTimers (d : Tick) (s : State) : State :=
  let s := s.modHost fun h => { h with stall := h.stall.map fun a => { a with since := a.since + d } }
  let s := s.modPwr fun p => { p with phaseAt := p.phaseAt + d, vanaDips := p.vanaDips.map fun v => (v.1 + d, v.2.map (· + d)) }
  let s := s.modClk fun c => { c with closing := c.closing.map fun t => t.map (· + d) }
  let s := s.modMgmt fun m => { m with inAt := m.inAt.map (· + d), sensAt := m.sensAt.map (· + d) }
  let s := s.modInt fun c =>
    { c with gone0 := c.gone0.map fun g => { g with at_ := g.at_ + d }, gone1 := c.gone1.map fun g => { g with at_ := g.at_ + d } }
  let s := s.modSmc fun x => { x with ticks := x.ticks.map fun e => e.map fun p => (p.1, p.2 + d) }
  let r (o : Option Report) : Option Report := o.map fun p => { p with ready := p.ready + d }
  let s := s.modRecog fun x =>
    { x with
      impact := { x.impact with due := r x.impact.due, winDue := r x.impact.winDue }
      cadence := { x.cadence with due := r x.cadence.due, endDue := r x.cadence.endDue }
      fall := { x.fall with due := r x.fall.due }
      trans := { x.trans with due := r x.trans.due }
      tilt := { x.tilt with due := r x.tilt.due } }
  s.modMport fun x => { x with seqAt := x.seqAt + d, bufAt := x.bufAt + d, mssAt := x.mssAt + d }

/-- The scan cycles of a converter lie where ALIGN wants them; the boundaries of a continuous one on modulator periods (R65,
R188). -/
def Conv.aligned (q : Conv) : Bool :=
  if convCont q.act.conv then decide (q.start.toNat % 32 = 0)
  else decide ((q.start - q.act.alignedStart).toNat % q.act.cycle = 0)

/-- A converter whose cycles are off the grid is placed on it: the cycle that was running is cut, the next one starts at the first
aligned start (R67, R188). A copy that was to stop at the end of that cycle stops with it (DEDUCED, log entry 128). -/
def State.alignConv (s : State) (q : Conv) : Conv :=
  let now := s.clk.tsc
  if q.aligned then q
  else if convCont q.act.conv then
    { q with start := gridFrom 0#64 32 q.start, stopAt := q.stopAt.map (gridFrom 0#64 32), blankAt := q.blankAt.map (gridFrom 0#64 32) }
  else
    { q with start := gridFrom q.act.alignedStart q.act.cycle s.nextMod
             stopAt := q.stopAt.map fun t => if 0 < (t - now).toInt then now else t }

/-- A pending copy that has not started yet starts at its first aligned start after the stop (R188, R189). -/
def State.alignPending (s : State) (q : Conv) : Conv :=
  match q.pend, q.stopAt with
  | some b, some t =>
    let now := s.clk.tsc
    if 0 < (q.startAt - now).toInt then { q with startAt := s.startFor b (if 0 < (t - now).toInt then t else now) } else q
  | _, _ => q

/-- The changes of excitation that still wait take effect at the boundaries as they lie now (R193). -/
def State.rebound (s : State) : State :=
  s.modAux fun a =>
    { a with exc := Vector.ofFn fun n =>
        let e := a.exc[n]
        if e.pend && decide (0 < (e.due - s.clk.tsc).toInt) then { e with due := s.excBoundary n.val } else e }

/-- Every scan cycle, pending copy and change of excitation placed on the tick counter (R67, R188, R189, R193). The paths of the
converters that are moved re-phase, and a slot that was still to settle settles in its new cycle. -/
def State.alignScans (s : State) : State :=
  let moved := chanMask fun ch => decide (6 ≤ ch ∧ ch < 22) && !s.aux.conv[chanConv ch].aligned
  let t := (s.modAux fun a => { a with conv := a.conv.map fun q => s.alignPending (s.alignConv q) }).rebound
  let t := foldUpto (fun t k =>
    if h : k < 4 then
      if s.aux.conv[k].aligned then t
      else t.suppressSlots ⟨k, h⟩ (fun i => match s.aux.conv[k].supAt.getD i none with
        | some at_ => decide (0 < (at_ - s.clk.tsc).toInt)
        | none => false) s.clk.tsc
    else t) t 4
  ((t.restart .fast moved true).restart .slow moved true).restart .recog moved true

/-- A SYNC that is accepted or refused (R56, R57, R61, R62, R67, R619). -/
def State.takeEpoch (e : Tick) (s : State) : State :=
  if !s.locked then s.modClk fun c => { c with syncReject := true, epochValid := false }
  else
    let d := e - s.clk.tsc
    let t := s.modClk fun c =>
      { c with tsc := e, epochValid := true, syncEvt := true, stepped := d != 0#64, step := stepField d.toInt }
    if d = 0#64 then t
    else
      let t := if t.buf.writing then t.oweStep else t
      let t := (t.shiftPaths d).shiftTimers d
      let t := t.shiftScans d
      if !s.clk.align then t.modClk fun c => { c with modPhase := c.modPhase + d.setWidth 5 }
      else t.alignScans.rephase fun k => d.toNat % 32 != 0 || d.toNat % s.period k != 0

/-- A SYNC loads E (R56, R61, R62, R67); while PLL-M is not locked it is refused (R57). -/
def State.loadEpoch (e : Tick) (s : State) : State := State.markQuality s (s.takeEpoch e)

/-- A write of TSYNC (R67, R71): a change of ALIGN to 1 re-phases the modulator divider and every path whose instants do not
lie on multiples of its period, a change to 0 nothing. -/
def State.writeTsync (w : Word) (s : State) : State :=
  let t := s.modClk fun c =>
    { c with align := bitAt w 0, syncEvt := w1c c.syncEvt w 2, syncReject := w1c c.syncReject w 3 }
  if bitAt w 0 && !s.clk.align then
    ((t.modClk fun c => { c with modPhase := 0#5 }).alignScans).rephase fun k => !s.onGrid k
  else t

/-- TSYNC (R71). -/
def State.tsync (s : State) : Word :=
  flg s.clk.align 0 ||| flg s.clk.epochValid 1 ||| flg s.clk.syncEvt 2 ||| flg s.clk.syncReject 3 |||
  flg s.rephasing 4 ||| flg s.clk.stepped 5 ||| fld s.clk.step 16

/-- A write of CLK_STAT: W1C bits and RELOCKS_CLR (R72). -/
def State.writeClkStat (w : Word) (s : State) : State :=
  s.modClk fun c =>
    { c with
      lostEvt := w1c c.lostEvt w 16
      relockEvt := w1c c.relockEvt w 17
      pllFailEvt := w1c c.pllFailEvt w 18
      parkRefused := w1c c.parkRefused w 19
      relocks := if bitAt w 20 then 0#8 else c.relocks }

/-! ### Park (R82 to R87) -/

/-- Edge S of a PARK frame: refused with PARK_REFUSED, or the monitor is disarmed and the entry begins (R83, R84). -/
def State.parkFrame (s : State) : State :=
  if !s.parkReady then s.modClk fun c => { c with parkRefused := true }
  else State.markQuality s (s.modClk fun c => { c with park := .entering, monitorArmed := false, epochValid := false })

/-- The entry into Park is complete: no clock runs and the lines stand high (R84, R85, R394). -/
def State.enterPark (s : State) : State :=
  (s.dropStall.modClk fun c =>
    { c with park := .parked, pllm := .off, plle := .off, holdClk := false, coast := false, frozen := false,
             relockDue := false, lclkPresent := false }).modInt fun i =>
    { i with line0 := false, line1 := false, gone0 := none, gone1 := none }

/-- PARK_ENTRY_DONE (R84). -/
def execParkEntryDone (s : State) : Host.Outcome State Fault Refusal :=
  event (s.clk.park == .entering) s s.enterPark

/-- Park ends (R87): LK and HT run, the monitor is armed, PLL-M is enabled, LINK_WAKE is recorded, and the wakes that a trip
of Scarecrow owes are issued (R285). -/
def State.endPark (s : State) : State :=
  let t := s.modClk fun c =>
    { c with park := .running, monitorArmed := true, lclkPresent := true, pllm := .rising, htMark := c.ht, failHt := some c.ht }
  let t := (t.modLink fun x => { x with train := false }).wakeRec 0x03#8 0x04#8
  if s.scar.wakeOwed then
    (t.modScar fun x => { x with wakeOwed := false }).scarWake
  else t

/-! ### Paths -/

/-- PATH_SETTLED (R68, R239, R247): suppression of a path, and of the same path of its triad partners, ends. -/
def State.settlePath (ch : Nat) (k : PathKind) (s : State) : State :=
  let m := withTriads (putBit 0#24 ch true)
  s.mapChans fun i c => if m.getLsbD i then c.modPath k fun p => { p with sup := false, rephasing := false } else c

/-- The counter has reached t0 + 32 L of a path, and the end of a suppression that a restart has met (R247, R248). -/
def State.latencyOver (s : State) (ch : Nat) (k : PathKind) : Bool :=
  let p := (s.chan ch).path k
  decide (32 * s.latencyOf ch k ≤ (s.clk.tsc - p.t0).toInt) && decide (0 ≤ (s.clk.tsc - p.supEnd).toInt)

/-- PATH_SETTLED (R68, R247, R248): at t0 + 32 L of the latest restart, while the path's clock runs. -/
def execPathSettled (ch : Fin 24) (path : PathKind) (s : State) : Host.Outcome State Fault Refusal :=
  event (((s.chan ch).path path).sup && s.isOn .en && s.hasSm && s.latencyOver ch.val path) s (s.settlePath ch.val path)

end Sys2Proof.Machine
end

