-- ==== Sys2Proof/Machine/Recog.lean ====
section
/-!
DEFINITION. The recognisers (R250 to R274): parameters and their checks, the processing of one sample of the recogniser path,
reports, result words and snapshots; publication of a spectrum with the Band recogniser (R273, R301).
-/

namespace Sys2Proof.Machine

open Sys2Proof

/-! ### Parameters (R264 to R274) -/

/-- Parameter word k of recogniser r. -/
def Rec.param (x : Rec) (r k : Nat) : Word := (x.params.getD r (Vector.replicate 8 0#32)).getD k 0#32

/-- Result word k of recogniser r: offset 8 + k of its block. -/
def Rec.result (x : Rec) (r k : Nat) : Word := (x.results.getD r (Vector.replicate 8 0#32)).getD k 0#32

/-- Update of a parameter word. -/
def Rec.setParam (x : Rec) (r k : Nat) (w : Word) : Rec :=
  { x with params := x.params.setIfInBounds r ((x.params.getD r (Vector.replicate 8 0#32)).setIfInBounds k w) }

/-- Update of a result word. -/
def Rec.setResult (x : Rec) (r k : Nat) (w : Word) : Rec :=
  { x with results := x.results.setIfInBounds r ((x.results.getD r (Vector.replicate 8 0#32)).setIfInBounds k w) }

/-- Update of the bits of a result word under a mask. -/
def Rec.maskResult (x : Rec) (r k : Nat) (mask w : Word) : Rec :=
  x.setResult r k ((x.result r k &&& ~~~mask) ||| (w &&& mask))

/-- The RW bits of parameter word k of recogniser r; the other bits are reserved. -/
def paramMask (r k : Nat) : Word :=
  match r, k with
  | 0, 0 => 0x0FFFFFFF#32
  | 0, 1 => 0x03FFFFFF#32
  | 1, 0 => 0x0001FF1F#32
  | 1, 1 => 0x00FFFFFF#32
  | 1, 2 => 0xFFFFFFFF#32
  | 2, 0 => 0x00FFFFFF#32
  | 2, 1 => 0x00FFFFFF#32
  | 2, 2 => 0x0000FFFF#32
  | 3, 0 => 0x00000F7F#32
  | 3, 1 => 0xFFFFFFFF#32
  | 3, 2 => 0x00FFFFFF#32
  | 3, 3 => 0x0000FFFF#32
  | 4, 0 => 0x00000007#32
  | 4, 1 => 0x00FFFFFF#32
  | 4, 2 => 0x00FFFFFF#32
  | 4, 3 => 0xFFFFFFFF#32
  | 4, 4 => 0xFFFFFFFF#32
  | 4, 5 => 0xFFFFFFFF#32
  | 5, 0 => 0x0000FF07#32
  | 5, 1 => 0xFFFFFFFF#32
  | 5, 2 => 0xFFFFFFFF#32
  | _, _ => 0#32

/-- A threshold in grain units is valid from 1 to 0x7F_FFFF (R250). -/
def badThreshold (w : Word) : Bool := bits w 0 24 == 0#24 || bitAt w 23

/-- Whether the parameter words of recogniser r are invalid (R250, R264 to R274). -/
def Rec.badConfig (x : Rec) (r : Nat) : Bool :=
  let p (k : Nat) := x.param r k
  match r with
  | 0 =>
    let hpk := (bits (p 0) 24 4).toNat
    badThreshold (p 0) || decide (hpk < 4 ∨ 12 < hpk) || bits (p 1) 0 8 == 0#8 ||
      (bits (p 1) 16 8 == 0#8 && bits (p 1) 24 2 != 0#2)
  | 1 =>
    let src := (bits (p 0) 0 5).toNat
    decide (22 ≤ src ∧ src ≤ 30) || badThreshold (p 1) || bits (p 0) 12 4 == 0#4 || bits (p 2) 0 16 == 0#16 ||
      decide ((bits (p 2) 16 16).toNat ≤ (bits (p 2) 0 16).toNat)
  | 2 =>
    badThreshold (p 0) || badThreshold (p 1) || decide ((bits (p 1) 0 24).toNat ≤ (bits (p 0) 0 24).toNat) ||
      bits (p 2) 0 16 == 0#16
  | 3 =>
    let src := (bits (p 0) 0 5).toNat
    decide (src < 6 ∨ 21 < src) || (!bitAt (p 0) 5 && !bitAt (p 0) 6) || (bitAt (p 0) 5 && badThreshold (p 1)) ||
      (bitAt (p 0) 6 && badThreshold (p 2)) || bits (p 1) 24 8 == 0#8 || decide (9 < (bits (p 0) 8 4).toNat)
  | 4 =>
    bits (p 1) 0 24 == 0#24 || decide ((bits (p 1) 0 24).toNat ≤ (bits (p 2) 0 24).toNat) ||
      (p 3 <<< 1 == 0#32 && p 4 <<< 1 == 0#32 && p 5 <<< 1 == 0#32) ||
      fNonFinite (p 3) || fNonFinite (p 4) || fNonFinite (p 5)
  | _ =>
    bits (p 0) 8 8 == 0#8 || p 1 == 0#32 || fNonFinite (p 2) || !fLt 0#32 (p 2)

/-- CFG_ERR of recogniser r after a check (R253). -/
def Rec.check (x : Rec) (r : Nat) : Rec := { x with cfgErr := putBit x.cfgErr r (x.badConfig r) }

/-- The recogniser starts from its idle state: its state bits read 0 (R256). A SET_REF that no block has answered is no state of
the recogniser in the words of R256, and stands (DESIGN CHOICE, log entry 132). -/
def Rec.idle (x : Rec) (r : Nat) : Rec :=
  match r with
  | 0 => { x with impact := {} }
  | 1 => { x with cadence := {} }.maskResult 1 0 1#32 0#32
  | 2 => { x with fall := {} }.maskResult 2 0 1#32 0#32
  | 3 => { x with trans := {} }.maskResult 3 0 1#32 0#32
  | 4 => { x with tilt := { setRef := x.tilt.setRef } }.maskResult 4 0 3#32 0#32
  | _ => (x.maskResult 5 0 1#32 0#32).maskResult 5 4 0xFF#32 0#32

/-- EVT_CTRL (R251). -/
def Rec.ctrl (x : Rec) : Word := fld x.en 0 ||| fld x.frame 8 ||| fld x.capt 16 ||| flg x.scarFr 22

/-- EVT_STAT (R252). -/
def State.evtStat (s : State) : Word :=
  let x := s.recog
  fld x.evt 0 ||| flg s.scar.trip 6 ||| flg s.scar.cls 7 ||| flg s.cap.capDone 8 ||| flg x.lost 9 ||| flg s.cap.capMiss 10 |||
  fld x.inval 16 ||| fld x.cfgErr 22

/-- A detection in progress that has not completed is abandoned without an event (R254, R255). One that has completed and is not
yet reported goes on. The rules do not say what becomes of the time of the last accepted peak of Cadence: it stands, and the next
interval starts from it (DESIGN CHOICE, log entry 133). -/
def Rec.abandon (x : Rec) (r : Nat) : Rec :=
  match r with
  | 0 => { x with impact := { x.impact with strike := none, first := none, second := false } }
  | 1 => if bitAt (x.result 1 0) 0 || x.cadence.due.isSome then x else { x with cadence := { x.cadence with runLen := 0, hist := [] } }
  | 2 => if bitAt (x.result 2 0) 0 || x.fall.due.isSome then x else { x with fall := { x.fall with below := 0 } }
  | 4 => { x with tilt := { x.tilt with block := none } }
  | 5 => if bitAt (x.result 5 0) 0 then x else x.maskResult 5 4 0xFF#32 0#32
  | _ => x

/-- A write of offset 12 of the Cadence block: COUNT takes the value, SAT is cleared (R266). -/
def State.writeCadenceCount (w : Word) (s : State) : State :=
  s.modRecog fun x => (x.setResult 1 4 w).maskResult 1 0 2#32 0#32

/-- A read of offset 8 copies offsets 8 to 15 into the snapshot (R257). -/
def Rec.snapRead (x : Rec) (r : Nat) : Rec :=
  { x with snap := x.snap.setIfInBounds r (x.results.getD r (Vector.replicate 8 0#32)) }

/-- EN goes Off: the words of the blocks return to reset (R256); EVT_STAT is held in Headland (R252). -/
def Rec.enOff (x : Rec) : Rec :=
  { x with
    params := recParams0, results := recResults0, snap := recResults0, impact := {}, cadence := {}, fall := {}, trans := {},
    tilt := {}, live := 0#6 }

/-! ### Reports (R257 to R259) -/

/-- An EVENT frame that has become ready joins the queue behind those that became ready earlier and, among those of its own
tick, in ascending source order (R258, R370). -/
def placeByOrder (e : EventFrame) : List EventFrame → List EventFrame
  | [] => [e]
  | f :: fs => if f.ready = e.ready ∧ e.source < f.source then e :: f :: fs else f :: placeByOrder e fs

/-- An EVENT frame, ready at a tick, is queued while the writer runs (R259, R367). -/
def State.queueEvent (source : BitVec 6) (ts : Tick) (r8 r9 : Word) (ready : Tick) (s : State) : State :=
  if s.buf.writing then
    s.modBuf fun b => { b with events := placeByOrder ⟨source, ts, r8, r9, s.untimedAt ts, ready⟩ b.events }
  else s

/-- A report pulse to every machine (R318). -/
def State.pulseMachines (r : Nat) (s : State) : State :=
  s.modSmc fun x => { x with m := x.m.map fun q => { q with pulse := putBit q.pulse r true } }

/-- The result words of a report written together; strokes counted add to COUNT as it stands (R257, R266). SAT is set by a stroke that
would carry COUNT past its last value, not by COUNT reaching it: R266 says only that COUNT saturates (DESIGN CHOICE, log entry 134). -/
def Rec.writeReport (x : Rec) (r : Nat) (p : Report) : Rec :=
  let y := p.words.foldl (fun y kw => y.maskResult r kw.1 kw.2.1 kw.2.2) x
  if p.strokes = 0 then y
  else
    let old := y.result 1 4
    let y := y.setResult 1 4 (satAdd old p.strokes)
    if 2 ^ 32 ≤ old.toNat + p.strokes then y.maskResult 1 0 2#32 2#32 else y

/-- A report of recogniser r: the result words together, and at an event EVT, LOST, EVENT frame, trigger, pulse (R257, R258). -/
def State.report (r : Nat) (p : Report) (s : State) : State :=
  let s := s.modRecog fun x => x.writeReport r p
  if !p.evt then s
  else
    let x := s.recog
    let r8 := x.result r 0
    let r9 := x.result r 1
    let s := s.modRecog fun y => { y with evt := putBit y.evt r true, lost := y.lost || y.evt.getLsbD r }
    let s := s.pulseMachines r
    let s := if x.frame.getLsbD r then s.queueEvent (BitVec.ofNat 6 (9 + r)) p.ts r8 r9 p.ready else s
    if x.capt.getLsbD r then s.recogTrigger (BitVec.ofNat 8 (9 + r)) p.ts p.ready r8 r9 else s

/-- A whole result word of a report. -/
def wordAt (k : Nat) (w : Word) : Nat × Word × Word := (k, BitVec.allOnes 32, w)

/-- The two words of an event timestamp, at offsets 10 and 11. -/
def wordsTs (ts : Tick) : List (Nat × Word × Word) := [wordAt 2 (lowWord ts), wordAt 3 (highWord ts)]

/-- Reports that are complete and not yet made, made in ascending source order (R258). -/
def State.flushReports (s : State) : State :=
  let go (due : Option Report) (clear : Rec → Rec) (r : Nat) (s : State) : State :=
    match due with
    | some p => (s.modRecog clear).report r p
    | none => s
  let s := go s.recog.impact.due (fun x => { x with impact := { x.impact with due := none } }) 0 s
  let s := go s.recog.impact.winDue (fun x => { x with impact := { x.impact with winDue := none } }) 0 s
  let s := go s.recog.cadence.endDue (fun x => { x with cadence := { x.cadence with endDue := none } }) 1 s
  let s := go s.recog.cadence.due (fun x => { x with cadence := { x.cadence with due := none } }) 1 s
  let s := go s.recog.fall.due (fun x => { x with fall := { x.fall with due := none } }) 2 s
  let s := go s.recog.trans.due (fun x => { x with trans := { x.trans with due := none } }) 3 s
  let s := if s.recog.trans.rearm then
      s.modRecog fun x => { x with trans := { x.trans with rearm := false } }.maskResult 3 0 1#32 0#32
    else s
  go s.recog.tilt.due (fun x => { x with tilt := { x.tilt with due := none } }) 4 s

/-- The recognisers that are to run (R250). -/
def State.recogWant (s : State) : BitVec 6 :=
  if s.clken 3 && s.isOn .en then s.recog.en &&& ~~~s.recog.cfgErr else 0#6

/-- The recognisers that run, after a change of what R250 asks for; one that begins to run reports what it had completed and
starts from its idle state (R256). -/
def State.refreshRecog (s : State) : State :=
  let live := s.recogWant
  let fresh := live &&& ~~~s.recog.live
  let s := if fresh = 0#6 then s else s.flushReports
  s.modRecog fun x =>
    let y := foldUpto (fun y r => if fresh.getLsbD r then y.idle r else y) x 6
    { y with live := live }

/-- A write of EVT_CTRL (R251, R253). -/
def State.writeEvtCtrl (w : Word) (s : State) : State :=
  let en : BitVec 6 := bits w 0 6
  (s.modRecog fun x =>
    let y := { x with en := en, frame := bits w 8 6, capt := bits w 16 6, scarFr := bitAt w 22 }
    foldUpto (fun y r => if en.getLsbD r && !x.en.getLsbD r then y.check r else y) y 6).refreshRecog

/-- A write of parameter word k of recogniser r (R253, R254); SET_REF of Tilt makes the next valid block the reference
(R271). A reserved word ignores it (R468). -/
def State.writeRecParam (r k : Nat) (w : Word) (s : State) : State :=
  if paramMask r k = 0#32 then s
  else (s.modRecog fun x =>
    let y := (x.setParam r k (w &&& paramMask r k)).abandon r
    let y := if r = 4 ∧ k = 0 ∧ bitAt w 4 then { y with tilt := { y.tilt with setRef := true } } else y
    y.check r).refreshRecog

/-- EN returns to On: the parameters of every recogniser are checked (R253). -/
def State.recogEnReturns (s : State) : State :=
  (s.modRecog fun x => foldUpto (fun y r => y.check r) x 6).refreshRecog

/-! ### Exact numbers of the filters -/

/-- The number as an integer at exponent e, which is at least its own. -/
def Dyadic.at (d : Dyadic) (e : Nat) : Int := d.num * 2 ^ (e - d.exp)

/-- y' = x − x' + (1 − 2^−k) · y (R263). -/
def highPass (x x' : Int) (y : Dyadic) (k : Nat) : Dyadic :=
  { num := (x - x') * 2 ^ (y.exp + k) + y.num * (2 ^ k - 1), exp := y.exp + k }

/-- B' = B + (x − B) · 2^−k (R269). -/
def follow (b : Dyadic) (x : Int) (k : Nat) : Dyadic :=
  { num := b.num * (2 ^ k - 1) + x * 2 ^ b.exp, exp := b.exp + k }

/-- |num| / 2^exp as an unsigned number of 24 bits: the difference of two grains never exceeds 0xFF_FFFF. -/
def absGrain (num : Int) (exp : Nat) : Grain := BitVec.ofNat 24 (min (quotient (num.natAbs : Int) (2 ^ exp)).toNat 0xFFFFFF)

/-! ### Magnitudes (R250) -/

/-- CH0 to CH2 do not share one RANGE. -/
def State.mixedRange (s : State) : Bool :=
  let a := (s.chan 0).range
  let b := (s.chan 1).range
  let c := (s.chan 2).range
  a != b || b != c

/-- Exponent by which a number in grains of axis k is scaled to the common unit. -/
def State.axisShift (s : State) (k : Nat) : Int := if s.mixedRange && !(s.chan k).range then -3 else 0

/-- The accelerometer magnitude of three grains; none where one is invalid (R250, R255). -/
def State.accMag (s : State) (x y z : Grain) : Option Grain :=
  if x = invalidGrain ∨ y = invalidGrain ∨ z = invalidGrain then none
  else some (magnitude (grainInt x, s.axisShift 0) (grainInt y, s.axisShift 1) (grainInt z, s.axisShift 2))

/-- The magnitude of the three high-passed axes. -/
def State.hpMag (s : State) (y : Vector Dyadic 3) : Grain :=
  magnitude (y[0].num, s.axisShift 0 - y[0].exp) (y[1].num, s.axisShift 1 - y[1].exp) (y[2].num, s.axisShift 2 - y[2].exp)

/-- The axis with the largest absolute value, the lowest on a tie, and its sign (R263). -/
def State.dominant (s : State) (y : Vector Dyadic 3) : BitVec 2 × Bool :=
  let e := max y[0].exp (max y[1].exp y[2].exp)
  let v (k : Fin 3) : Int := y[k].at e * (if s.axisShift k.val = 0 then 8 else 1)
  let best : Fin 3 := if (v 0).natAbs < (v 1).natAbs then 1 else 0
  let best : Fin 3 := if (v best).natAbs < (v 2).natAbs then 2 else best
  (BitVec.ofNat 2 best.val, decide (v best < 0))

/-- The high-pass of the three axes at a valid sample; the first sample starts it (R263). -/
def hpStep (started : Bool) (x : Vector Int 3) (y : Vector Dyadic 3) (new : Vector Int 3) (k : Nat) : Vector Dyadic 3 :=
  Vector.ofFn fun i => if started then highPass new[i] x[i] y[i] k else {}

/-! ### Impact (R263) -/

/-- The sample at work: its acquisition instant and the tick counter as it leaves the path. -/
structure Moment where
  at_ : Tick
  now : Tick

/-- An event report completed on a sample. -/
def Moment.event (o : Moment) (ts : Tick) (words : List (Nat × Word × Word)) : Report :=
  { words := words, ts := ts, ready := o.now }

/-- An Impact report: STRIKES counts on its own. -/
def impactReport (o : Moment) (k : Strike) (double : Bool) (ts : Tick) : Report :=
  o.event ts ([wordAt 0 (fld k.axis 0 ||| flg k.neg 2 ||| flg double 3), wordAt 1 (fld k.peak 0)] ++ wordsTs ts)

/-- The larger of two strikes, the first on a tie. -/
def larger (a b : Strike) : Strike := if a.peak.toNat < b.peak.toNat then b else a

/-- The end of a strike (R263). -/
def Rec.strikeEnds (x : Rec) (o : Moment) (k : Strike) : Rec :=
  let mode := bits (x.param 0 1) 24 2
  let quiet := 48 * (bits (x.param 0 1) 8 8).toNat
  let i := { x.impact with strike := none, quiet := quiet }
  if mode = 0#2 then { x with impact := { i with due := some (impactReport o k false k.ts) } }
  else
    match i.first, i.second with
    | some f, true =>
      { x with impact := { i with first := none, second := false, win := 0,
                                  due := some (impactReport o (larger f k) true f.ts) } }
    | _, _ =>
      if 0 < i.win then { x with impact := { i with first := some k } }
      else if mode = 1#2 then { x with impact := i }
      else { x with impact := { i with due := some (impactReport o k false k.ts) } }

/-- The double window counts down; at its expiry with a first strike ended and no second begun, mode Both reports (R263). -/
def Rec.winTick (x : Rec) (o : Moment) : Rec :=
  let i := x.impact
  if i.win = 0 then x
  else if i.win = 1 ∧ !i.second then
    match i.first with
    | some f =>
      let due := if 2 ≤ (bits (x.param 0 1) 24 2).toNat then some (impactReport o f false f.ts) else i.winDue
      { x with impact := { i with win := 0, first := none, winDue := due } }
    | none => { x with impact := { i with win := 0 } }
  else { x with impact := { i with win := i.win - 1 } }

/-- Impact takes one sample (R255, R263). The rules do not say what follows a strike abandoned on an invalid sample: no quiet period
does, and a first strike whose second is abandoned once WIN has run out is not reported (DESIGN CHOICE, log entry 135). -/
def State.impactSample (t : Tick) (gx gy gz : Grain) (s : State) : State :=
  s.modRecog fun x =>
    let o : Moment := ⟨t, s.clk.tsc⟩
    let x := x.winTick o
    let invalid := decide (gx = invalidGrain ∨ gy = invalidGrain ∨ gz = invalidGrain)
    let x := { x with inval := putBit x.inval 0 invalid }
    let i := x.impact
    if invalid then
      { x with impact := { i with strike := none, first := if i.second && i.win == 0 then none else i.first,
                                  second := false, quiet := i.quiet - 1 } }
    else
      let new : Vector Int 3 := #v[grainInt gx, grainInt gy, grainInt gz]
      let y := hpStep i.started i.x i.y new (bits (x.param 0 0) 24 4).toNat
      let m := (s.hpMag y).toNat
      let thr := (bits (x.param 0 0) 0 24).toNat
      let shock := (bits (x.param 0 1) 0 8).toNat
      let q := 48 * (bits (x.param 0 1) 8 8).toNat
      let i := { i with started := true, x := new, y := y }
      match i.strike with
      | some k =>
        let d := s.dominant y
        let k := if k.peak.toNat < m then { k with peak := BitVec.ofNat 24 m, axis := d.1, neg := d.2 } else k
        let k := { k with len := k.len + 1 }
        if 2 * m < thr ∨ shock ≤ k.len then { x with impact := i }.strikeEnds o k
        else { x with impact := { i with strike := some k } }
      | none =>
        if 0 < i.quiet then
          { x with impact := { i with quiet := if 2 * m < thr then i.quiet - 1 else q } }
        else if thr ≤ m then
          let d := s.dominant y
          let k : Strike := ⟨t, 1, BitVec.ofNat 24 m, d.1, d.2⟩
          let mode := bits (x.param 0 1) 24 2
          let second := decide (mode ≠ 0#2) && i.first.isSome && decide (0 < i.win)
          let win := if mode = 0#2 ∨ second then i.win else 48 * (bits (x.param 0 1) 16 8).toNat
          let x := x.setResult 0 4 (satInc (x.result 0 4))
          let i := { i with second := second, win := win, first := if second then i.first else none }
          if shock ≤ 1 then { x with impact := i }.strikeEnds o k else { x with impact := { i with strike := some k } }
        else { x with impact := i }

/-! ### Cadence (R265) -/

/-- The report of Cadence after a counted peak: n strokes more (R265). -/
def countPeak (o : Moment) (n : Nat) (evt : Bool) (hist : List Nat) (ts : Tick) : Report :=
  let period := quotient ((hist.sum : Nat) : Int) hist.length
  { o.event ts ([(0, 1#32, 1#32), wordAt 1 (fld (intGrain period) 0)] ++ wordsTs ts) with evt := evt, strokes := n }

/-- The end of a sequence: RUNNING becomes 0 with an event, whose timestamp is that of the last counted peak (R265). -/
def Rec.cadenceOver (x : Rec) (o : Moment) : Report :=
  o.event (joinWords (x.result 1 2) (x.result 1 3)) [(0, 1#32, 0#32)]

/-- Cadence takes one value, none where the sample is invalid (R255, R265). -/
def Rec.cadenceValue (x : Rec) (o : Moment) (t : Tick) (v : Option Int) : Rec :=
  let x := { x with inval := putBit x.inval 1 v.isNone }
  let c : CadenceRun := { x.cadence with since := x.cadence.since.map (· + 1) }
  let pmin := 48 * (bits (x.param 1 2) 0 16).toNat
  let pmax := 48 * (bits (x.param 1 2) 16 16).toNat
  let running := bitAt (x.result 1 0) 0
  let late : Bool := match c.since with | some n => decide (pmax < n) | none => false
  let ending := running && late
  let c : CadenceRun := if late then { c with since := none, runLen := 0, hist := [] } else c
  let c : CadenceRun := if ending then { c with endDue := some (x.cadenceOver o) } else c
  let running := running && !late
  match v with
  | none => { x with cadence := if running then c else { c with runLen := 0, hist := [] } }
  | some v =>
    let thr : Int := (bits (x.param 1 1) 0 24).toNat
    if 2 * v < thr then { x with cadence := { c with low := true } }
    else if v < thr ∨ !c.low then { x with cadence := c }
    else
      let c := { c with low := false }
      match c.since with
      | none => { x with cadence := { c with since := some 0, runLen := 0, hist := [] } }
      | some n =>
        if n < pmin then { x with cadence := c }
        else
          let hist := (n :: c.hist).take 8
          let c := { c with since := some 0, runLen := c.runLen + 1, hist := hist }
          let startn := (bits (x.param 1 0) 12 4).toNat
          if running then
            { x with cadence := { c with due := some (countPeak o 1 (bitAt (x.param 1 0) 16) hist t) } }
          else if startn ≤ c.runLen then
            { x with cadence := { c with due := some (countPeak o (startn + 1) true hist t) } }
          else { x with cadence := c }

/-- Cadence takes one sample: its channel, or the high-passed magnitude. -/
def State.cadenceSample (t : Tick) (out : Vector Grain 24) (s : State) : State :=
  s.modRecog fun x =>
    let o : Moment := ⟨t, s.clk.tsc⟩
    let src := (bits (x.param 1 0) 0 5).toNat
    if src = 31 then
      let gx := out[0]
      let gy := out[1]
      let gz := out[2]
      if gx = invalidGrain ∨ gy = invalidGrain ∨ gz = invalidGrain then x.cadenceValue o t none
      else
        let new : Vector Int 3 := #v[grainInt gx, grainInt gy, grainInt gz]
        let c := x.cadence
        let y := hpStep c.started c.x c.y new (bits (x.param 1 0) 8 4).toNat
        let m : Int := (s.hpMag y).toNat
        { x with cadence := { c with started := true, x := new, y := y } }.cadenceValue o t (some m)
    else
      let g := out.getD src invalidGrain
      x.cadenceValue o (s.chan src).lastT (if g = invalidGrain then none else some (grainInt g))

/-! ### Free-fall (R267) -/

/-- Free-fall takes one magnitude, none where the sample is invalid; MIN follows the fall in progress. -/
def Rec.fallValue (x : Rec) (o : Moment) (v : Option Grain) : Rec :=
  let x := { x with inval := putBit x.inval 2 v.isNone }
  let f := x.fall
  let falling := bitAt (x.result 2 0) 0
  let words (falling : Bool) (low : Grain) (start : Tick) : List (Nat × Word × Word) :=
    [wordAt 0 (flg falling 0), wordAt 1 (fld low 0)] ++ wordsTs start
  match v with
  | none => { x with fall := if falling then { f with since := f.since + 1 } else { f with below := 0 } }
  | some m =>
    let thr := (bits (x.param 2 0) 0 24).toNat
    if falling then
      if (bits (x.param 2 1) 0 24).toNat ≤ m.toNat then
        let dur : Word := if 2 ^ 32 ≤ f.since then BitVec.allOnes 32 else BitVec.ofNat 32 f.since
        { x with fall := { f with below := 0, due := some (o.event f.start (words false f.low f.start ++ [wordAt 4 dur])) } }
      else
        let low := if m.toNat < f.low.toNat then m else f.low
        { x with fall := { f with since := f.since + 1, low := low } }.setResult 2 1 (fld low 0)
    else if m.toNat < thr then
      let f := if f.below = 0 then { f with below := 1, start := o.at_, low := m, since := 1 }
        else { f with below := f.below + 1, since := f.since + 1, low := if m.toNat < f.low.toNat then m else f.low }
      if 48 * (bits (x.param 2 2) 0 16).toNat ≤ f.below then
        { x with fall := { f with due := some (o.event f.start (words true f.low f.start)) } }
      else { x with fall := f }
    else { x with fall := { f with below := 0 } }

/-- Free-fall takes one sample. -/
def State.fallSample (t : Tick) (out : Vector Grain 24) (s : State) : State :=
  s.modRecog fun x => x.fallValue ⟨t, s.clk.tsc⟩ (s.accMag out[0] out[1] out[2])

/-! ### Transient (R269) -/

/-- Transient takes one value, none where the sample is invalid: the tests use the baseline before this sample. -/
def Rec.transValue (x : Rec) (o : Moment) (t : Tick) (v : Option Int) : Rec :=
  let x := { x with inval := putBit x.inval 3 v.isNone }
  let r := x.trans
  let active := bitAt (x.result 3 0) 0
  let holdoff := 48 * (bits (x.param 3 3) 0 16).toNat
  match v with
  | none =>
    let quiet := r.quiet + 1
    { x with trans := { r with hist := if r.started then (none :: r.hist).take 255 else [],
                               quiet := quiet, rearm := active && decide (holdoff ≤ quiet) } }
  | some v =>
    let base := if r.started then r.base else { num := v, exp := 0 }
    let diff := v * 2 ^ base.exp - base.num
    let span := (bits (x.param 3 1) 24 8).toNat
    let ref := if span = 0 then none else (r.hist[span - 1]?).bind id
    let byRate := bitAt (x.param 3 0) 5 &&
      (match ref with | some p => decide ((bits (x.param 3 1) 0 24).toNat ≤ (v - p).natAbs) | none => false)
    let byStep := bitAt (x.param 3 0) 6 &&
      decide ((bits (x.param 3 2) 0 24).toNat * 2 ^ base.exp ≤ diff.natAbs)
    let holds := byRate || byStep
    let hist := (some v :: r.hist).take 255
    if active then
      let old : Grain := bits (x.result 3 1) 0 24
      let now := absGrain diff base.exp
      let x := x.setResult 3 0 (x.result 3 0 ||| flg byRate 1 ||| flg byStep 2)
      let x := if old.toNat < now.toNat then x.setResult 3 1 (fld now 0) else x
      let quiet := if holds then 0 else r.quiet + 1
      { x with trans := { r with hist := hist, quiet := quiet, rearm := !holds && decide (holdoff ≤ quiet) } }
    else if holds then
      let words := [wordAt 0 (1#32 ||| flg byRate 1 ||| flg byStep 2 ||| flg (decide (diff < 0)) 3),
        wordAt 1 (fld (absGrain diff base.exp) 0), wordAt 4 (fld (intGrain (quotient base.num (2 ^ base.exp))) 0),
        wordAt 5 (satInc (x.result 3 5))] ++ wordsTs t
      { x with trans := { r with started := true, base := base, hist := hist, quiet := 0, rearm := false,
                                 due := some (o.event t words) } }
    else
      { x with trans := { r with started := true, base := follow base v ((bits (x.param 3 0) 8 4).toNat + 6), hist := hist } }

/-- Transient takes one sample of its channel. -/
def State.transSample (t : Tick) (out : Vector Grain 24) (s : State) : State :=
  s.modRecog fun x =>
    let src := (bits (x.param 3 0) 0 5).toNat
    let g := out.getD src invalidGrain
    x.transValue ⟨t, s.clk.tsc⟩ (s.chan src).lastT (if g = invalidGrain then none else some (grainInt g))

/-! ### Tilt (R271) -/

/-- Samples of a block. -/
def Rec.tiltLen (x : Rec) : Nat := 24000 * 2 ^ (bits (x.param 4 0) 0 3).toNat

/-- The largest n with bits below n that p holds of, for a p that holds up to some number: one bit at a time. -/
def largest (p : Nat → Bool) : Nat → Nat → Nat
  | 0, r => r
  | n + 1, r => largest p n (if p (r + 2 ^ n) then r + 2 ^ n else r)

/-- 2·asin(|ĝ − r̂|/2), the angle between two unit vectors with scalar product c, in units of 2 × 10^-7: the largest whole number
of units whose cosine is at least c, or the next as the free value says (R271). -/
def tiltAngle (c : Rat) : Nat :=
  let n := largest (fun n => decide (n ≤ 15707963) &&
    decide (c ≤ (fixCos ((2 * n * fixOne / 10 ^ 7 : Nat) : Int) : Rat) / (fixOne : Rat))) 24 0
  if c = 1 then 0 else if Config.roundFree c then n + 1 else n

/-- A component of ĝ − r̂ in units of 2 × 10^-7, saturating at 24 bits (R271). -/
def tiltPart (d : Rat) : Grain :=
  let q := d * 5000000
  intGrain (max (-(2 ^ 23)) (min (quotient q.num q.den) (2 ^ 23 - 1)))

/-- A valid block against a reference: OUT with its hysteresis, ANGLE, DX, DY, DZ, and the centre instant (R271). -/
def Rec.tiltReport (x : Rec) (o : Moment) (b : TiltBlock) : Report :=
  let g : Vector Rat 3 := #v[(b.sx : Rat), (b.sy : Rat), (b.sz : Rat)]
  let r : Vector Rat 3 := Vector.ofFn fun k => (ratOf (x.param 4 (3 + k.val))).getD 0
  let dot (u v : Vector Rat 3) : Rat := u[0] * v[0] + u[1] * v[1] + u[2] * v[2]
  let g2 := dot g g
  let r2 := dot r r
  let d (k : Fin 3) : Grain := tiltPart (unitOf g[k] g2 - unitOf r[k] r2)
  let angle := tiltAngle (unitOf (dot g r) (g2 * r2))
  let thr := (bits (x.param 4 1) 0 24).toNat
  let hyst := (bits (x.param 4 2) 0 24).toNat
  let was := bitAt (x.result 4 0) 0
  let now := if was then !decide (angle < thr - hyst) else decide (thr ≤ angle)
  let ts := b.start + BitVec.ofNat 64 (b.count * 2048)
  { o.event ts ([wordAt 0 (flg now 0), wordAt 1 (BitVec.ofNat 32 angle), wordAt 4 (fld (d 0) 0), wordAt 5 (fld (d 1) 0),
      wordAt 6 (fld (d 2) 0)] ++ wordsTs ts) with evt := now != was }

/-- The end of a block, with the parameters as they are at its last sample (R254): no estimate and NOBLOCK where fewer than half of
its samples are valid or the mean is exactly zero; else, after SET_REF, ĝ becomes the reference first (R271). -/
def Rec.tiltEnd (x : Rec) (o : Moment) (b : TiltBlock) : Rec :=
  let x := { x with tilt := { x.tilt with block := none } }
  if 2 * b.valid < b.count ∨ (b.sx = 0 ∧ b.sy = 0 ∧ b.sz = 0) then
    { x with tilt := { x.tilt with due := some { o.event 0#64 [(0, 2#32, 2#32)] with evt := false } } }
  else
    let g2 : Rat := ((b.sx * b.sx + b.sy * b.sy + b.sz * b.sz : Int) : Rat)
    let u (v : Int) : Word := wordOf (unitOf (v : Rat) g2)
    let x := if x.tilt.setRef then
        (({ x with tilt := { x.tilt with setRef := false } }.setParam 4 3 (u b.sx)).setParam 4 4 (u b.sy)).setParam 4 5 (u b.sz)
      else x
    { x with tilt := { x.tilt with due := some (x.tiltReport o b) } }

/-- Tilt takes one sample: into the block in progress, or as the first of a new one where a block may start. -/
def State.tiltSample (t : Tick) (out : Vector Grain 24) (s : State) : State :=
  s.modRecog fun x =>
    let gx := out[0]
    let gy := out[1]
    let gz := out[2]
    let bad := decide (gx = invalidGrain ∨ gy = invalidGrain ∨ gz = invalidGrain)
    let x := { x with inval := putBit x.inval 4 bad }
    let n := x.tiltLen
    let starts := !s.clk.align || decide (t.toNat % (n * 4096) = 0)
    let b : Option TiltBlock := match x.tilt.block with
      | some b => some b
      | none => if starts then some { start := t } else none
    match b with
    | none => x
    | some b =>
      let f (k : Nat) (g : Grain) : Int := grainInt g * (if s.axisShift k = 0 then 8 else 1)
      let b := { b with count := b.count + 1 }
      let b := if bad then b else
        { b with valid := b.valid + 1, sx := b.sx + f 0 gx, sy := b.sy + f 1 gy, sz := b.sz + f 2 gz }
      if n ≤ b.count then x.tiltEnd ⟨t, s.clk.tsc⟩ b else { x with tilt := { x.tilt with block := some b } }

/-! ### Band (R273) -/

/-- The bands set in MASK, in ascending order. -/
def Rec.bandList (x : Rec) : List Nat := (List.range 32).filter fun b => (x.param 5 1).getLsbD b

/-- E/R over the bands of MASK and the band with the largest E_b/R_b, from the energies e and the reference words r (R273): a
zero sum of references gives RATIO_LAST 0 and no BAND_MAX. A reference that is no number leaves both open, and so does a tie or a
zero reference for BAND_MAX. -/
def bandRatios (mask : List Nat) (e : Nat → Rat) (r : Nat → Word) (old : BitVec 5) (n : Nat) : Option Rat × Word × BitVec 5 :=
  let refs := mask.map fun b => (b, ratOf (r b))
  if refs.any fun q => q.2.isNone then
    let w := Config.bandRatio (mask.map e) (mask.map r)
    (ratOf w, w, Config.bandMax mask n)
  else
    let R := (refs.map fun q => q.2.getD 0).sum
    if R = 0 then (none, 0#32, old)
    else
      let q := (mask.map e).sum / R
      let quot (b : Nat) : Rat := e b / (ratOf (r b)).getD 0
      let top := mask.filter fun b => mask.all fun c => decide (quot c ≤ quot b)
      let max := match top with
        | [b] => if refs.any fun q => q.2 == some 0 then Config.bandMax mask n else BitVec.ofNat 5 b
        | _ => Config.bandMax (if refs.any fun q => q.2 == some 0 then mask else top) n
      (some q, wordOf q, max)

/-- Band evaluates a published spectrum of its input with band energies e and reference words ref, at tick now; n numbers the
result (R273). -/
def Rec.bandEval (x : Rec) (e : Nat → Rat) (ref : Nat → Word) (lastT now : Tick) (n : Nat) : Rec × Report :=
  let r := bandRatios x.bandList e ref (bits (x.result 5 0) 8 5) n
  let qual := match r.1, ratOf (x.param 5 2) with
    | some q, some v => decide (v ≤ q)
    | _, _ => false
  let run : BitVec 8 := if qual then satInc (bits (x.result 5 4) 0 8) else 0#8
  let was := bitAt (x.result 5 0) 0
  let need := (bits (x.param 5 0) 8 8).toNat
  let reached := qual && !was && decide (need ≤ run.toNat)
  let active := qual && (was || reached)
  let words := [wordAt 0 (flg active 0 ||| fld r.2.2 8), wordAt 1 r.2.1, wordAt 4 (fld run 0),
    wordAt 5 (if reached then satInc (x.result 5 5) else x.result 5 5)] ++ wordsTs lastT
  ({ x with inval := putBit x.inval 5 false },
   { words := words, ts := lastT, ready := now, evt := reached })

/-! ### One sample of the recogniser path -/

/-- The running recognisers take one sample of the recogniser path; what an earlier sample completed is reported first. -/
def State.recogSample (t : Tick) (out : Vector Grain 24) (s : State) : State :=
  let s := s.flushReports
  let live := s.recog.live
  let s := if live.getLsbD 0 then s.impactSample t out[0] out[1] out[2] else s
  let s := if live.getLsbD 1 then s.cadenceSample t out else s
  let s := if live.getLsbD 2 then s.fallSample t out else s
  let s := if live.getLsbD 3 then s.transSample t out else s
  if live.getLsbD 4 then s.tiltSample t out else s

/-! ### Commands -/

/-- A completed report is made, once: only while SM runs and EN is On, for nothing moves in Park (R85). -/
def State.makeReport (r : Nat) (due : Option Report) (clear : Rec → Rec) (s : State) : Host.Outcome State Fault Refusal :=
  match due with
  | some p => event (s.hasSm && s.isOn .en) s ((s.modRecog clear).report r p)
  | none => .next s

/-- IMPACT_EVENT (R263). -/
def execImpactEvent (s : State) : Host.Outcome State Fault Refusal :=
  s.makeReport 0 s.recog.impact.due fun x => { x with impact := { x.impact with due := none } }

/-- IMPACT_WIN_EXPIRY (R263). -/
def execImpactWinExpiry (s : State) : Host.Outcome State Fault Refusal :=
  s.makeReport 0 s.recog.impact.winDue fun x => { x with impact := { x.impact with winDue := none } }

/-- CADENCE_EVENT (R265). -/
def execCadenceEvent (s : State) : Host.Outcome State Fault Refusal :=
  s.makeReport 1 s.recog.cadence.due fun x => { x with cadence := { x.cadence with due := none } }

/-- CADENCE_END (R265). -/
def execCadenceEnd (s : State) : Host.Outcome State Fault Refusal :=
  s.makeReport 1 s.recog.cadence.endDue fun x => { x with cadence := { x.cadence with endDue := none } }

/-- FREEFALL_EVENT (R267). -/
def execFreefallEvent (s : State) : Host.Outcome State Fault Refusal :=
  s.makeReport 2 s.recog.fall.due fun x => { x with fall := { x.fall with due := none } }

/-- TRANSIENT_EVENT (R269). -/
def execTransientEvent (s : State) : Host.Outcome State Fault Refusal :=
  s.makeReport 3 s.recog.trans.due fun x => { x with trans := { x.trans with due := none } }

/-- TRANSIENT_REARM (R269). -/
def execTransientRearm (s : State) : Host.Outcome State Fault Refusal :=
  event (s.recog.trans.rearm && s.hasSm && s.isOn .en) s
    (s.modRecog fun x => { x with trans := { x.trans with rearm := false } }.maskResult 3 0 1#32 0#32)

/-- TILT_BLOCK_END (R271). -/
def execTiltBlockEnd (s : State) : Host.Outcome State Fault Refusal :=
  s.makeReport 4 s.recog.tilt.due fun x => { x with tilt := { x.tilt with due := none } }

/-- SPEC_PUBLISH (R301): the result is published, references are learned, and Band evaluates a stream-mode result on its input
(R273, R306). -/
def execSpecPublish (s : State) : Host.Outcome State Fault Refusal :=
  let input := (bits (s.recog.param 5 0) 0 3).toNat
  let t := (s.modSpec fun x => x.publish input)
  let ref (b : Nat) := t.spec.bands.getD (2 * b + 1) 0#32
  let u :=
    if s.spec.mode == .stream && s.recog.live.getLsbD 5 && s.spec.act.enabled input then
      let r := t.recog.bandEval (s.spec.energy input) ref s.spec.lastT s.clk.tsc s.spec.serial
      (t.modRecog fun _ => r.1).report 5 r.2
    else t
  event (s.spec.due && s.specClocked) s u.refreshPaths

end Sys2Proof.Machine
end

