-- ==== Sys2Proof/Machine/Calib.lean ====
section
/-!
DEFINITION. The calibration region (R505 to R508): its words, the seven checksums and CAL_STAT.
-/

namespace Sys2Proof.Machine

open Sys2Proof

/-- The blocks of R505 in the order of CAL_STAT: first address, number of words, address of the checksum. -/
def calBlocks : List (Nat × Nat × Nat) :=
  [(0x9000, 384, 0x9180), (0x9200, 72, 0x9248), (0x9300, 216, 0x93D8), (0x9400, 12, 0x940C), (0x9500, 660, 0x9794),
   (0x9F00, 9, 0x9F09), (0x9F10, 9, 0x9F19)]

/-- A calibration address of R505: a word of a block or its checksum. -/
def calMapped (a : Nat) : Bool := calBlocks.any fun b => (b.1 ≤ a && decide (a < b.1 + b.2.1)) || a == b.2.2

/-- The bits a calibration word holds: the other bits of a tuning or drive word are reserved (R5, R505). -/
def calMask (a : Nat) : Word :=
  if (0x9300 ≤ a ∧ a < 0x93D8) ∨ (0x9400 ≤ a ∧ a < 0x940C) then 0xFFFF#32 else 0xFFFFFFFF#32

/-- The identity set: c_10 is 1.0, the others 0 (R234). -/
def identitySet (k : Nat) : Word := if k = 4 then 0x3F800000#32 else 0#32

/-- The word of the calibration region at delivery; the factory sets of CH6 to CH21 are the identity set (R235). -/
def calDelivered (a : Nat) : Word :=
  if 0x9060 ≤ a ∧ a < 0x9160 then identitySet (a % 16) else Config.calWord a &&& calMask a

/-- The word in force at a calibration address. -/
def State.calWord (s : State) (a : Nat) : Word := Mem.get (calDelivered a) s.mgmt.calAct a

/-- The word a read of a calibration address returns. -/
def State.calRead (s : State) (a : Nat) : Word := Mem.get (calDelivered a) s.mgmt.calStage a

/-- One checksum holds (R131, R505). -/
def State.calBlockOk (s : State) (b : Nat × Nat × Nat) : Bool :=
  crc32 ((List.range b.2.1).map fun i => s.calWord (b.1 + i)) == s.calWord b.2.2

/-- CAL_STAT[6:0] as the checks of R506 find it. -/
def State.calCheckBits (s : State) : BitVec 7 :=
  foldUpto (fun m k => putBit m k (match calBlocks[k]? with | some b => s.calBlockOk b | none => false)) 0#7 7

/-- The checks of R506, at the moments of R34. -/
def State.calCheck (s : State) : State :=
  s.modMgmt fun m => { m with calOk := s.calCheckBits, calChecked := true }

/-- A check of R506 has found the block of bit k of CAL_STAT invalid. -/
def State.calBad (s : State) (k : Nat) : Bool := s.mgmt.calChecked && !s.mgmt.calOk.getLsbD k

/-- ARRAY_STAT.CAL_INVALID (R34, R163). -/
def State.calInvalid (s : State) : Bool := s.mgmt.calChecked && s.mgmt.calOk != 0x7F#7

/-- CAL_STAT (R508). -/
def State.calStat (s : State) : Word := fld s.mgmt.calOk 0 ||| flg s.mgmt.calOpen 8 ||| flg s.mgmt.calDenied 9

/-- A host write of a calibration word (R507). -/
def State.writeCal (a : Nat) (w : Word) (s : State) : State :=
  s.modMgmt fun m =>
    if a = 0x9FFF then { m with calDenied := w1c m.calDenied w 9 }
    else if m.calOpen then { m with calStage := Mem.put (calDelivered a) m.calStage a (w &&& calMask a) }
    else { m with calDenied := true }

end Sys2Proof.Machine
end

