-- ==== Sys2Proof/Machine/Flash.lean ====
section
/-!
DEFINITION. The flash behind the memory port: its layout (R558), what the module sends (R536, R543 to R547), program and erase
sequences and what they do to the contents, and the works of Zoruimen on its stores.
-/

namespace Sys2Proof.Machine

open Sys2Proof

/-- Zoruimen may use the flash: no grant, no mode fault, MSS_N high, no hold-up (R538, R553, R557, R587). -/
def State.flashFree (s : State) : Bool := !s.mport.granted && !s.mgmt.pfail && !s.mport.waiting && !s.mport.mssLow

/-! ### Layout (R540, R541, R558) -/

/-- Usable bytes of flash 0 (R540, R541). -/
def Mport.usable (x : Mport) : Nat :=
  if x.size = 0#5 then 0
  else if !x.sfdp then 2 ^ 23
  else if 24 < x.size.toNat ∧ !x.addr4 then 2 ^ 24
  else 2 ^ x.size.toNat

/-- Bytes of the execute-in-place window that lead to a byte of flash 0 (R544). -/
def Mport.window (x : Mport) : Nat := min x.usable (2 ^ 25)

/-- Bytes of a page (R540, R541). -/
def Mport.page (x : Mport) : Nat := match x.table with | some p => 2 ^ p.page.toNat | none => 256

/-- Bytes of the spill area (R550, R558): flash 0 from 0x34_1000 to the end of the usable size, and flash 1. -/
def Mport.spillArea (x : Mport) : Nat := (x.usable - 0x341000) + (if x.flash1 then x.usable else 0)

/-- First byte of an image slot. -/
def imageBase (b : Bool) : Nat := if b then 0x101000 else 0x1000

/-- First byte of its control sector (R575). -/
def controlBase (b : Bool) : Nat := imageBase b + 0xFF000

/-- First byte of a configuration store; its last 4 KiB are a journal of the counter (R583). -/
def configBase (b : Bool) : Nat := if b then 0x211000 else 0x201000

/-- First byte of a copy of the health map. -/
def mapBase (b : Bool) : Nat := if b then 0x231000 else 0x221000

/-- First byte of the log. -/
def logBase : Nat := 0x241000

/-- First byte of the spill area. -/
def spillBase : Nat := 0x341000

/-- The address of the record with a sequence number (R573). -/
def recordAddr (seq : Word) : Nat := logBase + 32 * (seq.toNat % 32768)

/-! ### What is sent (R536, R540, R543, R545, R547) -/

/-- The bits of a field, most significant first. -/
def msbFirst {n : Nat} (x : BitVec n) : List Bool := (List.range n).map fun k => x.getLsbD (n - 1 - k)

/-- An address of the flash: 32 bits in 4-byte mode, else 24. -/
def Mport.addrBits (x : Mport) (a : Nat) : List Bool :=
  if x.addr4 then msbFirst (BitVec.ofNat 32 a) else msbFirst (BitVec.ofNat 24 a)

/-- The opcode of a read and its dummy clocks, by DIV (R543). -/
def readOpcode (div : BitVec 2) : BitVec 8 × Nat := if div.getLsbD 1 then (0x03#8, 0) else (0x0B#8, 8)

/-- What a read of the aligned 32-byte line at an address sends; the level of MDO in dummy clocks is not stated (R543, R544). -/
def Mport.sentRead (x : Mport) (a : Nat) : List Bool := msbFirst (readOpcode x.div).1 ++ x.addrBits (a / 32 * 32)

/-- A read of the status register. -/
def sentStatus : List Bool := msbFirst 0x05#8

/-- A write enable. -/
def sentEnable : List Bool := msbFirst 0x06#8

/-- A read of the SFDP header (R539). -/
def sentSfdp : List Bool := msbFirst 0x5A#8 ++ msbFirst 0#24

/-- What a transaction of its own sends. -/
def Mport.sentSingle (x : Mport) : PortRead → List Bool
  | .line a => x.sentRead a
  | .status => sentStatus
  | .sfdp => sentSfdp

/-- What the module hears on MDI in a read of a line, sampled on the rising edges of MCLK: the 32 bytes of it (R534, R536, R544). -/
def Mport.heard (x : Mport) (a : Nat) : List Bool := (List.range 32).flatMap fun i => msbFirst (flashGet x.flash (a / 32 * 32 + i))

/-- The erase types that the flash has (R540, R541): without SFDP only the 4 KiB erase 0x20. -/
def Mport.eraseType (x : Mport) (n : Nat) : Option EraseType :=
  match x.table with
  | none => if n = 4096 then some ⟨0x20#8, none⟩ else none
  | some p => if n = 4096 then p.k4 else if n = 32768 then p.k32 else if n = 65536 then p.k64 else none

/-- The opcode transaction of a sequence. -/
def Mport.sentOp (x : Mport) : PortSeq → List Bool
  | .program _ a bs => msbFirst 0x02#8 ++ x.addrBits a ++ bs.flatMap msbFirst
  | .erase _ a n => msbFirst (match x.eraseType n with | some e => e.opcode | none => 0x20#8) ++ x.addrBits a

/-- The transactions of a sequence: write enable, opcode, and status reads, which repeat until the flash is ready and stand here
once (R545, R547). -/
def Mport.sentSeq (x : Mport) (q : PortSeq) : List (List Bool) := [sentEnable, x.sentOp q, sentStatus]

/-- The status reads before the next command, after a timeout or a grant (R548, R555). -/
def Mport.sentPoll (x : Mport) : List (List Bool) := if x.repoll then [sentStatus] else []

/-- SM ticks from the first select of a sequence to the end of its opcode transaction (R537, R545): each transaction of n clocks takes
CSS + 2n − 1 + CSH half-cycles, and CSI lie between two; a half-cycle is 2 · 2^DIV ticks. -/
def Mport.opTicks (x : Mport) (q : PortSeq) : Nat :=
  let half (n : Nat) : Nat := x.css.toNat + 2 * n - 1 + x.csh.toNat
  (half 8 + x.csi.toNat + half (x.sentOp q).length) * (2 * 2 ^ x.div.toNat)

/-! ### What sequences do to the contents (R545 to R547) -/

/-- A sequence that has run to its end. -/
def Mport.applySeq (x : Mport) : PortSeq → Mport
  | .program false a bs => { x with flash := flashProgram x.flash a bs }
  | .program true a bs => { x with flashB := flashProgram x.flashB a bs }
  | .erase false a n => { x with flash := flashErase a n x.flash }
  | .erase true a n => { x with flashB := flashErase a n x.flashB }

/-- The n bytes from a on and the m bytes from b on have one in common. -/
def meets (a n b m : Nat) : Bool := decide (a < b + m ∧ b < a + n)

/-- The bytes of a word, least significant first. -/
def leBytes (w : Word) : List (BitVec 8) := [bits w 0 8, bits w 8 8, bits w 16 8, bits w 24 8]

/-- Word k of flash 0 from a byte on, least significant byte first. -/
def Mport.word (x : Mport) (a k : Nat) : Word :=
  flashGet x.flash (a + 4 * k + 3) ++ flashGet x.flash (a + 4 * k + 2) ++ flashGet x.flash (a + 4 * k + 1) ++
    flashGet x.flash (a + 4 * k)

/-- Words of a log record (R571). -/
def LogRec.words (r : LogRec) : List Word :=
  let w : List Word := [r.seq, lowWord r.tick, highWord r.tick, fld r.cls 0 ||| fld r.code 8 ||| flg r.untim 16, r.d0, r.d1, r.d2]
  let bytes := w.flatMap fun x => [bits x 0 8, bits x 8 8, bits x 16 8, bits x 24 8]
  w ++ [fld (crc16Bytes bytes) 0 ||| 0xC0DE0000#32]

/-- The 32 bytes of a log record. -/
def LogRec.bytes (r : LogRec) : List (BitVec 8) := r.words.flatMap leBytes

/-- Flash 0 holds a record at its place (R571). -/
def Mport.holds (x : Mport) (r : LogRec) : Bool :=
  (List.range 32).map (fun i => flashGet x.flash (recordAddr r.seq + i)) == r.bytes

/-- The bits of a word at 0. -/
def zeroBits (w : Word) : Nat := countUpto (fun k => !w.getLsbD k) 32

/-- A slot after a port command over its control sector (R575): an erase clears it, a program adds to it. -/
def Slot.recontrolled (x : Slot) (erased : Bool) (w : Nat → Word) : Slot :=
  if erased then { x with commit := false, attempt := 0, confirm := false, reject := false }
  else
    { x with commit := x.commit || w 0 != 0xFFFFFFFF#32, attempt := max x.attempt (zeroBits (w 1)),
             confirm := x.confirm || w 2 != 0xFFFFFFFF#32, reject := x.reject || w 3 != 0xFFFFFFFF#32 }

/-- What a program or erase of n bytes of flash 0 from a on, commanded of the port, does to what Zoruimen keeps there (R558): a log
record whose bytes no longer stand is lost, the control words of an image follow their sector; of the stores whose layout is not
given it is a free value whether they survive (log entry 138). -/
def State.overwritten (erased : Bool) (a n : Nat) (s : State) : State :=
  let hit (b m : Nat) : Bool := meets a n b m
  let now := s.clk.tsc
  let lives (k : Nat) : Bool := Config.storeHolds now k
  let slot (b : Bool) (x : Slot) : Slot :=
    if hit (controlBase b) 4096 then x.recontrolled erased fun k => s.mport.word (controlBase b) k else x
  let cfg (b : Bool) (c : Option CfgStore) : Option CfgStore :=
    if hit (configBase b) 0xF000 && !lives b.toNat then c.map fun c => { c with ok := false } else c
  let map (b : Bool) (c : Option MapCopy) : Option MapCopy := if hit (mapBase b) 0x10000 && !lives (2 + b.toNat) then none else c
  let t := s.modMgmt fun m =>
    { m with
      logRing := m.logRing.filter fun r => !hit (recordAddr r.seq) 32 || s.mport.holds r
      slotA := slot false m.slotA
      slotB := slot true m.slotB
      cfgA := cfg false m.cfgA
      cfgB := cfg true m.cfgB
      authCtr := if hit (configBase false + 0xF000) 4096 || hit (configBase true + 0xF000) 4096 then Config.counterLeft now m.authCtr
        else m.authCtr
      spills := if hit spillBase (s.mport.usable - spillBase) then m.spills.filter fun p => lives (4 + p.index.toNat) else m.spills }
  t.modArr fun x => { x with mapA := map false x.mapA, mapB := map true x.mapB }

/-- What a sequence on flash 0 has done. -/
def State.changedBy (q : PortSeq) (s : State) : State :=
  match q with
  | .program false a bs => s.overwritten false a bs.length
  | .erase false a n => s.overwritten true a n
  | _ => s

/-- The program or erase sequence in progress has ended (R545, R547); one that a mode fault cut is still to be repeated. -/
def Mport.endSeq (x : Mport) : Mport :=
  if x.waiting then x
  else match x.seq with
    | none => x
    | some q => { x.applySeq q with seq := none, polling := false }

/-- A command that comes at a transaction boundary says that what the port did before it has ended. -/
def State.endSeq (s : State) : State :=
  let t := s.modMport fun x => { x.endSeq with single := if x.waiting then x.single else none }
  match s.mport.waiting, s.mport.seq with
  | false, some q => t.changedBy q
  | _, _ => t

/-- A sequence starts (R545, R547); after a timeout or a grant it polls the flash first (R548, R555). -/
def State.startSeq (q : PortSeq) (s : State) : State :=
  s.endSeq.modMport fun x =>
    { x with seq := some q, polling := x.repoll, repoll := false, seqAt := s.clk.tsc, sent := x.sentPoll ++ x.sentSeq q }

/-- A sequence runs; `ends` says that it has ended before the next command. -/
def State.runSeq (q : PortSeq) (ends : Bool) (s : State) : State :=
  let t := s.startSeq q
  if ends then t.endSeq else t

/-! ### Works of Zoruimen on its stores -/

/-- Sequences that run one after the other and have ended, within one work of Zoruimen. -/
def State.flashWork (qs : List PortSeq) (s : State) : State :=
  s.endSeq.modMport fun x =>
    { qs.foldl Mport.applySeq x with repoll := false, sent := x.sentPoll ++ qs.flatMap x.sentSeq }

/-- A work on a store whose layout in flash is not given (R558): what it sends is a free value. -/
def State.storeWork (s : State) : State :=
  s.endSeq.modMport fun x => { x with repoll := false, sent := x.sentPoll ++ Config.storeSent s.clk.tsc }

/-- Reads of lines. -/
def State.flashReads (as_ : List Nat) (s : State) : State :=
  s.endSeq.modMport fun x => { x with repoll := false, sent := x.sentPoll ++ as_.map x.sentRead }

/-- The erases of a region in blocks of 4 KiB (R558). -/
def eraseBlocks (a n : Nat) : List PortSeq := (List.range n).map fun k => .erase false (a + 4096 * k) 4096

/-- Bytes in the page programs that take them: up to the end of the page, then a page each (R545); at most n of them. -/
def pageRuns (page : Nat) : Nat → Nat → List (BitVec 8) → List PortSeq
  | 0, _, _ => []
  | n + 1, a, bs =>
    if bs.isEmpty then []
    else
      let k := page - a % page
      .program false a (bs.take k) :: pageRuns page n (a + k) (bs.drop k)

/-- The control words of a slot (R575): a programmed word reads 0; ATTEMPT has its lowest bits at 0 (DESIGN CHOICE, log entry 139). -/
def Slot.control (x : Slot) : List Word :=
  let p (b : Bool) : Word := if b then 0#32 else 0xFFFFFFFF#32
  [p x.commit, 0xFFFFFFFF#32 <<< x.attempt, p x.confirm, p x.reject]

/-- The control words of slot b that differ from those before are programmed. -/
def State.programControl (b : Bool) (before after : Slot) (s : State) : State :=
  let ks := (List.range 4).filter fun k => before.control[k]? != after.control[k]?
  if ks.isEmpty then s
  else s.flashWork (ks.map fun k => .program false (controlBase b + 4 * k) (leBytes (after.control.getD k 0#32)))

end Sys2Proof.Machine
end

