-- ==== Sys2Proof/Machine/Array.lean ====
section
/-!
DEFINITION. The supervised array: units, clusters, regions, ARRAY_STAT, audits and the rotation, window faults, re-trims,
residual checks, the health map and CLUSTER_PWR (01_architecture.md, 03_sensing_array.md, 04_array_health.md, R453).
-/

namespace Sys2Proof.Machine

open Sys2Proof

/-! ### Numbering (R13, R160) -/

/-- Cluster of unit u. -/
def clusterOf (u : Nat) : Nat := if u < 648 then u / 18 else 36 + (u - 648) / 4

/-- Region of cluster i: 0 to 2 the accelerometer, 3 to 5 the gyro; a Scarecrow cluster belongs to its accelerometer
region. -/
def regionOf (i : Nat) : Nat := if i < 24 then i / 8 else if i < 36 then 3 + (i - 24) / 4 else i - 36

/-- Region of unit u. -/
def unitRegion (u : Nat) : Nat := regionOf (clusterOf u)

/-- The units of a cluster, in ascending index order. -/
def clusterUnits (i : Nat) : List Nat := if i < 36 then List.range' (18 * i) 18 else List.range' (648 + 4 * (i - 36)) 4

/-- The clusters of a region, its Scarecrow cluster apart. -/
def regionClusters (r : Nat) : List Nat := if r < 3 then List.range' (8 * r) 8 else List.range' (24 + 4 * (r - 3)) 4

/-- Front-end domain of a region. -/
def frontDom (r : Nat) : Dom := if r < 3 then .af else .gf

/-- CLKEN bit of a region: ACC or ROT. -/
def frontBit (r : Nat) : Nat := if r < 3 then 0 else 1

/-! ### Units -/

/-- The health of unit u. -/
def State.unit (s : State) (u : Nat) : UnitHealth := if h : u < 660 then s.arr.units[u] else {}

/-- A cluster. -/
def State.cluster (s : State) (i : Nat) : Cluster := if h : i < 39 then s.arr.cl[i] else {}

/-- Update of a cluster. -/
def State.modCluster (i : Nat) (f : Cluster → Cluster) (s : State) : State :=
  s.modArr fun a => if h : i < 39 then { a with cl := a.cl.set i (f a.cl[i]) } else a

/-- The rotation of a region. -/
def State.rotation (s : State) (r : Nat) : Rotation := if h : r < 6 then s.arr.rot[r] else {}

/-- Update of the rotation of a region. -/
def State.modRotation (r : Nat) (f : Rotation → Rotation) (s : State) : State :=
  s.modArr fun a => if h : r < 6 then { a with rot := a.rot.set r (f a.rot[r]) } else a

/-- STATE code (R136). -/
def unitCode : UnitState → BitVec 3
  | .active => 0#3 | .spare => 1#3 | .audit => 2#3 | .fallow => 3#3 | .dead => 4#3

/-- RETURN code (R136). -/
def returnCode : UnitState → BitVec 2
  | .spare => 1#2 | .fallow => 2#2 | .dead => 3#2 | _ => 0#2

/-- A health word (R136). -/
def UnitHealth.word (h : UnitHealth) : Word :=
  fld (unitCode h.state) 0 ||| flg h.lasting 3 ||| fld h.flaps 4 ||| fld h.fails 6 ||| fld h.passes 8 ||| fld h.cause 13 |||
  fld (if h.state = .audit then returnCode h.ret else 0#2) 16 ||| flg h.standin 18 ||| fld h.sens 19

/-- A unit from a health word of the factory map (R505). -/
def UnitHealth.ofWord (w : Word) : UnitHealth :=
  let code (c : Nat) : UnitState := match c with | 0 => .active | 1 => .spare | 2 => .fallow | _ => .dead
  let st : UnitState := match (bits w 0 3).toNat with
    | 0 => .active | 1 => .spare | 2 => code (bits w 16 2).toNat | 3 => .fallow | _ => .dead
  { state := st, lasting := bitAt w 3, flaps := bits w 4 2, fails := bits w 6 2, passes := bits w 8 5, cause := bits w 13 3,
    sens := bits w 19 13 }

/-- Unit u is out of the sum for its leak check, its audit switch still open (R140, step 2). -/
def State.leaving (s : State) (u : Nat) : Bool :=
  match (s.rotation (unitRegion u)).audit with
  | some a => a.unit.val == u && a.phase == .leak
  | none => false

/-- Active units of a cluster that count for R19: a stand-in counts, a unit under audit does not (R18). -/
def State.activeCount (s : State) (i : Nat) : Nat :=
  ((clusterUnits i).filter fun u => (s.unit u).state == .active && !s.leaving u).length

/-- The Spares of a cluster, in ascending index order. -/
def State.spares (s : State) (i : Nat) : List Nat := (clusterUnits i).filter fun u => (s.unit u).state == .spare

/-! ### Clusters and regions (R19 to R34, R157 to R166, R453) -/

/-- XCAUSE (R160). Where more than one cause holds, the lowest value stands. -/
def State.xcause (s : State) (i : Nat) : BitVec 3 :=
  if 36 ≤ i then 0#3
  else if s.activeCount i < 12 then 1#3
  else if (s.cluster i).driveExcl then 2#3
  else if (s.cluster i).residExcl then 3#3
  else if (s.cluster i).nodeFault then 4#3
  else 0#3

/-- STATE of a cluster (R19, R22, R148, R158, R160); a Scarecrow cluster is in use or off (R166). Where a window fault isolates a cluster
that another cause excludes, no rule gives a precedence: STATE shows Isolating and XCAUSE keeps the cause (DESIGN CHOICE, log entry
130). -/
def State.clusterState (s : State) (i : Nat) : BitVec 2 :=
  if 36 ≤ i then (if s.activeCount i < 2 then 2#2 else 0#2)
  else if (s.cluster i).iso.isSome then 3#2
  else if s.xcause i ≠ 0#3 then 2#2
  else if 14 ≤ s.activeCount i ∧ !(s.cluster i).stuck then 0#2
  else 1#2

/-- A cluster word (R160). -/
def State.clusterWord (s : State) (i : Nat) : Word :=
  let c := s.cluster i
  BitVec.ofNat 32 (s.activeCount i) ||| BitVec.ofNat 32 (min 7 (s.spares i).length * 32) ||| fld (s.clusterState i) 8 |||
  flg c.retrim 10 ||| flg c.stuck 11 ||| flg c.driveExcl 12 ||| fld (s.xcause i) 13 ||| fld c.winevt 16

/-- The CLUSTER_PWR bit of a cluster; a gyro or Scarecrow cluster has none (R453). -/
def State.clusterOn (s : State) (i : Nat) : Bool := decide (24 ≤ i) || s.arr.clusterPwr.getLsbD i

/-- A die is in fault (R28). -/
def DieFault.any (d : DieFault) : Bool := d.temp || d.press || d.drive

/-- A region is Degraded (R24, R31, R34, R453). -/
def State.degraded (s : State) (r : Nat) : Bool :=
  let excluded := ((regionClusters r).filter fun i => s.clusterState i == 2#2).length
  s.calInvalid ||
  (if r < 3 then
     decide (2 < excluded) || s.arr.dieA.any || (s.isOn .af && (regionClusters r).any fun i => !s.clusterOn i)
   else decide (1 < excluded) || s.arr.dieG.any)

/-- STATUS.DEGRADED (R40). -/
def State.anyDegraded (s : State) : Bool := anyUpto s.degraded 6

/-- The Scarecrow cluster of an accelerometer region is off (R166). -/
def State.scarOff (s : State) (r : Nat) : Bool := s.clusterState (36 + r) == 2#2

/-- Data frames that carry region r carry UNSETTLED: an isolation or a re-trim runs, a re-trim is owed, or a cluster switched on again has not yet
joined (R148, R149, R167, R453). -/
def State.regionUnsettled (s : State) (r : Nat) : Bool :=
  (regionClusters r).any fun i =>
    (s.cluster i).iso.isSome || (s.cluster i).retrim || (s.cluster i).owedTrim || (s.cluster i).rejoin

/-! ### Region combining (R21, R98, R100, R101, R105, R144) -/

/-- Unit u is in the sum of its cluster (R15, R18). -/
def State.inSum (s : State) (u : Nat) : Bool := (s.unit u).state == .active && !s.leaving u

/-- The SENS fields of the units in the sum of a cluster. -/
def State.sumSens (s : State) (i : Nat) : List (BitVec 13) :=
  ((clusterUnits i).filter fun u => s.inSum u).map fun u => (s.unit u).sens

/-- The gain trim of the units in the sum of cluster i for RANGE k, from the factory trim and their sensitivities (R98,
R505). -/
def State.trimOf (s : State) (i k : Nat) : Rat := Config.clusterTrim (s.calWord (0x9200 + 2 * i + k)) (s.sumSens i)

/-- The gain trim of a cluster for RANGE k at tick t, from its trims, latest first: the latest set by then, which a ramp of R144 has
moved by at most `rate` (in parts per 10^9 of full scale a millisecond) times the time. -/
def trimAt (rate : Nat) (t : Tick) (k : Nat) : List Trim → Rat
  | [] => 1
  | x :: l =>
    if !l.isEmpty && decide ((t - x.since).toInt < 0) then trimAt rate t k l
    else
      let goal := x.gain.getD k 1
      let was := x.was.getD k 1
      let moved : Rat := (rate : Nat) * (t - x.since).toInt.toNat / (196608 * 1000000000 : Nat)
      if goal ≤ was then max goal (was - moved) else min goal (was + moved)

/-- The gain trim of cluster i for RANGE k in a CIC output whose last modulator period lies at tick t (R98, R144). -/
def State.gainAt (s : State) (t : Tick) (i k : Nat) : Rat := trimAt (min 500 (Config.trimRamp i)) t k (s.cluster i).trims

/-- The trims of cluster i set, from the present tick on, to those of the units in its sum, on a ramp from `was` (R97, R98, R144). -/
def State.setTrim (i : Nat) (was : Vector Rat 2) (s : State) : State :=
  let goal : Vector Rat 2 := Vector.ofFn fun k => s.trimOf i k.val
  s.modCluster i fun c => { c with trims := ⟨s.clk.tsc, goal, was⟩ :: c.trims }

/-- The trims of cluster i for the units in its sum in state t, with the sensitivities they have in state s. -/
def State.trimWith (s t : State) (i : Nat) : Vector Rat 2 :=
  let sens := ((clusterUnits i).filter fun v => t.inSum v).map fun v => (s.unit v).sens
  Vector.ofFn fun k => Config.clusterTrim (t.calWord (0x9200 + 2 * i + k.val)) sens

/-- The trims of the clusters whose sum, or whose sensitivities, a command changed: a change of the set applies at once (R98), a
change of a sensitivity by a ramp from the trims that the set had without it (R144). -/
def State.trimsAfter (s t : State) : State :=
  (List.range 36).foldl (fun u i =>
    let set (x : State) := (clusterUnits i).filter fun v => x.inSum v
    if set s ≠ set t then u.setTrim i (s.trimWith t i)
    else if s.sumSens i ≠ t.sumSens i then u.setTrim i (Vector.ofFn fun k => t.gainAt t.clk.tsc i k.val)
    else u) t

/-- Every cluster's trims as they start (R98, R505). -/
def State.startTrims (s : State) : State := (List.range 36).foldl (fun u i => u.setTrim i (u.trimWith u i)) s

/-- The combiner takes cluster i into its region sum: it is not Excluded, no isolation or re-trim holds it out, and it is
switched on and has joined (R21, R148, R149, R167, R453). -/
def State.included (s : State) (i : Nat) : Bool :=
  let c := s.cluster i
  s.clusterState i != 2#2 && c.iso.isNone && !c.retrim && !c.owedTrim && !c.rejoin && s.clusterOn i

/-- A number as a grain that clips at full scale (R105). -/
def clipGrain (x : Int) : Grain := BitVec.ofInt 24 (max (-(2 ^ 23)) (min (2 ^ 23 - 1) x))

/-- The grain that leaves stage 4 of region r from the outputs of its clusters: the trimmed outputs of the included clusters,
divided by their total Active count; 0 without an included cluster (R100, R101). The trims are those in force at tick t, at which
the last modulator period of the output lies (R98). -/
def State.regionGrain (s : State) (t : Tick) (clusters : Vector Int 36) (r : Nat) : Grain :=
  let k := if (s.chan r).range then 1 else 0
  let cs := (regionClusters r).filter s.included
  let n := (cs.map s.activeCount).sum
  let sum : Rat := (cs.map fun i => s.gainAt t i k * (clusters.getD i 0 : Rat)).sum
  if n = 0 then 0#24
  else
    let q : Rat := sum / (n : Rat)
    clipGrain (q.floor + if q.den ≠ 1 ∧ Config.roundUp q.num q.den then 1 else 0)

/-- The conditions of R138 for the audits of a region. -/
def State.auditsMay (s : State) (r : Nat) : Bool :=
  s.isOn (frontDom r) && s.isOn .mc && s.clken (frontBit r) && s.arr.run && s.arr.mapLoaded

/-- A set of regions: bit r is p r. -/
def regionMask (p : Nat → Bool) : BitVec 6 := foldUpto (fun m r => putBit m r (p r)) 0#6 6

/-- The fields of ARRAY_STAT whose changes set DEGR_EVT (R163). -/
def State.arrayLevels (s : State) : Word :=
  let some_ (p : Nat → Bool) (r : Nat) := (regionClusters r).any p
  fld (regionMask s.degraded) 0 |||
  fld (regionMask (some_ fun i => s.clusterState i == 1#2)) 6 |||
  fld (regionMask (some_ fun i => s.clusterState i == 2#2)) 12 |||
  flg s.arr.dieA.any 18 ||| flg s.arr.dieG.any 19 ||| flg s.calInvalid 20 |||
  flg (anyUpto (fun i => (s.cluster i).retrim || ((s.cluster i).iso.isSome && s.isOn (frontDom (regionOf i)))) 36) 21 |||
  flg (anyUpto (fun i => (s.cluster i).stuck) 39) 22 |||
  flg (s.scarOff 0) 27 ||| flg (s.scarOff 1) 28 ||| flg (s.scarOff 2) 29

/-- ARRAY_STAT (R163). A rotation that is paused is not active. -/
def State.arrayStat (s : State) : Word :=
  s.arrayLevels ||| flg s.arr.unitEvt 23 ||| flg s.arr.degrEvt 24 ||| flg s.arr.tempEvt 25 ||| flg s.arr.cavEvt 26 |||
  flg (anyUpto (fun r => (s.rotation r).active && s.auditsMay r) 6) 30

/-- A write of ARRAY_STAT: W1C bits. -/
def State.writeArrayStat (w : Word) (s : State) : State :=
  s.modArr fun a =>
    { a with
      unitEvt := w1c a.unitEvt w 23
      degrEvt := w1c a.degrEvt w 24
      tempEvt := w1c a.tempEvt w 25
      cavEvt := w1c a.cavEvt w 26 }

/-- What a change of the array leaves behind: the trims of the sums that changed, DEGR_EVT where a level or a cluster STATE
changed, and a log record for each cluster whose STATE changed (R98, R144, R163, R571). -/
def State.settleArray (s t : State) : State :=
  let moved := (List.range 39).filter fun i => s.clusterState i != t.clusterState i
  let u := moved.foldl (fun u i => u.log 0x04#8 0x02#8 (BitVec.ofNat 32 i) (t.clusterWord i) (s.clusterWord i)) (s.trimsAfter t)
  if s.arrayLevels != t.arrayLevels || !moved.isEmpty then u.modArr fun a => { a with degrEvt := true } else u

/-! ### Changes of units -/

/-- A change of the map that R150 commits; MC is woken on demand for it. -/
def State.mapChanged (s : State) : State :=
  let t := s.modArr fun a => { a with dirtySince := some (a.dirtySince.getD s.clk.ht) }
  if t.isOn .mc then t else t.demand .mc

/-- A change of unit u: UNIT_EVT where STATE or SEALED changed and the change is not quiet (R164); a change that R150 commits
is logged. -/
def State.setUnit (u : Nat) (quiet commit : Bool) (f : UnitHealth → UnitHealth) (s : State) : State :=
  let old := s.unit u
  let new := f old
  let t := s.modArr fun a => if h : u < 660 then { a with units := a.units.set u new } else a
  let t := if !quiet && (old.state != new.state || old.lasting != new.lasting) then t.modArr fun a => { a with unitEvt := true } else t
  if commit then t.mapChanged.log 0x04#8 0x01#8 (BitVec.ofNat 32 u) new.word old.word else t

/-- The units of a cluster that hold a place in the sum: those that count, and an Active unit that an audit has taken out with
no stand-in. -/
def State.sumPlaces (s : State) (i : Nat) : Nat :=
  s.activeCount i +
    (match (s.rotation (regionOf i)).audit with
     | some a => if clusterOf a.unit.val = i ∧ a.ret = .active ∧ a.standin = none then 1 else 0
     | none => 0)

/-- A modulator period comes: the region's front end is On and its clock enabled. -/
def State.frontRuns (s : State) (r : Nat) : Bool := s.isOn (frontDom r) && s.clken (frontBit r)

/-- The fill rule (R153): while fewer than 16 places of the sum are taken, the lowest-indexed Spare becomes Active. -/
def State.fill (i : Nat) : Nat → State → State
  | 0, s => s
  | n + 1, s =>
    if i < 36 ∧ s.frontRuns (regionOf i) ∧ s.sumPlaces i < 16 then
      match s.spares i with
      | u :: _ => State.fill i n (s.setUnit u false false fun h => { h with state := .active })
      | [] => s
    else s

/-- The fill rule for one cluster. -/
def State.fillCluster (i : Nat) (s : State) : State := State.fill i 18 s

/-- The fill rule for every cluster, once modulator periods come again. -/
def State.fillAll (s : State) : State := (List.range 36).foldl (fun t i => t.fillCluster i) s

/-- A re-trim starts (R149); with the front end not On it is owed (R167). A Scarecrow cluster has none. -/
def State.startRetrim (i : Nat) (s : State) : State :=
  if 36 ≤ i then s
  else if s.isOn (frontDom (regionOf i)) then s.modCluster i fun c => { c with retrim := true }
  else s.modCluster i fun c => { c with owedTrim := true }

/-! ### Audits (R138 to R147, R151 to R157) -/

/-- A unit of the rotation that may be audited now (R139, R145, R453). -/
def State.rotates (s : State) (r u : Nat) : Bool :=
  let i := clusterOf u
  let st := (s.unit u).state
  unitRegion u == r && s.clusterOn i &&
    (st == .spare || (st == .active && (decide (648 ≤ u) || !(s.spares i).isEmpty || decide (15 ≤ s.activeCount i))))

/-- The next unit of a region's rotation. -/
def State.nextUnit (s : State) (r : Nat) : Option Nat :=
  let n := (s.rotation r).next
  firstFrom (fun u => s.rotates r u) n (660 - n)

/-- The audit that a lapsed condition voided, where its unit may still be audited (R138). -/
def State.resumeAudit (s : State) (r : Nat) : Option (Nat × Bool) :=
  match (s.rotation r).resume with
  | some (u, rotation) =>
    let st := (s.unit u.val).state
    let may := if rotation then (s.rotation r).active && s.rotates r u.val
      else s.clusterOn (clusterOf u.val) && (st == .fallow || (st == .dead && !(s.unit u.val).lasting))
    if may then some (u.val, rotation) else none
  | none => none

/-- The unit of a region's next audit slot, with whether the rotation takes it: the audit that a lapsed condition voided comes
first (R138), then a scheduled audit that fell due (R139). -/
def State.nextAudit (s : State) (r : Nat) : Option (Nat × Bool) :=
  if (s.resumeAudit r).isSome then s.resumeAudit r
  else match (s.rotation r).due.find? fun u => s.clusterOn (clusterOf u.val) with
  | some u => some (u.val, false)
  | none => if (s.rotation r).active then (s.nextUnit r).map fun u => (u, true) else none

/-- A rotation whose last unit has been audited is complete (R139, R165). -/
def State.endRotation (r : Nat) (s : State) : State :=
  if (s.rotation r).active ∧ s.nextUnit r = none ∧ s.resumeAudit r = none then
    (s.modRotation r fun q => { q with active := false, next := 0, ended := some s.clk.ht }).modArr fun a =>
      { a with rotations := satInc a.rotations }
  else s

/-- Moves of a rotation audit set no UNIT_EVT while AUDIT_CTRL.EVT_ROTATION is 0, unless the audit fails (R164). -/
def State.quietAudit (s : State) (a : Audit) : Bool := a.rotation && !s.arr.evtRot

/-- The stand-in of an audit goes back to Spare. -/
def State.releaseStandin (quiet : Bool) (a : Audit) (s : State) : State :=
  match a.standin with
  | some v => s.setUnit v.val quiet false fun h => { h with state := .spare, standin := false }
  | none => s

/-- The unit under audit goes back to its RETURN state. -/
def State.returnUnit (quiet : Bool) (a : Audit) (s : State) : State :=
  s.setUnit a.unit.val quiet false fun h => { h with state := a.ret, ret := .active }

/-- An audit of a region is void (R142): unit and stand-in go back, VOIDS counts, and the unit is audited first when its
rotation resumes (`first`, R138) or at its next turn. -/
def State.voidAudit (r : Nat) (first : Bool) (s : State) : State :=
  match (s.rotation r).audit with
  | none => s
  | some a =>
    let q := s.quietAudit a
    let t := (s.returnUnit q a).releaseStandin q a
    let t := t.modRotation r fun x =>
      { x with
        audit := none
        resume := if first then some (a.unit, a.rotation) else x.resume
        due := if a.rotation ∨ first then x.due else x.due ++ [a.unit] }
    let t := (t.modArr fun y => { y with voids := satInc y.voids }).fillCluster (clusterOf a.unit.val)
    if first then t else t.endRotation r

/-- The audits of a set of regions are void because a condition of R138 lapsed. -/
def State.voidAudits (p : Nat → Bool) (s : State) : State :=
  (List.range 6).foldl (fun t r => if p r then t.voidAudit r true else t) s

/-- A write of AUDIT_CTRL (R142, R165). -/
def State.writeAuditCtrl (w : Word) (s : State) : State :=
  let t := s.modArr fun a => { a with run := bitAt w 0, evtRot := bitAt w 1, gap := bits w 8 8 }
  State.settleArray s (if bitAt w 0 then t else t.voidAudits fun _ => true)

/-- AUDIT_CTRL (R165). -/
def State.auditCtrl (s : State) : Word := flg s.arr.run 0 ||| flg s.arr.evtRot 1 ||| fld s.arr.gap 8

/-- AUDIT_STAT (R165). -/
def State.auditStat (s : State) : Word := fld s.arr.rotations 0 ||| fld s.arr.voids 16

/-- GAP minutes have passed since the latest rotation of a region ended (R139, R165). -/
def State.gapOver (s : State) (r : Nat) : Bool :=
  (s.rotation r).ended.all fun h => decide (s.arr.gap.toNat * 60 * 32768 ≤ s.clk.ht - h)

/-- ROTATION_START (R139). -/
def execRotationStart (region : Fin 6) (s : State) : Host.Outcome State Fault Refusal :=
  let t := s.endRotation region.val
  event (s.auditsMay region.val && !(t.rotation region.val).active && (s.rotation region.val).audit.isNone && t.gapOver region.val) s
    (t.modRotation region.val fun q => { q with active := true, next := 0 })

/-- An audit begins (R140, steps 1 and 3). -/
def State.beginAudit (u : Fin 660) (rotation : Bool) (s : State) : State :=
  let r := unitRegion u.val
  let ret := (s.unit u.val).state
  let standin : Option (Fin 660) :=
    if ret = .active ∧ u.val < 648 then
      match s.spares (clusterOf u.val) with
      | v :: _ => if h : v < 660 then some ⟨v, h⟩ else none
      | [] => none
    else none
  let a : Audit := { unit := u, ret := ret, standin := standin, phase := if ret = UnitState.active then .leak else .pilot,
                     rotation := rotation }
  let q := s.quietAudit a
  let t := s.modRotation r fun x =>
    { x with audit := some a, next := if rotation then max x.next (u.val + 1) else x.next, due := x.due.erase u,
             resume := if x.resume.map Prod.fst = some u then none else x.resume }
  let t := match standin with
    | some v => t.setUnit v.val q false fun h => { h with state := .active, standin := true }
    | none => t
  if ret = .active then t else t.setUnit u.val q false fun h => { h with state := .audit, ret := ret }

/-- AUDIT_START (R140). -/
def execAuditStart (unit : Fin 660) (s : State) : Host.Outcome State Fault Refusal :=
  let r := unitRegion unit.val
  match s.nextAudit r with
  | some (u, rotation) =>
    event (u == unit.val && s.auditsMay r && (s.rotation r).audit.isNone) s (State.settleArray s (s.beginAudit unit rotation))
  | none => .next s

/-- The audit of a region is over. -/
def State.endAudit (r : Nat) (s : State) : State := (s.modRotation r fun x => { x with audit := none }).endRotation r

/-- LEAK_CHECK (R140, R142, R157): void where the region output moved; a sum switch stuck closed makes the unit Dead and sealed
with CAUSE 0b111. -/
def execLeakCheck (region : Fin 6) (found : LeakFound) (s : State) : Host.Outcome State Fault Refusal :=
  match (s.rotation region.val).audit with
  | none => .next s
  | some a =>
    let i := clusterOf a.unit.val
    let t :=
      if found.moved then s.voidAudit region.val false
      else if found.stuck then
        let t := (s.releaseStandin false a).setUnit a.unit.val false true fun h =>
          { h with state := .dead, lasting := true, cause := 7#3 }
        ((t.modCluster i fun c => { c with stuck := true }).endAudit region.val).fillCluster i
      else
        (s.modRotation region.val fun x => { x with audit := some { a with phase := .pilot } }).setUnit a.unit.val
          (s.quietAudit a) false fun h => { h with state := .audit, ret := a.ret }
    event (a.phase == .leak && s.auditsMay region.val) s (State.settleArray s t)

/-- The limits of R141, in the units of AuditMeas: sensitivity, offset, noise, common mode. A Scarecrow unit, for which the table
has no column, takes those of an accelerometer unit (DESIGN CHOICE, log entry 110). -/
def auditLimits (gyro : Bool) : Nat × Nat × Nat × Nat :=
  if gyro then (3000, 2000000, 670, 40000) else (2000, 20000, 3400, 40000)

/-- CAUSE of a failed audit, the first failing quantity in the order of R137; 0 where the audit passes. -/
def auditCause (gyro : Bool) (m : AuditMeas) : BitVec 3 :=
  let l := auditLimits gyro
  if l.1 < m.sens.natAbs then 1#3
  else if l.2.1 < m.offset.natAbs then 2#3
  else if l.2.2.1 < m.noise then 3#3
  else if l.2.2.2 < m.cm.natAbs then 4#3
  else 0#3

/-- The span of the passes of a Fallow unit reaches 24 h (R152). -/
def State.spanReached (s : State) (h : UnitHealth) : Bool := decide ((86400 * 32768 : Int) ≤ (s.clk.ht : Int) - h.seriesHt)

/-- A unit taken out of the sum through audits becomes Dead: its stand-in stays, or the cluster is re-trimmed, and the fill
rule applies (R147). -/
def State.removeUnit (a : Audit) (s : State) : State :=
  let i := clusterOf a.unit.val
  let t := match a.standin with
    | some v => s.setUnit v.val false false fun h => { h with standin := false }
    | none => if a.ret = UnitState.active then s.startRetrim i else s
  (t.endAudit (unitRegion a.unit.val)).fillCluster i

/-- The verdict on a unit whose RETURN is Active or Spare (R143, R144, R146). -/
def State.verdictSum (a : Audit) (cause : BitVec 3) (sens : BitVec 13) (s : State) : State :=
  let u := a.unit.val
  let q := s.quietAudit a
  if cause = 0#3 then
    let t := s.setUnit u true false fun h => { h with sens := sens, fails := 0#2 }
    (((t.returnUnit q a).releaseStandin q a).endAudit (unitRegion u)).fillCluster (clusterOf u)
  else
    let n := (s.unit u).fails
    if n.toNat < 2 then s.setUnit u true false fun h => { h with fails := n + 1#2 }
    else (s.setUnit u false true fun h => { h with state := .dead, fails := 3#2, ret := .active, cause := cause }).removeUnit a

/-- The verdict on a unit whose RETURN is Fallow (R152, R154, R166). -/
def State.verdictFallow (a : Audit) (cause : BitVec 3) (sens : BitVec 13) (s : State) : State :=
  let u := a.unit.val
  let h := s.unit u
  let i := clusterOf u
  if cause = 0#3 then
    let passes := satInc h.passes
    let spare := decide (u < 648) && decide (24 ≤ passes.toNat) && s.spanReached h && decide ((s.spares i).length < 2)
    let t := s.setUnit u false spare fun h =>
      { h with state := if spare then .spare else .fallow, ret := .active, sens := sens, passes := passes, fails := 0#2,
               seriesHt := if h.passes = 0#5 then s.clk.ht else h.seriesHt }
    (t.endAudit (unitRegion u)).fillCluster i
  else
    let flaps := satInc h.flaps
    (s.setUnit u false true fun h =>
      { h with state := .dead, ret := .active, flaps := flaps, passes := 0#5, lasting := flaps == 3#2, cause := cause }).endAudit
      (unitRegion u)

/-- The verdict on a unit whose RETURN is Dead (R151). -/
def State.verdictDead (a : Audit) (cause : BitVec 3) (sens : BitVec 13) (s : State) : State :=
  let u := a.unit.val
  let t := if cause = 0#3 then
      s.setUnit u false true fun h =>
        { h with state := .fallow, ret := .active, sens := sens, passes := 1#5, fails := 0#2, seriesHt := s.clk.ht }
    else s.returnUnit false a
  t.endAudit (unitRegion u)

/-- AUDIT_VERDICT (R142 to R144, R151 to R154): void where the region output moved during the audit. -/
def execAuditVerdict (region : Fin 6) (moved : Bool) (meas : AuditMeas) (s : State) : Host.Outcome State Fault Refusal :=
  match (s.rotation region.val).audit with
  | none => .next s
  | some a =>
    let cause := auditCause (3 ≤ region.val) meas
    let sens := BitVec.ofInt 13 meas.sens
    let t :=
      if moved then s.voidAudit region.val false
      else match a.ret with
        | .fallow => s.verdictFallow a cause sens
        | .dead => s.verdictDead a cause sens
        | _ => s.verdictSum a cause sens
    event (a.phase == .pilot && s.auditsMay region.val) s (State.settleArray s t)

/-- A scheduled audit falls due; it waits for the region's next audit slot (R139). -/
def State.auditDue (u : Fin 660) (s : State) : State :=
  s.modRotation (unitRegion u.val) fun q => if u ∈ q.due then q else { q with due := q.due ++ [u] }

/-- DEAD_AUDIT_DUE (R151). -/
def execDeadAuditDue (unit : Fin 660) (s : State) : Host.Outcome State Fault Refusal :=
  event ((s.unit unit.val).state == .dead && !(s.unit unit.val).lasting && s.hasLk) s (s.auditDue unit)

/-- FALLOW_AUDIT_DUE (R152). -/
def execFallowAuditDue (unit : Fin 660) (s : State) : Host.Outcome State Fault Refusal :=
  event ((s.unit unit.val).state == .fallow && s.hasLk) s (s.auditDue unit)

/-! ### Window faults, re-trims, residuals (R148, R149, R159) -/

/-- The outcome of a bisection holds for cluster i: the unit it names is one of the sum. -/
def State.bisects (s : State) (i : Nat) : Bisection → Bool
  | .unit u => clusterOf u.val == i && s.inSum u.val
  | _ => true

/-- The void of an audit whose stand-in the bisection will identify (R142, R148): VOIDS counts, and the unit under audit goes back
to Active at step 4 only; until then the stand-in holds its place. -/
def State.voidHeld (r : Nat) (s : State) : State :=
  ((s.modRotation r fun x => { x with audit := none }).modArr fun y => { y with voids := satInc y.voids }).endRotation r

/-- The bisection will identify the stand-in of the audit in a region. -/
def State.namesStandin (s : State) (r : Nat) (found : Bisection) : Bool :=
  match (s.rotation r).audit with
  | some a => a.standin.any fun v => found == .unit v
  | none => false

/-- A unit of cluster i whose void audit left it out until the end of the isolation goes back (R148, step 4). -/
def State.bringBack (i : Nat) (s : State) : State :=
  (clusterUnits i).foldl (fun t u =>
    let held := (t.unit u).state == .audit && (match (t.rotation (regionOf i)).audit with | some a => a.unit.val != u | none => true)
    if held then t.setUnit u false false fun h => { h with state := h.ret, ret := .active } else t) s

/-- WINDOW_FAULT (R148, steps 1 and 2): every sum switch of the cluster opens, the cluster shows Isolating, an audit in it is
void, a re-trim starts again afterwards. `found` is what the bisection will find; how long it takes is a free value within the
bound of step 3. -/
def execWindowFault (cluster : Fin 36) (found : Bisection) (s : State) : Host.Outcome State Fault Refusal :=
  let i := cluster.val
  let r := regionOf i
  let audited := match (s.rotation r).audit with | some a => clusterOf a.unit.val == i | none => false
  let t := { s with fresh := s.fresh + 1 }
  let t := if !audited then t else if s.namesStandin r found then t.voidHeld r else t.voidAudit r false
  let t := t.modCluster i fun c =>
    { c with winevt := satInc c.winevt, retrim := false, iso := some (found, 1 + Config.bisectTicks s.fresh % 7352) }
  event (s.bisects i found && s.frontRuns r && s.clusterOn i && !(s.cluster i).nodeFault && (s.cluster i).iso.isNone) s
    (State.settleArray s t)

/-- The bisection of cluster i is over (R148, step 4): the unit it names becomes Dead, the fill rule applies and the re-trim
starts; with the fault still there and no unit connected the cluster is Excluded; where no probe reproduced it the re-trim
runs alone. -/
def State.endIsolation (i : Nat) (found : Bisection) (s : State) : State :=
  let t := s.modCluster i fun c => { c with iso := none }
  let t := match found with
    | .unit u =>
      if t.bisects i found then
        let t := (t.setUnit u.val false true fun h => { h with state := .dead, standin := false, cause := 5#3 }).bringBack i
        ((t.fillCluster i).startRetrim i).modArr fun a => { a with unitEvt := true }
      else (t.bringBack i).startRetrim i
    | .nodeFault => t.modCluster i fun c => { c with nodeFault := true }
    | .none => t.startRetrim i
  State.settleArray s t

/-- An SM tick of the isolation of cluster i (R148); while the region's front end does not run the isolation waits and then
starts again (R167). -/
def State.tickIsolation (i : Nat) (s : State) : State :=
  match (s.cluster i).iso with
  | none => s
  | some (found, n) =>
    if !s.frontRuns (regionOf i) then s
    else if n ≤ 1 then s.endIsolation i found
    else s.modCluster i fun c => { c with iso := some (found, n - 1) }

/-- An SM tick of every isolation. -/
def State.tickIsolations (s : State) : State :=
  if (List.range 36).all fun i => (s.cluster i).iso.isNone then s
  else (List.range 36).foldl (fun t i => t.tickIsolation i) s

/-- RETRIM_DONE (R149): the measured gain sets the trims of both ranges and the cluster rejoins the region sum; after the
re-trim of R159 its six comparisons begin. -/
def execRetrimDone (cluster : Fin 36) (s : State) : Host.Outcome State Fault Refusal :=
  let gain : Vector Rat 2 := Vector.ofFn fun k => Config.measuredTrim k.val s.fresh
  let t := { s with fresh := s.fresh + 1 }
  event ((s.cluster cluster.val).retrim && s.frontRuns (regionOf cluster.val)) s
    (State.settleArray s (t.modCluster cluster.val fun c =>
      { c with retrim := false, residGood := 0, trims := ⟨s.clk.tsc, gain, gain⟩ :: c.trims }))

/-- One comparison of R159 for cluster i. -/
def Cluster.compare (c : Cluster) (included exceeds : Bool) : Cluster :=
  if c.residExcl then
    if !c.residTrim || c.retrim then c
    else if exceeds then { c with residGood := 0 }
    else if 5 ≤ c.residGood then { c with residExcl := false, residTrim := false, residGood := 0, residBad := 0 }
    else { c with residGood := c.residGood + 1 }
  else if !included then c
  else if !exceeds then { c with residBad := 0 }
  else if 1 ≤ c.residBad then { c with residExcl := true, residBad := 0, residTrim := false, residGood := 0 }
  else { c with residBad := c.residBad + 1 }

/-- RESIDUAL_CHECK (R159): bit c of `exceeds` tells that the difference of cluster c of the region exceeds its limit. -/
def execResidualCheck (region : Fin 6) (exceeds : BitVec 8) (s : State) : Host.Outcome State Fault Refusal :=
  let cs := regionClusters region.val
  let t := cs.foldl (fun t i =>
    t.modCluster i fun c => c.compare (s.included i) (exceeds.getLsbD (i - cs.headD 0))) s
  event (s.isOn (frontDom region.val) && s.isOn .mc) s (State.settleArray s t)

/-- RESIDUAL_RETRIM (R159): Zoruimen re-trims a residual-excluded cluster after 1 h. -/
def execResidualRetrim (cluster : Fin 36) (s : State) : Host.Outcome State Fault Refusal :=
  event ((s.cluster cluster.val).residExcl && s.isOn .mc && s.isOn (frontDom (regionOf cluster.val))) s
    (State.settleArray s ((s.modCluster cluster.val fun c => { c with residTrim := true }).startRetrim cluster.val))

/-! ### Drive window and dies (R22, R28 to R33, R108) -/

/-- DRIVE_WINDOW_EXCLUDE (R108). -/
def execDriveWindowExclude (g : Fin 12) (s : State) : Host.Outcome State Fault Refusal :=
  event (s.isOn .gf && !(s.cluster (24 + g.val)).driveExcl) s
    (State.settleArray s (s.modCluster (24 + g.val) fun c => { c with driveExcl := true }))

/-- DRIVE_WINDOW_INCLUDE (R108). -/
def execDriveWindowInclude (g : Fin 12) (s : State) : Host.Outcome State Fault Refusal :=
  event (s.isOn .gf && (s.cluster (24 + g.val)).driveExcl) s
    (State.settleArray s (s.modCluster (24 + g.val) fun c => { c with driveExcl := false }))

/-- The front-end domain of a die (R29). -/
def dieDom : Die → Dom
  | .a => .af
  | .g => .gf

/-- The faults of a die. -/
def State.dieFault (s : State) : Die → DieFault
  | .a => s.arr.dieA
  | .g => s.arr.dieG

/-- One check of a die's faults. -/
def DieFault.get (d : DieFault) : DieCheck → Bool
  | .temperature => d.temp
  | .pressure => d.press
  | .drive => d.drive

/-- A die check of R28 exists: the drive amplitude is checked on the G-die alone. -/
def dieCheckExists : Die → DieCheck → Bool
  | .a, .drive => false
  | _, _ => true

/-- A die fault set or cleared, with its event bit (R33, R163). -/
def State.setDieFault (die : Die) (check : DieCheck) (v : Bool) (s : State) : State :=
  let put (d : DieFault) : DieFault :=
    match check with
    | .temperature => { d with temp := v }
    | .pressure => { d with press := v }
    | .drive => { d with drive := v }
  s.modArr fun a =>
    let a := match die with | .a => { a with dieA := put a.dieA } | .g => { a with dieG := put a.dieG }
    match check with
    | .temperature => { a with tempEvt := true }
    | .pressure => { a with cavEvt := true }
    | .drive => a

/-- DIE_FAULT_SET (R30): three consecutive evaluations out of limit. -/
def execDieFaultSet (die : Die) (check : DieCheck) (s : State) : Host.Outcome State Fault Refusal :=
  event (dieCheckExists die check && s.isOn (dieDom die) && !(s.dieFault die).get check) s
    (State.settleArray s (s.setDieFault die check true))

/-- DIE_FAULT_CLEAR (R30): 100 consecutive evaluations in limit. -/
def execDieFaultClear (die : Die) (check : DieCheck) (s : State) : Host.Outcome State Fault Refusal :=
  event (dieCheckExists die check && s.isOn (dieDom die) && (s.dieFault die).get check) s
    (State.settleArray s (s.setDieFault die check false))

/-! ### CLUSTER_PWR, RANGE, stops of the front ends (R103, R167, R453) -/

/-- A write of CLUSTER_PWR (R453). A cluster whose bit returns to 1 stays out of the sum until CLUSTER_REJOIN, also where AF is not On
then. An audit in a cluster that is switched off is void, counts in VOIDS and waits for its next
turn (DESIGN CHOICE, log entry 111). -/
def State.writeClusterPwr (v : BitVec 24) (s : State) : State :=
  let old := s.arr.clusterPwr
  let t := s.modArr fun a => { a with clusterPwr := v }
  let t := (List.range 24).foldl (fun t i =>
    if old.getLsbD i && !v.getLsbD i then
      let t := t.modCluster i fun c => { c with rejoin := false }
      match (t.rotation (regionOf i)).audit with
      | some a => if clusterOf a.unit.val = i then t.voidAudit (regionOf i) false else t
      | none => t
    else if !old.getLsbD i && v.getLsbD i then t.modCluster i fun c => { c with rejoin := true, rejoinAt := s.clk.tsc }
    else t) t
  State.settleArray s t

/-- CLUSTER_REJOIN (R453): 2 ms after the bit returned to 1. -/
def execClusterRejoin (cluster : Fin 24) (s : State) : Host.Outcome State Fault Refusal :=
  event ((s.cluster cluster.val).rejoin && s.isOn .af && s.usSince (s.cluster cluster.val).rejoinAt 2000) s
    (s.modCluster cluster.val fun c => { c with rejoin := false })

/-- A write of RANGE of CH0 to CH5 (R103, R104). -/
def State.writeRange (ch : Nat) (v : Bool) (s : State) : State :=
  if (s.chan ch).range = v then s
  else
    let t := s.modChan ch fun c => { c with range := v }
    State.settleArray s ((t.voidAudit ch false).restartAll (putBit 0#24 ch true))

/-- AF or GF leaves On (R142, R167): audits of its die are void, re-trims abandoned. -/
def State.frontStops (d : Dom) (s : State) : State :=
  let mine (r : Nat) : Bool := frontDom r == d
  let t := s.voidAudits mine
  (List.range 36).foldl (fun t i =>
    if mine (regionOf i) then
      t.modCluster i fun c =>
        { c with owedTrim := c.owedTrim || c.retrim, retrim := false,
                 iso := c.iso.map fun x => (x.1, 7352) }
    else t) t

/-- AF or GF has become On (R153, R167, R453): an isolation starts again, owed re-trims start, the 2 ms of a cluster that has still to
join run from here (DESIGN CHOICE, log entry 131), and the fill rule applies. -/
def State.frontReturns (d : Dom) (s : State) : State :=
  let t := (List.range 36).foldl (fun t i =>
    if frontDom (regionOf i) == d then
      t.modCluster i fun c => { c with retrim := c.retrim || c.owedTrim, owedTrim := false, rejoinAt := s.clk.tsc }
    else t) s
  t.fillAll

/-! ### The health map (R134, R150, R155, R156) -/

/-- The factory state of unit u (R505, R506). -/
def State.factoryUnit (s : State) (u : Nat) : UnitHealth :=
  if s.calBad 4 then defaultUnit u else UnitHealth.ofWord (s.calWord (0x9500 + u))

/-- The newer of the two map copies in flash. -/
def Arr.newerCopy (a : Arr) : Option MapCopy :=
  match a.mapA, a.mapB with
  | some x, some y => if x.seq < y.seq then some y else some x
  | some x, none => some x
  | none, y => y

/-- What the map keeps of a cluster: STUCK, XCAUSE and WINEVT have Reset value Map (R160). -/
def Cluster.kept (c : Cluster) : Cluster :=
  { stuck := c.stuck, residExcl := c.residExcl, nodeFault := c.nodeFault, winevt := c.winevt }

/-- A unit as a copy in flash holds it: a unit under audit as its RETURN state, a stand-in as a Spare. -/
def UnitHealth.settled (h : UnitHealth) : UnitHealth :=
  { h with state := if h.state = .audit then h.ret else if h.standin then .spare else h.state, ret := .active, standin := false }

/-- A series of passes as a load credits it: hourly passes (R152). -/
def UnitHealth.credited (h : UnitHealth) (ht : Nat) : UnitHealth :=
  { h with seriesHt := (ht : Int) - ((h.passes.toNat : Int) - 1) * 3600 * 32768 }

/-- The copies in flash whose CRC does not check are no copies (R134). -/
def Arr.dropBad (a : Arr) (found : CopiesFound) : Arr :=
  { a with mapA := if found.mapA then a.mapA else none, mapB := if found.mapB then a.mapB else none }

/-- The load of the map at the first boot after a reset (R134); without a valid copy the factory map is loaded, with
ALERT 0x04. The factory map has no cluster words: STUCK, the residual and node-fault exclusions and WINEVT start at 0 under it
(DESIGN CHOICE, log entry 112). The combiner starts from the factory trims (R505). -/
def State.loadMap (s : State) : State :=
  if s.arr.mapLoaded then s
  else match s.arr.newerCopy with
    | some c =>
      (s.modArr fun a => { a with mapLoaded := true, units := c.units.map fun h => h.credited s.clk.ht, cl := c.cl }).startTrims
    | none =>
      (s.modArr fun a =>
        { a with mapLoaded := true, units := Vector.ofFn fun u => (s.factoryUnit u.val).credited s.clk.ht,
                 cl := Vector.replicate 39 {} }).startTrims.raiseAlert 0x04#8

/-- The map written to the older copy (R134, R150). -/
def State.commitMap (s : State) : State :=
  s.modArr fun a =>
    let n := match a.newerCopy with | some c => c.seq + 1 | none => 1
    let copy : MapCopy := { seq := n, units := a.units.map UnitHealth.settled, cl := a.cl.map Cluster.kept }
    let intoA := match a.mapA, a.mapB with | none, _ => true | some _, none => false | some x, some y => decide (x.seq ≤ y.seq)
    if intoA then { a with mapA := some copy, dirtySince := none } else { a with mapB := some copy, dirtySince := none }

/-- HEALTH_COMMIT (R150): waits for MC and for the flash bus. -/
def execHealthCommit (s : State) : Host.Outcome State Fault Refusal :=
  event (s.arr.dirtySince.isSome && s.arr.mapLoaded && s.isOn .mc && s.flashFree) s s.storeWork.commitMap

/-- The audit of unit u, if it is under audit. -/
def State.auditOf (s : State) (u : Nat) : Option Audit :=
  match (s.rotation (unitRegion u)).audit with
  | some a => if a.unit.val = u then some a else none
  | none => none

/-- The state of a unit that is not under audit, or its RETURN state. -/
def State.standing (s : State) (u : Nat) : UnitState := match s.auditOf u with | some a => a.ret | none => (s.unit u).state

/-- Unit u has no scheduled audit waiting. -/
def State.unschedule (u : Nat) (s : State) : State :=
  s.modRotation (unitRegion u) fun q =>
    { q with due := q.due.filter fun v => v.val != u, resume := if q.resume.map (fun x => x.1.val) = some u then none else q.resume }

/-- UNIT_ADMIT takes unit u to Spare, a Scarecrow unit to Active (R155, R166). -/
def State.admitUnit (u : Nat) (s : State) : State :=
  let t := if (s.auditOf u).isSome then s.voidAudit (unitRegion u) false else s
  let t := (t.unschedule u).setUnit u false true fun h =>
    { h with state := if 648 ≤ u then .active else .spare, passes := 0#5, fails := 0#2 }
  State.settleArray s (t.fillCluster (clusterOf u))

/-- UNIT_RETIRE makes unit u Dead and sealed (R147, R155). -/
def State.retireUnit (u : Nat) (s : State) : State :=
  let r := unitRegion u
  let i := clusterOf u
  let dead (t : State) : State :=
    t.setUnit u false true fun h => { h with state := .dead, ret := .active, lasting := true, standin := false, cause := 6#3 }
  let t :=
    match (s.rotation r).audit with
    | some a =>
      if a.unit.val = u then
        let t := s.modArr fun y => { y with voids := satInc y.voids }
        (dead t).removeUnit a
      else if a.standin.map Fin.val = some u then (dead (s.voidAudit r false)).fillCluster i
      else
        let active := decide ((s.unit u).state = UnitState.active)
        let t := dead s
        (if active then t.startRetrim i else t).fillCluster i
    | none =>
      let active := decide ((s.unit u).state = UnitState.active)
      let t := dead s
      (if active then t.startRetrim i else t).fillCluster i
  State.settleArray s (t.unschedule u)

/-- FACTORY_RESET of the map (R142, R156): every unit takes its factory state and the fill rule applies; UNIT_EVT follows
R164 for the void audits and for the change to the factory state. What the clusters hold
from the map goes to 0, as under a load of the factory map (DESIGN CHOICE, log entry 112). -/
def State.factoryMap (s : State) : State :=
  let v := s.voidAudits fun _ => true
  let t := v.modArr fun a =>
    { a with
      units := Vector.ofFn fun u =>
        { s.factoryUnit u.val with flaps := 0#2, fails := 0#2, passes := 0#5, lasting := false, standin := false }
      cl := a.cl.map fun c =>
        { retrim := c.retrim, owedTrim := c.owedTrim, driveExcl := c.driveExcl, rejoin := c.rejoin, rejoinAt := c.rejoinAt,
          iso := c.iso, trims := c.trims }
      rot := a.rot.map fun q => { q with due := [], resume := none } }
  let changed := (List.range 660).any fun u =>
    (v.unit u).state != (t.unit u).state || (v.unit u).lasting != (t.unit u).lasting
  let t := if changed then t.modArr fun a => { a with unitEvt := true } else t
  State.settleArray s t.mapChanged.fillAll

end Sys2Proof.Machine
end

