-- ==== Sys2Proof/Machine/Interrupts.lean ====
section
/-!
DEFINITION. The interrupt controller's claims, completions and registers (11_interrupts.md); arbitration stands in Ops.lean.
-/

namespace Sys2Proof.Machine

open Sys2Proof

/-- The target of a line (R393). -/
def lineTarget : HostTarget → BitVec 2
  | .t0 => 0#2
  | .t1 => 1#2

/-- The level of a target's line: asserted or not (R403). -/
def Intc.line (c : Intc) : HostTarget → Bool
  | .t0 => c.line0
  | .t1 => c.line1

/-- What was latest masked or withdrawn under a target's line. -/
def Intc.gone (c : Intc) : HostTarget → Option Gone
  | .t0 => c.gone0
  | .t1 => c.gone1

/-- That is forgotten. -/
def Intc.dropGone (c : Intc) : HostTarget → Intc
  | .t0 => { c with gone0 := none }
  | .t1 => { c with gone1 := none }

/-- What the module does with an output pin. -/
inductive PinOut where
  | low | high | highZ
deriving DecidableEq, Repr

/-- HIRQ_N or HURG_N: low while asserted, else driven high, or released where CTRL.IRQ_OD makes it open-drain (R403, R486). -/
def State.irqPin (s : State) (x : HostTarget) : PinOut :=
  if s.int.line x then .low else if bitAt (fld s.host.ctrl 0) 0 then .highZ else .high

/-- Source n is claimed at target x: in service with its PRIO of this moment (R405). -/
def State.serve (x : BitVec 2) (n : Nat) (s : State) : State :=
  s.modInt fun c => c.setCfg n fun q => { q with serv := some (x, q.prio) }

/-- A claim that returns 63 (R404, R415). -/
def State.spurious (s : State) : Word × State :=
  (63#32, s.modInt fun c => { c with spurious := satInc c.spurious })

/-- The value of a claim that returns source n with recorded priority p (R413). -/
def claimWord (n : Nat) (p : BitVec 3) : Word := BitVec.ofNat 32 n ||| fld p 8

/-- A claim of target x while its line is not asserted and a source has been taken away within the 2 LK cycles of R401: of a
masked source the source or 63 (R407), of a withdrawn one 63 or, the line being high, 0 (R404). Which of them is a free value. -/
def State.lateClaim (x : HostTarget) (g : Gone) (s : State) : Word × State :=
  let t := { s with fresh := s.fresh + 1 }
  if Config.lateClaim s.fresh || (g.masked && (s.int.cfg g.src.toNat).serv.isSome) then t.spurious
  else if g.masked then
    (claimWord g.src.toNat g.prio, t.modInt fun c => c.setCfg g.src.toNat fun q => { q with serv := some (lineTarget x, g.prio) })
  else (0#32, t)

/-- A claim of target x: the value read and the state after it (R404 to R407, R413). -/
def State.claim (x : HostTarget) (s : State) : Word × State :=
  let t := s.modInt fun c => c.dropGone x
  if s.int.line x then
    match s.presented (lineTarget x) with
    | some n => (claimWord n (s.int.cfg n).prio, t.serve (lineTarget x) n)
    | none => t.spurious
  else match s.int.gone x with
    | none => (0#32, s)
    | some g => if s.withinLk g.at_ 2 then t.lateClaim x g else (0#32, t)

/-- A write to INT_CLAIMx: the completion of a source, or a bad one that is counted (R409, R410). -/
def State.complete (x : HostTarget) (w : Word) (s : State) : State :=
  let n := (bits w 0 6).toNat
  if n = 0 ∨ n = 63 then s
  else
    match (s.int.cfg n).serv with
    | some (y, _) =>
      if y = lineTarget x then s.modInt fun c => c.setCfg n fun q => { q with serv := none }
      else s.modInt fun c => { c with badcomp := satInc c.badcomp }
    | none => s.modInt fun c => { c with badcomp := satInc c.badcomp }

/-- Sources 37 to 42 cannot target T2 (R417). -/
def storedTarget (n : Nat) (t : BitVec 2) : BitVec 2 := if 37 ≤ n ∧ n ≤ 42 ∧ t = 2#2 then 3#2 else t

/-- The source that INT_SEL shows, where there is one (R398). -/
def Intc.shown (c : Intc) : Option Nat := let n := c.sel.toNat; if 1 ≤ n ∧ n ≤ 47 then some n else none

/-- INT_CFG (R398, R399). -/
def State.intCfg (s : State) : Word :=
  match s.int.shown with
  | none => 0#32
  | some n =>
    let q := s.int.cfg n
    flg q.en 0 ||| fld q.prio 4 ||| fld q.target 8 ||| flg (s.active n) 16 ||| flg q.serv.isSome 17

/-- A write of the configuration of source n (R399, R412, R417). -/
def State.writeSource (n : Nat) (w : Word) (s : State) : State :=
  s.modInt fun c => c.setCfg n fun q =>
    { q with en := bitAt w 0, prio := bits w 4 3, target := storedTarget n (bits w 8 2) }

/-- A write of INT_CFG (R398). -/
def State.writeIntCfg (w : Word) (s : State) : State :=
  match s.int.shown with
  | none => s
  | some n => s.writeSource n w

/-- INT_THRESH (R400). -/
def State.intThresh (s : State) : Word :=
  let c := s.int
  let run (x : BitVec 2) : BitVec 3 := BitVec.ofNat 3 (c.running x)
  fld c.th0 0 ||| fld c.th1 4 ||| fld c.th2 8 ||| fld (run 0#2) 12 ||| fld (run 1#2) 16 ||| fld (run 2#2) 20

/-- A write of INT_THRESH: TH2 is Zoruimen's (R400). -/
def State.writeIntThresh (w : Word) (s : State) : State :=
  s.modInt fun c => { c with th0 := bits w 0 3, th1 := bits w 4 3 }

/-- The active sources from number lo on, 32 of them, as bits (R414). -/
def State.pendWord (s : State) (lo : Nat) : Word :=
  foldUpto (fun w k => putBit w k (s.active (lo + k))) 0#32 32

/-- INT_STATS (R415). -/
def Intc.stats (c : Intc) : Word := fld c.badcomp 0 ||| fld c.spurious 16

/-- A write of INT_STATS (R415). -/
def State.clearStats (s : State) : State := s.modInt fun c => { c with badcomp := 0#16, spurious := 0#16 }

end Sys2Proof.Machine
end

