-- ==== Sys2Proof/Machine/Thermal.lean ====
section
/-!
DEFINITION. The thermal hold: THERM_CTRL, THERM_STAT, its events (R118 to R127).
-/

namespace Sys2Proof.Machine

open Sys2Proof

/-- THERM_STAT.SP_CLAMPED: SETPOINT asks for more than the maximum (R119). -/
def Therm.clamped (x : Therm) : Bool := decide (x.maxCode.toNat < x.setpoint.toNat)

/-- The effective set point, as a SETPOINT code (R119). -/
def Therm.effective (x : Therm) : Nat := min x.setpoint.toNat x.maxCode.toNat

/-- The conditions of R118 hold: the regulator runs. -/
def State.thermRuns (s : State) : Bool := s.therm.enable && s.clken 9 && s.isOn .th

/-- THERM_STAT.REGULATING: the regulator runs and no fault has cut the heaters (R118, R124). -/
def State.regulating (s : State) : Bool := s.thermRuns && !s.therm.faultLatch

/-- A gradient code above 0.5 K (R121, R127). -/
def gradientHigh (g : BitVec 6) : Bool := decide (10 < g.toNat)

/-- THERM_STAT (R127). -/
def State.thermStat (s : State) : Word :=
  let x := s.therm
  flg x.ready 0 ||| flg s.regulating 1 ||| flg x.saturated 2 ||| flg (gradientHigh x.gradient) 3 ||| flg x.clamped 4 |||
  flg x.readyEvt 5 ||| flg x.faultEvt 6 ||| flg x.faultLatch 7 ||| fld x.gradient 8 ||| fld x.fault 14 ||| fld x.tplat 16

/-- THERM_CTRL (R126). -/
def Therm.ctrl (x : Therm) : Word := flg x.enable 0 ||| fld x.setpoint 8

/-- READY and SATURATED after a change of what the regulator runs on (R118, R123). -/
def State.thermSettle (s : State) : State :=
  if s.regulating then s else s.modTherm fun x => { x with ready := false, saturated := false, good := 0 }

/-- A write of THERM_CTRL (R118, R122, R124): a new effective set point clears READY, and ENABLE from 0 to 1 ends the cut of a
fault. -/
def State.writeThermCtrl (w : Word) (s : State) : State :=
  (s.modTherm fun x =>
    let y := { x with enable := bitAt w 0, setpoint := bits w 8 8 }
    let y := if bitAt w 0 && !x.enable then { y with faultLatch := false } else y
    if y.effective = x.effective then y else { y with ready := false, good := 0 }).thermSettle

/-- New limits of THERM_LIMITS (R120, R122). -/
def State.setThermLimits (maxCode : BitVec 8) (power : BitVec 9) (s : State) : State :=
  s.modTherm fun x =>
    let y := { x with maxCode := maxCode, power := power, limits := x.limits.write (maxCode, power) }
    if y.effective = x.effective then y else { y with ready := false, good := 0 }

/-- A write of THERM_STAT: W1C bits (R127). -/
def State.writeThermStat (w : Word) (s : State) : State :=
  s.modTherm fun x => { x with readyEvt := w1c x.readyEvt w 5, faultEvt := w1c x.faultEvt w 6 }

/-- The FAULT code of an event (R124). -/
def thermCode : ThermEvent → BitVec 2
  | .gradient => 0#2 | .overtemperature => 1#2 | .disagreement => 2#2 | .heater => 3#2

/-- An event of R124: FAULT and FAULT_EVT, the 60 s of R121 start anew, and on the faults 0b01 to 0b11 the cut of the heaters; the
log takes THERM_STAT (R125, R571). -/
def State.thermEvent (ev : ThermEvent) (s : State) : State :=
  let t := s.modTherm fun x =>
    { x with fault := thermCode ev, faultEvt := true, ready := false, good := 0,
             faultLatch := x.faultLatch || thermCode ev != 0#2 }
  let t := t.thermSettle
  t.log 0x0B#8 0x01#8 t.thermStat 0#32 0#32

/-- The effective set point in units of 1/256 °C: 40 °C + 0.5 K a code (R126). -/
def Therm.point (x : Therm) : Int := 40 * 256 + 128 * x.effective

/-- The platform mean of a T_PLAT code lies within d/100 K of the effective set point (R121). -/
def Therm.near (x : Therm) (tplat : BitVec 16) (d : Nat) : Bool := decide (100 * (tplat.toInt - x.point).natAbs ≤ 256 * d)

/-- The platform mean exceeds the effective set point by 3 K, or has reached 100 °C and with it a thermistor (R124). -/
def Therm.tooHot (x : Therm) (tplat : BitVec 16) : Bool :=
  decide (768 < tplat.toInt - x.point) || decide (25600 ≤ tplat.toInt)

/-- The heater power available in units of 10 mW at a VHTR in millivolts: 2.9 W × (VHTR/1.8 V)², at most the limit of
THERM_LIMITS (R120). -/
def Therm.available (x : Therm) (vhtr : Nat) : Rat := min (x.power.toNat : Rat) (290 * ((vhtr : Rat) / 1800) ^ 2)

/-- The hold can reach READY at an ambient temperature, in units of 1/256 °C, and a VHTR in millivolts (R123): the effective set
point lies at least 10 K above ambient, and 20.8 mW/K times the difference is at most 90 % of the power available. -/
def Therm.reachable (x : Therm) (ambient : BitVec 16) (vhtr : Nat) : Bool :=
  let d := x.point - ambient.toInt
  decide (2560 ≤ d) && decide ((208 : Rat) / 100 * ((d : Rat) / 256) ≤ 9 / 10 * x.available vhtr)

/-- A measurement of the platform, which the fields of THERM_STAT take (R127). A running regulator cuts the heaters where the mean
is too high, the event 0b01 (R124; before a gradient excursion found with it, DESIGN CHOICE, log entry 28). While READY is 1 it falls
as soon as the mean deviates by more than 0.10 K or the gradient exceeds 0.5 K, which is the event 0b00 (R121, R124). -/
def State.thermMeasured (gradient : BitVec 6) (tplat : BitVec 16) (s : State) : State :=
  let t := s.modTherm fun x =>
    { x with gradient := gradient, tplat := tplat,
             good := if s.regulating && !gradientHigh gradient && x.near tplat 5 then x.good + 1 else 0 }
  if s.regulating && s.therm.tooHot tplat then t.thermEvent .overtemperature
  else if !(s.regulating && s.therm.ready) then t
  else if gradientHigh gradient then t.thermEvent .gradient
  else if s.therm.near tplat 10 then t
  else t.modTherm fun x => { x with ready := false }

/-- An SM tick of TH: THERM_STAT takes a measurement once in a millisecond while TH is On, the integrator of a running regulator
moves, and SATURATED falls where the drive is no longer at its maximum (R118, R123, R127). What it measures comes from outside, and
the drive follows from it: free values. -/
def State.tickTherm (s : State) : State :=
  if !s.isOn .th then s
  else if s.therm.sub + 1 < 196608 then s.modTherm fun x => { x with sub := x.sub + 1 }
  else
    let g := Config.platGradient s.fresh
    let m := Config.platMean s.fresh
    let t := ({ s with fresh := s.fresh + 1 }).modTherm fun x =>
      { x with sub := 0, integ := if s.regulating then Config.regulator x.integ g m else x.integ,
               saturated := x.saturated && Config.heaterAtMax s.fresh }
    t.thermMeasured g m

/-- TH enters Off or fails: the regulator's state is lost (R118, R418). -/
def State.thermOff (s : State) : State := s.modTherm fun x => { x with integ := 0#32, sub := 0 }

/-- The mean and the gradient have stayed within the limits of READY for 60 s of updates (R121, R127). -/
def State.thermQualified (s : State) : Bool := decide (60000 ≤ s.therm.good)

/-- THERM_READY (R121, R123, R125): the 60 s of qualification are over. -/
def execThermReady (gradient : BitVec 6) (plat : PlatformMeas) (s : State) : Host.Outcome State Fault Refusal :=
  event (s.regulating && !s.therm.ready && s.thermQualified && !gradientHigh gradient && s.therm.near plat.tplat 5 &&
      s.therm.reachable plat.ambient plat.vhtr) s
    (s.modTherm fun x => { x with ready := true, readyEvt := true, gradient := gradient, tplat := plat.tplat })

/-- THERM_READY_LOSS (R121): the mean deviates by more than 0.10 K or the gradient exceeds 0.5 K. -/
def execThermReadyLoss (gradient : BitVec 6) (tplat : BitVec 16) (s : State) : Host.Outcome State Fault Refusal :=
  event (s.regulating && s.therm.ready && (gradientHigh gradient || !s.therm.near tplat 10)) s (s.thermMeasured gradient tplat)

/-- THERM_FAULT (R124). -/
def execThermFault (ev : ThermEvent) (gradient : BitVec 6) (tplat : BitVec 16) (s : State) : Host.Outcome State Fault Refusal :=
  let t := s.modTherm fun x => { x with gradient := gradient, tplat := tplat }
  event (s.isOn .th && s.clken 9 && (ev != .gradient || (s.therm.ready && gradientHigh gradient))) s (t.thermEvent ev)

/-- THERM_SATURATED (R123): the drive has been at its available maximum for more than 1 s. SATURATED falls with the update of
THERM_STAT that finds the drive below it (State.tickTherm). -/
def execThermSaturated (s : State) : Host.Outcome State Fault Refusal :=
  event (s.regulating && !s.therm.saturated) s (s.modTherm fun x => { x with saturated := true })

end Sys2Proof.Machine
end

