-- ==== Sys2Proof/Machine/AuxFront.lean ====
section
/-!
DEFINITION. The auxiliary front end: scan tables and their commit, excitation, charge-amplifier resets, wire breaks, attach
and identification (05_aux_front_end.md).
-/

namespace Sys2Proof.Machine

open Sys2Proof

/-! ### Blocks and their check (R180 to R189) -/

/-- Word k of a converter block in the order of R180: converter word, reset word, step words. -/
def ConvBlock.word (b : ConvBlock) (k : Nat) : Word :=
  if k = 0 then b.conv else if k = 1 then b.rst else if k % 2 = 0 then b.a.getD (k / 2 - 1) 0#32 else b.b.getD (k / 2 - 1) 0#32

/-- RW bits of word k of a block (R181 to R184). -/
def convWordMask (k : Nat) : Word := if k = 0 then 0xF3F#32 else if k = 1 then 0x1F#32 else 0x3FFFFFF#32

/-- A write of word k of a block. -/
def ConvBlock.setWord (b : ConvBlock) (k : Nat) (w : Word) : ConvBlock :=
  let v := w &&& convWordMask k
  if k = 0 then { b with conv := v }
  else if k = 1 then { b with rst := v }
  else if k % 2 = 0 then { b with a := b.a.setIfInBounds (k / 2 - 1) v }
  else { b with b := b.b.setIfInBounds (k / 2 - 1) v }

/-- A pin code that names an AUX pin. -/
def isPin (p : BitVec 5) : Bool := decide (p.toNat ≤ 15)

/-- The signal pins of slot s are invalid (R171, R183, R189). -/
def ConvBlock.badPins (b : ConvBlock) (slot : Nat) : Bool :=
  let a := b.stepA slot
  let p : BitVec 5 := bits a 0 5
  let n : BitVec 5 := bits a 5 5
  !isPin p || p == n || !(isPin n || (n == 16#5 && convCharge b.conv))

/-- The reference pins of slot s are invalid (R171, R189). With REFSEL 1 code 31, which names no pin, counts as invalid as 17 to 30
do: a reference needs a pin (DESIGN CHOICE, log entry 120). -/
def ConvBlock.badRefs (b : ConvBlock) (slot : Nat) : Bool :=
  let a := b.stepA slot
  bitAt a 20 && (decide (16 < (bits a 10 5).toNat) || decide (16 < (bits a 15 5).toNat))

/-- ERR of a block: the lowest applicable value (R189). -/
def ConvBlock.check (b : ConvBlock) : BitVec 3 :=
  let cont := convCont b.conv
  let charge := convCharge b.conv
  let j := convCycle b.conv
  if !cont && anyUpto (fun k => b.win k == 0) b.slots then 1#3
  else if !cont && decide (128 * 2 ^ j < b.stepAt b.slots) then 2#3
  else if charge && !cont then 3#3
  else if cont && decide (b.slots ≠ 1) then 4#3
  else if anyUpto b.badPins b.slots then 5#3
  else if !cont && decide (j < 2 ∨ 9 < j) then 6#3
  else if !charge && anyUpto b.badRefs b.slots then 7#3
  else 0#3

/-- The slots a block enables (R181). -/
def ConvBlock.used (b : ConvBlock) (slot : Nat) : Bool := convEnable b.conv && decide (slot < b.slots)

/-! ### Converters -/

/-- Converter c is the one that the calibration cycle measures (R217). -/
def State.calibrating (s : State) (c : Fin 4) : Bool :=
  s.aux.calQueue.getLsbD c.val && s.aux.calNow == some c.val

/-- Slot s of converter c is suppressed: CONV_STAT.SUPPRESS (R190). -/
def State.slotSuppressed (s : State) (c : Fin 4) (slot : Nat) : Bool :=
  s.slotActive c slot && s.aux.conv[c].suppressedAt slot s.clk.tsc

/-- Where a converter stands in its scan cycle (R185). -/
inductive ScanPhase where
  /-- Between steps 1 and 2: the crosspoint breaks before it makes; the comparators are blanked. -/
  | switching (slot : Nat)
  /-- Between steps 2 and 3: settling, the pulsed sources of the step on, the comparators blanked. -/
  | settling (slot : Nat)
  /-- Between steps 3 and 5: the conversion window, in which the comparators check. -/
  | window (slot : Nat)
  /-- The rest of the cycle. -/
  | rest
deriving DecidableEq, Repr

/-- The phase of a block n modulator periods after the start of its cycle (R185). -/
def ConvBlock.phaseAt (b : ConvBlock) (n : Nat) : ScanPhase :=
  foldUpto (fun p i =>
    let m := n - b.stepAt i
    if n < b.stepAt i ∨ b.stepLen i ≤ m then p
    else if m < 2 then .switching i
    else if m < 2 + b.settle i then .settling i
    else .window i) .rest b.slots

/-- Where the scan of converter c stands; none while it does not scan (R185). -/
def State.scanPhase (s : State) (c : Fin 4) : Option ScanPhase :=
  let q := s.aux.conv[c]
  if !s.convRuns c || convCont q.act.conv then none
  else some (q.act.phaseAt ((s.clk.tsc - q.start).toNat % q.act.cycle / 32))

/-- The slot whose step is running; in the idle rest of a cycle the last one (R185, R214). -/
def State.convStep (s : State) (c : Fin 4) : BitVec 2 :=
  match s.scanPhase c with
  | none => 0#2
  | some (.switching i) | some (.settling i) | some (.window i) => BitVec.ofNat 2 i
  | some .rest => BitVec.ofNat 2 (s.aux.conv[c].act.slots - 1)

/-- CONV_STAT (R214). -/
def State.convStat (s : State) (c : Fin 4) : Word :=
  let q := s.aux.conv[c]
  flg (s.convRuns c) 0 ||| flg q.pend.isSome 1 ||| fld q.err 2 ||| fld q.fault 8 |||
  flg (s.slotSuppressed c 0) 12 ||| flg (s.slotSuppressed c 1) 13 ||| flg (s.slotSuppressed c 2) 14 |||
  flg (s.slotSuppressed c 3) 15 ||| fld (s.convStep c) 16 ||| flg q.resetting 18 ||| fld q.resets 24

/-- AUX_STAT.WIREBREAK (R201, R204). -/
def Aux.wirebreak (a : Aux) : BitVec 4 := foldUpto (fun m k => putBit m k ((a.conv.toList[k]?.map Conv.fault) != some 0#4)) 0#4 4

/-- AUX_STAT (R213). -/
def Aux.stat (a : Aux) : Word :=
  fld a.attach 0 ||| fld a.wirebreak 4 ||| fld a.overload 8 ||| fld a.tedsValid 12 ||| fld a.excCut 16 ||| fld a.attachEvt 20 |||
  fld a.wbEvt 24 ||| flg a.tedsDone 28 ||| flg (a.calQueue != 0#4) 29

/-- AUX_CTRL (R212). -/
def Aux.ctrl (a : Aux) : Word := flg a.tedsAuto 8 ||| fld a.probeEn 12

/-- When the active copy stops for a pending one: at the end of its cycle, or at the next 128-period boundary; at once where it
does not run (R189). -/
def State.stopFor (s : State) (c : Fin 4) : Tick :=
  let q := s.aux.conv[c]
  if s.convRuns c then gridFrom q.start q.act.cycle s.clk.tsc else s.clk.tsc

/-- A commit request for converter c (R189); with XF Off or FAILED it finds no block. The active copy stops once, for the first
valid request; a further one replaces the pending copy. -/
def State.commitConv (c : Fin 4) (s : State) : State :=
  if (s.dom .xf).st matches .off | .failed then s
  else
    let q := s.aux.conv[c]
    let e := q.stage.check
    if e ≠ 0#3 then s.modConv c fun q => { q with err := e }
    else
      let stop := if q.pend.isSome then q.stopAt.getD (s.stopFor c) else s.stopFor c
      s.modConv c fun q => { q with pend := some q.stage, err := 0#3, stopAt := some stop, startAt := s.startFor q.stage stop }

/-- A charge reset that still holds the output is over at tick t (R196). -/
def Conv.closeHold (q : Conv) (t : Tick) : Conv :=
  { q with resetting := false, holds := match q.holds with | (a, none) :: rest => (a, some t) :: rest | l => l }

/-- The active copy of converter c starts at tick t: its scan cycle, every slot suppressed (R188 to R190). A charge reset in
progress ends there and does not count in RESETS (DESIGN CHOICE, log entry 114). -/
def State.startConvAt (c : Fin 4) (t : Tick) (s : State) : State :=
  let s := s.modConv c fun q => { q.closeHold s.clk.tsc with start := t, timerHt := s.clk.ht }
  s.refreshPaths.unsettle c (fun _ => true) t

/-- The active copy starts once the converter is released (R215, R216, R619). -/
def State.startConv (c : Fin 4) (s : State) : State := s.startConvAt c (s.startFor s.aux.conv[c].act s.nextMod)

/-- The step boundary at tick t of the copy that starts on converter c counts for the changes of the sources it names (R193). -/
def State.boundaryAt (c : Fin 4) (t : Tick) (s : State) : State :=
  s.modAux fun a =>
    { a with exc := Vector.ofFn fun n =>
        let e := a.exc[n]
        if e.pend && a.conv[c].act.names n.val && decide (0 < (e.due - t).toInt) then { e with due := t } else e }

/-- PENDING_COPY_START (R189): the pending copy becomes the active copy at its start. Leaving a wire-break fault depends on the
checks of R204 alone, so FAULT stays. -/
def execPendingCopyStart (conv : Fin 4) (s : State) : Host.Outcome State Fault Refusal :=
  match s.aux.conv[conv].pend with
  | none => .next s
  | some b =>
    let at_ := s.aux.conv[conv].startAt
    event (s.convFree && s.hasSm && decide (0 ≤ (s.clk.tsc - at_).toInt)) s
      (((s.modConv conv fun q =>
        { q with act := b, pend := none, stopAt := none, offs := Vector.ofFn fun k => b.offset k.val }).startConvAt conv at_).boundaryAt
          conv at_)

/-! ### Charge-amplifier resets and overload (R196 to R198) -/

/-- A reset of converter c may start: charge mode, running, none in progress (R197). -/
def State.mayReset (s : State) (c : Fin 4) : Bool :=
  s.convRuns c && convCharge s.aux.conv[c].act.conv && !s.aux.conv[c].resetting

/-- A reset of converter c starts (R196, step 1). Intervals too old to flag a sample of any path are dropped. -/
def State.startReset (c : Fin 4) (s : State) : State :=
  if !s.mayReset c then s
  else s.modConv c fun q =>
    let live := q.holds.filter fun h =>
      match h.2 with | some b => decide ((s.clk.tsc - b).toNat < 2 ^ 31) | none => false
    { q with resetting := true, holds := (s.nextMod, none) :: live }

/-- OVERLOAD (R197, R198): the flag is set whether or not a reset starts; during a reset none does. -/
def execOverload (conv : Fin 4) (s : State) : Host.Outcome State Fault Refusal :=
  let t := s.modAux fun a => { a with overload := putBit a.overload conv.val true }
  event (s.convRuns conv) s (if bitAt s.aux.conv[conv].act.rst 4 then t.startReset conv else t)

/-- The periodic timer of converter c has run 2^k ms on the Headland tick (R197). -/
def State.timerOver (s : State) (c : Fin 4) : Bool :=
  let k := (bits s.aux.conv[c].act.rst 0 4).toNat
  decide (2 ^ k * 32768 ≤ 1000 * (s.clk.ht - s.aux.conv[c].timerHt))

/-- PERIODIC_RESET (R197). -/
def execPeriodicReset (conv : Fin 4) (s : State) : Host.Outcome State Fault Refusal :=
  event (s.mayReset conv && bits s.aux.conv[conv].act.rst 0 4 != 0#4 && s.timerOver conv) s (s.startReset conv)

/-- 149 modulator periods of the reset of converter c have passed (R196, step 3). -/
def Conv.resetOver (q : Conv) (now : Tick) : Bool :=
  match q.holds with
  | (a, none) :: _ => decide (32 * 149 ≤ (now - a).toInt)
  | _ => true

/-- The reset switch of converter c is closed: for the first 49 modulator periods of a reset; then it is open and the amplifier
settles until step 3 (R196). -/
def State.resetSwitch (s : State) (c : Fin 4) : Bool :=
  let q := s.aux.conv[c]
  q.resetting && match q.holds with
    | (a, none) :: _ => decide (0 ≤ (s.clk.tsc - a).toInt ∧ (s.clk.tsc - a).toInt < 32 * 49)
    | _ => false

/-- RESET_END (R196, step 3). The periodic timer restarts (R197). -/
def execResetEnd (conv : Fin 4) (s : State) : Host.Outcome State Fault Refusal :=
  event (s.aux.conv[conv].resetting && s.convRuns conv && s.aux.conv[conv].resetOver s.clk.tsc) s
    (s.modConv conv fun q => { q.closeHold s.clk.tsc with resets := satInc q.resets, timerHt := s.clk.ht })

/-- A sample of channel ch with acquisition instant t on a path carries UNSETTLED because of a charge reset (R196). -/
def State.resetFlags (s : State) (ch : Nat) (k : PathKind) (t : Tick) : Bool :=
  decide (6 ≤ ch ∧ ch < 22) && s.aux.conv[chanConv ch].holds.any fun h =>
    decide (0 ≤ (t - h.1).toInt) &&
      match h.2 with
      | none => true
      | some b => decide ((t - b).toInt < 32 * (s.latencyOf ch k - s.delayOf ch k))

/-! ### Excitation (R172, R191 to R195) -/

/-- Fields of an excitation word (R191). -/
def excPin (w : Word) : BitVec 5 := bits w 8 5
/-- RETURN. -/
def excReturn (w : Word) : BitVec 5 := bits w 13 5

/-- The word claims pins (R172). -/
def excClaims (w : Word) : Bool := bitAt w 18 && bits w 0 8 != 0#8 && isPin (excPin w)

/-- Two claiming words name the same pin in a way that breaks R172. -/
def excBreaks (v w : Word) : Bool :=
  excPin v == excPin w || (isPin (excReturn v) && excReturn v == excPin w) || (isPin (excReturn w) && excReturn w == excPin v)

/-- CONFLICT of source n (R172). -/
def Aux.conflictOf (a : Aux) (n : Nat) : Bool :=
  let word (k : Nat) : Word := (a.exc.toList[k]?.map Exc.word).getD 0#32
  excClaims (word n) && (excReturn (word n) == excPin (word n) ||
    anyUpto (fun m => excClaims (word m) && excBreaks (word m) (word n)) n)

/-- The front end after a change of a source's word, of CONFLICT or of a cut: CONFLICT is evaluated again, and a change, a
release and a restored source are excitation changes, which wait for their boundary (R172, R193). A cut or a new conflict holds
the source off at once. -/
def State.settleExc (new : Aux) (s : State) : State :=
  let old := s.aux
  s.modAux fun _ =>
    { new with exc := Vector.ofFn fun n =>
        let e := new.exc[n]
        let o := old.exc[n]
        let c := new.conflictOf n.val
        let change := e.word != o.word || (o.conflict && !c) || (old.excCut.getLsbD n.val && !new.excCut.getLsbD n.val)
        { e with
          conflict := c
          ok := e.ok && !c && !new.excCut.getLsbD n.val
          due := if change && !e.pend then s.excBoundary n.val else e.due
          pend := e.pend || change } }

/-- A write of the excitation word of source n (R191). -/
def State.writeExc (n : Fin 4) (w : Word) (s : State) : State :=
  s.settleExc { s.aux with exc := s.aux.exc.set n { s.aux.exc[n] with word := w &&& 0xFFFFF#32 } }

/-- An excitation word as read (R191). -/
def Exc.read (e : Exc) : Word := e.word ||| flg e.conflict 20

/-- Source n is enabled: the setting in effect, neither cut nor in conflict (R192, R193). -/
def State.excEnabled (s : State) (n : Fin 4) : Bool :=
  let e := s.aux.exc[n]
  excClaims e.live && e.ok && s.convFree

/-- LEVEL of an excitation word: 201 to 255 act as 200 (R191). -/
def excLevel (w : Word) : Nat := min (bits w 0 8).toNat 200

/-- Converter c needs source n at present: one of its steps that names the source is between steps 2 and 5, or it runs in
continuous mode and its slot names the source (R186). -/
def State.needsSource (s : State) (c : Fin 4) (n : Nat) : Bool :=
  let b := s.aux.conv[c].act
  match s.scanPhase c with
  | some (.settling i) | some (.window i) => bitAt (b.stepA i) (22 + n)
  | some _ => false
  | none => s.convRuns c && bitAt (b.stepA 0) (22 + n)

/-- Source n drives its pin: an enabled continuous source at all times, an enabled pulsed one as R186 has it (R192). -/
def State.sourceOn (s : State) (n : Fin 4) : Bool :=
  s.excEnabled n && (!bitAt s.aux.exc[n].live 19 ||
    s.needsSource 0 n.val || s.needsSource 1 n.val || s.needsSource 2 n.val || s.needsSource 3 n.val)

/-- The current of source n in µA: 10 times its LEVEL while it is on (R191, R192). -/
def State.excCurrent (s : State) (n : Fin 4) : Nat := if s.sourceOn n then 10 * excLevel s.aux.exc[n].live else 0

/-- The return switch of source n is closed (R192). RETURN codes 16 to 30 name no AUX pin: they switch none, as 31 does, and the
source is enabled (DESIGN CHOICE, log entry 122). -/
def State.returnClosed (s : State) (n : Fin 4) : Bool := s.excEnabled n && isPin (excReturn s.aux.exc[n].live)

/-- What the crosspoint connects an AUX pin to (R171). -/
inductive PinUse where
  | signalP (c : Fin 4) | signalN (c : Fin 4) | refP (c : Fin 4) | refN (c : Fin 4)
  | source (n : Fin 4) | returnSwitch (n : Fin 4)
deriving DecidableEq, Repr

/-- The slot whose connections converter c has made; none while it breaks before it makes, rests, does not run or is being
calibrated (R185, R217). -/
def State.connectedSlot (s : State) (c : Fin 4) : Option Nat :=
  if s.calibrating c then none
  else match s.scanPhase c with
    | some (.settling i) | some (.window i) => some i
    | some _ => none
    | none => if s.convRuns c then some 0 else none

/-- Everything that an AUX pin is connected to at present (R171, R173, R177). -/
def State.pinUses (s : State) (p : Nat) : List PinUse :=
  let conv (c : Fin 4) : List PinUse :=
    match s.connectedSlot c with
    | none => []
    | some i =>
      let b := s.aux.conv[c].act
      let w := b.stepA i
      let names (lo : Nat) : Bool := (bits w lo 5).toNat == p
      let ref := bitAt w 20 && !convCharge b.conv
      (if names 0 then [.signalP c] else []) ++ (if names 5 then [.signalN c] else []) ++
        (if ref && names 10 then [.refP c] else []) ++ (if ref && names 15 then [.refN c] else [])
  let exc (n : Fin 4) : List PinUse :=
    let w := s.aux.exc[n].live
    (if s.excEnabled n && (excPin w).toNat == p then [.source n] else []) ++
      (if s.returnClosed n && (excReturn w).toNat == p then [.returnSwitch n] else [])
  conv 0 ++ conv 1 ++ conv 2 ++ conv 3 ++ exc 0 ++ exc 1 ++ exc 2 ++ exc 3

/-- The break-detect bias in nA that the module sources into pin code p, less what it sinks there: 20 into the positive and 20 from
the negative signal input of each connected slot of a converter in voltage mode with BIAS 1 (R199). -/
def State.biasCurrent (s : State) (p : Nat) : Int :=
  let of (c : Fin 4) : Int :=
    let b := s.aux.conv[c].act
    match s.connectedSlot c with
    | none => 0
    | some i =>
      let names (lo : Nat) : Bool := (bits (b.stepA i) lo 5).toNat == p
      if convBias b.conv && !convCharge b.conv then (if names 0 then 20 else 0) - (if names 5 then 20 else 0) else 0
  of 0 + of 1 + of 2 + of 3

/-- An AUX pin is high-impedance: no active scan step and no enabled excitation word names it (R173). -/
def State.pinHighZ (s : State) (p : Nat) : Bool := (s.pinUses p).isEmpty

/-- The comparators of a slot check its inputs: in its conversion window, or in continuous mode outside the settling delay after
a commit or an excitation change; the negative input is not checked where PIN_N is AUXCOM (R185, R200). Every start of a continuous
copy is blanked as after a commit (DEDUCED, log entry 123). -/
def State.compares (s : State) (c : Fin 4) (slot : Nat) (negative : Bool) : Bool :=
  let q := s.aux.conv[c]
  s.convRuns c && s.slotActive c slot && !s.calibrating c && !(negative && bits (q.act.stepA slot) 5 5 == 16#5) &&
    match s.scanPhase c with
    | some p => p == .window slot
    | none => match q.blankAt with
      | some t => decide ((s.clk.tsc - t).toInt < 0) || decide (0 ≤ (s.clk.tsc - (t + q.act.settling slot)).toInt)
      | none => true

/-- Every slot of every running converter whose active configuration names source n is cleared and suppressed, from the tick at
which the change takes effect (R195). -/
def State.excSuppress (n : Nat) (at_ : Tick) (s : State) : State :=
  foldUpto (fun t k =>
    if h : k < 4 then
      if s.convRuns ⟨k, h⟩ && (s.aux.conv[k]).act.names n then t.unsettle ⟨k, h⟩ (fun _ => true) at_ else t
    else t) s 4

/-- The setting of a source takes effect. -/
def Aux.takeExc (a : Aux) (n : Fin 4) : Exc :=
  { a.exc[n] with pend := false, live := a.exc[n].word, ok := !a.exc[n].conflict && !a.excCut.getLsbD n.val }

/-- EXCITATION_CHANGE (R193 to R195), at the boundary of R193. -/
def execExcitationChange (src : Fin 4) (s : State) : Host.Outcome State Fault Refusal :=
  event (s.aux.exc[src].pend && s.convFree && decide (0 ≤ (s.clk.tsc - s.aux.exc[src].due).toInt)) s
    ((s.modAux fun a => { a with exc := a.exc.set src (a.takeExc src) }).excSuppress src.val s.aux.exc[src].due)

/-- A write of AUX_STAT: W1C bits; a source restored is an excitation change (R203, R213). -/
def State.writeAuxStat (w : Word) (s : State) : State :=
  let a := s.aux
  s.settleExc
    { a with
      overload := w1cField a.overload w 8
      excCut := w1cField a.excCut w 16
      attachEvt := w1cField a.attachEvt w 20
      wbEvt := w1cField a.wbEvt w 24
      tedsDone := w1c a.tedsDone w 28 }

/-- A write of AUX_CTRL (R189, R197, R212). -/
def State.writeAuxCtrl (w : Word) (s : State) : State :=
  let on (f : Fin 4 → State → State) (lo : Nat) (s : State) : State :=
    foldUpto (fun t k => if h : k < 4 then (if bitAt w (lo + k) then f ⟨k, h⟩ t else t) else t) s 4
  (on State.startReset 4 (on State.commitConv 0 s)).modAux fun a => { a with tedsAuto := bitAt w 8, probeEn := bits w 12 4 }

/-! ### Wire break (R200 to R204) -/

/-- Every slot whose EXC field names a source that has been cut is treated as after an excitation change; the other slots
continue (R202). -/
def State.cutSuppress (cut : BitVec 4) (s : State) : State :=
  foldUpto (fun t k =>
    if h : k < 4 then
      if s.convRuns ⟨k, h⟩ then
        t.unsettle ⟨k, h⟩ (fun i => (s.aux.conv[k]).act.used i && bits ((s.aux.conv[k]).act.stepA i) 22 4 &&& cut != 0#4) s.clk.tsc
      else t
    else t) s 4

/-- The restart of a channel's paths by a wire break, from the state `old`, adds nothing to what carries UNSETTLED (R202). -/
def State.quietFault (old : State) (ch : Nat) (s : State) : State :=
  let before (k : PathKind) : Tick := ((old.chan ch).path k).flagEnd
  s.modChan ch fun c =>
    { c with
      fast := { c.fast with flagEnd := before .fast }
      slow := { c.slow with flagEnd := before .slow }
      recog := { c.recog with flagEnd := before .recog } }

/-- WIRE_BREAK (R200, R201): the 16th consecutive check of an input out of the window: the slot faults, its Harrow state is
cleared, the sources it names are cut at once. A slot still in fault is confirmed again, and its sources cut again, where they have
been restored into a lead that is still broken. -/
def execWireBreak (conv : Fin 4) (input : SlotInput) (s : State) : Host.Outcome State Fault Refusal :=
  let q := s.aux.conv[conv]
  let slot := input.slot
  let named : BitVec 4 := bits (q.act.stepA slot.val) 22 4
  let cut := named &&& ~~~s.aux.excCut
  let t := s.modConv conv fun q => { q with fault := putBit q.fault slot.val true }
  let t := t.settleExc { t.aux with wbEvt := putBit t.aux.wbEvt conv.val true, excCut := t.aux.excCut ||| named }
  let ch := slotChan conv slot.val
  let t := State.quietFault s ch ((t.restartAll (putBit 0#24 ch true)).cutSuppress cut)
  event (s.compares conv slot.val input.negative) s
    (t.log 0x05#8 0x01#8 t.aux.stat (BitVec.ofNat 32 conv.val) 0#32)

/-- WIRE_BREAK_RECOVERY (R204): an in-window check at least 10 ms after the first of an unbroken run of them. -/
def execWireBreakRecovery (conv slot : Fin 4) (s : State) : Host.Outcome State Fault Refusal :=
  event (s.compares conv slot.val false && s.aux.conv[conv].fault.getLsbD slot.val) s
    ((s.modConv conv fun q => { q with fault := putBit q.fault slot.val false }).suppressSlots conv (fun i => i == slot.val)
      s.clk.tsc)

/-! ### Attach and identification (R206 to R211) -/

/-- Address of the TEDS image of a port (R211). -/
def tedsBase (p : Nat) : Nat := 0xF000 + 256 * p

/-- ATTACH (R207, R209, R210). An identification read in progress at a detach goes on to its end (DESIGN CHOICE, log entry
124). -/
def execAttach (port : Fin 4) (present : Bool) (s : State) : Host.Outcome State Fault Refusal :=
  let p := port.val
  let t := s.modAux fun a =>
    { a with
      attach := putBit a.attach p present
      attachEvt := putBit a.attachEvt p true
      tedsValid := if present then a.tedsValid else putBit a.tedsValid p false
      tedsDue := putBit a.tedsDue p (present && a.tedsAuto)
      attachHt := a.attachHt.set port s.clk.ht
      teds := if present then a.teds
        else Mem.put 0#32 a.teds (tedsBase p) (Mem.get 0#32 a.teds (tedsBase p) &&& 0xFFFFFF00#32) }
  event (s.aux.probeEn.getLsbD p && s.hasLk && s.aux.attach.getLsbD p != present) s
    (t.log 0x05#8 0x02#8 t.aux.stat (BitVec.ofNat 32 p) 0#32)

/-- 100 ms have passed since the attach of port p was confirmed, in whole Headland ticks (R209). -/
def State.tedsTime (s : State) (p : Fin 4) : Bool := decide (3277 ≤ s.clk.ht - s.aux.attachHt[p])

/-- TEDS_READ_START (R209, R451): with MC not On the read waits for the wake that it asks for; WAKE_REC records a wake that
starts MC. -/
def execTedsReadStart (port : Fin 4) (s : State) : Host.Outcome State Fault Refusal :=
  let p := port.val
  let t := s.modAux fun a => { a with tedsDue := putBit a.tedsDue p false, tedsBusy := putBit a.tedsBusy p true }
  event (s.aux.tedsDue.getLsbD p && s.aux.attach.getLsbD p && s.tedsTime port && s.hasLk) s
    (if s.demandStarts .mc then (t.wakeRec 0x05#8 (BitVec.ofNat 8 p)).demand .mc else t.demand .mc)

/-- A pin field of a proposal, confined to the pins of port p; AUXCOM and no pin stand (R211). -/
def confinePin (p : Nat) (f : BitVec 5) : BitVec 5 := if f = 16#5 ∨ f = 31#5 then f else BitVec.ofNat 5 (4 * p + f.toNat % 4)

/-- A register word with its five-bit field at bit lo replaced. -/
def putField5 (w : Word) (lo : Nat) (f : BitVec 5) : Word := (w &&& ~~~(0x1F#32 <<< lo)) ||| fld f lo

/-- Word k of a proposal, 0xE0 to 0xEA, that uses only the pins of port p and source IEp (R211). -/
def confineWord (p k : Nat) (w : Word) : Word :=
  if k < 0xEA then
    let v := w &&& convWordMask (k - 0xE0)
    if 0xE2 ≤ k ∧ k % 2 = 0 then
      let v := [0, 5, 10, 15].foldl (fun v lo => putField5 v lo (confinePin p (bits w lo 5))) v
      v &&& ~~~(0x3C00000#32 &&& ~~~(1#32 <<< (22 + p)))
    else v
  else [8, 13].foldl (fun v lo => putField5 v lo (confinePin p (bits w lo 5))) (w &&& 0xFFFFF#32)

/-- Byte i of an identification memory as read. -/
def tedsByte (m : List (BitVec 8)) (i : Nat) : BitVec 8 := m.getD i 0#8

/-- Words 0 and 3 to 0xDF of an image: STATUS, template ID, DECODED, the number of bytes read and the raw memory (R211). -/
def tedsRaw (status : BitVec 8) (known : Bool) (m : List (BitVec 8)) (k : Nat) : Word :=
  if k = 0 then fld status 0 ||| fld (Config.tedsTemplate m) 8 ||| fld (BitVec.ofNat 12 m.length) 16 ||| flg known 28
  else if 3 ≤ k ∧ k < 0xE0 then
    let b := 4 * (k - 3)
    tedsByte m (b + 3) ++ tedsByte m (b + 2) ++ tedsByte m (b + 1) ++ tedsByte m b
  else 0#32

/-- Word k of the image of port p for an identification memory that was read whole (R208, R211). -/
def tedsImageWord (p : Nat) (m : List (BitVec 8)) (k : Nat) : Word :=
  let known := Config.tedsKnown (Config.tedsTemplate m)
  if k = 1 then lowWord (Config.basicTeds m)
  else if k = 2 then highWord (Config.basicTeds m)
  else if k < 0xE0 then tedsRaw (if known then 1#8 else 2#8) known m k
  else if !known then 0#32
  else if k ≤ 0xEA then confineWord p k (Config.tedsDecoded m k)
  else if 0xF0 ≤ k ∧ k ≤ 0xF6 then Config.tedsDecoded m k
  else 0#32

/-- The image of port p that a read leaves (R211). With a checksum error it holds the bytes that were read and the template ID as
read, and no decoded word (DESIGN CHOICE, log entry 126). -/
def tedsImage (p : Nat) : TedsFound → List Word
  | .noResponse => [3#32]
  | .checksumError m => (List.range 256).map (tedsRaw 4#8 false m)
  | .memory m => (List.range 256).map (tedsImageWord p m)

/-- An identification read of a port has completed: the image, TEDS_DONE, TEDS_VALID and a log record (R209, R211). -/
def State.storeTeds (p : Nat) (found : TedsFound) (s : State) : State :=
  let image := tedsImage p found
  let status : BitVec 8 := bits (image.headD 0#32) 0 8
  let t := s.modAux fun a =>
    { a with
      tedsBusy := putBit a.tedsBusy p false
      tedsDone := true
      tedsValid := putBit a.tedsValid p (status == 1#8 || status == 2#8)
      teds := Mem.putList 0#32 (Mem.drop (tedsBase p) (tedsBase p + 255) a.teds) (tedsBase p) image }
  t.log 0x05#8 0x03#8 t.aux.stat (BitVec.ofNat 32 p) (fld status 0)

/-! ### Calibration cycle and power (R215 to R217) -/

/-- The first converter of a calibration queue, the one in hand standing. -/
def calFirst (q : BitVec 4) (now : Option Nat) : Option Nat := if now.isSome then now else firstFrom (fun k => q.getLsbD k) 0 4

/-- Converters are added to the calibration queue; a cycle that runs goes on (R217). -/
def State.calAdd (mask : BitVec 4) (s : State) : State :=
  s.modAux fun a => { a with calQueue := a.calQueue ||| mask, calNow := calFirst (a.calQueue ||| mask) a.calNow }

/-- The calibration of converter c ends: it reconnects, its slots suppressed as after a commit, and the next is taken (R217). -/
def State.calConvDone (c : Fin 4) (s : State) : State :=
  (s.modAux fun a =>
    let q := putBit a.calQueue c.val false
    { a with calQueue := q, calNow := calFirst q none, calDone := putBit a.calDone c.val true }).suppressConv c s.clk.tsc

/-- XF leaves On, or CLKEN.AUX is cleared: the converters stop (R215, R216). A charge reset in progress ends there and does not
count in RESETS (DESIGN CHOICE, log entry 114). -/
def State.auxStops (s : State) : State :=
  s.modAux fun a => { a with conv := a.conv.map fun q => q.closeHold s.clk.tsc }

/-- XF enters Off or fails: the words of the region return to reset (R215). -/
def State.auxOff (s : State) : State :=
  s.modAux fun a => { a with conv := Vector.ofFn fun c => { stage := .atReset c.val, act := .atReset c.val },
                             exc := Vector.replicate 4 {}, calQueue := 0#4, calNow := none }

/-- Converter c is released: its active copy starts, or, where a copy is pending, that one in its place: it waits for no cycle of the
other to end (R189, R215, R216; DEDUCED, log entry 125). -/
def State.releaseConv (c : Fin 4) (s : State) : State :=
  match s.aux.conv[c].pend with
  | none => if convEnable s.aux.conv[c].act.conv then s.startConv c else s
  | some b =>
    (s.modConv c fun q => { q with stopAt := some s.clk.tsc, startAt := s.startFor b s.nextMod }).suppressConv c s.clk.tsc

/-- XF has become On, or CLKEN.AUX 1 again: the converters start (R215, R216). -/
def State.auxReturns (s : State) : State :=
  let t := s.modAux fun a => { a with exc := Vector.ofFn fun n => a.takeExc n }
  foldUpto (fun t k => if h : k < 4 then (if t.convFree then t.releaseConv ⟨k, h⟩ else t) else t) t 4

/-! ### Words of the region (R180) -/

/-- A read of the auxiliary region at offset o; none where no word is mapped. -/
def State.readAux (s : State) (o : Nat) : Option Word :=
  if o < 64 then
    some (if o % 16 < 10 then s.aux.conv[(⟨o / 16 % 4, Nat.mod_lt _ (by decide)⟩ : Fin 4)].stage.word (o % 16) else 0#32)
  else if 0x40 ≤ o ∧ o < 0x44 then some (s.convStat ⟨o % 4, Nat.mod_lt _ (by decide)⟩)
  else if 0x50 ≤ o ∧ o < 0x54 then some (s.aux.exc[(⟨o % 4, Nat.mod_lt _ (by decide)⟩ : Fin 4)].read)
  else if 0x60 ≤ o ∧ o < 0x70 then
    some (fld (s.aux.conv[(⟨(o - 0x60) / 4 % 4, Nat.mod_lt _ (by decide)⟩ : Fin 4)].offs.getD (o % 4) 0#24) 0)
  else none

/-- A write of the auxiliary region at offset o. -/
def State.writeAux (o : Nat) (w : Word) (s : State) : State :=
  if o < 64 then
    if o % 16 < 10 then
      s.modConv ⟨o / 16 % 4, Nat.mod_lt _ (by decide)⟩ fun q => { q with stage := q.stage.setWord (o % 16) w }
    else s
  else if 0x50 ≤ o ∧ o < 0x54 then s.writeExc ⟨o % 4, Nat.mod_lt _ (by decide)⟩ w
  else s

end Sys2Proof.Machine
end

