-- ==== Sys2Proof/Machine/Scarecrow.lean ====
section
/-!
DEFINITION. The Scarecrow watch: trip, arming, wake and classification (R282 to R287).
-/

namespace Sys2Proof.Machine

open Sys2Proof

/-- LOW_OFF: some Scarecrow cluster is off (R282). -/
def State.lowOff (s : State) : Bool := s.scarOff 0 || s.scarOff 1 || s.scarOff 2

/-- Scarecrow can trip on a side (R282, R284). -/
def State.scarMay (s : State) (high : Bool) : Bool :=
  s.clken 11 && !s.clk.inReset && !s.scar.trip && s.scar.armed &&
    !(s.scarOff 0 && s.scarOff 1 && s.scarOff 2) &&
    (if high then s.scar.hi != 0#8 else s.scar.lo != 0#8 && !s.lowOff)

/-- Samples of the classification window (R286). -/
def Scar.window (x : Scar) : Nat := 12 * 2 ^ x.cwin.toNat

/-- A classification becomes pending, its window empty (R286). -/
def Scar.open_ (x : Scar) : Scar :=
  { x with pend := true, winCount := 0, winSum := 0, winPeak := 0#24, winAxis := 0#2, winNeg := false, winLast := 0#64 }

/-- SCAR_TRIP (R282, R285, R286). -/
def execScarTrip (high : Bool) (axes : BitVec 3) (s : State) : Host.Outcome State Fault Refusal :=
  let ax : BitVec 3 := if high then axes else 0#3
  let t := s.modScar fun x =>
    let x := { x with trip := true, high := high, axes := ax, tripHt := BitVec.ofNat 32 s.clk.ht }
    let x := if x.classify then { x.open_ with pendHt := s.clk.ht } else x
    { x with wakeHold := x.autowake && x.classify }
  let asleep := s.clk.park != .running
  let t :=
    if !s.scar.autowake then t
    else if asleep then t.modScar fun x => { x with wakeOwed := true }
    else t.scarWake
  event (s.scarMay high) s t.refreshPaths

/-- SCAR_ARMED (R282): 8τ have passed. -/
def execScarArmed (s : State) : Host.Outcome State Fault Refusal :=
  event (s.clken 11 && !s.scar.armed && !s.clk.inReset) s (s.modScar fun x => { x with armed := true })

/-- A clear of SCAR_TRIP: ARMED waits 8τ again (R252, R282). -/
def Scar.clearTrip (x : Scar) : Scar := if x.trip then { x with trip := false, armed := false } else x

/-- A threshold code in grains of the magnitude's unit (R250, R286). -/
def State.scarGrains (s : State) (code : Nat) : Nat :=
  if (s.chan 0).range || (s.chan 1).range || (s.chan 2).range then code * 8192 else code * 65536

/-- The high threshold code that acts; 1 to 67 act as 68 (R284). -/
def Scar.hiCode (x : Scar) : Nat := max 68 x.hi.toNat

/-- The low threshold code that acts; 61 to 255 act as 60 (R284). -/
def Scar.loCode (x : Scar) : Nat := min 60 x.lo.toNat

/-- One recogniser-path sample of CH0 to CH2 while a classification is pending; an invalid one breaks the run (R286). -/
def State.scarSample (t : Tick) (x y z : Grain) (s : State) : State :=
  if !s.scar.pend ∨ s.scar.window ≤ s.scar.winCount then s
  else match s.accMag x y z with
    | none => s.modScar Scar.open_
    | some m =>
      let d := s.dominant (#v[{ num := grainInt x }, { num := grainInt y }, { num := grainInt z }] : Vector Dyadic 3)
      s.modScar fun q =>
        let up := q.winCount = 0 ∨ q.winPeak.toNat < m.toNat
        { q with
          winCount := q.winCount + 1
          winSum := q.winSum + m.toNat
          winLast := t
          winPeak := if up then m else q.winPeak
          winAxis := if up then d.1 else q.winAxis
          winNeg := if up then d.2 else q.winNeg }

/-- Word +8 of the block: CLASS, AXIS, NEG (R284). -/
def Scar.classWord (x : Scar) : Word := fld x.cclass 0 ||| fld x.axis 3 ||| flg x.neg 5

/-- A classification is written: CLASS_PEND ends, SCAR_CLASS is set, an EVENT frame is queued, the hold on AF and EN ends
(R285, R286). -/
def State.scarWrite (cclass : BitVec 3) (axis : BitVec 2) (neg : Bool) (peak mean : Grain) (ts : Tick) (s : State) : State :=
  let t := s.modScar fun x =>
    { x with pend := false, cls := true, wakeHold := false, cclass := cclass, axis := axis, neg := neg, peak := peak,
             mean := mean, ts := ts }
  let t := if s.recog.scarFr then t.queueEvent 15#6 ts t.scar.classWord (fld peak 0) s.clk.tsc else t
  t.refreshPaths

/-- SCAR_CLASSIFY (R286, R287). -/
def execScarClassify (s : State) : Host.Outcome State Fault Refusal :=
  let x := s.scar
  let mean := intGrain (quotient (x.winSum : Int) x.winCount)
  let cclass : BitVec 3 :=
    if x.lo ≠ 0#8 ∧ !s.lowOff ∧ mean.toNat < s.scarGrains x.loCode then 2#3
    else if x.hi ≠ 0#8 ∧ s.scarGrains x.hiCode ≤ x.winPeak.toNat then 1#3
    else 0#3
  event (x.pend && decide (x.window ≤ x.winCount) && s.isOn .en && s.hasSm) s
    (s.scarWrite cclass x.winAxis x.winNeg x.winPeak mean x.winLast)

/-- 20 ms and the length of the window have passed on the Headland tick counter since CLASS_PEND was set; the counter stands in
Park, so a trip in Park counts from its end (R86, R286). -/
def State.scarLate (s : State) : Bool := decide ((960 + s.scar.window) * 32768 ≤ (s.clk.ht - s.scar.pendHt) * 48000)

/-- SCAR_CLASS_TIMEOUT (R286): CLASS 0b100, with TS the tick counter. -/
def execScarClassTimeout (s : State) : Host.Outcome State Fault Refusal :=
  event (s.scar.pend && decide (s.scar.winCount < s.scar.window) && s.clk.park == .running && s.scarLate) s
    (s.scarWrite 4#3 0#2 false 0#24 0#24 s.clk.tsc)

/-- SCAR_CFG (R284). -/
def Scar.cfg (x : Scar) : Word :=
  fld x.hi 0 ||| fld x.lo 8 ||| fld x.filt 16 ||| flg x.attn 18 ||| flg x.autowake 19 ||| flg x.classify 20 ||| fld x.cwin 21

/-- A write of SCAR_CFG: ARMED waits 8τ again (R282, R284). -/
def Scar.setCfg (x : Scar) (w : Word) : Scar :=
  { x with
    hi := bits w 0 8, lo := bits w 8 8, filt := bits w 16 2, attn := bitAt w 18, autowake := bitAt w 19,
    classify := bitAt w 20, cwin := bits w 21 3, armed := false }

/-- The word at offset o of the Scarecrow block; the other words are reserved (R284). -/
def State.scarWord (s : State) (o : Nat) : Word :=
  let x := s.scar
  match o with
  | 0 => x.cfg
  | 1 => flg x.high 1 ||| fld x.axes 2 ||| flg s.lowOff 5 ||| flg x.armed 6 ||| flg x.pend 7
  | 2 => x.tripHt
  | 8 => x.classWord
  | 9 => fld x.peak 0
  | 10 => lowWord x.ts
  | 11 => highWord x.ts
  | 12 => fld x.mean 0
  | _ => 0#32

end Sys2Proof.Machine
end

