-- ==== Sys2Proof/Machine/Chain.lean ====
section
/-!
DEFINITION. Stages 5 to 8 of Harrow for one output of a path: linearisation, alignment, biquads, rounding; what an output
feeds; the channel, user-set and biquad words (R219 to R249).
-/

namespace Sys2Proof.Machine

open Sys2Proof

/-! ### Linearisation and alignment (R231 to R240) -/

/-- The polynomial of R232, coefficient c_ij at index 4i + j, every step one fused multiply-add. -/
def poly (c : Nat → Word) (x θ : Word) : Word :=
  let q (i : Nat) : Word := fma (fma (fma (c (4 * i + 3)) θ (c (4 * i + 2))) θ (c (4 * i + 1))) θ (c (4 * i))
  fma (fma (fma (q 3) x (q 2)) x (q 1)) x (q 0)

/-- The factory set of a channel (R234). -/
def State.factorySet (s : State) (ch : Nat) (k : Nat) : Word :=
  if s.calBad 0 then identitySet k else s.calWord (0x9000 + 16 * ch + k)

/-- The user set in force for an output with acquisition instant t: the latest that applies from a tick at or before t
(R236). -/
def Chan.userSet (c : Chan) (t : Tick) : Vector Word 16 :=
  match c.userSets.find? fun e => decide (0 ≤ (t - e.1).toInt) with
  | some e => e.2
  | none => c.userAct

/-- θ of a channel (R238, R246). -/
def State.theta (s : State) (ch : Nat) : Word :=
  match s.tempSource ch with
  | some _ => if (s.chan ch).thetaOk then fOfGrain (s.chan ch).theta else 0#32
  | none => 0#32

/-- Stage 5 for one channel: the value after the factory set and, with LIN_USER, the user set, none where a NaN arose; the
flag is LIN_CLAMP (R233). -/
def State.linearise (s : State) (ch : Nat) (g : Grain) (t : Tick) : Option Word × Bool :=
  let c := s.chan ch
  let θ := s.theta ch
  let a := linClampTo (poly (s.factorySet ch) (fOfGrain g) θ)
  match a.1 with
  | none => (none, true)
  | some y =>
    if !c.linUser then a
    else
      let u := c.userSet t
      let b := linClampTo (poly (fun k => u.getD k 0#32) y θ)
      (b.1, a.2 || b.2)

/-- The alignment matrix of a triad, row-major; the identity where its checksum is invalid (R131, R132). -/
def State.matrix (s : State) (gyro : Bool) (k : Nat) : Word :=
  if s.calBad (if gyro then 6 else 5) then (if k % 4 = 0 then 0x3F800000#32 else 0#32)
  else s.calWord ((if gyro then 0x9F10 else 0x9F00) + k)

/-- Stage 6, axis k of a triad (R240). -/
def State.align (s : State) (gyro : Bool) (k : Nat) (r0 r1 r2 : Word) : Word :=
  fma (s.matrix gyro (3 * k + 2)) r2 (fma (s.matrix gyro (3 * k + 1)) r1 (fMul (s.matrix gyro (3 * k)) r0))

/-! ### User biquads (R241 to R244) -/

/-- A coefficient of biquad b, in the order b0, b1, b2, a1, a2. -/
def coef (v : Vector Word 20) (b k : Nat) : Word := v.getD (5 * b + k) 0#32

/-- Biquad b has a NaN or an infinity (R243). -/
def badBiquad (v : Vector Word 20) (b : Nat) : Bool := anyUpto (fun k => fNonFinite (coef v b k)) 5

/-- A pending commit takes effect: the state of each biquad whose coefficients or enable bit changed is cleared (R243). -/
def Biquads.take (q : Biquads) : Biquads :=
  if !q.pend then q
  else
    let changed (b : Nat) : Bool :=
      q.pendEn.getLsbD b != q.actEn.getLsbD b || anyUpto (fun k => coef q.pendC b k != coef q.act b k) 5
    let clear (v : Vector Word 4) : Vector Word 4 := Vector.ofFn fun b => if changed b.val then 0#32 else v[b]
    { q with act := q.pendC, actEn := q.pendEn, pend := false, s1 := clear q.s1, s2 := clear q.s2 }

/-- |x| exceeds 2^16 or is not finite (R244). -/
def overRange (x : Word) : Bool := fNonFinite x || fLt 0x47800000#32 (x &&& 0x7FFFFFFF#32)

/-- The biquads of a block from number b on: the output, none where the sample has become invalid; the flag is BQ_FAULT
(R241, R244). -/
def runBiquads : Nat → Nat → Biquads → Option Word → Biquads × Option Word × Bool
  | 0, _, q, x => (q, x, false)
  | n + 1, b, q, x =>
    match x with
    | none => (q, none, false)
    | some v =>
      if !q.actEn.getLsbD b then runBiquads n (b + 1) q x
      else
        let s1 := q.s1.getD b 0#32
        let s2 := q.s2.getD b 0#32
        let y := fma (coef q.act b 0) v s1
        let n1 := fma (coef q.act b 1) v (fma (fNeg (coef q.act b 3)) y s2)
        let n2 := fma (coef q.act b 2) v (fMul (fNeg (coef q.act b 4)) y)
        if overRange n1 || overRange n2 then
          ({ q with s1 := q.s1.setIfInBounds b 0#32, s2 := q.s2.setIfInBounds b 0#32 }, none, true)
        else runBiquads n (b + 1) { q with s1 := q.s1.setIfInBounds b n1, s2 := q.s2.setIfInBounds b n2 } (some y)

/-- The biquad block of a channel and group. -/
def Chan.biquads (c : Chan) : Group → Biquads
  | .fast => c.bqFast
  | .slow => c.bqSlow

/-- Update of a biquad block. -/
def Chan.modBiquads (c : Chan) (g : Group) (f : Biquads → Biquads) : Chan :=
  match g with
  | .fast => { c with bqFast := f c.bqFast }
  | .slow => { c with bqSlow := f c.bqSlow }

/-- Stage 7 for one channel of a group: the pending commit first; an invalid sample changes no state. -/
def Chan.stage7 (c : Chan) (g : Group) (x : Option Word) : Chan × Option Word :=
  let r := runBiquads 4 0 (c.biquads g).take x
  let c := c.modBiquads g fun _ => r.1
  (if r.2.2 then { c with bqFault := true } else c, r.2.1)

/-! ### One output of a path -/

/-- The stream group of a path kind. -/
def kindGroup : PathKind → Option Group
  | .fast => some .fast
  | .slow => some .slow
  | .recog => none

/-- A slot of channel ch is in wire-break fault (R202). -/
def State.slotFault (s : State) (ch : Nat) : Bool :=
  decide (6 ≤ ch ∧ ch < 22) && s.aux.conv[chanConv ch].fault.getLsbD (chanSlot ch)

/-- The converter of channel ch is being calibrated (R217). -/
def State.slotCal (s : State) (ch : Nat) : Bool := decide (6 ≤ ch ∧ ch < 22) && s.calibrating (chanConv ch)

/-- What leaves stage 4 towards one output: the outputs of the 36 clusters, from which the combiner makes the regions (R100), and
those of CH6 to CH23. -/
structure Stage4 where
  clusters : Vector Int 36
  aux      : Vector Raw 18

/-- The grain that leaves stage 4 of channel ch on a path for the output at instant t, if one comes. The last modulator period of
an inertial output lies its delay after t. The bits of a conversion window count only for a scanned
slot whose path takes each conversion as it is (R100, R176, R228). -/
def State.stage4 (s : State) (ch : Nat) (k : PathKind) (t : Tick) (raw : Stage4) : Option Grain :=
  if ch < 6 then
    let last := t + BitVec.ofInt 64 (32 * s.delayOf ch k)
    some (s.regionGrain (if 0 < (last - s.clk.tsc).toInt then s.clk.tsc else last) raw.clusters ch)
  else match raw.aux.getD (ch - 6) .none with
    | .none => none
    | .grain g => some g
    | .window b =>
      let q := s.aux.conv[chanConv ch]
      if ch < 22 ∧ s.scanned ch ∧ s.pathCode ch k = s.fastestCode ch ∧ b.length = 8 * q.act.win (chanSlot ch) then
        some (Config.sinc3 b)
      else none

/-- Delay of the recogniser path of an inertial channel, in modulator periods (R226): its outputs at instant t leave stage 8 this
long after t, and repeated values are placed on them (R230). -/
def recDelay : Nat := 1030

/-- Modulator periods from the acquisition instant of a value of channel ch to the moment at which it has left its path: the delay of
the path, and, for a slot whose path takes each conversion as it is, no less than the rest of its window, at whose end the result
goes to Harrow (R185, R228; DEDUCED, log entry 127). -/
def State.leavesAfter (s : State) (ch : Nat) (k : PathKind) : Int :=
  let d := s.delayOf ch k
  if 6 ≤ ch ∧ ch < 22 ∧ s.scanned ch ∧ s.pathCode ch k = s.fastestCode ch then
    max d (4 * (s.aux.conv[chanConv ch].act.win (chanSlot ch) : Int))
  else d

/-- The tick from which the acquisition instants of a repeated channel follow one another at its own period: those of slot 0 of a
scan, multiples of the period while ALIGN is 1, else from the restart of its path (R188, R229, R619). -/
def State.valueAnchor (s : State) (ch : Nat) : Tick :=
  let b := s.aux.conv[chanConv ch].act
  if ch < 22 ∧ !convCont b.conv then s.aux.conv[chanConv ch].start - b.alignedStart
  else if s.clk.align then 0#64 else (s.chan ch).recog.t0

/-- The acquisition instant of the value of channel ch in the output of a path at instant t: the instant itself, the slot offset
added (R70), or, on the recogniser path of a repeated channel, that of the latest value that has left its own path by the time the
output leaves stage 8 (R230). -/
def State.valueAt (s : State) (ch : Nat) (k : PathKind) (t : Tick) : Tick :=
  let off := BitVec.ofNat 64 (32 * s.slotOffset ch)
  if k == .recog && s.repeated ch then
    let left := t + BitVec.ofNat 64 (32 * recDelay) - off - BitVec.ofInt 64 (32 * s.leavesAfter ch k)
    left - BitVec.ofNat 64 ((left - s.valueAnchor ch).toNat % pathPeriod (s.fastestCode ch)) + off
  else t + off

/-- A value acquired at v comes at or after the first valid output of a path restarted at t0: v ≥ t0 + 32 (L − D) (R247). -/
def State.settledFrom (s : State) (ch : Nat) (k : PathKind) (t0 v : Tick) : Bool :=
  decide (32 * (s.latencyOf ch k - s.delayOf ch k) ≤ (v - t0).toInt)

/-- A value acquired at v comes at or after the first valid output of its path: after its latest restart, and, where that came
during a suppression, not before the end of that one (R247, R248). -/
def State.settledAt (s : State) (ch : Nat) (k : PathKind) (v : Tick) : Bool :=
  let p := (s.chan ch).path k
  s.settledFrom ch k p.t0 v && decide (0 ≤ (v + BitVec.ofInt 64 (32 * s.delayOf ch k) - p.supEnd).toInt)

/-- A path that runs is suppressed for a value acquired at v (R247); a value of the run before a channel was added again is judged
by that run (R357). -/
def State.suppressedAt (s : State) (ch : Nat) (k : PathKind) (v : Tick) : Bool :=
  let p := (s.chan ch).path k
  p.running &&
    match p.keep with
    | some (until_, t0) => if 0 ≤ (until_ - v).toInt then !s.settledFrom ch k t0 v else p.sup || !s.settledAt ch k v
    | none => p.sup || !s.settledAt ch k v

/-- The sample that reaches stage 5 of channel ch for the output at instant t, with its acquisition instant; none where it is
invalid (R105, R202, R215, R217, R247). -/
def State.sampleIn (s : State) (ch : Nat) (k : PathKind) (t : Tick) (raw : Stage4) : Option (Grain × Tick) :=
  let v := s.valueAt ch k t
  if !s.sourceRuns ch || s.suppressedAt ch k v || s.slotFault ch || s.slotCal ch || !s.rateOk ch k then none
  else (s.stage4 ch k t raw).map fun g => (g, v)

/-- Stages 5 and 6 of every channel: the values, none where invalid, and LIN_CLAMP (R233, R240). The stage runs on all three
regions of a triad of which one path runs (R130). -/
def State.stages56 (s : State) (k : PathKind) (t : Tick) (raw : Stage4) : Vector (Option Word) 24 × BitVec 24 :=
  let want := withTriads (s.runningPaths k)
  let lin : Vector (Option Word × Bool) 24 := Vector.ofFn fun ch =>
    if !want.getLsbD ch.val then (none, false)
    else match s.sampleIn ch.val k t raw with
      | some (g, v) => s.linearise ch.val g v
      | none => (none, false)
  let tri (gyro : Bool) (j : Nat) : Option Word :=
    let b := if gyro then 3 else 0
    match (lin.getD b (none, false)).1, (lin.getD (b + 1) (none, false)).1, (lin.getD (b + 2) (none, false)).1 with
    | some r0, some r1, some r2 => some (s.align gyro j r0 r1 r2)
    | _, _, _ => none
  (Vector.ofFn fun ch =>
     if ch.val < 3 then tri false ch.val else if ch.val < 6 then tri true (ch.val - 3) else (lin.getD ch.val (none, false)).1,
   chanMask fun ch => (lin.getD ch (none, false)).2)

/-- Stages 7 and 8 of one channel whose path runs: the channel and its grain (R241, R245). -/
def Chan.stages78 (c : Chan) (k : PathKind) (v : Option Word) : Chan × Grain :=
  let r := match kindGroup k with
    | some g => c.stage7 g v
    | none => (c, v)
  match r.2 with
  | none => (r.1, invalidGrain)
  | some y =>
    let g := toGrain y
    (if g.2 then { r.1 with outClamp := true } else r.1, g.1)

/-- The output at instant t repeats the latest value of channel ch on the recogniser path (R230). -/
def State.repeats (s : State) (ch : Nat) (k : PathKind) (t : Tick) : Bool :=
  k == .recog && s.repeated ch && s.valueAt ch k t == (s.chan ch).lastT

/-- The value a repeated channel shows again: invalid while its path is suppressed or its slot faults (R202, R217, R247). -/
def State.repeatedGrain (s : State) (ch : Nat) (v : Tick) : Grain :=
  if s.suppressedAt ch .recog v || s.slotFault ch || s.slotCal ch then invalidGrain else (s.chan ch).lastRec

/-- One output of every running path of a kind leaves stage 8. -/
def State.chainOutput (k : PathKind) (t : Tick) (raw : Stage4) (s : State) : State × Vector Grain 24 :=
  let lin := s.stages56 k t raw
  let out : Vector (Chan × Grain) 24 := Vector.ofFn fun ch =>
    let c := s.chan ch.val
    let again := s.repeats ch.val k t
    let c := if lin.2.getLsbD ch.val && !again then { c with linClamp := true } else c
    let stale := (withTriads (s.runningPaths k)).getLsbD ch.val && (s.sampleIn ch.val k t raw).isSome &&
      (s.tempSource ch.val).isSome && !c.thetaOk
    let c := if stale then { c with tsrcStale := true } else c
    if !(c.path k).running then (c, invalidGrain)
    else if again then (c, s.repeatedGrain ch.val c.lastT)
    else
      let r := c.stages78 k (lin.1.getD ch.val none)
      if k = .recog then ({ r.1 with lastRec := r.2, lastT := s.valueAt ch.val k t }, r.2) else r
  (s.modHarrow fun h => { h with chan := out.map Prod.fst }, out.map Prod.snd)

/-- θ of every channel from the recogniser-path outputs of its source; an invalid one leaves it (R238). -/
def State.refreshTheta (out : Vector Grain 24) (s : State) : State :=
  s.mapChans fun ch c =>
    match s.tempSource ch with
    | some src =>
      let g := out.getD src invalidGrain
      if g = invalidGrain then c else { c with theta := g, thetaOk := true, tsrcStale := false }
    | none => c

/-! ### What an output feeds -/

/-- DEGRADED of a set of channels (R26). No rule names the moment at which a region's Degraded state is taken for a frame: the model
takes it when the output leaves stage 8 (DESIGN CHOICE, log entry 118). -/
def State.maskDegraded (s : State) (m : BitVec 24) : Bool := anyUpto (fun ch => m.getLsbD ch && s.degraded ch) 6

/-- A value of a slot in wire-break fault, acquired at v, is suppressed for another reason too (R202). -/
def State.flaggedAt (s : State) (ch : Nat) (k : PathKind) (v : Tick) : Bool :=
  decide ((v + BitVec.ofInt 64 (32 * s.delayOf ch k) - ((s.chan ch).path k).flagEnd).toInt < 0)

/-- UNSETTLED of a set of channels for an output at t (R148, R149, R196, R217, R247, R361, R453). A slot in wire-break fault is
exempt for the suppression that the fault made (R202). -/
def State.maskUnsettled (s : State) (k : PathKind) (m : BitVec 24) (t : Tick) : Bool :=
  anyUpto (fun ch =>
    let v := s.valueAt ch k t
    m.getLsbD ch && ((s.chan ch).path k).running &&
      ((s.suppressedAt ch k v && (!s.slotFault ch || s.flaggedAt ch k v)) || (decide (ch < 6) && s.regionUnsettled ch) || s.resetFlags ch k v ||
        s.slotCal ch)) 24

/-- VANA was below its warning level at some tick from `a` to `b`. -/
def Pwr.vanaLowIn (p : Pwr) (a b : Tick) : Bool :=
  p.vanaDips.any fun v =>
    decide (0 ≤ (b - v.1).toInt) && (match v.2 with | some u => decide (0 ≤ (u - a).toInt) | none => true)

/-- SUPPLY of a set of channels for an output at t: VANA was low on one of the modulator periods of a grain, which span the
latency of its path up to its delay after t (R361). -/
def State.maskSupply (s : State) (k : PathKind) (m : BitVec 24) (t : Tick) : Bool :=
  anyUpto (fun ch =>
    let v := s.valueAt ch k t
    let last := v + BitVec.ofInt 64 (32 * (s.delayOf ch k : Int))
    m.getLsbD ch && ((s.chan ch).path k).running && s.pwr.vanaLowIn (last - BitVec.ofInt 64 (32 * (s.latencyOf ch k : Int))) last) 24

/-- The MASK changes of a group that still lie ahead of an output at t. -/
def Grp.ahead (g : Grp) (t : Tick) : List (Tick × BitVec 24) := g.olds.filter fun e => decide (0 ≤ (e.1 - t).toInt)

/-- The layout of a group for an output at t, with whether it is the first output of a layout that a MASK write made: each change
counts for the outputs acquired after it (R357). -/
def Grp.layoutAt (g : Grp) (t : Tick) : BitVec 24 × Bool :=
  (match g.ahead t with | e :: _ => e.2 | [] => g.mask, decide ((g.ahead t).length < g.olds.length))

/-- The output of a group, queued for the writer (R356, R357, R361, R363, R364). With the last output of an old layout the paths of
the channels removed stop (R222, R357). -/
def State.queueOutput (g : Group) (k : PathKind) (t : Tick) (out : Vector Grain 24) (s : State) : State :=
  let x := s.group g
  let lay := x.layoutAt t
  let s1 := if x.olds.isEmpty then s else (s.modGroup g fun y => { y with olds := y.ahead t }).refreshPaths
  if !s.buf.writing || lay.1 == 0#24 || decide ((t - x.startAt).toInt ≤ 0) then s1
  else
    let o : GroupOut :=
      { t := t, mask := lay.1, relaid := lay.2, grains := out, untimed := s.untimedAt t, degraded := s.maskDegraded lay.1,
        unsettled := s.maskUnsettled k lay.1 t, supply := s.maskSupply k lay.1 t, quality := s.qualityAt t, ready := s.clk.tsc,
        timed := x.timeNext }
    ((s1.modGroup g fun y => { y with timeNext := false }).setOuts g (s1.outs g ++ [o])).modHarrow fun h =>
      match g with | .fast => { h with fastLast := some o } | .slow => { h with slowLast := some o }

/-- The flags UNTIMED, DEGRADED and UNSETTLED that a data frame of a set of channels would carry for an output at t (R361). -/
def State.frameFlags (s : State) (k : PathKind) (m : BitVec 24) (t : Tick) : BitVec 3 :=
  BitVec.ofBool (s.maskUnsettled k m t) ++ BitVec.ofBool (s.maskDegraded m) ++ BitVec.ofBool (s.untimedAt t)

/-- A sample of the capture source, where this path is the source of the recording (R278, R280). From the fast path a channel that
is not in STREAM_FAST records an invalid sample (R277). -/
def State.feedCapture (k : PathKind) (t : Tick) (out : Vector Grain 24) (s : State) : State :=
  match s.cap.recording with
  | none => s
  | some r =>
    if r.src == (k == .fast) && k != .slow then
      let mask := (s.buf.fast.layoutAt t).1
      let grains := if r.src then Vector.ofFn fun ch => if mask.getLsbD ch.val then out[ch] else invalidGrain else out
      s.recordSample t grains (s.frameFlags k r.mask t)
    else s

/-- The spectral engine takes an output of the fast paths (R292, R294). -/
def State.feedSpec (k : PathKind) (t : Tick) (out : Vector Grain 24) (s : State) : State :=
  if k == .fast && s.spec.mode == .stream && s.specClocked && !s.spec.waiting then
    let c := s.spec.act
    let mask := chanMask fun ch => anyUpto (fun i => c.enabled i && c.channel i == ch) 8
    let g : Vector Grain 8 := Vector.ofFn fun i => out.getD (c.channel i.val) invalidGrain
    s.modSpec fun x => x.sample t g (s.frameFlags .fast mask t) s.clk.align (s.period .fast)
  else s

/-- Outputs of a kind of path come while EN is On and a path of the kind, or its group, runs. -/
def State.outputsCome (s : State) (k : PathKind) : Bool :=
  s.isOn .en && s.hasSm && (s.runningPaths k != 0#24 ||
    match kindGroup k with
    | some g => s.buf.run && ((s.group g).mask != 0#24 || !(s.group g).olds.isEmpty)
    | none => false)

/-- Modulator periods from the acquisition instant of an output of a kind of path to the moment at which the last of its channels
has left stage 8 (R63, R64, R228, R230). On the recogniser path the outputs of CH0 to CH2 set the moment (R322): those of a gyro
channel of the same instant, which leave later, show in the ticks from four later on.  -/
def State.outputDelay (s : State) (k : PathKind) : Int :=
  if k == .recog then recDelay
  else
  let of (ch : Nat) : Option Int :=
    if !((s.chan ch).path k).running || !s.rateOk ch k then none else some (s.leavesAfter ch k + s.slotOffset ch)
  match (List.range 24).filterMap of with
  | [] => s.pathDelay 0 (s.pathRate k) (s.pathMin k)
  | d :: ds => ds.foldl max d

/-- The next output of a kind of path has left stage 8: the counter, less the delay, has reached its acquisition instant (R64). -/
def State.outputDue (s : State) (k : PathKind) : Bool :=
  decide (32 * s.outputDelay k ≤ (s.clk.tsc - s.next k).toInt)

/-- What an output of a kind of path, acquired at t, does to the block (R245). -/
def State.pathOutput (k : PathKind) (t : Tick) (raw : Stage4) (s : State) : State :=
  let r := s.chainOutput k t raw
  let out := r.2
  match kindGroup k with
  | some g => ((r.1.feedCapture k t out).feedSpec k t out).queueOutput g k t out
  | none =>
    let u := (r.1.modHarrow fun h =>
      { h with recT := t, gyroLast := (#v[out[3], out[4], out[5]] :: h.gyroLast).take 5 }).refreshTheta out
    let u := u.feedCapture k t out
    let u := u.scarSample t out[0] out[1] out[2]
    u.recogSample t out

/-! ### Channel words, user sets, biquads (R102, R236, R242, R246) -/

/-- Channel status word (R246). -/
def Chan.status (c : Chan) : Word :=
  flg c.fast.sup 0 ||| flg c.slow.sup 1 ||| flg c.recog.sup 2 ||| flg c.linClamp 3 ||| flg c.outClamp 4 ||| flg c.bqFault 5 |||
  flg c.coefErr 6 ||| flg c.tsrcStale 7

/-- Harrow word of channel ch (R246). -/
def State.harrowWord (s : State) (ch : Nat) : Word :=
  let c := s.chan ch
  fld c.tsrc 0 ||| flg c.linUser 8 ||| (if ch = 23 then fld s.harrow.diagSel 16 else 0#32)

/-- APPLY (R236, R237): the staging set applies from the first multiple of 4096 ticks that follows; a set that applied from
that tick or a later one is replaced, one long past is folded into the base. -/
def State.applyUser (ch : Nat) (s : State) : State :=
  let c := s.chan ch
  if anyUpto (fun k => fNonFinite (c.userStage.getD k 0#32)) 16 then s.modChan ch fun c => { c with coefErr := true }
  else
    let now := s.clk.tsc
    let eff := now + (4096#64 - now % 4096#64)
    let keep := c.userSets.filter fun e => decide (0 < (eff - e.1).toInt)
    let old (e : Tick × Vector Word 16) : Bool := decide (2 ^ 31 ≤ (now - e.1).toInt)
    let base := match keep.find? old with | some e => e.2 | none => c.userAct
    s.modChan ch fun c => { c with userAct := base, userSets := (eff, c.userStage) :: keep.filter fun e => !old e }

/-- A write of the Harrow word of channel ch (R236, R238, R246): only a changed TSRC counts as a change of source; TSRC_STALE
stands until the first valid grain. A write that changes DIAG_SEL between 0b00 and 0b11 counts as a change although both select
VANA (DESIGN CHOICE, log entry 115). -/
def State.writeHarrow (ch : Nat) (w : Word) (s : State) : State :=
  let tsrc : BitVec 5 := bits w 0 5
  let changed := tsrc != (s.chan ch).tsrc
  let t := s.modChan ch fun c =>
    let c := { c with tsrc := tsrc, linUser := bitAt w 8 }
    if changed then { c with thetaOk := false } else c
  let t := if changed then t.refreshPaths else t
  let t := if bitAt w 9 then t.applyUser ch else t
  let sel : BitVec 2 := bits w 16 2
  if ch = 23 ∧ sel ≠ s.harrow.diagSel then
    (t.modHarrow fun h => { h with diagSel := sel }).restartAll (putBit 0#24 23 true)
  else t

/-- A read of the channel configuration region at offset o (R102, R179, R246); none where no word is mapped. -/
def State.readChan (s : State) (o : Nat) : Option Word :=
  let ch := o / 64
  if 24 ≤ ch then none
  else match o % 64 with
    | 0 => some (s.chan ch).status
    | 1 => some (if ch < 6 then flg (s.chan ch).range 0 else 0#32)
    | 2 => some (s.harrowWord ch)
    | _ => some 0#32

/-- A write of the channel configuration region at offset o. -/
def State.writeChan (o : Nat) (w : Word) (s : State) : State :=
  let ch := o / 64
  match o % 64 with
  | 0 => s.modChan ch fun c =>
      { c with linClamp := w1c c.linClamp w 3, outClamp := w1c c.outClamp w 4, bqFault := w1c c.bqFault w 5,
               coefErr := w1c c.coefErr w 6 }
  | 1 => if ch < 6 then s.writeRange ch (bitAt w 0) else s
  | 2 => s.writeHarrow ch w
  | _ => s

/-- A read of the user linearisation region at offset o (R236). -/
def State.readUser (s : State) (o : Nat) : Option Word :=
  if o < 0x180 then some ((s.chan (o / 16)).userStage.getD (o % 16) 0#32) else none

/-- A write of the user linearisation region: the staging copy alone (R236). -/
def State.writeUser (o : Nat) (w : Word) (s : State) : State :=
  s.modChan (o / 16) fun c => { c with userStage := c.userStage.setIfInBounds (o % 16) w }

/-- The stream group of a biquad block (R242). -/
def blockGroup (o : Nat) : Group := if o / 32 % 2 = 0 then .fast else .slow

/-- A read of the biquad region at offset o (R242). -/
def State.readBiquad (s : State) (o : Nat) : Option Word :=
  let b := (s.chan (o / 64)).biquads (blockGroup o)
  let k := o % 32
  if 0x600 ≤ o then none
  else if k = 31 then some (fld b.stageEn 0)
  else if k % 8 < 5 then some (coef b.stage (k / 8) (k % 8))
  else some 0#32

/-- A commit of a biquad block; a NaN or infinity in an enabled biquad refuses it (R243). -/
def Chan.commitBiquads (c : Chan) (g : Group) : Chan :=
  let b := c.biquads g
  if anyUpto (fun k => b.stageEn.getLsbD k && badBiquad b.stage k) 4 then { c with coefErr := true }
  else c.modBiquads g fun b => { b with pend := true, pendC := b.stage, pendEn := b.stageEn }

/-- A write of the biquad region at offset o (R242). -/
def State.writeBiquad (o : Nat) (w : Word) (s : State) : State :=
  let g := blockGroup o
  let k := o % 32
  s.modChan (o / 64) fun c =>
    if k = 31 then
      let c := c.modBiquads g fun b => { b with stageEn := bits w 0 4 }
      if bitAt w 8 then c.commitBiquads g else c
    else if k % 8 < 5 then
      c.modBiquads g fun b => { b with stage := b.stage.setIfInBounds (5 * (k / 8) + k % 8) w }
    else c

/-- EN goes Off or fails: the user sets and biquads return to reset (R419). -/
def State.chainEnOff (s : State) : State :=
  s.mapChans fun _ c =>
    { c with userStage := Vector.replicate 16 0#32, userAct := Vector.replicate 16 0#32, userSets := [], bqFast := {},
             bqSlow := {} }

end Sys2Proof.Machine
end

