-- ==== Sys2Proof/Machine/StateMachines.lean ====
section
/-!
DEFINITION. The eight programmable state machines: check, start, stop, ticks, entry actions, their words (R315 to R350).
-/

namespace Sys2Proof.Machine

open Sys2Proof

/-- Machine m. -/
def State.machine (s : State) (m : Nat) : Smc := if h : m < 8 then s.smc.m[m] else {}

/-- Update of machine m. -/
def State.modMachine (m : Nat) (f : Smc → Smc) (s : State) : State :=
  s.modSmc fun x => if h : m < 8 then { x with m := x.m.set m (f x.m[m]) } else x

/-- Word w of state st of machine m (R315). -/
def State.program (s : State) (m st w : Nat) : Word := Mem.get 0#32 s.smc.prog (256 * m + 4 * st + w)

/-- CFG.RATE (R321, R348). -/
def Smc.rate (q : Smc) : Nat := ((q.cfg >>> 6).setWidth 2 : BitVec 2).toNat

/-- CFG.C0_MODE and C1_MODE (R339). -/
def Smc.mode (q : Smc) (k : Nat) : BitVec 2 := (q.cfg >>> (8 + 2 * k)).setWidth 2

/-! ### Inputs and comparators (R318, R319, R327) -/

/-- An input code that R318 lists. -/
def inputListed (c : Nat) : Bool :=
  decide (c ≤ 0x18) || decide (0x20 ≤ c ∧ c ≤ 0x26) || decide (0x28 ≤ c ∧ c ≤ 0x2D) || decide (0x30 ≤ c)

/-- The grains the ticks of a rate read, for channel ch: the latest of the recogniser path, for CH3 to CH5 the one of four ticks
earlier, or those of the group's data frame of instant t (R322, R323). -/
def State.tickGrain (s : State) (rate : Nat) (ch : Nat) : Grain :=
  let frame (o : Option GroupOut) : Grain :=
    match o with
    | some o => if o.mask.getLsbD ch then o.grains.getD ch invalidGrain else invalidGrain
    | none => invalidGrain
  if rate = 0 then
    (if 3 ≤ ch ∧ ch < 6 then ((s.harrow.gyroLast[4]?).getD (Vector.replicate 3 invalidGrain)).getD (ch - 3) invalidGrain
     else (s.chan ch).lastRec)
  else if rate = 1 then frame s.harrow.fastLast else frame s.harrow.slowLast

/-- Level of recogniser r (R318). -/
def State.recogLevel (s : State) (r : Nat) : Bool :=
  s.recog.live.getLsbD r && (if r = 0 then s.recog.impact.strike.isSome else bitAt (s.recog.result r 0) 0)

/-- An input of machine q from the snapshot s: its value, signed for a channel grain, none where it is invalid. -/
def State.smInput (s : State) (q : Smc) (rate code : Nat) : Option Int :=
  let nat (n : Nat) : Option Int := some (n : Int)
  let bool (b : Bool) : Option Int := some (if b then 1 else 0)
  if code ≤ 0x17 then
    let g := s.tickGrain rate code
    if g = invalidGrain then none else some (grainInt g)
  else if code = 0x18 then
    (s.accMag (s.tickGrain rate 0) (s.tickGrain rate 1) (s.tickGrain rate 2)).map fun g => (g.toNat : Int)
  else if code < 0x26 then bool (s.recog.live.getLsbD (code - 0x20) && q.pulse.getLsbD (code - 0x20))
  else if code = 0x26 then bool s.scar.trip
  else if code < 0x2E then bool (s.recogLevel (code - 0x28))
  else if code = 0x30 then nat q.timer0.toNat
  else if code = 0x31 then nat q.timer1.toNat
  else if code = 0x32 then nat q.c0.toNat
  else if code = 0x33 then nat q.c1.toNat
  else if code < 0x38 then bool (s.smc.flags.getLsbD (code - 0x34))
  else
    let k := s.machine (code - 0x38)
    nat (k.state.toNat + if k.running then 0 else 64)

/-- A comparator of R319 on a value; a channel grain compares signed with THR, every other input unsigned. -/
def smCompare (cmp : Nat) (signed : Bool) (x : Int) (thr : Grain) : Bool :=
  let t : Int := if signed then grainInt thr else (thr.toNat : Int)
  match cmp with
  | 2 => decide (t ≤ x)
  | 3 => decide (x < t)
  | 4 => decide (x = t)
  | 5 => decide (x ≠ t)
  | 6 => decide (t ≤ (x.natAbs : Int))
  | 7 => decide ((x.natAbs : Int) < t)
  | _ => true

/-- One slot on a tick: whether its comparison holds, and whether it read an invalid input (R319, R327). -/
def State.slotHolds (s : State) (q : Smc) (rate code cmp : Nat) (thr : Grain) : Bool × Bool :=
  if cmp = 0 then (false, false)
  else if cmp = 1 then (true, false)
  else match s.smInput q rate code with
    | some x => (smCompare cmp (decide (code ≤ 0x17)) x thr, false)
    | none => (false, true)

/-- A dwell run after a tick; it saturates at 256 (R326, R328). -/
def dwell (run : BitVec 9) (holds : Bool) : BitVec 9 := if !holds then 0#9 else if run = 256#9 then run else run + 1#9

/-! ### Entry actions (R331 to R340) -/

/-- A step of a counter in a mode: the counter, WRAPPED, and whether the limit event is raised (R339). -/
def stepCounter (c : BitVec 16) (mode : BitVec 2) : BitVec 16 × Bool × Bool :=
  if c = 0xFFFF#16 then (if mode = 0#2 then (0#16, true, false) else (c, false, false))
  else (c + 1#16, false, c == 0xFFFE#16 && mode == 2#2)

/-- CNT_OP on a machine: the machine, and whether a limit event is raised (R339). -/
def Smc.counters (q : Smc) (op : Nat) : Smc × Bool :=
  let a := if op = 1 ∨ op = 3 ∨ op = 7 then stepCounter q.c0 (q.mode 0) else (q.c0, false, false)
  let b := if op = 2 ∨ op = 3 then stepCounter q.c1 (q.mode 1) else (q.c1, false, false)
  ({ q with
     c0 := if op = 4 ∨ op = 6 then 0#16 else a.1
     c1 := if op = 5 ∨ op = 6 ∨ op = 7 then 0#16 else b.1
     wrapped := q.wrapped || a.2.1 || b.2.1 }, a.2.2 || b.2.2)

/-- FLAG_OP on the shared flags (R340). -/
def flagOp (flags : BitVec 4) (sel op : Nat) : BitVec 4 :=
  match op with
  | 1 => putBit flags sel true
  | 2 => putBit flags sel false
  | 3 => putBit flags sel (!flags.getLsbD sel)
  | _ => flags

/-- ENTRY and DETAIL (R348). -/
def Smc.entry (q : Smc) : Word := fld q.entState 0 ||| fld q.entFrom 8 ||| fld q.entCause 16
/-- DETAIL. -/
def Smc.detail (q : Smc) : Word := fld q.detC0 0 ||| fld q.detFlags 16

/-- The event of machine m is raised (R332). -/
def State.smEvent (m : Nat) (s : State) : State :=
  s.modSmc fun x =>
    { x with evt := putBit x.evt m true, lost := if x.evt.getLsbD m then putBit x.lost m true else x.lost }

/-- Machine m enters state st on the tick of instant t, which fell due at tick `due`: counters, timer starts, flag, GPIO, EVENT
frame, trigger, event, HALT, in this order (R325, R331 to R340). -/
def State.smEnter (m : Nat) (st : BitVec 6) (cause : BitVec 2) (t due : Tick) (s : State) : State :=
  let old := s.machine m
  let w2 := s.program m st.toNat 2
  let w3 := s.program m st.toNat 3
  let q := { old with state := st, age := 0#24, runA := 0#9, runB := 0#9 }
  let c := q.counters (bits w3 25 3).toNat
  let q := c.1
  let q := if bitAt w2 30 then { q with timer0 := 0#24, t0run := true } else q
  let q := if bitAt w2 31 then { q with timer1 := 0#24, t1run := true } else q
  let flags := flagOp s.smc.flags (bits w3 28 2).toNat (bits w3 30 2).toNat
  let drop := (bitAt w3 24 && !s.clken 10) || (bitAt w3 18 && !s.clken 7)
  let q := { q with entState := st, entFrom := old.state, entCause := cause, detC0 := q.c0, detFlags := flags, ts := t,
                    actDrop := q.actDrop || drop }
  let u := (s.modMachine m fun _ => q).modSmc fun x =>
    { x with
      flags := flags
      evt := if c.2 then putBit x.evt m true else x.evt
      limit := if c.2 then putBit x.limit m true else x.limit }
  let u := if bitAt w3 24 && s.clken 10 then
      u.modHost fun h => { h with gOut := putBit h.gOut (bits w3 20 3).toNat (bitAt w3 23), gMach := putBit h.gMach (bits w3 20 3).toNat true }
    else u
  let u := if bitAt w3 17 then u.queueEvent (BitVec.ofNat 6 (m + 1)) t q.entry q.detail s.clk.tsc else u
  let u := if bitAt w3 18 && s.clken 7 then u.trigger (BitVec.ofNat 8 (m + 1)) t due 0#32 0#32 else u
  let u := if bitAt w3 16 then u.smEvent m else u
  if bitAt w3 19 then u.modMachine m fun q => { q with halted := true, running := false } else u

/-- A running timer after step 5; a timer that this tick started waits for a later one (R324, R338). -/
def advance (v : BitVec 24) (run started : Bool) : BitVec 24 × Bool :=
  if !run || started then (v, run)
  else if v = 0xFFFFFF#24 then (v, false)
  else (v + 1#24, v + 1#24 != 0xFFFFFF#24)

/-- Step 5 of a tick for machine m; st is the state entered on it, if any. -/
def State.smTimers (m : Nat) (st : Option (BitVec 6)) (s : State) : State :=
  let w2 := match st with | some st => s.program m st.toNat 2 | none => 0#32
  s.modMachine m fun q =>
    if !q.running then q
    else
      let a := advance q.timer0 q.t0run (bitAt w2 30)
      let b := advance q.timer1 q.t1run (bitAt w2 31)
      { q with timer0 := a.1, t0run := a.2, timer1 := b.1, t1run := b.2 }

/-- TO of a state's word W3, in ticks; 0: no timeout (R320). -/
def timeoutOf (w3 : Word) : Nat := (bits w3 6 8).toNat * 16 ^ (bits w3 14 2).toNat

/-- The transition that machine m takes on a tick, evaluated on the snapshot s0, and the machine as the evaluation leaves it
(R324, R326 to R328). -/
def State.smEvaluate (s0 : State) (m : Nat) : Smc × Option (BitVec 6 × BitVec 2) :=
  let q := s0.machine m
  let w (k : Nat) : Word := s0.program m q.state.toNat k
  let age := satInc q.age
  let a := s0.slotHolds q q.rate (bits (w 2) 0 6).toNat (bits (w 2) 6 3).toNat (bits (w 0) 0 24)
  let b := s0.slotHolds q q.rate (bits (w 2) 9 6).toNat (bits (w 2) 15 3).toNat (bits (w 1) 0 24)
  let ra := dwell q.runA a.1
  let rb := dwell q.runB b.1
  let q1 := { q with age := age, runA := ra, runB := rb, inval := a.2 || b.2, pulse := 0#6 }
  let next : Option (BitVec 6 × BitVec 2) :=
    if (bits (w 0) 24 8).toNat < ra.toNat then some (bits (w 2) 18 6, 0#2)
    else if (bits (w 1) 24 8).toNat < rb.toNat then some (bits (w 2) 24 6, 1#2)
    else if timeoutOf (w 3) ≠ 0 ∧ age.toNat = timeoutOf (w 3) then some (bits (w 3) 0 6, 2#2)
    else none
  (q1, next)

/-- One tick of machine m at instant t, its inputs from the snapshot s0 (R324, R329, R345). -/
def State.smTickOne (s0 : State) (m : Nat) (t due : Tick) (s : State) : State :=
  let q := s0.machine m
  if q.startReq then
    let u := s.modMachine m fun q =>
      { q with startReq := false, timer0 := 0#24, timer1 := 0#24, t0run := false, t1run := false, inval := false, pulse := 0#6 }
    u.smEnter m (q.cfg.setWidth 6) 3#2 t due
  else
    let r := s0.smEvaluate m
    let u := s.modMachine m fun _ => r.1
    match r.2 with
    | some (st, cause) => (u.smEnter m st cause t due).smTimers m (some st)
    | none => u.smTimers m none

/-- An evaluation moment of a rate: every running machine of that rate, in ascending order (R321, R329). -/
def State.smMoment (rate : Nat) (t due : Tick) (s : State) : State :=
  foldUpto (fun u m => if (s.machine m).running && (s.machine m).rate == rate then s.smTickOne m t due u else u) s 8

/-- Machines evaluate (R316, R347). -/
def State.smRuns (s : State) : Bool := s.isOn .en && s.clken 4 && s.hasSm

/-- The tick rate of a kind of path (R321). -/
def kindRate : PathKind → Fin 3
  | .recog => 0
  | .fast => 1
  | .slow => 2

/-- A tick of a rate falls due with the output at instant t: for a stream rate the group's data frame of t is complete (R321 to
R323). While the machines do not run there is none (R347). -/
def State.oweTick (k : PathKind) (t : Tick) (s : State) : State :=
  let complete : Bool := match k with
    | .recog => true
    | .fast => s.harrow.fastLast.map GroupOut.t == some t
    | .slow => s.harrow.slowLast.map GroupOut.t == some t
  let rate := kindRate k
  if complete && s.smRuns then s.modSmc fun x => { x with ticks := x.ticks.set rate (some (t, s.clk.tsc)) } else s

/-- The rate whose tick is evaluated next: the one that fell due first, the lowest rate first among those of one moment (R329). -/
def State.nextRate (s : State) : Option (Fin 3) :=
  let at_ (r : Fin 3) : Option Tick := s.smc.ticks[r].map Prod.snd
  [(0 : Fin 3), 1, 2].foldl (fun best r =>
    match best.bind at_, at_ r with
    | _, none => best
    | none, some _ => some r
    | some a, some b => if 0 < (a - b).toInt then some r else best) none

/-- The tick of a rate that is due is evaluated, after every report completed on the samples before it (R322, R324). -/
def State.smTick (rate : Fin 3) (s : State) : State :=
  match s.smc.ticks[rate] with
  | none => s
  | some (t, due) =>
    State.smMoment rate.val t due ((s.modSmc fun x => { x with ticks := x.ticks.set rate none }).flushReports)

/-- Every tick that fell due at an earlier moment, or of which the next output of its path has come, is evaluated before an output of
a path comes (R330); those of the present moment wait for one another, so that the lowest rate is evaluated first (R329). -/
def State.settleTicks (rate : Fin 3) (s : State) : State :=
  let must (u : State) (r : Fin 3) : Bool := u.smc.ticks[rate].isSome || u.smc.ticks[r].any fun e => e.2 != s.clk.tsc
  if s.smRuns then foldUpto (fun u _ => match u.nextRate with | some r => if must u r then u.smTick r else u | none => u) s 3 else s

/-- The tick evaluated next is the one of this rate and instant (R322, R323, R329). -/
def State.tickIs (s : State) (rate : Nat) (t : Tick) : Bool :=
  match s.nextRate with
  | some r => r.val == rate && s.smc.ticks[r].map Prod.fst == some t
  | none => false

/-- SM_TICK (R324): the evaluation moment of a rate whose tick, the one of instant t, is due. -/
def execSmTick (rate : Fin 3) (t : Tick) (s : State) : Host.Outcome State Fault Refusal :=
  event (s.smRuns && s.tickIs rate.val t) s (s.smTick rate)

/-- SM_TIMEOUT (R328): the evaluation moment, at the tick of instant t, of machine m's rate on which its timeout is due and no slot
is true. -/
def execSmTimeout (m : Fin 8) (t : Tick) (s : State) : Host.Outcome State Fault Refusal :=
  let q := s.machine m.val
  let due := match (s.smEvaluate m.val).2 with | some (_, cause) => cause == 2#2 | none => false
  event (s.smRuns && q.running && !q.startReq && due && s.tickIs q.rate t) s
    (match s.nextRate with | some r => s.smTick r | none => s)

/-- PATH_OUTPUT (R64 to R66, R245): the next output of a kind of path. Its acquisition instant is the block's own: the instants
follow one another at the period of the path, so that while ALIGN is 1 they lie on multiples of it (R65). The machines' ticks fall
due with it (R321). -/
def execPathOutput (path : PathKind) (clusters : Vector Int 36) (aux : Vector Raw 18) (s : State) :
    Host.Outcome State Fault Refusal :=
  let t := s.next path
  event (s.outputsCome path && s.outputDue path) s
    ((((s.settleTicks (kindRate path)).modNext path (· + BitVec.ofNat 64 (s.period path))).pathOutput path t ⟨clusters, aux⟩).oweTick path t)

/-! ### Starting and stopping (R343 to R346) -/

/-- A slot of word W2 that names a reserved input code. -/
def badSlots (w2 : Word) : Bool :=
  (decide (1 < (bits w2 6 3).toNat) && !inputListed (bits w2 0 6).toNat) ||
    (decide (1 < (bits w2 15 3).toNat) && !inputListed (bits w2 9 6).toNat)

/-- The check at a start: ERR_CODE and ERR_STATE, none where it passes (R344). -/
def State.smCheck (s : State) (m : Nat) : Option (BitVec 3 × BitVec 6) :=
  let q := s.machine m
  if q.rate = 3 then some (1#3, 0#6)
  else if q.mode 0 = 3#2 ∨ q.mode 1 = 3#2 then some (2#3, 0#6)
  else (firstFrom (fun st => badSlots (s.program m st 2)) 0 64).map fun st => (3#3, BitVec.ofNat 6 st)

/-- START of machine m (R344, R345). -/
def State.smStartOne (m : Nat) (s : State) : State :=
  match s.smCheck m with
  | some (code, st) => s.modMachine m fun q => { q with cfgErr := true, errCode := code, errState := st }
  | none =>
    s.modMachine m fun q =>
      { q with running := true, halted := false, startReq := true, cfgErr := false, errCode := 0#3, errState := 0#6 }

/-- STOP of machine m (R346). -/
def State.smStopOne (m : Nat) (s : State) : State :=
  s.modMachine m fun q => { q with running := false, halted := false, startReq := false }

/-- A write of SM_CTRL: STOP applies where both bits are set (R346, R350). -/
def State.writeSmCtrl (w : Word) (s : State) : State :=
  foldUpto (fun u m => if bitAt w (8 + m) then u.smStopOne m else if bitAt w m then u.smStartOne m else u) s 8

/-! ### Words (R315, R343, R348 to R350) -/

/-- A machine program word is written; refused while the machine runs (R343). -/
def State.writeProgram (o : Nat) (w : Word) (s : State) : State :=
  if (s.machine (o / 256)).running then s.modMachine (o / 256) fun q => { q with refused := true }
  else s.modSmc fun x => { x with prog := Mem.put 0#32 x.prog o w }

/-- NO_TICK (R323). -/
def State.noTick (s : State) (q : Smc) : Bool :=
  q.running && ((q.rate == 1 && !(s.buf.writing && s.buf.fast.mask != 0#24)) ||
    (q.rate == 2 && !(s.buf.writing && s.buf.slow.mask != 0#24)))

/-- A word of the runtime region at offset o; none where no word is mapped (R315, R348, R350). -/
def State.readRuntime (s : State) (o : Nat) : Option Word :=
  if o < 128 then
    let q := s.machine (o / 16)
    some <| match o % 16 with
    | 0 => fld q.cfg 0
    | 1 => fld q.state 0 ||| flg q.running 6 ||| flg q.halted 7 ||| flg (s.noTick q) 8 ||| flg q.inval 9 |||
        flg q.cfgErr 10 ||| flg q.refused 11 ||| flg q.actDrop 12 ||| flg q.wrapped 13 ||| fld q.errCode 16 ||| fld q.errState 24
    | 2 => fld q.age 0
    | 3 => BitVec.ofNat 32 (min 255 q.runA.toNat) ||| BitVec.ofNat 32 (min 255 q.runB.toNat * 256)
    | 4 => fld q.timer0 0 ||| flg q.t0run 31
    | 5 => fld q.timer1 0 ||| flg q.t1run 31
    | 6 => fld q.c0 0 ||| fld q.c1 16
    | 8 => q.entry
    | 9 => q.snap[1]
    | 10 => q.snap[2]
    | 11 => q.snap[3]
    | _ => 0#32
  else match o with
    | 0x80 => some 0#32
    | 0x81 => some (fld s.smc.evt 0 ||| fld s.smc.limit 8 ||| fld s.smc.lost 16)
    | 0x82 => some (fld s.smc.flags 0)
    | _ => none

/-- The side effect of a read of offset 8: the snapshot (R349). -/
def State.runtimeReadEffect (o : Nat) (s : State) : State :=
  if o < 128 ∧ o % 16 = 8 then
    s.modMachine (o / 16) fun q => { q with snap := #v[q.entry, q.detail, lowWord q.ts, highWord q.ts] }
  else s

/-- A write of the runtime region at offset o. -/
def State.writeRuntime (o : Nat) (w : Word) (s : State) : State :=
  if o < 128 then
    let m := o / 16
    match o % 16 with
    | 0 => s.modMachine m fun q => if q.running then { q with refused := true } else { q with cfg := bits w 0 12 }
    | 1 => s.modMachine m fun q =>
        { q with refused := w1c q.refused w 11, actDrop := w1c q.actDrop w 12, wrapped := w1c q.wrapped w 13 }
    | 4 => s.modMachine m fun q => { q with timer0 := bits w 0 24 }
    | 5 => s.modMachine m fun q => { q with timer1 := bits w 0 24 }
    | 6 => s.modMachine m fun q => { q with c0 := bits w 0 16, c1 := bits w 16 16 }
    | _ => s
  else match o with
    | 0x80 => s.writeSmCtrl w
    | 0x81 => s.modSmc fun x =>
        { x with evt := w1cField x.evt w 0, limit := w1cField x.limit w 8, lost := w1cField x.lost w 16 }
    | 0x82 => s.modSmc fun x => { x with flags := bits w 0 4 }
    | _ => s

/-- EN is On again after Retain, or CLKEN.SMC is set again: both dwell runs of every machine are 0, and no tick from before is
evaluated (R347). -/
def State.smReturns (s : State) : State :=
  s.modSmc fun x => { x with ticks := Vector.replicate 3 none, m := x.m.map fun q => { q with runA := 0#9, runB := 0#9 } }

/-- EN goes Off: every word of both regions returns to reset (R316). -/
def State.smEnOff (s : State) : State := s.modSmc fun _ => {}

end Sys2Proof.Machine
end

