-- ==== Sys2Proof/Machine/Power.lean ====
section
/-!
DEFINITION. The power controller: stops, wakes, failures, refusals, requests, demand wakes and idle returns
(12_power_domains.md).
-/

namespace Sys2Proof.Machine

open Sys2Proof

/-! ### Words -/

/-- Code of a domain state in PWR_STAT (R424). -/
def DomState.code : DomState → BitVec 3
  | .off => 0#3
  | .retain => 1#3
  | .on => 2#3
  | .waking => 3#3
  | .stopping => 4#3
  | .failed => 5#3
  | .onRefused => 6#3
  | .onHeld => 7#3

/-- PWR_STAT (R424). -/
def State.pwrStat (s : State) : Word :=
  foldUpto (fun w d => w ||| fld (s.pwr.dom.getD d { toRet := 0#16, toOff := 0#16 }).st.code (3 * d)) 0#32 9 |||
    flg s.pwr.wakefail 27 ||| flg s.pwr.refused 28 ||| flg s.pwr.brownEvt 29

/-- A write of PWR_STAT: W1C bits (R424). -/
def State.writePwrStat (w : Word) (s : State) : State :=
  s.modPwr fun p =>
    { p with wakefail := w1c p.wakefail w 27, refused := w1c p.refused w 28, brownEvt := w1c p.brownEvt w 29 }

/-- A write of PWR_REQ: it is processed at the next Headland tick and replaces a request not yet completed (R421, R431,
R433). -/
def State.writePwrReq (w : Word) (s : State) : State :=
  s.modPwr fun p => { p with req := bits w 0 18, reqDue := true, resumeAt := none, refusedOnce := false }

/-- Timeout word of a domain (R452). -/
def Domain.timeouts (d : Domain) : Word := fld d.toRet 0 ||| fld d.toOff 16

/-- Control word of a domain (R452). -/
def Domain.control (d : Domain) : Word :=
  fld d.idle 0 ||| fld d.stall 16 ||| fld d.reason 24 ||| flg d.stallCut 28 ||| flg (d.demand && d.st.isOn) 29

/-! ### What a domain loses and leaves behind -/

/-- A command of CMD_GO ends (R492, R571): the queue and the tag are emptied, RESULT and one event bit are set. -/
def State.endCommand (result : BitVec 8) (s : State) : State :=
  let ok := result == 0#8
  let t := s.modMgmt fun m =>
    { m with
      args := [], tagLo := 0#32, tagHi := 0#32, result := result, busy := false, doneEvt := m.doneEvt || ok,
      rejEvt := m.rejEvt || !ok }
  let t := if ok then t else t.stick 13
  t.log 0x06#8 s.mgmt.code s.mgmt.ctr (fld result 0) 0#32

/-- MC leaves On (R138, R142, R537, R551, R564, R584): audits are void, a read of the core is over, a claimed pin is given up, the
staged list is lost and an open calibration session is abandoned. A restore in progress stays in MC SRAM and goes on when MC is On again (R565). -/
def State.mcLeaves (s : State) : State :=
  let t := State.settleArray s (s.voidAudits fun _ => true)
  let t := t.modHost fun h => { h with gClaim := 0#8 }
  let t := t.modMport fun x => { x with single := none, coreNeed := none }
  t.modMgmt fun m => { m with staged := none, calStage := m.calAct, calOpen := false }

/-- MC is Off or FAILED: its SRAM, with the records that a running Zoruimen had queued, and every word of its regions are lost (R418,
R419, R483, R569, R572). Nothing shows UPD_STATE until
Zoruimen runs again; the change that its start then finds sets UPD_EVT and is logged (R578, DEDUCED, log entry 69). -/
def State.mcOff (s : State) : State :=
  let t := s.modMgmt fun m =>
    { m with
      zor := false, sensAt := none, req := none, reply := none, restore := [], autoWait := none, consec := 0#5, calDenied := false
      sens := Vector.replicate 16 0#32, logQ := if m.zor then [] else m.logQ, logOvf := if m.zor then 0 else m.logOvf
      logDrop := 0#16, logOver := 0#16, logAck := m.logNext, logSel := 0#32, aOk := false, bOk := false, fallback := false
      updPos := 0, alert := 0#8 }
  let t := t.modMport fun x => { x with seq := none, polling := false, buffer := none, single := none, coreNeed := none }
  let t := t.modAux fun a => { a with teds := [], tedsBusy := 0#4, tedsTag := none, calTag := none }
  t.modPwr fun p => { p with booted := false }

/-- CS is Off or FAILED: its contents and words are lost (R277, R418, R419). -/
def Cap.csOff (c : Cap) : Cap :=
  { c with
    mask := 0#24, src := false, pre := 0#24, post := 1#24, triggers := 0#16, missed := 0#16,
    dir := Vector.replicate 16 {}, store := [], recording := none, capturing := false, full := false }

/-- EN is Off or FAILED (R256, R316, R419, R420); pre-trigger data are lost with it. -/
def State.enOff (s : State) : State :=
  let t := (s.chainEnOff.smEnOff.modRecog Rec.enOff).modClk fun c => { c with plle := .off, holdClk := false }
  (t.modCap fun c => if c.capturing then c else { c with recording := none }).refreshPaths

/-- What a domain loses when it is Off or FAILED (R419). -/
def State.loses (d : Dom) (s : State) : State :=
  match d with
  | .af | .gf => s
  | .th => s.thermOff
  | .xf => s.auxOff
  | .en => s.enOff
  | .sp => (s.modSpec fun x => { serial := x.serial }).refreshPaths
  | .sb => s.sbOff
  | .cs => s.modCap Cap.csOff
  | .mc => s.mcOff

/-- The last effects of a domain that is about to leave On (R142, R167, R215, R311, R386, R434). -/
def State.leaves (d : Dom) (s : State) : State :=
  match d with
  | .af | .gf => s.frontStops d
  | .xf => s.auxStops
  | .en =>
    let t := if s.cap.capturing then s.abortCapture else s
    t.bufEnLeaves.modSpec Spec.stopEngine
  | .sp => s.modSpec Spec.stopEngine
  | .cs => s.modSpec fun x => if x.mode = .capture then x.endCapture true else x
  | .mc => s.mcLeaves
  | .sb | .th => s

/-- What else stops with a domain that has left On: its paths, recognisers, the writer, the regulator. -/
def State.settleStopped (d : Dom) (s : State) : State :=
  match d with
  | .af | .gf | .xf | .sp => s.refresh
  | .en => s.refreshRecog.refresh
  | .th => s.thermSettle
  | .sb | .cs | .mc => s

/-- A health-map change that is not yet committed demands MC, unless the flash bus is granted to the host (R150, R557). -/
def State.commitDemand (s : State) : State :=
  if s.arr.dirtySince.isSome && !s.isOn .mc && !s.mport.granted then s.demand .mc else s

/-- What a change of a front-end domain between On and not On leaves behind in the array: DEGRADED depends on it (R163, R453). -/
def State.settleFront (d : Dom) (s t : State) : State :=
  match d with
  | .af | .gf => State.settleArray s t
  | _ => t

/-- A stop starts (R426, R438): isolation is applied before the next domain is taken. -/
def State.startStop (d : Dom) (goal : Rest) (s : State) : State :=
  let was := s.isOn d
  let t := if was then s.leaves d else s
  let t := t.modDom d fun x => { x with st := .stopping, target := goal, demand := false, reason := 0#4 }
  let t := State.settleFront d s t
  let t := if was then t.settleStopped d else t
  if d = .mc then t.commitDemand else t

/-- Pre-trigger recording starts again where ARM is 1 and nothing is being recorded. -/
def State.rearmCapture (s : State) : State :=
  s.modCap fun c => if c.arm && !c.capturing && c.recording.isNone && !c.full then c.restart s.capPorts s.fastCode else c

/-- The channels of a front-end domain (R8). -/
def domChannels (d : Dom) : BitVec 24 := chanMask fun ch => decide (ch < 22) && chanDom ch == d

/-- What follows when a domain has become On (R153, R167, R215, R249, R253, R308, R347, R386, R483). -/
def State.arrives (d : Dom) (fromRet : Bool) (s : State) : State :=
  match d with
  | .af | .gf => (s.frontReturns d).refresh.restartAll (domChannels d)
  | .xf => s.auxReturns.refresh.restartAll (domChannels .xf)
  | .en =>
    let t := s.recogEnReturns
    let t := if fromRet then t.smReturns else t
    let t := t.modClk fun c => { c with holdClk := c.holdClk || (c.plle != .locked && !c.coast) }
    let t := t.bufEnReturns.refresh.rearmCapture
    ((t.catchUp .fast).catchUp .slow).catchUp .recog
  | .sp => s.refresh
  | .cs => (s.modSpec fun x => { x with capWait := false }).rearmCapture
  | .mc => (s.modPwr fun p => { p with booted := if p.onceOn then p.booted else s.mgmt.zor, onceOn := true }).modHost fun h =>
    { h with gClaim := match s.mport.f1Pin with | some k => putBit 0#8 k.toNat true | none => 0#8 }
  | .sb | .th => s

/-! ### Wakes and failures -/

/-- A wake starts (R419, R423, R427, R435); EN needs PLL-E (R420). -/
def State.startWake (d : Dom) (goal : Rest) (demand : Bool) (s : State) : State :=
  let t := s.modDom d fun x =>
    { x with st := .waking, target := goal, fromRet := x.st == .retain, demand := demand, demandDue := false,
             wakeHt := s.clk.ht, wakePll := d == .en && s.clk.plle == .off }
  if d = .en ∧ s.locked ∧ s.clk.plle = .off then t.modClk fun c => { c with plle := .locking } else t

/-- The wake timeout of a domain in Headland ticks: TO_RET or TO_OFF, of which 0 acts as 1, and 20 more where PLL-E has to be
started (R435, R452). -/
def Domain.wakeLimit (x : Domain) : Nat :=
  max 1 (if x.fromRet then x.toRet else x.toOff).toNat + if x.wakePll then 20 else 0

/-- The wake timeout of a domain has expired (R435, R436). -/
def State.wakeOver (s : State) (d : Dom) : Bool := decide ((s.dom d).wakeLimit ≤ s.clk.ht - (s.dom d).wakeHt)

/-- The health map has been loaded: the timeouts of the wakes of AF and GF that waited for it run from here (R135, R435). -/
def State.stampWakes (s : State) : State :=
  let stamp (x : Domain) : Domain := if x.st = .waking then { x with wakeHt := s.clk.ht } else x
  (s.modDom .af stamp).modDom .gf stamp

/-- AF or GF is waking and waits for the health map (R135). -/
def State.waitsMap (s : State) (d : Dom) : Bool :=
  (d == .af || d == .gf) && (s.dom d).st == .waking && !s.arr.mapLoaded

/-- While a wake of AF or GF waits for the map and MC is neither On nor waking, MC is woken on demand (R135). -/
def State.mapDemand (s : State) : State :=
  if (s.waitsMap .af || s.waitsMap .gf) && !s.isOn .mc && (s.dom .mc).st != .waking then s.demand .mc else s

/-- A word is the last of its table-space region (R470). -/
def regionLast (a : Nat) : Bool :=
  (decide (a < 0x10000) && a % 4096 == 4095 && !(decide (0xC000 ≤ a) && decide (a < 0xF000))) || a == 0x1FFFF || a == 0x17FFFF

/-- ADDR after a WIN_DATA access (R471, R473). -/
def HostIf.advance (h : HostIf) : HostIf :=
  { h with winAddr := h.winAddr + 1#24, atEnd := regionLast h.winAddr.toNat }

/-- The index of WIN_DATA. -/
def winData : Nat := 57

/-- A stalled host access to a domain ends without effect: a read returns 0, a write is dropped (R428, R436). -/
def State.endStall (d : Dom) (s : State) : State :=
  match s.host.stall with
  | some a =>
    if a.dom = d then
      s.modHost fun h =>
        let h := { h with stall := none, rdata := if a.write then h.rdata else 0#32, done := true, valid := !a.write && Config.strobeHeld s.clk.tsc }
        if a.index.val = winData then h.advance else h
    else s
  | none => s

/-- One domain becomes FAILED (R436, R571). -/
def State.failOne (d : Dom) (s : State) : State :=
  let t := s.modDom d fun x => { x with st := .failed, target := .off, demand := false, demandDue := false }
  let t := ((t.loses d).modPwr fun p => { p with wakefail := true }).stick 6
  let t := t.endStall d
  t.log 0x02#8 0x01#8 (BitVec.ofNat 32 (domIdx d).val) (fld (s.dom d).reason 0) s.dvfs

/-- A wake fails (R436). With MC fail the wakes of AF and GF that wait for the map (R135), and a command handed over by
CMD_GO ends (R494, R582). -/
def State.fail (d : Dom) (s : State) : State :=
  let t := s.failOne d
  if d = .mc then
    let t := if s.waitsMap .af then t.failOne .af else t
    let t := if s.waitsMap .gf then t.failOne .gf else t
    if t.mgmt.busy then t.endCommand 0x0B#8 else t
  else t

/-- A waking domain may report ready: AF, GF and XF wait for the lock of PLL-M (R80, R81), AF and GF for the map (R135), EN
for PLL-E unless it runs on the hold clock or coasts (R78, R435), MC from Off for Zoruimen (R613). -/
def State.canReport (s : State) (d : Dom) : Bool :=
  match d with
  | .af | .gf => s.locked && s.arr.mapLoaded
  | .xf => s.locked
  | .en => s.clk.plle == .locked || ((s.dom .en).fromRet && (s.clk.holdClk || s.clk.coast))
  | .mc => (s.dom .mc).fromRet || (s.mgmt.zor && s.mgmt.restore.isEmpty)
  | .sp | .sb | .cs | .th => true

/-! ### Requests (R421, R422, R430 to R434) -/

/-- The order in which the controller takes the domains (R431). -/
def reqOrder : List Dom := [.xf, .af, .gf, .en, .sp, .cs, .sb, .mc, .th]

/-- Place of a domain in the order of R431. -/
def reqPlace (d : Dom) : Nat := reqOrder.findIdx (· == d)

/-- The domains a domain consumes from (R432). -/
def consumes : Dom → List Dom
  | .en => [.af, .gf, .xf]
  | .sp | .cs | .sb => [.en]
  | .mc => [.cs]
  | .af | .gf | .xf | .th => []

/-- A domain is held by one it consumes from (R432). -/
def State.held (s : State) (d : Dom) : Bool := (consumes d).any fun p => (s.dom p).st matches .onRefused | .onHeld

/-- REASON of a domain's own refusal of a move to Off or Retain; 0 where it refuses nothing (R430). -/
def State.ownReason (s : State) (d : Dom) (goal : Rest) : BitVec 4 :=
  match d with
  | .sb => if goal = .off ∧ s.buf.keep ∧ 0 < s.level then 1#4 else 0#4
  | .cs => if s.cap.capturing then 2#4 else 0#4
  | .mc => if s.mport.seq.isSome || s.mport.buffer.isSome then 3#4 else if s.mgmt.logQ.isEmpty then 0#4 else 4#4
  | .xf => if s.aux.calQueue ≠ 0#4 then 5#4 else 0#4
  | .af | .gf | .en | .sp | .th => 0#4

/-- What became of one domain of a request: nothing refused, its own refusal, or held. -/
inductive Verdict where
  | done | refused | held
deriving DecidableEq, Repr

/-- A stop of a domain, or its refusal (R430, R432). A domain that refuses from Retain stays there; only one that is On can be
held. -/
def State.tryStop (d : Dom) (goal : Rest) (s : State) : State × Verdict :=
  let r := s.ownReason d goal
  let on := s.isOn d
  if r ≠ 0#4 then
    (s.modDom d fun x => { x with st := if on then .onRefused else x.st, reason := r }, .refused)
  else if on && s.held d then (s.modDom d fun x => { x with st := .onHeld, reason := 6#4 }, .held)
  else (s.startStop d goal, .done)

/-- The controller's decision for one domain (R422, R423, R425, R431, R437): `write` at the processing of a PWR_REQ write,
`idle` for the return of a domain that is On by demand. -/
def State.decideOne (write idle : Bool) (d : Dom) (s : State) : State × Verdict :=
  let want := s.resting d
  match (s.dom d).st with
  | .waking | .stopping => (s, .done)
  | .failed =>
    if !write then (s, .done)
    else if want = .off then ((s.modDom d fun x => { x with st := .off }).mapDemand, .done)
    else ((s.startWake d want false).mapDemand, .done)
  | .off => if want = .off then (s, .done) else ((s.startWake d want false).mapDemand, .done)
  | .retain =>
    match want with
    | .retain => (s, .done)
    | .on => ((s.startWake d .on false).mapDemand, .done)
    | .off => s.tryStop d .off
  | .on | .onRefused | .onHeld =>
    if want = .on then (s.modDom d fun x => { x with st := .on, demand := false }, .done)
    else if (s.dom d).demand && !idle then (s, .done)
    else s.tryStop d want

/-- A request or idle return has met a refusal at domain d (R433, R571): REFUSED_EVT and a log record. -/
def State.noteRefusal (d : Dom) (s : State) : State :=
  let t := s.modPwr fun p => { p with refused := true }
  t.log 0x02#8 0x02#8 (BitVec.ofNat 32 (domIdx d).val) (fld (t.dom d).reason 0) t.dvfs

/-- The domains of a list decided in order, with the first that refused or was held. -/
def State.decideAll (write : Bool) : List Dom → State → State × Option Dom
  | [], s => (s, none)
  | d :: ds, s =>
    let r := s.decideOne write false d
    let q := State.decideAll write ds r.1
    (q.1, if r.2 = .done then q.2 else some d)

/-- The request processed from a place of the order on (R431, R433). REFUSED_EVT is set once for each write. -/
def State.process (write : Bool) (start : Nat) (s : State) : State :=
  let r := State.decideAll write (reqOrder.drop start) s
  match r.2 with
  | none => r.1.modPwr fun p => { p with resumeAt := none }
  | some d =>
    let t := r.1.modPwr fun p => { p with resumeAt := some (reqPlace d), refusedOnce := true }
    if s.pwr.refusedOnce then t else t.noteRefusal d

/-- The request in force taken up for a domain whose transition has ended (R425). -/
def State.takeUp (d : Dom) (s : State) : State :=
  if s.pwr.reqDue then s
  else
    let r := s.decideOne false false d
    if r.2 = .done then r.1
    else
      let place := reqPlace d
      let t := r.1.modPwr fun p => { p with resumeAt := some (min place (p.resumeAt.getD place)), refusedOnce := true }
      if s.pwr.refusedOnce then t else t.noteRefusal d

/-- A refusing condition of the request still holds at domain d. The refusal of CS for a capture counts as cleared when the
request moves EN out of On (R433). -/
def State.stillRefuses (s : State) (d : Dom) : Bool :=
  let x := s.dom d
  let goal := s.resting d
  goal != .on && !x.demand && s.ownReason d goal != 0#4 &&
    (x.st == .onRefused || (x.st == .retain && goal == .off)) &&
    !(d == .cs && s.resting .en != .on && !(s.dom .en).demand)

/-- An idle return that was refused or held could now go on (R433). -/
def State.idleFree (s : State) (d : Dom) : Bool :=
  let x := s.dom d
  x.demand && (x.st == .onRefused || x.st == .onHeld) && s.ownReason d (s.resting d) == 0#4 && !s.held d

/-- The resumption of the request and of refused idle returns (R433). -/
def State.resume (s : State) : State :=
  let free := reqOrder.filter s.idleFree
  let t := match s.pwr.resumeAt with
    | some k => if reqOrder.any s.stillRefuses then s else s.process false k
    | none => s
  free.foldl (fun t d => (t.decideOne false true d).1) t

/-! ### Activity (R429) -/

/-- An audit, a re-trim or an isolation runs on the dies of a front-end domain. -/
def State.frontBusy (s : State) (d : Dom) : Bool :=
  anyUpto (fun r => frontDom r == d && (s.rotation r).audit.isSome) 6 ||
    anyUpto (fun i => frontDom (regionOf i) == d && ((s.cluster i).retrim || (s.cluster i).iso.isSome)) 36

/-- A Scarecrow classification is pending, or a wake of R285 holds the domains On. -/
def State.scarBusy (s : State) : Bool := s.scar.pend || s.scar.wakeHold

/-- The activities of R429. -/
def State.activity (s : State) (d : Dom) : Bool :=
  match d with
  | .af => s.anyPath (· < 3) || s.frontBusy .af || s.scarBusy
  | .gf => s.anyPath (fun ch => decide (3 ≤ ch ∧ ch < 6)) || s.frontBusy .gf || s.scarBusy
  | .xf => s.aux.calQueue != 0#4 || anyUpto (fun c => convEnable (s.aux.conv.getD c { stage := .atReset 0, act := .atReset 0 }).act.conv) 4
  | .en => s.buf.writing || s.recog.live != 0#6 || anyUpto (fun m => (s.machine m).running) 8 || s.anyPath (fun _ => true) || s.scarBusy
  | .sp => s.spec.mode != .idle
  | .sb => s.buf.writing
  | .cs => s.cap.arm || s.cap.capturing || (s.spec.mode == .capture && !s.spec.capWait)
  | .mc =>
    s.mgmt.busy || s.mgmt.req.isSome || s.mgmt.reply.isSome || !s.mgmt.logQ.isEmpty || s.mport.seq.isSome || s.mport.buffer.isSome ||
      s.arr.dirtySince.isSome || s.aux.tedsBusy != 0#4 || s.aux.calQueue != 0#4 || (s.presented 2#2).isSome
  | .th => s.regulating

/-- The idle timer of one domain at a Headland tick: set to its start value by an activity or an access, else counting down
(R429). -/
def State.idleTick (d : Dom) (s : State) : State :=
  let busy := s.activity d
  s.modDom d fun x =>
    { x with touched := false
             idleLeft := if !x.st.isOn || busy || x.touched then 32 * x.idle.toNat else x.idleLeft - 1 }

/-- The idle timers at a Headland tick (R429). -/
def State.tickIdle (s : State) : State := reqOrder.foldl (fun t d => t.idleTick d) s

/-- The idle timer of a domain that is On by demand has run out (R429). -/
def State.idleDue (s : State) (d : Dom) : Bool :=
  let x := s.dom d
  x.demand && x.st == .on && x.idle != 0#16 && s.resting d != .on && x.idleLeft == 0 && !x.touched && !s.activity d &&
    (match s.host.stall with | some a => a.dom != d | none => true)

/-! ### Commands -/

/-- PWR_REQ_PROCESS (R431). -/
def execPwrReqProcess (s : State) : Host.Outcome State Fault Refusal :=
  event (s.pwr.reqDue && s.hasLk) s ((s.modPwr fun p => { p with reqDue := false }).process true 0)

/-- DEMAND_WAKE (R427). -/
def execDemandWake (d : Dom) (s : State) : Host.Outcome State Fault Refusal :=
  event ((s.dom d).demandDue && ((s.dom d).st matches .off | .retain) && s.hasLk) s
    (s.startWake d .on (s.resting d != .on)).mapDemand

/-- STOP_DONE (R419, R425, R426). -/
def execStopDone (d : Dom) (s : State) : Host.Outcome State Fault Refusal :=
  let goal := (s.dom d).target
  let t := s.modDom d fun x => { x with st := if goal = .retain then .retain else .off }
  let t := if goal = .retain then t else t.loses d
  event ((s.dom d).st == .stopping && s.hasLk) s (t.takeUp d).mapDemand

/-- The page buffer closes, and its bytes are programmed (R545). -/
def State.closeBuffer (s : State) : State :=
  match s.mport.buffer with
  | none => s
  | some (a, bs) => (s.modMport fun x => { x with buffer := none }).startSeq (.program false a bs)

/-- The state at an idle return or a resumption that concerns MC: what the memory port had to do has ended. -/
def State.portDone (s : State) : State := if (s.dom .mc).reason = 3#4 then s.closeBuffer.endSeq else s

/-- IDLE_RETURN (R429, R433). -/
def execIdleReturn (d : Dom) (s : State) : Host.Outcome State Fault Refusal :=
  let s0 := if d = .mc then s.closeBuffer.endSeq else s
  let r := s0.decideOne false true d
  event (s0.idleDue d && s.hasLk) s (if r.2 = .done then r.1 else r.1.noteRefusal d)

/-- REQUEST_RESUME (R433). -/
def execRequestResume (s : State) : Host.Outcome State Fault Refusal :=
  let s0 := s.portDone
  event (s.hasLk && ((s0.pwr.resumeAt.isSome && !reqOrder.any s0.stillRefuses) || reqOrder.any s0.idleFree)) s s0.resume

/-- The STALL limit of an access has passed: STALL ms of LK cycles, of which 0 and values above 100 act as 100 (R428, R452). In a
coast LK keeps its ratio to SM. -/
def State.stallOver (s : State) (a : Stall) : Bool :=
  let n := (s.dom a.dom).stall.toNat
  s.usSince a.since (1000 * (if n = 0 ∨ 100 < n then 100 else n))

/-- STALL_CUT (R428): the wake continues. -/
def execStallCut (s : State) : Host.Outcome State Fault Refusal :=
  match s.host.stall with
  | some a => event (s.hasLk && s.stallOver a) s ((s.endStall a.dom).modDom a.dom fun x => { x with stallCut := true })
  | none => .next s

end Sys2Proof.Machine
end

