-- ==== Sys2Proof/Machine/Gates.lean ====
section
/-!
DEFINITION. Clock enables (R88 to R94): a write of CLKEN, what each gate stops and starts.
-/

namespace Sys2Proof.Machine

open Sys2Proof

/-- The channels of a block that CLKEN bit k clocks (R88). -/
def gateChannels (k : Nat) : BitVec 24 :=
  chanMask fun ch => (k == 0 && decide (ch < 3)) || (k == 1 && decide (3 ≤ ch ∧ ch < 6)) || (k == 2 && decide (6 ≤ ch ∧ ch < 22))

/-- SM ticks in one cycle of EN while it has a clock, as a fraction; in a coast, where it runs at PLL-E's floor, and before the lock
of PLL-M the rate is not specified (R53, R441). -/
def State.enCycle (s : State) : Option (Nat × Nat) :=
  if !s.htExact || s.clk.coast then none
  else if s.clk.holdClk then some (2, 1)
  else some (196608, 100000 * 2 ^ s.pwr.opCur.toNat)

/-- What stops when CLKEN bit k is cleared (R92, R138, R216, R250, R311, R347, R387). -/
def State.gateOff (k : Nat) (s : State) : State :=
  match k with
  | 0 => State.settleArray s (s.voidAudits fun r => decide (r < 3))
  | 1 => State.settleArray s (s.voidAudits fun r => decide (3 ≤ r))
  | 2 => s.auxStops
  | 5 => s.modSpec Spec.gateOff
  | 7 => s.modSpec fun x => if x.mode = .capture then x.endCapture true else x
  | 11 => s.modScar fun x => { x with armed := false }
  | _ => s

/-- What follows when CLKEN bit k is set (R92, R153, R216, R282, R347). -/
def State.gateOn (k : Nat) (s : State) : State :=
  match k with
  | 0 | 1 => (State.settleArray s s.fillAll).restartAll (gateChannels k)
  | 2 => s.auxReturns.restartAll (gateChannels 2)
  | 4 => s.smReturns
  | 6 => s.endItem
  | _ => s

/-- Everything that runs or not according to CLKEN. -/
def State.settleGates (s : State) : State := s.refreshRecog.refresh.thermSettle

/-- What a write of CLKEN makes of the gates that wait (R94): one that is set again waits no longer, one that is cleared over a
block in `busy` waits from now on. -/
def closingAfter (old new busy : BitVec 12) (now : Tick) (closing : Vector (Option Tick) 12) : Vector (Option Tick) 12 :=
  Vector.ofFn fun k =>
    if new.getLsbD k.val then none
    else if old.getLsbD k.val && busy.getLsbD k.val then some now
    else closing[k]

/-- A write of CLKEN (R88, R93, R94). The gates in `busy` stand over a block that is mid-access: they refuse new accesses at
once and close when the access ends. -/
def State.writeClken (w : Word) (busy : BitVec 12) (s : State) : State :=
  let new : BitVec 12 := bits w 0 12
  let old := s.clk.clken
  let off := old &&& ~~~new
  let on := new &&& ~~~old
  let t := s.modClk fun c => { c with clken := new, closing := closingAfter old new busy c.tsc c.closing }
  let t := foldUpto (fun t k => if off.getLsbD k then t.gateOff k else t) t 12
  let t := t.settleGates
  foldUpto (fun t k => if on.getLsbD k then t.gateOn k else t) t 12

/-- CLKEN (R88). -/
def State.clkenWord (s : State) : Word := fld s.clk.clken 0

end Sys2Proof.Machine
end

