-- ==== Sys2Proof/Machine/Regs.lean ====
section
/-!
DEFINITION. Registers of the Register Reference that no other block owns: STATUS, STICKY, CTRL, the command and mailbox
registers, the link and memory-port registers, the pins, and the management region (14_register_map.md, R569).
-/

namespace Sys2Proof.Machine

open Sys2Proof

/-! ### STATUS, STICKY, CTRL (R483 to R486) -/

/-- STATUS (R483). -/
def State.status (s : State) : Word :=
  flg (s.link.assigned && s.clk.lclkPresent) 0 ||| flg s.clk.coast 1 ||| flg s.pwr.booted 2 ||| flg s.buf.writing 3 |||
  flg (decide (s.level = 0)) 4 ||| flg s.bufAbove 5 ||| flg s.thermReady 6 ||| flg s.anyDegraded 7 |||
  flg (s.aux.wirebreak != 0#4 || s.aux.excCut != 0#4) 8 ||| flg s.mgmt.lockout 9 ||| flg (s.mgmt.upd == .armed) 10 |||
  fld s.pwr.opCur 12

/-- STICKY (R484). -/
def State.stickyWord (s : State) : Word := fld s.host.sticky 0

/-- A write of STICKY: W1C bits (R484). -/
def State.writeSticky (w : Word) (s : State) : State := s.modHost fun h => { h with sticky := w1cField h.sticky w 0 }

/-! ### Authenticated commands (R489 to R494) -/

/-- CMD_STAT (R493). -/
def Mgmt.cmdStat (m : Mgmt) : Word :=
  flg m.busy 0 ||| flg m.doneEvt 1 ||| flg m.rejEvt 2 ||| flg m.argOvf 3 ||| BitVec.ofNat 32 (m.args.length * 256) |||
  fld m.result 16 ||| fld m.fails 24

/-- A write of CMD_STAT: W1C bits (R493). -/
def State.writeCmdStat (w : Word) (s : State) : State :=
  s.modMgmt fun m =>
    { m with doneEvt := w1c m.doneEvt w 1, rejEvt := w1c m.rejEvt w 2, argOvf := w1c m.argOvf w 3 }

/-- An update of the command registers, ignored while BUSY (R492). -/
def State.modCmd (f : Mgmt → Mgmt) (s : State) : State := if s.mgmt.busy then s else s.modMgmt f

/-- A write of CMD_ARG (R490). -/
def State.writeCmdArg (w : Word) (s : State) : State :=
  s.modCmd fun m => if m.args.length < 16 then { m with args := m.args ++ [w] } else { m with argOvf := true }

/-- CMD_GO.CLEAR (R491). -/
def Mgmt.clearCmd (m : Mgmt) : Mgmt := { m with args := [], code := 0#8, ctr := 0#32, tagLo := 0#32, tagHi := 0#32 }

/-- A write of CMD_GO: with both bits only CLEAR acts (R491, R492); GO wakes MC on demand, and with MC FAILED the command ends
(R494, R582). -/
def State.writeCmdGo (w : Word) (s : State) : State :=
  if s.mgmt.busy then s
  else if bitAt w 1 then s.modMgmt Mgmt.clearCmd
  else if bitAt w 0 then
    if (s.dom .mc).st = .failed then s.endCommand 0x0B#8
    else (s.modMgmt fun m => { m with busy := true }).demand .mc
  else s

/-! ### Mailbox (R494 to R496, R562) -/

/-- A write of MBX_IN (R494, R495). -/
def State.writeMbxIn (w : Word) (s : State) : State :=
  (s.modMgmt fun m =>
    if m.inQ.length < 64 then { m with inQ := m.inQ ++ [w], inAt := m.inAt ++ [s.clk.tsc] } else { m with inOvf := true }).demand .mc

/-- A whole reply that waits is written once it fits; REPLY_EVT is set and the request is over (R562). -/
def Mgmt.deliver (m : Mgmt) : Mgmt :=
  match m.reply with
  | some ws =>
    if m.outQ.length + ws.length ≤ 64 then { m with outQ := m.outQ ++ ws, reply := none, req := none, replyEvt := true } else m
  | none => m

/-- Zoruimen writes a waiting reply while MC is On. -/
def State.deliver (s : State) : State := if s.isOn .mc then s.modMgmt Mgmt.deliver else s

/-- A read of MBX_OUT (R495, R562). -/
def State.popMbx (s : State) : Word × State :=
  match s.mgmt.outQ with
  | [] => (0#32, s.modMgmt fun m => { m with outUnder := true })
  | w :: ws => (w, (s.modMgmt fun m => { m with outQ := ws }).deliver)

/-- MBX_STAT (R496). -/
def Mgmt.mbxStat (m : Mgmt) : Word :=
  BitVec.ofNat 32 m.inQ.length ||| BitVec.ofNat 32 (m.outQ.length * 256) ||| flg m.replyEvt 16 ||| flg m.alertEvt 17 |||
  flg m.lognfEvt 18 ||| flg m.updEvt 19 ||| flg m.inOvf 20 ||| flg m.outUnder 21 ||| flg m.req.isSome 22

/-- MBX_STAT.FLUSH: both queues are emptied, a request in progress is discarded without a reply (R496, R562). -/
def State.flushMbx (s : State) : State :=
  (s.modMgmt fun m => { m with inQ := [], inAt := [], outQ := [], req := none, reply := none }).modAux fun a =>
    { a with tedsTag := none, calTag := none }

/-- A write of MBX_STAT (R496). -/
def State.writeMbxStat (w : Word) (s : State) : State :=
  let t := s.modMgmt fun m =>
    { m with
      replyEvt := w1c m.replyEvt w 16, alertEvt := w1c m.alertEvt w 17, lognfEvt := w1c m.lognfEvt w 18,
      updEvt := w1c m.updEvt w 19, inOvf := w1c m.inOvf w 20, outUnder := w1c m.outUnder w 21 }
  if bitAt w 24 then t.flushMbx else t

/-! ### Timing link (R497, R498) -/

/-- LINK_CFG (R497). -/
def Link.cfg (x : Link) : Word := fld x.addr 0 ||| flg x.assigned 5 ||| flg x.locked 6

/-- The link address is taken or given up; a change of ASSIGNED sets DISC_EVT (R531). -/
def Link.assign (x : Link) (a : BitVec 5) : Link :=
  let now := a != 31#5
  { x with addr := a, assigned := now, discEvt := x.discEvt || now != x.assigned, attnAt := if now then none else x.attnAt,
           train := x.train && !now }

/-- A write of LINK_CFG: RELEASE, ignored while LOCKED (R497). -/
def State.writeLinkCfg (w : Word) (s : State) : State :=
  s.modLink fun x => if bitAt w 8 && !x.locked then x.assign 31#5 else x

/-- LINK_STAT (R498). -/
def Link.stat (x : Link) : Word := flg x.errEvt 0 ||| flg x.discEvt 1 ||| fld x.lastErr 4 ||| fld x.aborts 16

/-- A write of LINK_STAT (R498). -/
def State.writeLinkStat (w : Word) (s : State) : State :=
  s.modLink fun x =>
    { x with errEvt := w1c x.errEvt w 0, discEvt := w1c x.discEvt w 1, aborts := if bitAt w 8 then 0#16 else x.aborts }

/-- A link error (R498). -/
def State.linkError (code : BitVec 4) (s : State) : State := s.modLink fun x => { x with errEvt := true, lastErr := code }

/-! ### Memory port (R499, R500, R555, R557) -/

/-- MPORT_CTRL (R499). -/
def Mport.ctrl (x : Mport) : Word :=
  flg x.take 0 ||| fld x.css 8 ||| fld x.csh 12 ||| fld x.csi 16 ||| fld x.div 20

/-- A write of MPORT_CTRL: HOST_TAKE = 0 withdraws a request or gives the bus back, after which the module first polls the
flash, whose image slots the host may have changed (R499, R555 to R557); a map change that waited for the bus then demands MC
(R150). -/
def State.writeMportCtrl (w : Word) (s : State) : State :=
  let gives := !bitAt w 0 && s.mport.granted
  let t := s.modMport fun x =>
    let y := { x with take := bitAt w 0, css := bits w 8 4, csh := bits w 12 4, csi := bits w 16 4, div := bits w 20 2 }
    if gives then { y with granted := false, doneEvt := true, repoll := true } else y
  let t := if gives then t.modMgmt fun m =>
      { m with slotA := { m.slotA with found := true }, slotB := { m.slotB with found := true } }
    else t
  if bitAt w 0 then t else t.commitDemand

/-- BUSY (R500, R537): within a transaction of its own and throughout a sequence, but not where a mode fault has cut it. -/
def Mport.busy (x : Mport) : Bool := (x.single.isSome || x.seq.isSome) && !x.waiting && !x.granted

/-- MPORT_STAT (R500). -/
def Mport.stat (x : Mport) : Word :=
  flg x.granted 0 ||| flg x.mfault 1 ||| flg x.doneEvt 2 ||| flg x.busy 3 ||| flg x.sfdp 4 ||| flg x.addr4 5 ||| fld x.size 8

/-- A write of MPORT_STAT: W1C bits (R500). -/
def State.writeMportStat (w : Word) (s : State) : State :=
  s.modMport fun x => { x with mfault := w1c x.mfault w 1, doneEvt := w1c x.doneEvt w 2 }

/-! ### Pins (R501, R502) -/

/-- GPIO_CTRL (R501). -/
def HostIf.gpioCtrl (h : HostIf) : Word := fld h.gDir 0 ||| fld h.gOd 8 ||| fld h.gClaim 16

/-- GPIO_DATA (R502). -/
def HostIf.gpioData (h : HostIf) : Word := fld h.gOut 0 ||| fld h.gIn 8

/-! ### Management region (R569) -/

/-- Seconds of lockout at a step (R585). -/
def lockSeconds (step : BitVec 3) : Nat :=
  match step.toNat with
  | 0 => 60
  | 1 => 120
  | 2 => 240
  | 3 => 480
  | 4 => 960
  | 5 => 1920
  | _ => 3600

/-- LOCK_LEFT (R569, R585), in whole seconds of 32 768 Headland ticks; how a part of a second shows is not stated. -/
def State.lockLeft (s : State) : Nat :=
  if s.mgmt.lockout then
    (quotient ((lockSeconds s.mgmt.lockStep * 32768 - (s.clk.ht - s.mgmt.lockAt) : Nat) : Int) 32768).toNat
  else 0

/-- Code of UPD_STATE (R578). -/
def UpdState.code : UpdState → BitVec 3
  | .idle => 0#3
  | .staging => 1#3
  | .armed => 2#3
  | .trial => 3#3
  | .fallback => 4#3

/-- The running image slot. -/
def Mgmt.running (m : Mgmt) : Slot := if m.runSlot then m.slotB else m.slotA

/-- MIN_VER (R569, R580). -/
def Mgmt.minVersion (m : Mgmt) : BitVec 8 := m.minVer.getD Config.otpMinVer

/-- The newer configuration store whose CRC checks (R564). -/
def Mgmt.newerCfg (m : Mgmt) : Option CfgStore :=
  match m.cfgA.filter CfgStore.ok, m.cfgB.filter CfgStore.ok with
  | some x, some y => if x.seq.toNat < y.seq.toNat then some y else some x
  | some x, none => some x
  | none, y => y

/-- The record held with a sequence number. -/
def Mgmt.recordAt (m : Mgmt) (seq : Word) : Option LogRec := m.logRing.find? fun r => r.seq == seq

/-- Bytes of a spilled capture. -/
def Spill.bytes (p : Spill) : Nat := 4 * p.words.length

/-- SPILL_FREE (R569). -/
def State.spillFree (s : State) : Nat := s.mport.spillArea - (s.mgmt.spills.map Spill.bytes).sum

/-- A read of the management region at offset o (R569); none where no word is mapped. -/
def State.readMgmt (s : State) (o : Nat) : Option Word :=
  let m := s.mgmt
  match o with
  | 0 => some m.running.version
  | 1 => some (flg m.runSlot 0 ||| flg m.aOk 1 ||| flg m.bOk 2 ||| flg m.fallback 3 ||| fld m.upd.code 4 ||| fld m.minVersion 8)
  | 2 => some m.authCtr
  | 3 => some (fld m.consec 0 ||| fld m.lockStep 8 ||| BitVec.ofNat 32 (s.lockLeft * 65536))
  | 4 => some m.logNext
  | 5 => some m.logAck
  | 6 => some (fld m.logDrop 0 ||| fld m.logOver 16)
  | 7 => some (match m.newerCfg with | some c => c.seq | none => 0#32)
  | 8 => some (fld m.alert 0)
  | 9 => some (BitVec.ofNat 32 s.spillFree)
  | 0x20 => some m.logSel
  | o =>
    if 0x10 ≤ o ∧ o < 0x20 then some (m.sens.getD (o - 0x10) 0#32)
    else if 0x21 ≤ o ∧ o ≤ 0x28 then
      some (match m.recordAt m.logSel with | some r => r.words.getD (o - 0x21) 0#32 | none => 0#32)
    else none

/-- The unread count reaches 28 672 (R574). -/
def logFills (before after : Word) : Bool := decide (before.toNat < 28672 ∧ 28672 ≤ after.toNat)

/-- A write of the management region (R569); one of LOG_ACK can fill the log (R574). -/
def State.writeMgmt (o : Nat) (w : Word) (s : State) : State :=
  s.modMgmt fun m =>
    if o = 5 then (if m.logNext.toNat < w.toNat then m
      else { m with logAck := w, lognfEvt := m.lognfEvt || logFills (m.logNext - m.logAck) (m.logNext - w) })
    else if o = 0x20 then { m with logSel := w }
    else m

end Sys2Proof.Machine
end

