-- ==== Sys2Proof/Machine/Bus.lean ====
section
/-!
DEFINITION. The registers and table space as a host access reaches them: offsets, gates, domains, reads with their side
effects, writes, the window, stalls (13_host_bus.md, 14_register_map.md).
-/

namespace Sys2Proof.Machine

open Sys2Proof

/-! ### Table space (R470, R474, R504) -/

/-- The CLKEN bits that gate a table-space word (R88, R262, R504). -/
def tsGates (a : Nat) : List Nat :=
  let o := a % 4096
  match a / 4096 with
  | 0 => if o < 0xC0 then [0] else if o < 0x180 then [1] else if o < 0x580 then [2] else []
  | 1 => [2]
  | 4 => if 0x70 ≤ o ∧ o < 0x90 then [3, 7] else [3]
  | 5 | 6 => [4]
  | 0xB => [5]
  | n => if 0x10 ≤ n ∧ n < 0x20 then [5] else if 0x100 ≤ n ∧ n < 0x180 then [7] else []

/-- CLKEN gates a table-space word. -/
def State.tsGated (s : State) (a : Nat) : Bool := (tsGates a).any fun k => !s.clken k

/-- The domain that holds a table-space word; none for Headland (R262, R470). -/
def tsDom (a : Nat) : Option Dom :=
  match a / 4096 with
  | 1 => some .xf
  | 2 | 3 | 5 | 6 => some .en
  | 4 => if a % 4096 < 0x60 then some .en else if a % 4096 < 0x70 then none else some .cs
  | 9 | 0xA | 0xF => some .mc
  | 0xB => some .sp
  | n => if 0x10 ≤ n ∧ n < 0x20 then some .sp else if 0x100 ≤ n ∧ n < 0x180 then some .cs else none

/-- A read of the recogniser and capture region at offset o (R257, R262, R277, R284). -/
def State.readRecog (s : State) (o : Nat) : Option Word :=
  let r := o / 16
  let k := o % 16
  if o < 0x60 then
    some (if k < 8 then s.recog.param r k
      else if k = 8 then s.recog.result r 0
      else (s.recog.snap.getD r (Vector.replicate 8 0#32)).getD (k - 8) 0#32)
  else if o < 0x70 then some (s.scarWord k)
  else if o < 0x80 then
    some (match k with
      | 0 => fld s.cap.mask 0 ||| flg s.cap.src 24
      | 1 => fld s.cap.pre 0
      | 2 => fld s.cap.post 0
      | 3 => fld s.cap.triggers 0 ||| fld s.cap.missed 16
      | _ => 0#32)
  else if o < 0x90 then some (s.cap.dirWord k)
  else none

/-- A write of the recogniser and capture region at offset o. -/
def State.writeRecog (o : Nat) (w : Word) (s : State) : State :=
  let r := o / 16
  let k := o % 16
  if o < 0x60 then
    if k < 8 then s.writeRecParam r k w
    else if r = 1 ∧ k = 12 then s.writeCadenceCount w
    else s
  else if o < 0x70 then (if k = 0 then s.modScar fun x => x.setCfg w else s)
  else if o < 0x80 then
    s.modCap fun c =>
      match k with
      | 0 => { c with mask := bits w 0 24, src := bitAt w 24 }
      | 1 => { c with pre := bits w 0 24 }
      | 2 => { c with post := bits w 0 24 }
      | _ => c
  else if o < 0x90 then (if bitAt w 2 then s.releaseSlot k else s)
  else s

/-- A read of the power and clock detail region at offset o (R452). -/
def State.readPower (s : State) (o : Nat) : Option Word :=
  if h : o < 9 then some s.pwr.dom[o].timeouts
  else if h : 16 ≤ o ∧ o < 25 then some (s.pwr.dom[(⟨o - 16, by omega⟩ : Fin 9)]).control
  else match o with
    | 0x20 => some s.pwr.dvfsCfg
    | 0x21 => some s.pwr.brown
    | 0x22 => some (BitVec.ofNat 32 s.clk.ht)
    | 0x23 => some (fld s.arr.clusterPwr 0)
    | _ => none

/-- A write of the power and clock detail region at offset o (R452, R453). -/
def State.writePower (o : Nat) (w : Word) (s : State) : State :=
  if h : o < 9 then
    s.modDom (domOf ⟨o, h⟩) fun d => { d with toRet := bits w 0 16, toOff := bits w 16 16 }
  else if h : 16 ≤ o ∧ o < 25 then
    s.modDom (domOf ⟨o - 16, by omega⟩) fun d =>
      { d with idle := bits w 0 16, stall := bits w 16 7, stallCut := w1c d.stallCut w 28 }
  else match o with
    | 0x20 => s.writeDvfsCfg w
    | 0x21 => s.modPwr fun p => { p with dips := 0#16 }
    | 0x23 => s.writeClusterPwr (bits w 0 24)
    | _ => s

/-- A read of the health region at offset o (R136, R160, R165). -/
def State.readHealth (s : State) (o : Nat) : Option Word :=
  if o < 660 then some (s.unit o).word
  else if 0x300 ≤ o ∧ o < 0x327 then some (s.clusterWord (o - 0x300))
  else if o = 0x380 then some s.auditCtrl
  else if o = 0x381 then some s.auditStat
  else none

/-- The host may not read the capture store now: the management core owns its read port, or an analysis reads it
(R44, R308). -/
def State.capLent (s : State) (a : Nat) : Bool :=
  decide (0x100000 ≤ a) && decide (a < 0x180000) && (s.cap.owner || s.spec.mode == .capture)

/-- The word a read of table space returns, without its side effects; none where no word is mapped (R470, R472). -/
def State.tsWord (s : State) (a : Nat) : Option Word :=
  let o := a % 4096
  match a / 4096 with
  | 0 => s.readChan o
  | 1 => s.readAux o
  | 2 => s.readUser o
  | 3 => s.readBiquad o
  | 4 => s.readRecog o
  | 5 => if o < 0x800 then some (Mem.get 0#32 s.smc.prog o) else none
  | 6 => s.readRuntime o
  | 7 => s.readPower o
  | 8 => s.readHealth o
  | 9 => if a = 0x9FFF then some s.calStat else if calMapped a then some (s.calRead a) else none
  | 0xA => s.readMgmt o
  | 0xB => s.spec.readWord o
  | 0xF => if o < 0x400 then some (Mem.get 0#32 s.aux.teds a) else none
  | n =>
    if 0x10 ≤ n ∧ n < 0x20 then some (s.spec.windowWord (a - 0x10000))
    else if 0x100 ≤ n ∧ n < 0x180 then some (Mem.get 0#32 s.cap.store a)
    else none

/-- A table-space address is mapped (R470, R472). -/
def State.tsMapped (s : State) (a : Nat) : Bool := (s.tsWord a).isSome

/-- The side effect of a read of a table-space word: the snapshots of R257 and R349. -/
def State.tsReadEffect (a : Nat) (s : State) : State :=
  match a / 4096 with
  | 4 => if a % 4096 < 0x60 ∧ a % 16 = 8 then s.modRecog fun x => x.snapRead (a % 4096 / 16) else s
  | 6 => s.runtimeReadEffect (a % 4096)
  | _ => s

/-- A write of a mapped table-space word. -/
def State.tsWrite (a : Nat) (w : Word) (s : State) : State :=
  let o := a % 4096
  match a / 4096 with
  | 0 => s.writeChan o w
  | 1 => s.writeAux o w
  | 2 => s.writeUser o w
  | 3 => s.writeBiquad o w
  | 4 => s.writeRecog o w
  | 5 => s.writeProgram o w
  | 6 => s.writeRuntime o w
  | 7 => s.writePower o w
  | 8 => if o = 0x380 then s.writeAuditCtrl w else s
  | 9 => s.writeCal a w
  | 0xA => s.writeMgmt o w
  | 0xB => s.modSpec fun x => x.writeWord o w
  | _ => s

/-- The low word of a 64-bit quantity in table space (R211, R257, R280, R284, R304, R348, R466, R569, R571). -/
def State.tsLow64 (s : State) (a : Nat) : Bool :=
  match a / 4096 with
  | 4 => decide (a % 4096 < 0x70) && a % 16 == 10
  | 6 => decide (a % 4096 < 0x80) && a % 16 == 10
  | 0xA => a == 0xA022
  | 0xF => decide (a % 4096 < 0x400) && a % 256 == 1
  | n =>
    if n = 0x10 then !s.spec.page && (a == 0x10004 || a == 0x10006)
    else if 0x100 ≤ n ∧ n < 0x180 then (a - 0x100000) % slotWords s.cap.slots == 4
    else false

/-! ### The window (R466, R469 to R474) -/

/-- The table-space address of the window. -/
def State.winAt (s : State) : Nat := s.host.winAddr.toNat

/-- A WIN_DATA access ends: ADDR advances (R471). -/
def State.winNext (s : State) : State := s.modHost HostIf.advance

/-- WIN_STAT.UNMAPPED is set (R472). -/
def State.setUnmapped (s : State) : State := s.modHost fun h => { h with unmapped := true }

/-- An executed read of WIN_DATA: the latch, the side effect, the advance (R257, R466, R471). -/
def State.winRead (s : State) : Word × State :=
  let a := s.winAt
  if s.host.latched ∧ s.host.latchAt = a then
    (s.host.winLatch, (s.modHost fun h => { h with latched := false }).winNext)
  else
    let v := (s.tsWord a).getD 0#32
    let t := s.tsReadEffect a
    let t :=
      if s.tsLow64 a then
        t.modHost fun h => { h with winLatch := (t.tsWord (a + 1)).getD 0#32, latchAt := a + 1, latched := true }
      else t
    (v, t.winNext)

/-- An executed write of WIN_DATA (R471). -/
def State.winWrite (w : Word) (s : State) : State := (s.tsWrite s.winAt w).winNext

/-- WIN_STAT (R469). -/
def HostIf.winStat (h : HostIf) : Word := flg h.unmapped 0 ||| flg h.atEnd 1 ||| flg h.latched 2

/-- A write of WIN_ADDR clears AT_END and LATCHED (R469). -/
def State.writeWinAddr (w : Word) (s : State) : State :=
  s.modHost fun h => { h with winAddr := bits w 0 24, atEnd := false, latched := false }

/-! ### Registers (R479) -/

/-- The CLKEN bit that gates a register (R88, R479); WIN_DATA follows the word it addresses. -/
def regGate (i : Nat) : Option Nat :=
  match i with
  | 27 | 28 | 29 | 30 | 31 => some 6
  | 36 => some 2
  | 37 | 38 => some 5
  | 39 => some 7
  | 52 | 53 => some 8
  | 54 | 55 => some 9
  | 59 | 60 => some 10
  | _ => none

/-- The CLKEN bits that gate an access to register i. -/
def State.gatesOf (s : State) (i : Nat) : List Nat := if i = winData then tsGates s.winAt else (regGate i).toList

/-- The register is gated. -/
def State.regGated (s : State) (i : Nat) : Bool :=
  if i = winData then !s.host.atEnd && s.tsGated s.winAt
  else match regGate i with
    | some k => !s.clken k
    | none => false

/-- The domain that holds a register; none for Headland (R461). -/
def State.regDom (s : State) (i : Nat) : Option Dom :=
  if i = 27 then some .sb
  else if i = 37 ∨ i = 38 then some .sp
  else if i = winData then tsDom s.winAt
  else none

/-- A read of a register that is executed: its value and its side effect (R466, R479). `claims`: a single-word read, which
alone claims (R408). -/
def State.readReg (i : Nat) (claims : Bool) (s : State) : Word × State :=
  match i with
  | 0 => (0x71600E5A#32, s)
  | 1 => (fld Config.devRev 0, s)
  | 2 => (lowWord Config.uid, s.modHost fun h => { h with uidLatch := some (highWord Config.uid) })
  | 3 => (s.host.uidLatch.getD (highWord Config.uid), s)
  | 4 => (s.status, s)
  | 5 => (s.stickyWord, s)
  | 6 => (fld s.host.ctrl 0, s)
  | 7 => (s.clkenWord, s)
  | 8 => (fld s.pwr.req 0, s)
  | 9 => (s.pwrStat, s)
  | 10 => (s.wakeWord, s)
  | 11 => (s.dvfs, s)
  | 12 => (s.clkStat, s)
  | 13 => (lowWord s.clk.tsc, s.modHost fun h => { h with tsLatch := some (highWord s.clk.tsc) })
  | 14 => (s.host.tsLatch.getD (highWord s.clk.tsc), s)
  | 15 => (s.tsync, s)
  | 16 => if claims then s.claim .t0 else (0#32, s)
  | 17 => if claims then s.claim .t1 else (0#32, s)
  | 18 => (s.intThresh, s)
  | 19 => (s.pendWord 0, s.modHost fun h => { h with pendLatch := some (s.pendWord 32) })
  | 20 => (s.host.pendLatch.getD (s.pendWord 32), s)
  | 21 => (fld s.int.sel 0, s)
  | 22 => (s.intCfg, s)
  | 23 => (s.int.stats, s)
  | 24 => (s.buf.fast.word, s)
  | 25 => (s.buf.slow.word, s)
  | 26 => (s.buf.streamCtrl, s)
  | 27 => s.popWord
  | 28 => (s.bufLevel, s)
  | 29 => (fld s.buf.thresh 0, s)
  | 30 => (s.buf.ctrl, s)
  | 31 => (s.buf.stat, s)
  | 32 => (s.evtStat, s)
  | 33 => (s.recog.ctrl, s)
  | 34 => (s.arrayStat, s)
  | 35 => (s.aux.stat, s)
  | 36 => (s.aux.ctrl, s)
  | 37 => (s.spec.ctrl, s)
  | 38 => (s.spec.stat, s)
  | 39 => (s.capCtrl, s)
  | 40 => (fld s.mgmt.code 0, s)
  | 42 => (s.mgmt.ctr, s)
  | 43 => (s.mgmt.tagLo, s)
  | 44 => (s.mgmt.tagHi, s)
  | 46 => (s.mgmt.cmdStat, s)
  | 48 => s.popMbx
  | 49 => (s.mgmt.mbxStat, s)
  | 50 => (s.link.cfg, s)
  | 51 => (s.link.stat, s)
  | 52 => (s.mport.ctrl, s)
  | 53 => (s.mport.stat, s)
  | 54 => (s.therm.ctrl, s)
  | 55 => (s.thermStat, s)
  | 56 => (fld s.host.winAddr 0, s)
  | 57 => s.winRead
  | 58 => (s.host.winStat, s)
  | 59 => (s.host.gpioCtrl, s)
  | 60 => (s.host.gpioData, s)
  | 61 => (s.host.scratch, s)
  | _ => (0#32, s)

/-! ### The words a configuration lists (R564, R565) -/

/-- The key of register i in a configuration list. -/
def regKey (i : Nat) : Nat := 0x1000000 + i

/-- The key of the configuration of interrupt source n. -/
def srcKey (n : Nat) : Nat := 0x1000100 + n

/-- Power and clock detail words with RW fields (R452). -/
def powerKeys : List Nat :=
  ((List.range 9).map fun d => 0x7000 + d) ++ ((List.range 9).map fun d => 0x7010 + d) ++ [0x7020, 0x7023]

/-- Words of the channel and auxiliary regions with RW fields (R102, R180, R191, R246). -/
def frontKeys : List Nat :=
  ((List.range 6).map fun ch => 64 * ch + 1) ++ ((List.range 24).map fun ch => 64 * ch + 2) ++
    ((List.range 4).flatMap fun c => (List.range 10).map fun k => 0x1000 + 16 * c + k) ++
    ((List.range 4).map fun n => 0x1050 + n)

/-- Words of the user linearisation and biquad regions (R236, R242). -/
def chainKeys : List Nat :=
  ((List.range 0x180).map fun k => 0x2000 + k) ++
    ((List.range 48).flatMap fun b =>
      ((List.range 29).filter fun k => k % 8 < 5).map (fun k => 0x3000 + 32 * b + k) ++ [0x3000 + 32 * b + 31])

/-- Words of the recogniser, machine and spectral regions and AUDIT_CTRL (R165, R262, R277, R284, R313, R315, R348, R350). -/
def engineKeys : List Nat :=
  ((List.range 6).flatMap fun r => (List.range 8).map fun k => 0x4000 + 16 * r + k) ++
    [0x401C, 0x4060, 0x4070, 0x4071, 0x4072] ++ ((List.range 2048).map fun k => 0x5000 + k) ++
    ((List.range 8).flatMap fun m => [0, 4, 5, 6].map fun k => 0x6000 + 16 * m + k) ++ [0x6082, 0x8380] ++
    ((List.range 12).map fun k => 0xB000 + k) ++ ((List.range 64).map fun k => 0xB040 + k)

/-- The remaining registers, STREAM_CTRL last (R565). -/
def registerKeys : List Nat :=
  [regKey 15, regKey 18] ++ ((List.range 47).map fun n => srcKey (n + 1)) ++
    ([24, 25, 29, 30, 33, 36, 54, 6, 59, 60, 26].map regKey)

/-- Everything CONFIG_STAGE records, in the order in which R565 applies it. -/
def stageKeys : List Nat :=
  powerKeys ++ [regKey 11, regKey 8, regKey 7] ++ frontKeys ++ chainKeys ++ engineKeys ++ registerKeys

/-- The RW fields of a listed word or register, where it has others too. -/
def keyMask (k : Nat) : Word :=
  if 0x7010 ≤ k ∧ k < 0x7019 then 0x007FFFFF#32
  else if 0x1050 ≤ k ∧ k < 0x1054 then 0x000FFFFF#32
  else if k / 0x1000 = 6 ∧ (k % 16 = 4 ∨ k % 16 = 5) then 0x00FFFFFF#32
  else if k = regKey 15 then 1#32
  else if k = regKey 11 then 3#32
  else if k = regKey 18 then 0x77#32
  else if k = regKey 59 then 0xFFFF#32
  else if k = regKey 60 then 0xFF#32
  else 0xFFFFFFFF#32

/-- The configuration of source n as INT_CFG holds it (R399). -/
def State.sourceWord (s : State) (n : Nat) : Word :=
  let q := s.int.cfg n
  flg q.en 0 ||| fld q.prio 4 ||| fld q.target 8

/-- The value CONFIG_STAGE records for a key (R564). -/
def State.stageValue (s : State) (k : Nat) : Word :=
  keyMask k &&&
    (if k < 0x1000000 then (s.tsWord k).getD 0#32
     else if 0x1000100 ≤ k then s.sourceWord (k - 0x1000100)
     else (s.readReg (k - 0x1000000) false).1)

/-- The CLKEN bits that gate a listed word or register. -/
def keyGates (k : Nat) : List Nat :=
  if k < 0x1000000 then tsGates k else if 0x1000100 ≤ k then [] else (regGate (k - 0x1000000)).toList

/-- A listed word or register stands behind a gate that is closed to new accesses. -/
def State.keyGated (s : State) (k : Nat) : Bool := (keyGates k).any fun g => !s.clken g

/-- The domain of a listed word. -/
def keyDom (k : Nat) : Option Dom := if k < 0x1000000 then tsDom k else none

/-- The address that the log gives for a listed word: its address in table space, else the byte offset of its register (R571). -/
def keyAddr (k : Nat) : Word :=
  if k < 0x1000000 then BitVec.ofNat 32 k else if 0x1000100 ≤ k then 0x58#32 else BitVec.ofNat 32 (4 * (k - 0x1000000))

/-- A core access to a listed word stalls: its domain is on its way to On, or resting, and the access wakes it (R91, R427, R428); in
a FAILED domain it ends at once (R437). -/
def State.coreWaitsFor (s : State) (k : Nat) : Bool :=
  match keyDom k with
  | some d => !s.isOn d && (s.dom d).st != .failed
  | none => false

/-- The domain of a listed word is FAILED. -/
def State.keyFailed (s : State) (k : Nat) : Bool := (keyDom k).any fun d => (s.dom d).st == .failed

/-- A set of CLKEN bits. -/
def gateSet (gates : List Nat) : BitVec 12 := gates.foldl (fun w k => putBit w k true) 0#12

/-- The starts that a block read and a block write of the timing link do not leave (R519, R520). -/
def readFixed : List Nat := [27]

/-- CMD_ARG, MBX_IN and WIN_DATA. -/
def writeFixed : List Nat := [41, 47, 57]

/-- The register of word k of a block of the timing link (R519, R520). -/
def blockIndex (sticky : List Nat) (index : BitVec 6) (k : Nat) : Nat :=
  if sticky.contains index.toNat then index.toNat else min 64 (index.toNat + k)

/-- The gates of the registers of a block, n words from an index on. -/
def State.blockGates (s : State) (sticky : List Nat) (index : BitVec 6) (n : Nat) : List Nat :=
  (List.range n).flatMap fun k => let i := blockIndex sticky index k; if i < 64 then s.gatesOf i else []

/-- The gates of the directory word of a capture slot (R262, R277). -/
def dirGates : List Nat := tsGates 0x4080

/-- The request being processed is one of a service and has no reply yet. -/
def State.inHand (s : State) (service : BitVec 8) : Option Request :=
  s.mgmt.req.filter fun r => bits r.hdr 0 8 == service && s.mgmt.reply.isNone

/-- The gates over the accesses of the host in flight (R94): a stalled access of the host bus, a block that waits in a READ of the
timing link, or a posted one. -/
def State.hostFlights (s : State) : List Nat :=
  (match s.host.stall with
   | some a => s.gatesOf a.index.val
   | none => []) ++
  (match s.link.wait with
   | some f => if f.write then [] else s.blockGates readFixed f.index f.count
   | none => []) ++
  (match s.link.posted with
   | some p => s.blockGates writeFixed p.index p.words.length
   | none => [])

/-- The gates over the accesses of Zoruimen in flight (R94): a word of a restore, the words of a CONFIG_STAGE, or the directory of a
spill that waits for its domain. -/
def State.coreFlights (s : State) : List Nat :=
  (match s.mgmt.restore with
   | (k, _) :: _ => keyGates k
   | [] => []) ++
  (if (s.inHand 6#8).isSome then (stageKeys.filter s.coreWaitsFor).flatMap keyGates else []) ++
  (if (s.inHand 9#8).isSome || s.mgmt.autoWait.isSome then dirGates else [])

/-- The gates over an access in flight (R94), and that of the buffer over an item being written (R387). -/
def State.flying (s : State) : BitVec 12 :=
  gateSet (s.hostFlights ++ s.coreFlights) ||| (if s.buf.part.isSome then gateSet [6] else 0#12)

/-- A write of EVT_STAT (R252). -/
def State.writeEvtStat (w : Word) (s : State) : State :=
  let t := s.modRecog fun x => { x with evt := w1cField x.evt w 0, lost := w1c x.lost w 9 }
  let t := t.modScar fun x => { (if bitAt w 6 then x.clearTrip else x) with cls := w1c x.cls w 7 }
  t.modCap fun c => { c with capDone := w1c c.capDone w 8, capMiss := w1c c.capMiss w 10 }

/-- Before the writer stops, the reports that are complete are made: their EVENT frames are written (R258, R369). -/
def State.reportsFirst (stops : Bool) (s : State) : State := if stops && s.buf.writing && !s.dueFrames.isEmpty then s.flushReports else s

/-- A write of CLKEN, with the gates over accesses in flight among the busy ones (R94). -/
def State.clkenFlies (w : Word) (busy : BitVec 12) (s : State) : State := s.writeClken w (busy ||| s.flying)

/-- A write of a register that is executed (R467, R468, R479). `busy` is the part of CLKEN_WRITE that says which blocks are
mid-access. -/
def State.writeReg (i : Nat) (w : Word) (busy : BitVec 12) (s : State) : State :=
  match i with
  | 5 => s.writeSticky w
  | 6 => s.modHost fun h => { h with ctrl := bits w 0 3 }
  | 7 => (if s.clken 6 && !bitAt w 6 then s.holdItem else s).clkenFlies w busy
  | 8 => s.writePwrReq w
  | 9 => s.writePwrStat w
  | 11 => s.writeDvfs w
  | 12 => s.writeClkStat w
  | 15 => s.writeTsync w
  | 16 => s.complete .t0 w
  | 17 => s.complete .t1 w
  | 18 => s.writeIntThresh w
  | 21 => s.modInt fun c => { c with sel := bits w 0 6 }
  | 22 => s.writeIntCfg w
  | 23 => s.clearStats
  | 24 => s.writeStreamGroup .fast w
  | 25 => s.writeStreamGroup .slow w
  | 26 => (s.reportsFirst !(bitAt w 0)).writeStreamCtrl w
  | 29 => s.writeBufThresh w
  | 30 => (s.reportsFirst !(bitAt w 0)).writeBufCtrl w
  | 31 => s.writeBufStat w
  | 32 => s.writeEvtStat w
  | 33 => s.writeEvtCtrl w
  | 34 => s.writeArrayStat w
  | 35 => s.writeAuxStat w
  | 36 => s.writeAuxCtrl w
  | 37 => s.writeSpecCtrl w
  | 38 => s.writeSpecStat w
  | 39 => s.writeCapCtrl w
  | 40 => s.modCmd fun m => { m with code := bits w 0 8 }
  | 41 => s.writeCmdArg w
  | 42 => s.modCmd fun m => { m with ctr := w }
  | 43 => s.modCmd fun m => { m with tagLo := w }
  | 44 => s.modCmd fun m => { m with tagHi := w }
  | 45 => s.writeCmdGo w
  | 46 => s.writeCmdStat w
  | 47 => s.writeMbxIn w
  | 49 => s.writeMbxStat w
  | 50 => s.writeLinkCfg w
  | 51 => s.writeLinkStat w
  | 52 => s.writeMportCtrl w
  | 53 => s.writeMportStat w
  | 54 => s.writeThermCtrl w
  | 55 => s.writeThermStat w
  | 56 => s.writeWinAddr w
  | 57 => s.winWrite w
  | 58 => s.modHost fun h => { h with unmapped := w1c h.unmapped w 0 }
  | 59 => s.modHost fun h => { h with gDir := bits w 0 8, gOd := bits w 8 8 }
  | 60 => s.modHost fun h => { h with gOut := (h.gOut &&& h.gMach) ||| (bits w 0 8 &&& ~~~h.gMach) }
  | 61 => s.modHost fun h => { h with scratch := w }
  | _ => s

/-! ### One access (R462) -/

/-- How an access is resolved (R462): as a gated access; at a window that is stopped or not mapped; without its domain; as a
stall; in full. -/
inductive Path462 where
  | gated | stopped | unmapped | failed (d : Dom) | resting (d : Dom) | executed
deriving DecidableEq, Repr

/-- The row of R462 that applies to an access to register i that no gate turns away. -/
def State.resolveOpen (i : Nat) (s : State) : Path462 :=
  if i = winData ∧ s.host.atEnd then .stopped
  else if i = winData ∧ (!s.tsMapped s.winAt || s.capLent s.winAt) then .unmapped
  else if i = 27 ∧ s.level = 0 then .executed
  else match s.regDom i with
    | none => .executed
    | some d =>
      if s.isOn d then .executed
      else if (s.dom d).st = .failed then .failed d
      else .resting d

/-- The row of R462 that applies to an access to register i. -/
def State.resolve (i : Nat) (s : State) : Path462 := if s.regGated i then .gated else s.resolveOpen i

/-- The state after an access that is not executed: the window still advances unless it is stopped (R471, R473). -/
def State.skipped (i : Nat) (p : Path462) (s : State) : State :=
  match p with
  | .stopped => s.stick 11
  | .unmapped => s.setUnmapped.winNext
  | _ => if i = winData then s.winNext else s

/-- An access to register i reaches its domain (R429). -/
def State.touchReg (i : Nat) (s : State) : State :=
  match s.regDom i with
  | some d => s.touch d
  | none => s

/-- A read of register i as row p of R462 resolves it: the value and the state (R89, R472, R473). -/
def State.readAs (p : Path462) (i : Nat) (claims : Bool) (s : State) : Word × State :=
  match p with
  | .executed => (s.touchReg i).readReg i claims
  | p => (0#32, s.skipped i p)

/-- A write of register i as row p of R462 resolves it. -/
def State.writeAs (p : Path462) (i : Nat) (w : Word) (busy : BitVec 12) (s : State) : State :=
  match p with
  | .executed => (s.touchReg i).writeReg i w busy
  | p => s.skipped i p

/-- A read of register i whose domain is On where it needs one: the value and the state (R462). -/
def State.readNow (i : Nat) (claims : Bool) (s : State) : Word × State := s.readAs (s.resolve i) i claims

/-- A write of register i whose domain is On where it needs one (R462). -/
def State.writeNow (i : Nat) (w : Word) (busy : BitVec 12) (s : State) : State := s.writeAs (s.resolve i) i w busy

/-- An access can begin and no earlier one is stalled (R460, R463): LK has a clock outside reset and Park. -/
def State.busOpen (s : State) : Bool := s.hasLk && s.host.stall.isNone

/-- The host begins an access while one is stalled: it has raised the strobe before HWAIT_N rose, and the stalled access, whose
sample edge has not come, is not executed (R459, R463). -/
def State.withdraw (s : State) : State := if s.host.stall.isNone then s else s.dropStall

/-- The access is stalled: it wakes its domain on demand (R427, R428). -/
def State.stall (d : Dom) (write : Bool) (i : Fin 64) (w : Word) (s : State) : State :=
  (s.modHost fun h => { h with stall := some ⟨d, write, i, w, s.clk.tsc⟩, done := false, valid := false }).demand d

/-- The value of a completed read stands on HD; the host has it where it kept the strobe low (R457, R459). -/
def State.finishRead (r : Word × State) : State :=
  r.2.modHost fun h => { h with rdata := r.1, done := true, valid := Config.strobeHeld r.2.clk.tsc }

/-- A completed write. -/
def State.finishWrite (s : State) : State := s.modHost fun h => { h with done := true, valid := false }

/-- An access that is not executed: the host receives no value (R460). -/
def State.noAccess (s : State) : State := s.modHost fun h => { h with done := false, valid := false }

/-- A read of register i by the host while no access is stalled (R462). -/
def State.busRead (i : Fin 64) (s : State) : State :=
  match s.resolve i.val with
  | .resting d => s.stall d false i 0#32
  | _ => State.finishRead (s.readNow i.val true)

/-- A write of register i by the host while no access is stalled (R462). -/
def State.busWrite (i : Fin 64) (w : Word) (busy : BitVec 12) (s : State) : State :=
  match s.resolve i.val with
  | .resting d => s.stall d true i w
  | _ => (s.writeNow i.val w busy).finishWrite

/-- A host-bus read of register i (R457, R459, R460). -/
def State.hostRead (i : Fin 64) (s : State) : State := if s.hasLk then s.withdraw.busRead i else s.noAccess

/-- A host-bus write of register i (R457, R459, R460). -/
def State.hostWriteBusy (i : Fin 64) (w : Word) (busy : BitVec 12) (s : State) : State :=
  if s.hasLk then s.withdraw.busWrite i w busy else s.noAccess

/-- A host-bus write with no block mid-access. -/
def State.hostWrite (i : Fin 64) (w : Word) (s : State) : State := s.hostWriteBusy i w 0#12

/-- Every gate in a list is open, or was cleared over the access and waits for it (R94). -/
def State.inFlight (s : State) (gates : List Nat) : Bool := gates.all fun k => s.clken k || (s.clk.closing.getD k none).isSome

/-- The access that the gates in a list waited for is over: those that wait for no other have closed (R94). -/
def State.endFlight (gates : List Nat) (s : State) : State :=
  let left := s.flying
  s.modClk fun c =>
    { c with closing := Vector.ofFn fun k => if gates.contains k.val && !left.getLsbD k.val then none else c.closing[k] }

/-- The gates in a list close by force (R94). -/
def State.forceGates (gates : List Nat) (s : State) : State :=
  s.modClk fun c => { c with closing := Vector.ofFn fun k => if gates.contains k.val then none else c.closing[k] }

/-- The item that the gate of the buffer waits for has been written, one word in each EN cycle: it is published (R374, R387). -/
def State.tickItem (s : State) : State :=
  match s.buf.part with
  | none => s
  | some (w, t0) =>
    let done := match s.enCycle with
      | some c => decide (w.length * c.1 ≤ (s.clk.tsc - t0).toNat * c.2)
      | none => true
    if done then s.endItem.endFlight [6] else s

/-- The row of R462 for an access to register i that has waited for its domain, at its sample edge: a gate that waits for it does
not turn it away (R94). -/
def State.resolveStalled (i : Nat) (s : State) : Path462 :=
  if s.inFlight (s.gatesOf i) then s.resolveOpen i else s.resolve i

/-- The row of R462 for an access to register i that has waited, or has not. -/
def State.resolveAs (flies : Bool) (i : Nat) (s : State) : Path462 := if flies then s.resolveStalled i else s.resolve i

/-- The stalled access to a domain that has become On completes (R94, R428, R462). -/
def State.endStalled (d : Dom) (s : State) : State :=
  match s.host.stall with
  | none => s
  | some a =>
    if a.dom ≠ d then s
    else
      let i := a.index.val
      let t := s.dropStall
      let p := t.resolveStalled i
      (if a.write then (t.writeAs p i a.value 0#12).finishWrite
       else State.finishRead (t.readAs p i true)).endFlight (s.gatesOf i)

end Sys2Proof.Machine
end

