-- ==== Sys2Proof/Machine/P256.lean ====
section
/-!
DEFINITION. ECDSA over NIST P-256 with SHA-256, the signature of a Wothen image (R575, R576): arithmetic of the curve on natural
numbers, in projective coordinates (x / z², y / z³); z = 0 is the point at infinity.
-/

namespace Sys2Proof.Machine

open Sys2Proof

/-- The prime of the field of P-256. -/
def p256P : Nat := 2 ^ 256 - 2 ^ 224 + 2 ^ 192 + 2 ^ 96 - 1

/-- The order of its base point. -/
def p256N : Nat := 0xffffffff00000000ffffffffffffffffbce6faada7179e84f3b9cac2fc632551

/-- The constant term of its equation y² = x³ − 3 x + b. -/
def p256B : Nat := 0x5ac635d8aa3a93e7b3ebbd55769886bc651d06b0cc53b0f63bce3c3e27d2604b

/-- A point. -/
structure P256 where
  x : Nat
  y : Nat
  z : Nat
deriving DecidableEq, Repr

/-- The base point. -/
def p256G : P256 :=
  ⟨0x6b17d1f2e12c4247f8bce6e563a440f277037d812deb33a0f4a13945d898c296,
   0x4fe342e2fe1a7f9b8ee7eb4a7c0f9e162bce33576b315ececbb6406837bf51f5, 1⟩

/-- a − b in the field. -/
def p256Sub (a b : Nat) : Nat := (a + (p256P - b)) % p256P

/-- Twice a point. -/
def P256.double (p : P256) : P256 :=
  if p.z = 0 then p
  else
    let d := p.z * p.z % p256P
    let g := p.y * p.y % p256P
    let b := p.x * g % p256P
    let m := 3 * p256Sub p.x d * (p.x + d) % p256P
    let x := p256Sub (m * m % p256P) (8 * b % p256P)
    ⟨x, p256Sub (m * p256Sub (4 * b % p256P) x % p256P) (8 * (g * g % p256P) % p256P),
     p256Sub (p256Sub ((p.y + p.z) * (p.y + p.z) % p256P) g) d⟩

/-- The sum of two points. -/
def P256.add (p q : P256) : P256 :=
  if p.z = 0 then q
  else if q.z = 0 then p
  else
    let zp := p.z * p.z % p256P
    let zq := q.z * q.z % p256P
    let u := p.x * zq % p256P
    let s := p.y * q.z % p256P * zq % p256P
    let h := p256Sub (q.x * zp % p256P) u
    let r := p256Sub (q.y * p.z % p256P * zp % p256P) s
    if h = 0 then (if r = 0 then p.double else ⟨1, 1, 0⟩)
    else
      let h2 := h * h % p256P
      let h3 := h * h2 % p256P
      let v := u * h2 % p256P
      let x := p256Sub (p256Sub (r * r % p256P) h3) (2 * v % p256P)
      ⟨x, p256Sub (r * p256Sub v x % p256P) (s * h3 % p256P), p.z * q.z % p256P * h % p256P⟩

/-- The multiple of a point by the low i bits of k, added to 2^i times `acc`. -/
def P256.mulFrom (p : P256) (k : Nat) : Nat → P256 → P256
  | 0, acc => acc
  | i + 1, acc => P256.mulFrom p k i (if k.testBit i then acc.double.add p else acc.double)

/-- k times a point, for k of 256 bits. -/
def P256.mul (k : Nat) (p : P256) : P256 := p.mulFrom k 256 ⟨1, 1, 0⟩

/-- b^e modulo m by the low i bits of e, after `acc` for the bits above. -/
def powFrom (b m e : Nat) : Nat → Nat → Nat
  | 0, acc => acc
  | i + 1, acc => powFrom b m e i (if e.testBit i then acc * acc % m * b % m else acc * acc % m)

/-- The inverse modulo a prime of 256 bits. -/
def invMod (a m : Nat) : Nat := powFrom a m (m - 2) 256 1

/-- The number of a big-endian byte string. -/
def beNat (bs : List (BitVec 8)) : Nat := bs.foldl (fun n b => n * 256 + b.toNat) 0

/-- A public key lies on the curve. -/
def p256Key (x y : Nat) : Bool :=
  decide (x < p256P) && decide (y < p256P) && y * y % p256P == (x * x % p256P * x + p256B + 3 * (p256P - x)) % p256P

/-- The signature r ‖ s of a hash verifies under the key X ‖ Y (R575, R576). -/
def p256Verify (key sig hash : List (BitVec 8)) : Bool :=
  let x := beNat (key.take 32)
  let y := beNat (key.drop 32)
  let r := beNat (sig.take 32)
  let s := beNat (sig.drop 32)
  let w := invMod s p256N
  let q := (P256.mul (beNat hash * w % p256N) p256G).add (P256.mul (r * w % p256N) ⟨x, y, 1⟩)
  let i := invMod q.z p256P
  p256Key x y && decide (0 < r ∧ r < p256N) && decide (0 < s ∧ s < p256N) && q.z != 0 &&
    q.x * (i * i % p256P) % p256P % p256N == r

end Sys2Proof.Machine
end

