-- ==== Sys2Proof/Machine/Stores.lean ====
section
/-!
DEFINITION. What Zoruimen keeps in flash: the event log (R571 to R574), the configuration stores with staging and restore
(R564, R565), the update state (R578), and the flash operations behind them.
-/

namespace Sys2Proof.Machine

open Sys2Proof

/-- Zoruimen runs. -/
def State.coreUp (s : State) : Bool := s.isOn .mc && s.mgmt.zor && s.hasLk

/-- Zoruimen runs, or is started while MC wakes (R565, R613). -/
def State.coreRuns (s : State) : Bool :=
  s.mgmt.zor && s.hasLk && (s.isOn .mc || ((s.dom .mc).st == .waking && !(s.dom .mc).fromRet))

/-- A flash operation of Zoruimen timed out: a log record, alert 0x01, and the next command polls first (R548, R570, R571). -/
def State.flashError (s : State) : State :=
  let t := { s with fresh := s.fresh + 1 }
  ((t.log 0x09#8 0x02#8 (Config.flashAddress s.fresh) 0#32 0#32).raiseAlert 0x01#8).modMport fun x => { x with repoll := true }

/-! ### Log region (R572 to R574) -/

/-- The sector of the ring that holds a sequence number. -/
def logSector (seq : Word) : Nat := seq.toNat / 128 % 256

/-- A record is unread: its number is not before LOG_ACK. -/
def Mgmt.unread (m : Mgmt) (r : LogRec) : Bool := decide (0 ≤ (r.seq - m.logAck).toInt)

/-- The erase of the sector after the one a record begins (R573, R574): unread records it removes are counted, LOG_ACK moves
to the oldest record held. -/
def Mgmt.eraseAhead (m : Mgmt) : Mgmt :=
  if m.logNext.toNat % 128 ≠ 0 then m
  else
    let gone (r : LogRec) : Bool := logSector r.seq == (logSector m.logNext + 1) % 256
    let lost := (m.logRing.filter fun r => gone r && m.unread r).length
    let ring := m.logRing.filter fun r => !gone r
    { m with
      logRing := ring
      logOver := satAdd m.logOver lost
      logAck := if lost = 0 then m.logAck else match ring with | r :: _ => r.seq | [] => m.logNext }

/-- One record written to the log region under the number LOG_NEXT (R573, R574). -/
def Mgmt.writeRec (m : Mgmt) (r : LogRec) : Mgmt :=
  let n := m.eraseAhead
  let next := n.logNext + 1#32
  { n with
    logRing := n.logRing ++ [{ r with seq := n.logNext }]
    logNext := next
    lognfEvt := n.lognfEvt || logFills (m.logNext - m.logAck) (next - n.logAck) }

/-- The record of R572 that tells of dropped records. -/
def State.overflowRec (s : State) : LogRec :=
  ⟨0#32, s.clk.tsc, 0x0A#8, 0x01#8, !s.clk.epochValid, BitVec.ofNat 32 s.mgmt.logOvf, 0#32, 0#32⟩

/-- One record written under LOG_NEXT: with the first record of a sector the sector after it is erased, and the record is one page
program, which is in progress afterwards (R545, R571 to R574). -/
def State.putRec (r : LogRec) (s : State) : State :=
  let n := s.mgmt.logNext
  let t := if n.toNat % 128 = 0 then s.flashWork [.erase false (logBase + 4096 * ((logSector n + 1) % 256)) 4096] else s.endSeq
  (t.modMgmt fun m => m.writeRec r).startSeq (.program false (recordAddr n) { r with seq := n }.bytes)

/-- The next record written (R572). -/
def State.writeLog (s : State) : State :=
  if s.mgmt.logOvf ≠ 0 then (s.putRec s.overflowRec).modMgmt fun m => { m with logOvf := 0 }
  else match s.mgmt.logQ with
    | r :: rs => (s.putRec r).modMgmt fun m => { m with logQ := rs }
    | [] => s

/-- Every queued record written, n at most. -/
def State.drainLog : Nat → State → State
  | 0, s => s
  | n + 1, s => State.drainLog n s.writeLog

/-- LOG_WRITE (R572). -/
def execLogWrite (s : State) : Host.Outcome State Fault Refusal :=
  event (s.coreUp && s.flashFree && (s.mgmt.logOvf != 0 || !s.mgmt.logQ.isEmpty)) s s.writeLog

/-! ### Configuration staging and restore (R564, R565) -/

/-- The demand wake of a core access to a listed word, and its mark on the idle timer (R427, R429). -/
def State.coreReach (k : Nat) (s : State) : State :=
  match keyDom k with
  | some d => if s.isOn d then s.touch d else s.demand d
  | none => s

/-- The access to a listed word is turned away by a gate: one closed before it began, or while it waited and by force (R90, R94).
`flies`: the access has waited for its domain. -/
def State.turnedAway (s : State) (flies : Bool) (k : Nat) : Bool := s.keyGated k && !(flies && s.inFlight (keyGates k))

/-- A core access reads a value at a listed word: at a gated block and in a FAILED domain it ends in a bus error (R90, R437). -/
def State.coreReads (s : State) (flies : Bool) (k : Nat) : Bool := !s.turnedAway flies k && !s.keyFailed k

/-- CONFIG_STAGE once no access waits (R564): the list of the words read, and a log record for each bus error. -/
def State.stageNow (flies : Bool) (s : State) : List (Nat × Word) × State :=
  ((stageKeys.filter (s.coreReads flies)).map fun k => (k, s.stageValue k),
   stageKeys.foldl (fun t k => if s.coreReads flies k then t.coreReach k else t.coreError (keyAddr k)) s)

/-- The keys at which CONFIG_STAGE waits for a domain. -/
def State.stageWaits (s : State) (flies : Bool) : List Nat := stageKeys.filter fun k => !s.turnedAway flies k && s.coreWaitsFor k

/-- The commit or APPLY that follows the last word of a staging block (R565): a write of AUX_CTRL, or of the Harrow word of the
channel, which a gate can turn away (R90, R236). -/
def State.afterBlock (k : Nat) (s : State) : State :=
  if k / 0x1000 = 1 ∧ k % 0x1000 < 64 ∧ k % 16 = 9 then
    if s.keyGated (regKey 36) then s.coreError (keyAddr (regKey 36)) else s.commitConv ⟨k / 16 % 4, Nat.mod_lt _ (by decide)⟩
  else if k / 0x1000 = 2 ∧ k % 16 = 15 then
    let w := 64 * (k % 0x1000 / 16) + 2
    if s.keyGated w then s.coreError (keyAddr w) else s.applyUser (k % 0x1000 / 16)
  else s

/-- One value of a restore written in a domain that is On (R565). -/
def State.restoreOne (k : Nat) (w : Word) (s : State) : State :=
  if k < 0x1000000 then ((s.coreReach k).tsWrite k (if k / 0x1000 = 3 ∧ k % 32 = 31 then w ||| flg true 8 else w)).afterBlock k
  else if 0x1000100 ≤ k then s.writeSource (k - 0x1000100) w
  else s.writeReg (k - 0x1000000) w 0#12

/-- A restore goes on to the first word that has to wait for its domain; a word behind a gate or in a FAILED domain costs a bus
error and is passed over (R90, R91, R437, R565). -/
def State.restoreRun (flies : Bool) : List (Nat × Word) → State → State
  | [], s => s.modMgmt fun m => { m with restore := [] }
  | (k, w) :: r, s =>
    if s.turnedAway flies k then State.restoreRun false r (s.coreError (keyAddr k))
    else if s.coreWaitsFor k then (s.modMgmt fun m => { m with restore := (k, w) :: r }).coreReach k
    else if s.keyFailed k then State.restoreRun false r (s.coreError (keyAddr k))
    else
      let t := s.restoreOne k w
      State.restoreRun false r (if flies then t.endFlight (keyGates k) else t)

/-- The words of a reply: header and payload (R561). -/
def replyWords (hdr : Word) (status : BitVec 8) (payload : List Word) : List Word :=
  (hdr &&& 0xFFFF#32 ||| BitVec.ofNat 32 (payload.length * 65536) ||| fld status 24) :: payload

/-- The reply to the request being processed (R562). -/
def State.reply (status : BitVec 8) (payload : List Word) (s : State) : State :=
  match s.mgmt.req with
  | some r => (s.modMgmt fun m => { m with reply := some (replyWords r.hdr status payload) }).deliver
  | none => s

/-- The request being processed is a CONFIG_RESTORE without a reply yet. -/
def State.restoring (s : State) : Bool := (s.inHand 7#8).isSome

/-- A restore from its first word or from the one that waited; when it is complete a CONFIG_RESTORE is answered (R563, R565). -/
def State.restoreFrom (flies : Bool) (s : State) : State :=
  let t := State.restoreRun flies s.mgmt.restore s
  if t.mgmt.restore.isEmpty && t.restoring then t.reply 0#8 [] else t

/-- A restore in progress goes on where it may, while Zoruimen runs. -/
def State.restoreOn (s : State) : State := if s.mgmt.restore.isEmpty || !s.coreRuns then s else s.restoreFrom true

/-- A restore of a list begins (R565). -/
def State.restoreStart (l : List (Nat × Word)) (s : State) : State := (s.modMgmt fun m => { m with restore := l }).restoreFrom false

/-- The request being processed is a CONFIG_STAGE without a reply yet. -/
def State.staging (s : State) : Bool := (s.inHand 6#8).isSome

/-- A CONFIG_STAGE in hand: it waits for the domains it reads, and is answered with the words captured and their CRC once it has
read them (R563, R564). `flies`: it has waited before. -/
def State.stageFrom (flies : Bool) (s : State) : State :=
  if !(s.staging && s.coreUp) then s
  else if !(s.stageWaits flies).isEmpty then (s.stageWaits flies).foldl (fun t k => t.coreReach k) s
  else
    let r := s.stageNow flies
    let t := (r.2.modMgmt fun m => { m with staged := some r.1 }).reply 0#8 [BitVec.ofNat 32 r.1.length, Config.stageCrc r.1]
    if flies then t.endFlight (List.range 12) else t

/-- A CONFIG_STAGE that has waited goes on where it may. -/
def State.stageOn (s : State) : State := s.stageFrom true

/-! ### Spills of captures: an access that cannot go on (R90, R275, R436, R437, R563) -/

/-- Address of the directory word of a slot (R277). -/
def dirAddr (k : Nat) : Word := BitVec.ofNat 32 (0x4080 + k)

/-- Address of the first word of a slot (R276). -/
def State.slotAddr (s : State) (k : Nat) : Word := BitVec.ofNat 32 (slotBase s.cap.slots k)

/-- The slot of a CAPTURE_SPILL request. -/
def Request.slot (r : Request) : Nat := (bits (r.payload.getD 0 0#32) 0 4 : BitVec 4).toNat

/-- The CAPTURE_SPILL request being processed, without a reply yet. -/
def State.spilling (s : State) : Option Request := s.inHand 9#8

/-- A request that cannot go on ends in a bus error (R90, R437) and is answered as not possible. -/
def State.spillStops (addr : Word) (s : State) : State := ((s.coreError addr).reply 4#8 []).endFlight dirGates

/-- A spill under SPILL_AUTO that cannot go on ends in a bus error. -/
def State.autoStops (addr : Word) (s : State) : State :=
  ((s.coreError addr).modMgmt fun m => { m with autoWait := none }).endFlight dirGates

/-- The access of a spill to the directory is turned away: by a gate (R90, R94), or since CS is FAILED (R436, R437). -/
def State.dirTurned (s : State) (flies : Bool) : Bool :=
  ((dirGates.any fun g => !s.clken g) && !(flies && s.inFlight dirGates)) || (s.dom .cs).st == .failed

/-- The spills that wait for CS end where their access is turned away. -/
def State.spillEnds (s : State) : State :=
  if !(s.coreUp && s.dirTurned true) then s
  else
    let t := match s.spilling with
      | some r => s.spillStops (dirAddr r.slot)
      | none => s
    match s.mgmt.autoWait with
    | some k => t.autoStops (dirAddr k)
    | none => t

/-! ### A gate that closes by force (R94) -/

/-- SM ticks in one cycle of the clock that R94 counts for a block, as a fraction; none where its rate is not specified. For the
buffer it is LK while an access of the read side is in flight, else EN. -/
def State.gateCycle (s : State) (k : Nat) : Option (Nat × Nat) :=
  if !s.htExact then none
  else if k < 3 then some (1, 1)
  else if k = 8 then some (2, 1)
  else if 9 ≤ k then some (6000, 1)
  else if k = 6 ∧ s.hostFlights.contains 6 then some (s.lkTicks, 1)
  else s.enCycle

/-- 64 cycles of the block's clock have passed since the gate began to wait, and not another one: it closes by force now (R94). -/
def State.forceDue (s : State) (k : Nat) : Bool :=
  match s.clk.closing.getD k none with
  | none => false
  | some t0 =>
    let n := (s.clk.tsc - t0).toNat
    ((k == 6 && s.hostFlights.contains 6) || !(decide (3 ≤ k) && decide (k ≤ 7)) || s.isOn .en) &&
      match s.gateCycle k with
      | none => true
      | some c => decide (64 * c.1 ≤ n * c.2) && decide (n * c.2 ≤ 65 * c.1 + c.2)

/-- The stalled host access that CLKEN bit k gates ends as a gated one (R89, R94). -/
def State.gateStall (k : Nat) (s : State) : State :=
  match s.host.stall with
  | some a => if (s.gatesOf a.index.val).contains k then s.endStall a.dom else s
  | none => s

/-! ### Update state (R578) -/

/-- The image a state of R578 is about: the slot that is not running while STAGING or ARMED. -/
def Mgmt.updSlot (m : Mgmt) (u : UpdState) : Bool :=
  match u with
  | .staging | .armed => !m.runSlot
  | _ => m.runSlot

/-- A slot of images. -/
def Mgmt.slot (m : Mgmt) (b : Bool) : Slot := if b then m.slotB else m.slotA

/-- Update of a slot. -/
def Mgmt.modSlot (m : Mgmt) (b : Bool) (f : Slot → Slot) : Mgmt :=
  if b then { m with slotB := f m.slotB } else { m with slotA := f m.slotA }

/-- Byte i of an image slot (R575). -/
def State.imageByte (s : State) (b : Bool) (i : Nat) : BitVec 8 := flashGet s.mport.flash (imageBase b + i)

/-- n bytes of an image slot from offset o on. -/
def State.imageBytes (s : State) (b : Bool) (o n : Nat) : List (BitVec 8) := (List.range n).map fun i => s.imageByte b (o + i)

/-- Word k of the header of an image (R575). -/
def State.imageWord (s : State) (b : Bool) (k : Nat) : Word := s.mport.word (imageBase b) k

/-- VERSION in a header (R575). -/
def State.imageVersion (s : State) (b : Bool) : Word := s.imageWord b 2

/-- SEC_VER in a header (R575). -/
def State.imageSecVer (s : State) (b : Bool) : BitVec 8 := bits (s.imageWord b 3) 0 8

/-- The contents of a slot that the model does not know are found in the flash: the words read there, the rest of it before the
control sector erased. -/
def State.learn (b : Bool) (f : ImageFound) (s : State) : State :=
  if !(s.mgmt.slot b).found then s
  else
    (s.modMport fun x =>
      { x with flash := flashProgram (flashErase (imageBase b) 0xFF000 x.flash) (imageBase b) ((f.words.take 0x3FC00).flatMap leBytes) }).modMgmt
      fun m => m.modSlot b fun x => { x with found := false }

/-- The hash of the verification key in OTP (R576). -/
def Mgmt.otpHash (m : Mgmt) : List (BitVec 8) := m.keyHash.getD ((List.range 32).map Config.keyHash)

/-- The checks of R576 but for SEC_VER, on the fields of R575: MAGIC, HDR_VER, a body that fits the slot, a boot ROM that is new
enough, the hash of the key field, the signature over the hash of bytes 0x00 to 0x3F, the hash of the body. -/
def State.imagePasses (s : State) (b : Bool) : Bool :=
  let len := (s.imageWord b 4).toNat
  let key := s.imageBytes b 0x80 64
  s.imageWord b 0 == 0x48544F57#32 && s.imageWord b 1 == 1#32 && decide (len ≤ 1044224) &&
    decide ((bits (s.imageWord b 6) 0 8 : BitVec 8).toNat ≤ (bits (fld Config.devRev 0) 16 8 : BitVec 8).toNat) &&
    sha256 key == s.mgmt.otpHash && p256Verify key (s.imageBytes b 0x40 64) (sha256 (s.imageBytes b 0 0x40)) &&
    sha256 (s.imageBytes b 0x100 len) == s.imageBytes b 0x20 32

/-- The checks of R576 pass, with SEC_VER held against MIN_VER. -/
def State.imageOk (s : State) (b : Bool) : Bool := s.imagePasses b && decide (s.mgmt.minVersion.toNat ≤ (s.imageSecVer b).toNat)

/-- What a check of slot b found, kept with the slot. -/
def State.noteImage (b ok : Bool) (s : State) : State :=
  s.modMgmt fun m => m.modSlot b fun x => { x with passes := ok, version := s.imageVersion b, secVer := s.imageSecVer b }

/-- A change of UPD_STATE sets UPD_EVT and writes a CLASS 0x07 record (R571, R578). -/
def State.setUpd (u : UpdState) (s : State) : State :=
  if s.mgmt.upd = u then s
  else
    let b := s.mgmt.updSlot u
    (s.modMgmt fun m => { m with upd := u, updEvt := true }).log 0x07#8 (u.code.setWidth 8) (s.mgmt.slot b).version (flg b 0) 0#32

/-- TRIAL_CONFIRM (R580): once the image has run for 600 s, CONFIRM is programmed, MIN_VER raised, IDLE. -/
def execTrialConfirm (s : State) : Host.Outcome State Fault Refusal :=
  let m := s.mgmt
  let b := m.runSlot
  let v := m.running.secVer
  let x := m.slot b
  let t := (s.programControl b x { x with confirm := true }).modMgmt fun m =>
    { m.modSlot b fun x => { x with confirm := true } with minVer := if m.minVersion.toNat < v.toNat then some v else m.minVer }
  event (s.coreUp && s.flashFree && m.upd == .trial && decide (600 * 32768 ≤ s.clk.ht - m.zorHt)) s (t.setUpd .idle)

end Sys2Proof.Machine
end

