-- ==== Sys2Proof/Machine/Auth.lean ====
section
/-!
DEFINITION. The authenticated commands (R581 to R586): the checks of R582, the counter, the lockout, and the twelve commands.
-/

namespace Sys2Proof.Machine

open Sys2Proof

/-- The device key in force: the one rolled in, else the one of delivery (R560, R586). -/
def Mgmt.deviceKey (m : Mgmt) : List (BitVec 8) := m.key.getD ((List.range 32).map Config.deviceKey)

/-- The bytes of the UID, UID[63:56] first (R581). -/
def uidBytes : List (BitVec 8) := beBytes (highWord Config.uid) ++ beBytes (lowWord Config.uid)

/-- Bytes 0 to 13 of R581. -/
def Mgmt.tagHead (m : Mgmt) : List (BitVec 8) :=
  uidBytes ++ [m.code, BitVec.ofNat 8 m.args.length] ++ beBytes m.ctr

/-- The bytes the tag is computed over (R581). -/
def Mgmt.tagBytes (m : Mgmt) : List (BitVec 8) := m.tagHead ++ m.args.flatMap beBytes

/-- The first 8 bytes of the HMAC as CMD_TAG_HI and CMD_TAG_LO (R489, R581). -/
def Mgmt.tag (m : Mgmt) : List Word := (beWords (hmac m.deviceKey m.tagBytes)).take 2

/-- The tag in the registers matches. -/
def Mgmt.tagOk (m : Mgmt) : Bool := m.tag == [m.tagHi, m.tagLo]

/-- Argument words of a command (R584). -/
def argCount (code : BitVec 8) : Nat :=
  match code.toNat with
  | 2 | 6 | 8 | 12 => 0
  | 11 => 8
  | _ => 1

/-- Steps 2 to 4 of R582: the RESULT of the first that fails, else 0. -/
def Mgmt.early (m : Mgmt) : BitVec 8 :=
  if m.lockout then 0x05#8
  else if m.code.toNat = 0 ∨ 12 < m.code.toNat then 0x03#8
  else if m.args.length ≠ argCount m.code then 0x04#8
  else 0#8

/-- Steps 5 to 7 of R582. CTR 0xFFFF_FFFF belongs to KEY_ROLL and KEY_ROLL to it (R582, R586). -/
def Mgmt.late (m : Mgmt) : BitVec 8 :=
  if !m.tagOk then 0x01#8
  else if (m.ctr == 0xFFFFFFFF#32) != (m.code == 0x0B#8) then 0x0A#8
  else if m.ctr.toNat ≤ m.authCtr.toNat then 0x02#8
  else 0#8

/-- A failure of steps 5 to 7 (R585): CONSEC and FAILS count, and the sixteenth, or any after a lockout has ended, starts a
lockout. -/
def Mgmt.failure (m : Mgmt) (ht : Nat) : Mgmt :=
  let n := satInc m.consec
  let step : BitVec 3 := if m.lockLate then BitVec.ofNat 3 (min 6 (m.lockStep.toNat + 1)) else m.lockStep
  let starts := m.lockLate || decide (16 ≤ n.toNat)
  { m with
    consec := n
    fails := satInc m.fails
    lockStep := step
    lockout := m.lockout || starts
    lockAt := if starts then ht else m.lockAt }.keepLock

/-- A command that has passed step 7 (R585). -/
def Mgmt.passed (m : Mgmt) : Mgmt := { m with consec := 0#5, lockStep := 0#3, lockLate := false }.keepLock

/-- A command handed over by CMD_GO awaits Zoruimen. -/
def State.cmdWaits (s : State) : Bool := s.coreUp && s.mgmt.busy

/-- One authenticated command with its own step 9 `f`, which answers a RESULT, and what follows its end (R582 to R584). A
command that needs the flash bus stays BUSY until it is free (R557). -/
def State.command (code : BitVec 8) (flashOk : Bool) (f : State → State × BitVec 8) (after : State → State) (s : State) :
    Host.Outcome State Fault Refusal :=
  let m := s.mgmt
  if !(s.cmdWaits && m.code == code) then .next s
  else if m.early ≠ 0#8 then answer s (s.endCommand m.early)
  else if m.late ≠ 0#8 then answer s ((s.modMgmt fun m => m.failure s.clk.ht).endCommand m.late)
  else if !s.flashFree then .next s
  else
    let t := s.storeWork.modMgmt Mgmt.passed
    if !flashOk then answer s (t.flashError.endCommand 0x09#8)
    else
      let r := f (t.modMgmt fun m => { m with authCtr := m.ctr })
      let u := r.1.endCommand r.2
      answer s (if r.2 = 0#8 then after u else u)

/-- Argument word k. -/
def Mgmt.arg (m : Mgmt) (k : Nat) : Word := m.args.getD k 0#32

/-- The staged list written to the older store (R564). -/
def State.commitConfig (s : State) : State × BitVec 8 :=
  let m := s.mgmt
  match m.staged with
  | none => (s, 0x06#8)
  | some l =>
    let n := match m.newerCfg with | some c => c.seq + 1#32 | none => 1#32
    let c : CfgStore := { seq := n, auto := bitAt (m.arg 0) 0, list := l }
    let intoA := match m.cfgA, m.cfgB with
      | none, _ => true
      | some _, none => false
      | some x, some y => !x.ok || (y.ok && decide (x.seq.toNat ≤ y.seq.toNat))
    (s.modMgmt fun m => if intoA then { m with cfgA := some c } else { m with cfgB := some c }, 0#8)

/-- CONFIG_COMMIT (R564, R584). -/
def execConfigCommit (flashOk : Bool) (s : State) : Host.Outcome State Fault Refusal :=
  s.command 0x01#8 flashOk State.commitConfig id

/-- Both configuration stores erased; the journals stay (R584). -/
def State.eraseConfig (s : State) : State := s.modMgmt fun m => { m with cfgA := none, cfgB := none }

/-- CONFIG_ERASE (R584). -/
def execConfigErase (flashOk : Bool) (s : State) : Host.Outcome State Fault Refusal :=
  s.command 0x02#8 flashOk (fun t => (t.eraseConfig, 0#8)) id

/-- The gain trims of the clusters whose factory trim a session changed (R98, R505, R507). -/
def State.trimsOfRegion (s t : State) : State :=
  (List.range 36).foldl (fun u i =>
    if s.calWord (0x9200 + 2 * i) = t.calWord (0x9200 + 2 * i) ∧ s.calWord (0x9201 + 2 * i) = t.calWord (0x9201 + 2 * i) then u
    else u.setTrim i (u.trimWith u i)) t

/-- A calibration session opened, or closed with the region written and checked (R34, R506, R507, R584). -/
def State.calSession (s : State) : State × BitVec 8 :=
  let open_ := bitAt (s.mgmt.arg 0) 0
  if open_ = s.mgmt.calOpen then (s, 0x06#8)
  else if open_ then (s.modMgmt fun m => { m with calOpen := true }, 0#8)
  else
    let t := (s.modMgmt fun m => { m with calAct := m.calStage, calStore := m.calStore.write m.calStage, calOpen := false }).calCheck
    (State.settleArray s (State.trimsOfRegion s t), 0#8)

/-- CAL_SESSION (R507, R584). -/
def execCalSession (flashOk : Bool) (s : State) : Host.Outcome State Fault Refusal :=
  s.command 0x03#8 flashOk State.calSession id

/-- The unit a command names. -/
def Mgmt.unitArg (m : Mgmt) : Nat := (bits (m.arg 0) 0 10 : BitVec 10).toNat

/-- UNIT_ADMIT at step 9 (R155, R584). -/
def State.cmdAdmit (s : State) : State × BitVec 8 :=
  let u := s.mgmt.unitArg
  if 659 < u then (s, 0x04#8)
  else if (s.unit u).lasting then (s, 0x0C#8)
  else match s.standing u with
    | .fallow | .dead => (s.admitUnit u, 0#8)
    | _ => (s, 0x06#8)

/-- UNIT_ADMIT (R155, R584). -/
def execUnitAdmit (flashOk : Bool) (s : State) : Host.Outcome State Fault Refusal :=
  s.command 0x04#8 flashOk State.cmdAdmit id

/-- UNIT_RETIRE at step 9 (R155, R584). -/
def State.cmdRetire (s : State) : State × BitVec 8 :=
  let u := s.mgmt.unitArg
  if 659 < u then (s, 0x04#8)
  else if (s.unit u).lasting then (s, 0x0C#8)
  else (s.retireUnit u, 0#8)

/-- UNIT_RETIRE (R155, R584). -/
def execUnitRetire (flashOk : Bool) (s : State) : Host.Outcome State Fault Refusal :=
  s.command 0x05#8 flashOk State.cmdRetire id

/-- LOG_ERASE (R574, R584). -/
def execLogErase (flashOk : Bool) (s : State) : Host.Outcome State Fault Refusal :=
  s.command 0x06#8 flashOk
    (fun t => ((t.flashWork (eraseBlocks logBase 256)).modMgmt fun m => { m with logRing := [], logAck := m.logNext }, 0#8)) id

/-- The image in the inactive slot may be armed (R576, R584). -/
def State.armOk (s : State) : Bool :=
  let b := !s.mgmt.runSlot
  s.imageOk b && s.imageVersion b == s.mgmt.arg 0 && decide (s.mgmt.running.version.toNat < (s.imageVersion b).toNat)

/-- UPDATE_ARM at step 9 (R584): the words of the inactive slot are an operand where the model does not know them. -/
def State.cmdArm (found : ImageFound) (s : State) : State × BitVec 8 :=
  let t := s.learn (!s.mgmt.runSlot) found
  if t.armOk then ((t.noteImage (!t.mgmt.runSlot) true).setUpd .armed, 0#8) else (t, 0x07#8)

/-- UPDATE_ARM (R584). -/
def execUpdateArm (flashOk : Bool) (found : ImageFound) (s : State) : Host.Outcome State Fault Refusal :=
  s.command 0x07#8 flashOk (State.cmdArm found) id

/-- MC restarts: it leaves On, loses its contents, and wakes from Off to On (R419, R584). -/
def State.restartMc (s : State) : State :=
  let demand := (s.dom .mc).demand
  let t := (s.leaves .mc).modDom .mc fun x => { x with st := .off }
  (t.loses .mc).startWake .mc .on demand

/-- The end of UPDATE_COMMIT (R584): the log queue is emptied into flash, COMMIT is programmed, MC restarts. -/
def State.commitUpdate (s : State) : State :=
  let t := (State.drainLog 17 s).endSeq
  let b := !t.mgmt.runSlot
  let x := t.mgmt.slot b
  ((t.programControl b x { x with commit := true }).modMgmt fun m => m.modSlot b fun x => { x with commit := true }).restartMc

/-- UPDATE_COMMIT (R584). -/
def execUpdateCommit (flashOk : Bool) (s : State) : Host.Outcome State Fault Refusal :=
  s.command 0x08#8 flashOk (fun t => (t, if t.mgmt.upd = .armed then 0#8 else 0x08#8)) State.commitUpdate

/-- ADDR_LOCK at step 9 (R497, R584). -/
def State.cmdLock (s : State) : State × BitVec 8 :=
  let on := bitAt (s.mgmt.arg 0) 0
  if on && !s.link.assigned then (s, 0x06#8) else (s.modLink fun x => { x with locked := on }, 0#8)

/-- ADDR_LOCK (R584). -/
def execAddrLock (flashOk : Bool) (s : State) : Host.Outcome State Fault Refusal :=
  s.command 0x09#8 flashOk State.cmdLock id

/-- THERM_LIMITS at step 9 (R120, R584). -/
def State.cmdTherm (s : State) : State × BitVec 8 :=
  let code : BitVec 8 := bits (s.mgmt.arg 0) 0 8
  let power : BitVec 9 := bits (s.mgmt.arg 0) 16 9
  if 110 < code.toNat ∨ power.toNat < 20 ∨ 290 < power.toNat then (s, 0x04#8) else (s.setThermLimits code power, 0#8)

/-- THERM_LIMITS (R120, R584). -/
def execThermLimits (flashOk : Bool) (s : State) : Host.Outcome State Fault Refusal :=
  s.command 0x0A#8 flashOk State.cmdTherm id

/-- The key that KEY_ROLL carries: the argument words XOR the HMAC over bytes 0 to 13 (R586). -/
def Mgmt.rolledKey (m : Mgmt) : List (BitVec 8) :=
  (m.args.flatMap beBytes).zipWith (· ^^^ ·) (hmac m.deviceKey m.tagHead)

/-- KEY_ROLL at step 9 (R586): the new key with the next generation, the counter at 0. -/
def State.rollKey (s : State) : State :=
  s.modMgmt fun m =>
    { m with key := some m.rolledKey, keyGen := m.keyGen + 1, authCtr := 0#32,
             keyStore := m.keyStore.write (some m.rolledKey, m.keyGen + 1) }

/-- KEY_ROLL (R586). -/
def execKeyRoll (flashOk : Bool) (s : State) : Host.Outcome State Fault Refusal :=
  s.command 0x0B#8 flashOk (fun t => (t.rollKey, 0#8)) id

/-- FACTORY_RESET (R156, R584). -/
def execFactoryReset (flashOk : Bool) (s : State) : Host.Outcome State Fault Refusal :=
  s.command 0x0C#8 flashOk (fun t => ((t.factoryMap.eraseConfig).setThermLimits 90#8 290#9, 0#8)) id

/-- UNKNOWN_COMMAND (R582): a command stopped at lockout, code or argument count. -/
def execUnknownCommand (s : State) : Host.Outcome State Fault Refusal :=
  event (s.cmdWaits && s.mgmt.early != 0#8) s (s.endCommand s.mgmt.early)

/-- LOCKOUT_END (R585): the duration of the step has passed on the Headland tick. -/
def execLockoutEnd (s : State) : Host.Outcome State Fault Refusal :=
  event (s.mgmt.lockout && s.hasLk && decide (lockSeconds s.mgmt.lockStep * 32768 ≤ s.clk.ht - s.mgmt.lockAt)) s
    (s.modMgmt fun m => { m with lockout := false, lockLate := true }.keepLock)

end Sys2Proof.Machine
end

