-- ==== Sys2Proof/Machine/Port.lean ====
section
/-!
DEFINITION. The memory port (R534 to R558): its pins, what it sends, the grant, mode faults, program and erase sequences, their
timeout.
-/

namespace Sys2Proof.Machine

open Sys2Proof

/-! ### Pins (R438, R534 to R536, R553) -/

/-- The output pins of the port. -/
structure PortPins where
  mclk  : PinOut
  mdo   : PinOut
  msel0 : PinOut
  msel1 : PinOut
deriving DecidableEq, Repr

/-- A driven pin. -/
def driven (high : Bool) : PinOut := if high then .high else .low

/-- The output pins (R438, R534 to R537, R550, R551, R553): high-impedance under a grant; at their clamp values while MC is not On and
the boot ROM has no transaction; else driven where the module masters the bus. Between transactions the clock is low and the selects
are high; in one the select of the flash is low, but for a flash 1 under software select. -/
def State.portPins (s : State) : PortPins :=
  let x := s.mport
  let now := s.clk.tsc
  if x.granted then ⟨.highZ, .highZ, .highZ, .highZ⟩
  else if !s.isOn .mc && x.single.isNone then ⟨.low, .highZ, .high, .high⟩
  else if !x.drives now then ⟨.highZ, .highZ, .highZ, .highZ⟩
  else if !x.mastering now then ⟨.low, driven (Config.idleMdo s.clk.ht), .high, .high⟩
  else
    let l := Config.portLevels now
    ⟨driven l.1, driven l.2, driven (x.onFlash1 now), driven (!(x.onFlash1 now && x.f1Pin.isNone))⟩

/-- The transactions of the discovery of flash 0 (R539, R540): the status register, the SFDP header, and, where the header is valid,
the parameter table and the entry into 4-byte mode. -/
def sentDiscovery (table : Option FlashTable) (addr4 : Bool) : List (List Bool) :=
  [sentStatus, sentSfdp] ++
    match table with
    | none => []
    | some p => [msbFirst 0x5A#8 ++ msbFirst Config.sfdpTable] ++
      match p.entry with
      | some enable => if addr4 && p.bytes != .four then (if enable then [sentEnable] else []) ++ [msbFirst 0xB7#8] else []
      | none => []

/-! ### Grant and mode fault -/

/-- GRANT (R554, R555): at the next boundary; what the port did before it has ended. A sequence that waits for MSS_N has not. -/
def execGrant (s : State) : Host.Outcome State Fault Refusal :=
  let t := s.endSeq.modMport fun x => { x with granted := true, doneEvt := true }
  event (s.mport.take && !s.mport.granted && s.hasLk && !(s.mport.seq.isSome && (s.mport.waiting || s.mport.mssLow))) s t

/-- The address of the work a mode fault or a timeout cuts: of the sequence or the read in progress, else a free value. -/
def State.portAddress (s : State) : Word :=
  match s.mport.seq, s.mport.single with
  | some (.program _ a _), _ => BitVec.ofNat 32 a
  | some (.erase _ a _), _ => BitVec.ofNat 32 a
  | none, some (.line a) => BitVec.ofNat 32 a
  | none, _ => Config.flashAddress s.fresh

/-- The opcode transaction of the sequence in progress has completed; while the rate of SM is not specified it is a free value
(R553). -/
def State.opSent (s : State) : Bool :=
  match s.mport.seq with
  | none => false
  | some q => !s.mport.polling && (if s.htExact then decide (s.mport.opTicks q ≤ (s.clk.tsc - s.mport.seqAt).toNat)
      else Config.opcodeSent s.fresh)

/-- MODE_FAULT (R553, R571): MSS_N falls during a transaction, of Zoruimen or of the boot ROM. -/
def execModeFault (s : State) : Host.Outcome State Fault Refusal :=
  let t := { s with fresh := s.fresh + 1 }.modMport fun x =>
    { x with mfault := true, waiting := true, mssLow := true, opDone := s.opSent }
  event ((s.mport.single.isSome || s.mport.seq.isSome) && !s.mport.granted && !s.mport.waiting && !s.mport.mssLow && s.hasLk) s
    (t.log 0x09#8 0x03#8 s.portAddress 0#32 0#32)

/-- The transactions that repeat the work after a mode fault: the read; of a sequence all of them, or, where its opcode transaction had
completed, the status reads (R553). -/
def Mport.sentAgain (x : Mport) : List (List Bool) :=
  match x.seq, x.single with
  | some q, _ => if x.opDone then [sentStatus] else x.sentSeq q
  | none, some r => [x.sentSingle r]
  | none, none => x.sent

/-- MODE_FAULT_RESUME (R553): MSS_N has been high for 1 ms, and the aborted work is repeated. -/
def execModeFaultResume (s : State) : Host.Outcome State Fault Refusal :=
  event (s.mport.waiting && !s.mport.mssLow && s.usSince s.mport.mssAt 1000 && s.hasLk) s
    (s.modMport fun x => { x with waiting := false, seqAt := if x.opDone then x.seqAt else s.clk.tsc, sent := x.sentAgain })

/-! ### Program and erase -/

/-- The core may command the port. -/
def State.portFree (s : State) : Bool := s.coreUp && s.flashFree

/-- A core write of one byte into the window joins the page buffer where it is consecutive; one that is not closes it first, and the end
of a page closes it after (R545). -/
def State.gather (a : Nat) (b : BitVec 8) (s : State) : State :=
  let next := match s.mport.buffer with | some (f, l) => f + l.length == a | none => false
  let t := if next then s else s.closeBuffer
  let t := t.modMport fun x =>
    { x with bufAt := s.clk.tsc, buffer := some (match x.buffer with | some (f, l) => (f, l ++ [b]) | none => (a, [b])) }
  if (a + 1) % s.mport.page = 0 then t.closeBuffer else t

/-- Core writes of bytes from an address on. -/
def State.gatherAll : Nat → List (BitVec 8) → State → State
  | _, [], s => s
  | a, b :: bs, s => State.gatherAll (a + 1) bs (s.gather a b)

/-- What follows the writes. -/
def State.bufferEnd (e : BufferEnd) (s : State) : State :=
  let t := if e.closes then s.closeBuffer else s
  if e.ends then t.endSeq else t

/-- Consecutive core writes into the window: what lies below its end is gathered, the first byte above it is a bus error in the log
(R544, R545). -/
def State.coreProgram (addr : Nat) (bytes : List (BitVec 8)) (e : BufferEnd) (s : State) : State :=
  let lim := s.mport.window
  let bs := bytes.take (lim - addr)
  let t := (s.gatherAll addr bs).bufferEnd e
  if bs.length < bytes.length then t.coreError (BitVec.ofNat 32 (max addr lim)) else t

/-- The place of n bytes lies in a flash that is there (R540, R541, R544, R550). -/
def Mport.reaches (x : Mport) (p : FlashPlace) (n : Nat) : Bool := (!p.flash1 || x.flash1) && decide (p.addr.toNat + n ≤ x.usable)

/-- PAGE_PROGRAM (R544 to R546): core writes into the window, or an explicit port command, of one page. -/
def execPageProgram (at_ : ProgramAt) (bytes : List (BitVec 8)) (ends : BufferEnd) (s : State) : Host.Outcome State Fault Refusal :=
  match at_ with
  | .window addr => event s.portFree s (s.coreProgram addr.toNat bytes ends)
  | .command p =>
    event (s.portFree && pageFits s.mport.page p.addr bytes && s.mport.reaches p bytes.length) s
      (s.closeBuffer.runSeq (.program p.flash1 p.addr.toNat bytes) ends.ends)

/-- ERASE (R540, R541, R547): an address aligned to the size and an erase type that the flash has. -/
def execErase (kind : EraseKind) (place : FlashPlace) (ends : Bool) (s : State) : Host.Outcome State Fault Refusal :=
  let n := eraseSize kind
  event (s.portFree && eraseAligned kind place.addr && (s.mport.eraseType n).isSome && s.mport.reaches place n) s
    (s.closeBuffer.runSeq (.erase place.flash1 place.addr.toNat n) ends)

/-- What became of the bytes of a sequence that timed out is not stated, within what the operation can do (R546, R548); one that still
polled has done nothing. -/
def State.cutFlash (s : State) (x : Mport) : Mport :=
  if x.polling then x
  else match x.seq with
    | none => x
    | some (.program d a bs) => x.applySeq (.program d a ((List.range bs.length).map fun i => bs.getD i 0xFF#8 ||| Config.flashByte s.fresh i))
    | some (.erase d a n) =>
      let cut (m : List Host.Cell) : List Host.Cell :=
        (List.range n).foldl (fun m i => flashPut m (a + i) (flashGet m (a + i) ||| Config.flashByte s.fresh i)) m
      if d then { x with flashB := cut x.flashB } else { x with flash := cut x.flash }

/-- Microseconds until a sequence times out (R548): an erase at twice the maximum time of its type, or the values the rule gives. -/
def Mport.timeout (x : Mport) : PortSeq → Nat
  | .program _ _ _ => 10000
  | .erase _ _ n =>
    match (x.eraseType n).bind EraseType.maxUs with
    | some m => 2 * m
    | none => if n = 4096 then 1000000 else if n = 32768 then 2000000 else 4000000

/-- The sequence in progress, or its polls, have run for its timeout (R548): a program from the end of its page-program
transaction. -/
def State.seqOver (s : State) : Bool :=
  s.mport.seq.any fun q =>
    let start := match q with
      | .program _ _ _ => if s.mport.polling then s.mport.seqAt else s.mport.seqAt + BitVec.ofNat 64 (s.mport.opTicks q)
      | .erase _ _ _ => s.mport.seqAt
    !s.htExact || (decide (0 ≤ (s.clk.tsc - start).toInt) && s.usSince start (s.mport.timeout q))

/-- FLASH_TIMEOUT (R548, R570, R571). -/
def execFlashTimeout (s : State) : Host.Outcome State Fault Refusal :=
  let t := { s with fresh := s.fresh + 1 }.modMport fun x => { s.cutFlash x with seq := none, polling := false, repoll := true }
  let t := match s.mport.seq with | some q => if s.mport.polling then t else t.changedBy q | none => t
  event (s.seqOver && !s.mport.waiting && s.hasLk) s
    ((t.log 0x09#8 0x02#8 s.portAddress 0#32 0#32).raiseAlert 0x01#8)

end Sys2Proof.Machine
end

