-- ==== Sys2Proof/Machine/Boot.lean ====
section
/-!
DEFINITION. The boot of Zoruimen (R134, R538, R539 to R542, R549 to R551, R565, R570, R573, R577, R587, R613): discovery of the
flash, choice of an image, load of the health map, checks, restore. What is found on the flash is an operand.
-/

namespace Sys2Proof.Machine

open Sys2Proof

/-- The boot ROM can use the flash it finds (R540 to R542): no SFDP, or 64 Mbit to 512 Mbit with the 4 KiB erase 0x20. -/
def flashUsable (f : FlashFound) : Bool :=
  f.answers && match f.table with
    | none => true
    | some p => decide (23 ≤ p.log2.toNat ∧ p.log2.toNat ≤ 26) && p.k4.any fun e => e.opcode == 0x20#8

/-- A flash above 16 MiB is used with 4-byte addresses where the module has a way into that mode (R540). -/
def FlashTable.wide (p : FlashTable) : Bool :=
  decide (24 < p.log2.toNat) && (p.bytes == .four || (p.bytes == .threeOrFour && p.entry.isSome))

/-- MPORT_STAT and the parameters after the discovery (R539 to R541). -/
def Mport.discovered (x : Mport) (f : FlashFound) : Mport :=
  let wide := f.table.any FlashTable.wide
  { x with
    sfdp := f.table.isSome
    table := f.table
    size := match f.table with | some p => p.log2 | none => 23#5
    addr4 := wide
    single := none
    repoll := false
    sent := sentDiscovery f.table wide }

/-- The memory-port word names a flash 1 (R549). -/
def hasFlash1 (w : Word) : Bool := bitAt w 0 && (bits w 5 27 : BitVec 27) == 0#27

/-- The memory-port word in the flash header (R549). -/
def Mport.portWord (x : Mport) : Word := x.word 0x010 0

/-- Flash 1 has the parameters of flash 0 (R550). -/
def Mport.sameFlash (x : Mport) (f : FlashFound) : Bool := f.answers && f.table == x.table

/-- What the boot does about flash 1 (R549 to R551). -/
def Mport.flash1Found (x : Mport) (f : FlashFound) : Mport :=
  let w := x.portWord
  { x with
    flash1 := hasFlash1 w && x.sameFlash f
    f1Pin := if hasFlash1 w && bitAt w 1 then some (bits w 2 3) else none }

/-- An image is eligible (R577). -/
def Slot.eligible (x : Slot) : Bool := x.passes && !x.reject && (x.confirm || x.commit)

/-- Both slots after the checks (R569, R577). -/
def State.checkSlots (a b : ImageFound) (s : State) : State :=
  let t := (s.learn false a).learn true b
  let okA := t.imageOk false
  let okB := t.imageOk true
  ((t.noteImage false okA).noteImage true okB).modMgmt fun m => { m with aOk := okA, bOk := okB }

/-- The eligible image with the higher VERSION, slot A on a tie (R577). -/
def Mgmt.choose (m : Mgmt) : Option Bool :=
  match m.slotA.eligible, m.slotB.eligible with
  | true, true => some (decide (m.slotA.version.toNat < m.slotB.version.toNat))
  | true, false => some false
  | false, true => some true
  | false, false => none

/-- The outcome of step 4 of R577 for a chosen slot: it is booted, its ATTEMPT one bit lower where it is not confirmed, or it
is rejected. -/
def Mgmt.attempt (m : Mgmt) (b : Bool) : Mgmt × Bool :=
  let x := m.slot b
  if x.confirm then (m, true)
  else if 3 ≤ x.attempt then ({ m.modSlot b (fun x => { x with reject := true }) with fallback := true }, false)
  else (m.modSlot b fun x => { x with attempt := x.attempt + 1 }, true)

/-- The choice of R577 over the slots that are left, n rejections at most. The second component is the slot booted. -/
def Mgmt.select : Nat → Mgmt → Mgmt × Option Bool
  | 0, m => (m, none)
  | n + 1, m =>
    match m.choose with
    | none => (m, none)
    | some b =>
      let r := m.attempt b
      if r.2 then (r.1, some b) else Mgmt.select n r.1

/-- UPD_STATE after a boot (R578): TRIAL while the running image is not confirmed, FALLBACK after a rejection. -/
def Mgmt.bootState (m : Mgmt) : UpdState :=
  if !m.running.confirm then .trial else if m.fallback then .fallback else .idle

/-- The records of the rescue area go into the log, with a record and an alert; a flush that was not completed sets LOG_LOSS
(R570, R571, R587). -/
def State.rescued (s : State) : State :=
  let n := s.mgmt.rescue.newest.length
  let t := if s.mgmt.flushMark && !s.mgmt.flushOk then s.stick 15 else s
  let t := (s.mgmt.rescue.newest.foldl (fun u r => State.putRec r u) t).modMgmt fun m =>
    { m with rescue := if n = 0 then m.rescue else m.rescue.write [], flushMark := false, flushOk := false }
  if n = 0 then t else (t.log 0x0A#8 0x02#8 (BitVec.ofNat 32 n) 0#32 0#32).raiseAlert 0x06#8

/-- The configuration stores whose CRC checks; with a store present and none valid an alert is raised (R564, R570). -/
def State.checkStores (found : CopiesFound) (s : State) : State :=
  let t := s.modMgmt fun m =>
    { m with cfgA := m.cfgA.map fun c => { c with ok := found.cfgA }, cfgB := m.cfgB.map fun c => { c with ok := found.cfgB } }
  if (s.mgmt.cfgA.isSome || s.mgmt.cfgB.isSome) && t.mgmt.newerCfg.isNone then t.raiseAlert 0x03#8 else t

/-- The health map at a boot (R134, R135): loaded at the first one after a reset, from which the wakes of AF and GF that waited for it
are timed. -/
def State.bootMap (found : CopiesFound) (s : State) : State :=
  if s.arr.mapLoaded then State.settleArray s s.calCheck
  else (State.settleArray s ((s.modArr fun a => a.dropBad found).calCheck.loadMap)).stampWakes

/-- Zoruimen starts (R34, R134, R550, R565, R613): the map, the calibration checks, flash 1, the rescue area, UPD_STATE, and
the restore of a configuration with AUTO. -/
def State.startCore (slot : Bool) (flash1 : FlashFound) (copies : CopiesFound) (s : State) : State :=
  let t := s.modMgmt fun m => { m with zor := true, zorHt := s.clk.ht, runSlot := slot, entry := s.imageWord slot 5 }
  let t := t.modMport fun x => x.flash1Found flash1
  let t := if hasFlash1 t.mport.portWord && !t.mport.flash1 then t.raiseAlert 0x02#8 else t
  let t := (t.bootMap copies).rescued.checkStores copies
  let t := t.setUpd t.mgmt.bootState
  match t.mgmt.newerCfg with
  | some c => if c.auto then t.restoreStart c.list else t
  | none => t

/-- The choice of an image (R577): both slots checked, what the choice programs in their control sectors, the alert of a fallback. The
second component is the slot booted. -/
def State.chooseImage (a b : ImageFound) (s : State) : State × Option Bool :=
  let t := s.checkSlots a b
  let r := Mgmt.select 2 t.mgmt
  let u := (t.programControl false t.mgmt.slotA r.1.slotA).programControl true t.mgmt.slotB r.1.slotB
  let u := u.modMgmt fun _ => r.1
  (if r.1.fallback then u.raiseAlert 0x05#8 else u, r.2)

/-- BOOT (R538, R539, R577, R613): at a wake of MC from Off or FAILED. Without a usable flash or an eligible image MC never reports
ready; what a flash that answers has told stands in MPORT_STAT (R539). -/
def execBoot (flash : FlashFound) (imageA imageB : ImageFound) (flash1 : FlashFound) (copies : CopiesFound) (s : State) :
    Host.Outcome State Fault Refusal :=
  let d := s.dom .mc
  let ok := d.st == .waking && !d.fromRet && !s.mgmt.zor && s.hasLk && s.flashFree && flash.answers
  let t := s.modMport fun x => x.discovered flash
  if !flashUsable flash then event ok s t
  else
    let r := t.chooseImage imageA imageB
    event ok s (match r.2 with | some b => r.1.startCore b flash1 copies | none => r.1)

end Sys2Proof.Machine
end

