-- ==== Sys2Proof/Machine/HostCmds.lean ====
section
/-!
DEFINITION. The commands that are one access of the host bus: a write of one register or table-space word with the other RW
fields as they stand, or a read with a side effect (13_host_bus.md, 14_register_map.md). A table-space word is reached
through WIN_ADDR and WIN_DATA, as the manual gives the host no other way (R469).
-/

namespace Sys2Proof.Machine

open Sys2Proof

/-- A host write of the table-space word a: WIN_ADDR, then WIN_DATA. -/
def State.hostTs (a : Nat) (w : Word) (s : State) : State :=
  (s.hostWrite 56 (BitVec.ofNat 32 a)).hostWrite 57 w

/-- A host read of the table-space word a. -/
def State.hostTsRead (a : Nat) (s : State) : State := (s.hostWrite 56 (BitVec.ofNat 32 a)).hostRead 57

/-- The word w with the n bits from bit lo on replaced. -/
def setField {n : Nat} (w : Word) (lo : Nat) (v : BitVec n) : Word :=
  (w &&& ~~~(fld (BitVec.allOnes n) lo)) ||| fld v lo

/-! ### Clock, gates, array, thermal hold -/

/-- ALIGN_CHANGE (R67). -/
def execAlignChange (align : Bool) (s : State) : Host.Outcome State Fault Refusal := answer s (s.hostWrite 15 (flg align 0))

/-- CLKEN_WRITE (R88). -/
def execClkenWrite (value : Word) (busy : BitVec 12) (s : State) : Host.Outcome State Fault Refusal :=
  answer s (s.hostWriteBusy 7 value busy)

/-- RELOCKS_CLR (R72). -/
def execRelocksClr (s : State) : Host.Outcome State Fault Refusal := answer s (s.hostWrite 12 (flg true 20))

/-- RANGE_WRITE (R103). -/
def execRangeWrite (ch : Fin 6) (range : Bool) (s : State) : Host.Outcome State Fault Refusal :=
  answer s (s.hostTs (64 * ch.val + 1) (flg range 0))

/-- THERM_CTRL_WRITE (R118). -/
def execThermCtrlWrite (value : Word) (s : State) : Host.Outcome State Fault Refusal := answer s (s.hostWrite 54 value)

/-- CLUSTER_PWR_WRITE (R453). -/
def execClusterPwrWrite (value : BitVec 24) (s : State) : Host.Outcome State Fault Refusal :=
  answer s (s.hostTs 0x7023 (fld value 0))

/-! ### Auxiliary front end -/

/-- COMMIT (R189). -/
def execCommit (conv : Fin 4) (s : State) : Host.Outcome State Fault Refusal :=
  answer s (s.hostWrite 36 (s.aux.ctrl ||| flg true conv.val))

/-- AMP_RESET (R197). -/
def execAmpReset (conv : Fin 4) (s : State) : Host.Outcome State Fault Refusal :=
  answer s (s.hostWrite 36 (s.aux.ctrl ||| flg true (4 + conv.val)))

/-- EXCITATION_WRITE (R191). -/
def execExcitationWrite (src : Fin 4) (value : Word) (s : State) : Host.Outcome State Fault Refusal :=
  answer s (s.hostTs (0x1050 + src.val) value)

/-- EXC_RESTORE (R203). -/
def execExcRestore (mask : BitVec 4) (s : State) : Host.Outcome State Fault Refusal := answer s (s.hostWrite 35 (fld mask 16))

/-! ### Harrow -/

/-- APPLY (R236). -/
def execApply (ch : Fin 24) (s : State) : Host.Outcome State Fault Refusal :=
  answer s (s.hostTs (64 * ch.val + 2) (s.harrowWord ch.val ||| flg true 9))

/-- The address of the BQ_CTRL word of a block (R242). -/
def bqCtrl (ch : Nat) (g : Group) : Nat := 0x3000 + 64 * ch + (match g with | .fast => 0 | .slow => 32) + 31

/-- BIQUAD_COMMIT (R243). -/
def execBiquadCommit (ch : Fin 24) (group : Group) (s : State) : Host.Outcome State Fault Refusal :=
  answer s (s.hostTs (bqCtrl ch.val group) (fld ((s.chan ch.val).biquads group).stageEn 0 ||| flg true 8))

/-- DIAG_SEL_CHANGE (R246). -/
def execDiagSelChange (sel : BitVec 2) (s : State) : Host.Outcome State Fault Refusal :=
  answer s (s.hostTs (64 * 23 + 2) (setField (s.harrowWord 23) 16 sel))

/-! ### Recognisers, captures, Scarecrow -/

/-- EVT_CTRL_WRITE (R253). -/
def execEvtCtrlWrite (value : Word) (s : State) : Host.Outcome State Fault Refusal := answer s (s.hostWrite 33 value)

/-- REC_PARAM_WRITE (R254). -/
def execRecParamWrite (r : Fin 6) (offset : Fin 8) (value : Word) (s : State) : Host.Outcome State Fault Refusal :=
  answer s (s.hostTs (0x4000 + 16 * r.val + offset.val) value)

/-- SET_REF (R271). -/
def execSetRef (s : State) : Host.Outcome State Fault Refusal := answer s (s.hostTs 0x4040 (s.recog.param 4 0 ||| flg true 4))

/-- RESULT_SNAPSHOT_READ (R257). -/
def execResultSnapshotRead (r : Fin 6) (s : State) : Host.Outcome State Fault Refusal :=
  answer s (s.hostTsRead (0x4008 + 16 * r.val))

/-- ARM (R278). -/
def execArm (s : State) : Host.Outcome State Fault Refusal := answer s (s.hostWrite 39 (s.capKeep ||| flg true 0))

/-- TRIG (R278). -/
def execTrig (s : State) : Host.Outcome State Fault Refusal := answer s (s.hostWrite 39 (s.capKeep ||| flg true 1))

/-- ABORT (R281). -/
def execAbort (s : State) : Host.Outcome State Fault Refusal := answer s (s.hostWrite 39 (s.capKeep ||| flg true 2))

/-- RELEASE (R277). -/
def execRelease (slot : Fin 16) (s : State) : Host.Outcome State Fault Refusal :=
  answer s (s.hostTs (0x4080 + slot.val) (flg true 2))

/-- OWNER_CHANGE (R43). -/
def execOwnerChange (owner : Bool) (s : State) : Host.Outcome State Fault Refusal :=
  answer s (s.hostWrite 39 (setField s.capKeep 3 (BitVec.ofBool owner)))

/-- SLOTS_CHANGE (R275). -/
def execSlotsChange (slots : BitVec 3) (s : State) : Host.Outcome State Fault Refusal :=
  answer s (s.hostWrite 39 (setField s.capKeep 4 slots))

/-- SCAR_REARM (R252). -/
def execScarRearm (s : State) : Host.Outcome State Fault Refusal := answer s (s.hostWrite 32 (flg true 6))

/-! ### Spectral engine -/

/-- SPEC_RUN (R291). -/
def execSpecRun (s : State) : Host.Outcome State Fault Refusal := answer s (s.hostWrite 37 (s.spec.ctrl ||| flg true 0))

/-- SPEC_STOP (R311). -/
def execSpecStop (s : State) : Host.Outcome State Fault Refusal := answer s (s.hostWrite 37 (s.spec.ctrl &&& ~~~(flg true 0)))

/-- CAP_GO (R307). -/
def execCapGo (slot : Fin 16) (s : State) : Host.Outcome State Fault Refusal :=
  answer s (s.hostWrite 37 (setField s.spec.ctrl 8 (BitVec.ofNat 4 slot.val) ||| flg true 1))

/-- SPEC_ABORT (R311). -/
def execSpecAbort (s : State) : Host.Outcome State Fault Refusal := answer s (s.hostWrite 37 (s.spec.ctrl ||| flg true 2))

/-- HOLD (R302). -/
def execHold (on : Bool) (s : State) : Host.Outcome State Fault Refusal :=
  answer s (s.hostWrite 37 (setField s.spec.ctrl 3 (BitVec.ofBool on)))

/-- SPEC_COUNTERS_CLEAR (R313). -/
def execSpecCountersClear (s : State) : Host.Outcome State Fault Refusal := answer s (s.hostTs 0xB010 0#32)

/-- LEARN (R306). -/
def execLearn (s : State) : Host.Outcome State Fault Refusal := answer s (s.hostTs 0xB00C (flg true 0))

/-! ### State machines -/

/-- SM_START (R345). -/
def execSmStart (mask : BitVec 8) (s : State) : Host.Outcome State Fault Refusal := answer s (s.hostTs 0x6080 (fld mask 0))

/-- SM_STOP (R346). -/
def execSmStop (mask : BitVec 8) (s : State) : Host.Outcome State Fault Refusal := answer s (s.hostTs 0x6080 (fld mask 8))

/-! ### Stream and buffer -/

/-- STREAM_START (R356): BUF_CTRL.ENABLE and STREAM_CTRL.RUN are set. -/
def execStreamStart (s : State) : Host.Outcome State Fault Refusal :=
  answer s ((s.hostWrite 30 (s.buf.ctrl ||| flg true 0)).hostWrite 26 (s.buf.streamCtrl ||| flg true 0))

/-- STREAM_STOP (R369): ENABLE or RUN is cleared. -/
def execStreamStop (enable : Bool) (s : State) : Host.Outcome State Fault Refusal :=
  answer s (if enable then s.hostWrite 30 (s.buf.ctrl &&& ~~~(flg true 0)) else s.hostWrite 26 (s.buf.streamCtrl &&& ~~~(flg true 0)))

/-- The register of a stream group (R351). -/
def groupReg : Group → Fin 64
  | .fast => 24
  | .slow => 25

/-- LAYOUT_CHANGE (R357). -/
def execLayoutChange (group : Group) (value : Word) (s : State) : Host.Outcome State Fault Refusal :=
  answer s (s.hostWrite (groupReg group) value)

/-- PHASE_CHANGE (R618). -/
def execPhaseChange (minimum : Bool) (s : State) : Host.Outcome State Fault Refusal :=
  answer s (s.hostWrite 26 (setField s.buf.streamCtrl 8 (BitVec.ofBool minimum)))

/-- FLUSH (R382). -/
def execFlush (s : State) : Host.Outcome State Fault Refusal := answer s (s.hostWrite 30 (s.buf.ctrl ||| flg true 1))

/-- DROP_CLR (R381). -/
def execDropClr (s : State) : Host.Outcome State Fault Refusal := answer s (s.hostWrite 30 (s.buf.ctrl ||| flg true 2))

/-- BUF_DATA_READ (R375). -/
def execBufDataRead (s : State) : Host.Outcome State Fault Refusal := answer s (s.hostRead 27)

/-- BUF_THRESH_WRITE (R377). -/
def execBufThreshWrite (value : Word) (s : State) : Host.Outcome State Fault Refusal := answer s (s.hostWrite 29 value)

/-! ### Interrupts, 64-bit quantities -/

/-- The claim register of a target (R393). -/
def claimReg : HostTarget → Fin 64
  | .t0 => 16
  | .t1 => 17

/-- INT_CLAIM (R404). -/
def execIntClaim (x : HostTarget) (s : State) : Host.Outcome State Fault Refusal := answer s (s.hostRead (claimReg x))

/-- INT_COMPLETE (R409). -/
def execIntComplete (x : HostTarget) (value : Word) (s : State) : Host.Outcome State Fault Refusal :=
  answer s (s.hostWrite (claimReg x) value)

/-- INT_STATS_CLEAR (R415). -/
def execIntStatsClear (s : State) : Host.Outcome State Fault Refusal := answer s (s.hostWrite 23 0#32)

/-- LOW_WORD_READ (R466). -/
def execLowWordRead (index : Fin 64) (s : State) : Host.Outcome State Fault Refusal := answer s (s.hostRead index)

/-! ### Power, window -/

/-- PWR_REQ_WRITE (R421). -/
def execPwrReqWrite (value : Word) (s : State) : Host.Outcome State Fault Refusal := answer s (s.hostWrite 8 value)

/-- OP_RAISE (R442): a write of OP_REQ. -/
def execOpRaise (value : BitVec 2) (s : State) : Host.Outcome State Fault Refusal := answer s (s.hostWrite 11 (fld value 0))

/-- OP_LOWER (R444): a write of OP_REQ. -/
def execOpLower (value : BitVec 2) (s : State) : Host.Outcome State Fault Refusal := answer s (s.hostWrite 11 (fld value 0))

/-- WIN_DATA_ACCESS (R471). -/
def execWinDataAccess (write : Bool) (value : Word) (s : State) : Host.Outcome State Fault Refusal :=
  answer s (if write then s.hostWrite 57 value else s.hostRead 57)

/-- WIN_ADDR_WRITE (R469). -/
def execWinAddrWrite (value : Word) (s : State) : Host.Outcome State Fault Refusal := answer s (s.hostWrite 56 value)

/-! ### Command registers, mailbox, link, memory port -/

/-- CMD_ARG_WRITE (R490). -/
def execCmdArgWrite (value : Word) (s : State) : Host.Outcome State Fault Refusal := answer s (s.hostWrite 41 value)

/-- CLEAR (R491). -/
def execClear (s : State) : Host.Outcome State Fault Refusal := answer s (s.hostWrite 45 (flg true 1))

/-- MBX_IN_WRITE (R495). -/
def execMbxInWrite (value : Word) (s : State) : Host.Outcome State Fault Refusal := answer s (s.hostWrite 47 value)

/-- MBX_OUT_READ (R495). -/
def execMbxOutRead (s : State) : Host.Outcome State Fault Refusal := answer s (s.hostRead 48)

/-- MBX_FLUSH (R562). -/
def execMbxFlush (s : State) : Host.Outcome State Fault Refusal := answer s (s.hostWrite 49 (flg true 24))

/-- LINK_RELEASE (R497). -/
def execLinkRelease (s : State) : Host.Outcome State Fault Refusal := answer s (s.hostWrite 50 (flg true 8))

/-- STATS_CLR (R498). -/
def execStatsClr (s : State) : Host.Outcome State Fault Refusal := answer s (s.hostWrite 51 (flg true 8))

/-- HOST_TAKE (R555). -/
def execHostTake (s : State) : Host.Outcome State Fault Refusal := answer s (s.hostWrite 52 (s.mport.ctrl ||| flg true 0))

/-- HOST_TAKE_CLEAR (R555). -/
def execHostTakeClear (s : State) : Host.Outcome State Fault Refusal :=
  answer s (s.hostWrite 52 (s.mport.ctrl &&& ~~~(flg true 0)))

/-- REGISTER_WRITE (R4, R467, R468). -/
def execRegisterWrite (index : Fin 64) (value : Word) (s : State) : Host.Outcome State Fault Refusal :=
  answer s (s.hostWrite index value)

end Sys2Proof.Machine
end

