-- ==== Sys2Proof/Machine/Mailbox.lean ====
section
/-!
DEFINITION. The mailbox services of Zoruimen (R561 to R567), the identification reads and calibration cycles they wait for
(R209, R217), and the service of sources at T2 (R416).
-/

namespace Sys2Proof.Machine

open Sys2Proof

/-- The first message of MBX_IN, once all of it is there (R561, R562). -/
def Mgmt.message (m : Mgmt) : Option Request :=
  match m.inQ with
  | [] => none
  | h :: rest =>
    let n := (bits h 16 6 : BitVec 6).toNat
    if n ≤ rest.length then some ⟨h, rest.take n⟩ else none

/-- Zoruimen takes up the first message (R562). -/
def State.takeUpMessage (r : Request) (s : State) : State :=
  s.modMgmt fun m =>
    { m with req := some r, inQ := m.inQ.drop (r.payload.length + 1), inAt := m.inAt.drop (r.payload.length + 1) }

/-- The service code of a request (R561). -/
def Request.service (r : Request) : BitVec 8 := bits r.hdr 0 8

/-- Word k of a payload. -/
def Request.arg (r : Request) (k : Nat) : Word := r.payload.getD k 0#32

/-- A service row: Zoruimen takes the first message where it is complete and names the service (R562). -/
def State.serveMessage (code : BitVec 8) (f : Request → State → State) (s : State) : Host.Outcome State Fault Refusal :=
  match s.mgmt.message with
  | some r => event (s.coreUp && s.mgmt.req.isNone && r.service == code) s (f r (s.takeUpMessage r))
  | none => .next s

/-- A service whose payload must have n words; any other length is answered with STATUS 0x02. -/
def withLen (n : Nat) (f : Request → State → State) (r : Request) (s : State) : State :=
  if r.payload.length = n then f r s else s.reply 2#8 []

/-- 10 ms have passed since the header of the first message arrived (R562). -/
def State.headerOld (s : State) : Bool := s.usSince (s.mgmt.inAt.headD 0#64) 10000

/-- MESSAGE_INCOMPLETE (R562). -/
def execMessageIncomplete (s : State) : Host.Outcome State Fault Refusal :=
  match s.mgmt.inQ with
  | [] => .next s
  | h :: _ =>
    event (s.coreUp && s.mgmt.req.isNone && s.mgmt.message.isNone && s.headerOld) s
      ((s.modMgmt fun m => { m with inQ := [], inAt := [], req := some ⟨h, []⟩ }).reply 3#8 [])

/-- The service codes of R563. -/
def knownService (c : BitVec 8) : Bool := decide (1 ≤ c.toNat ∧ c.toNat ≤ 10)

/-- UNKNOWN_SERVICE (R562). -/
def execUnknownService (s : State) : Host.Outcome State Fault Refusal :=
  match s.mgmt.message with
  | some r => event (s.coreUp && s.mgmt.req.isNone && !knownService r.service) s ((s.takeUpMessage r).reply 1#8 [])
  | none => .next s

/-! ### Log and health -/

/-- The records of LOG_READ: from number `first` on, or from the oldest held where `first` is older, n at most (R563). -/
def Mgmt.readLog (m : Mgmt) (first : Word) (n : Nat) : List LogRec :=
  match m.logRing with
  | [] => []
  | o :: _ =>
    let back := (first - o.seq).toInt
    (m.logRing.drop back.toNat).take n

/-- LOG_READ (R563). -/
def State.logRead (r : Request) (s : State) : State :=
  let n := (bits (r.arg 1) 0 3 : BitVec 3).toNat
  if n = 0 then s.reply 2#8 []
  else
    let recs := s.endSeq.mgmt.readLog (r.arg 0) n
    let w0 := match recs.getLast? with
      | some x => x.seq + 1#32
      | none => Config.logReadEmpty (r.arg 0) s.mgmt.logNext
    let t := s.flashReads (recs.map fun x => recordAddr x.seq)
    let t := if bitAt (r.arg 1) 8 then t.writeMgmt 5 w0 else t
    t.reply 0#8 (w0 :: recs.flatMap LogRec.words)

/-- LOG_READ (R563): it reads the flash, and waits for the bus (R557). -/
def execLogRead (s : State) : Host.Outcome State Fault Refusal :=
  if s.flashFree then s.serveMessage 1#8 (withLen 2 State.logRead) else .next s

/-- The place of a unit's region in HEALTH_REPORT: the six regions, then Scarecrow X, Y, Z. -/
def reportRegion (u : Nat) : Nat := if u < 648 then unitRegion u else 6 + unitRegion u

/-- The number of units at place r of the report in a state. -/
def State.countUnits (s : State) (r : Nat) (st : UnitState) : Nat :=
  countUpto (fun u => reportRegion u == r && (s.unit u).state == st) 660

/-- The word of region r in HEALTH_REPORT (R563). -/
def State.healthWord (s : State) (r : Nat) : Word :=
  BitVec.ofNat 32 (s.countUnits r .active + 256 * s.countUnits r .spare + 65536 * s.countUnits r .fallow +
    16777216 * s.countUnits r .dead)

/-- Words of a health report for the nine regions. -/
def State.healthWords (s : State) : List Word := (List.range 9).map s.healthWord

/-- Age in ms of the oldest uncommitted change (R563); how a part of a millisecond shows is not stated. -/
def State.uncommittedAge (s : State) : Word :=
  match s.arr.dirtySince with
  | some h => BitVec.ofInt 32 (quotient (((s.clk.ht - h) * 1000 : Nat) : Int) 32768)
  | none => 0#32

/-- HEALTH_REPORT (R563). -/
def execHealthReport (s : State) : Host.Outcome State Fault Refusal :=
  s.serveMessage 2#8 (withLen 0 fun _ t => t.reply 0#8 (t.healthWords ++ [t.uncommittedAge]))

/-! ### Sensors -/

/-- SENSOR_READ (R563, R567): the measurements made after the request are operands. -/
def execSensorRead (values : Vector Word 16) (s : State) : Host.Outcome State Fault Refusal :=
  s.serveMessage 3#8 (withLen 1 fun r t =>
    t.reply 0#8 (((List.range 16).filter fun k => bitAt (r.arg 0) k).map fun k => values.getD k 0#32))

/-- A second has passed since the latest measurement, or there is none since Zoruimen was started (R566). -/
def State.sensDue (s : State) : Bool :=
  match s.mgmt.sensAt with
  | some t => s.usSince t 1000000
  | none => true

/-- SENSOR_MEASURE (R566): once every second while MC is On. -/
def execSensorMeasure (values : Vector Word 16) (s : State) : Host.Outcome State Fault Refusal :=
  event (s.coreUp && s.sensDue) s (s.modMgmt fun m => { m with sens := values, sensAt := some s.clk.tsc })

/-! ### Identification reads and calibration cycles -/

/-- AUX_DISCOVER (R209, R563): the reply waits for the end of the read. -/
def execAuxDiscover (s : State) : Host.Outcome State Fault Refusal :=
  s.serveMessage 4#8 (withLen 1 fun r t => t.modAux fun a =>
    { a with tedsBusy := putBit a.tedsBusy (bits (r.arg 0) 0 2 : BitVec 2).toNat true, tedsTag := some r.hdr })

/-- The request of AUX_DISCOVER waits for port p. -/
def State.discovers (s : State) (p : Nat) : Bool :=
  match s.mgmt.req with
  | some r => s.aux.tedsTag.isSome && (bits (r.arg 0) 0 2 : BitVec 2).toNat == p
  | none => false

/-- TEDS_DONE (R209, R211, R563): the image decoded from what the memory answers. -/
def execTedsDone (port : Fin 4) (found : TedsFound) (s : State) : Host.Outcome State Fault Refusal :=
  let p := port.val
  let t := s.storeTeds p found
  let u :=
    if s.discovers p then (t.modAux fun a => { a with tedsTag := none }).reply 0#8 [(tedsImage p found).headD 0#32 &&& 0xFF#32]
    else t
  event (s.coreUp && s.aux.tedsBusy.getLsbD p) s u

/-- CAL_RUN (R217, R563): not possible while XF is not On or gated. -/
def State.calRun (r : Request) (s : State) : State :=
  let mask : BitVec 4 := bits (r.arg 0) 0 4
  if !(s.isOn .xf && s.clken 2) then s.reply 4#8 []
  else if mask = 0#4 then s.reply 0#8 [0#32]
  else (s.modAux fun a => { a with calDone := 0#4, calTag := some r.hdr }).calAdd mask

/-- CAL_RUN (R217, R563). -/
def execCalRun (s : State) : Host.Outcome State Fault Refusal := s.serveMessage 5#8 (withLen 1 State.calRun)

/-- CAL_CYCLE_DONE (R217): after the last converter the request is answered. -/
def execCalCycleDone (conv : Fin 4) (s : State) : Host.Outcome State Fault Refusal :=
  let t := s.calConvDone conv
  let u :=
    if t.aux.calQueue = 0#4 ∧ t.aux.calTag.isSome then
      (t.modAux fun a => { a with calTag := none }).reply 0#8 [fld t.aux.calDone 0]
    else t
  event (s.calibrating conv) s u

/-! ### Configuration -/

/-- CONFIG_STAGE (R563, R564): a message taken up, or one that waited for a domain going on. -/
def execConfigStage (s : State) : Host.Outcome State Fault Refusal :=
  if s.staging then answer s s.stageOn else s.serveMessage 6#8 (withLen 0 fun _ t => t.stageFrom false)

/-- CONFIG_RESTORE (R563, R565): without a committed configuration there is no item to apply. -/
def State.configRestore (s : State) : State :=
  match s.endSeq.mgmt.newerCfg with
  | none => s.reply 5#8 []
  | some c => s.storeWork.restoreStart c.list

/-- CONFIG_RESTORE (R557, R563, R565): a message taken up once the flash bus is free, or a restore that waited for a domain going
on. -/
def execConfigRestore (s : State) : Host.Outcome State Fault Refusal :=
  if !s.mgmt.restore.isEmpty then answer s s.restoreOn
  else if s.flashFree then s.serveMessage 7#8 (withLen 0 fun _ t => t.configRestore)
  else .next s

/-! ### Update -/

/-- Bytes of a slot before its control sector (R575). -/
def slotBytes : Nat := 0xFF000

/-- A write of UPDATE_STAGE (R579): offset and words; a write at 0 erases the slot first. In TRIAL the inactive slot holds the
image to fall back to, and the service answers that it is not possible. -/
def State.updateStage (flashOk : Bool) (r : Request) (s : State) : State :=
  let off := (r.arg 0).toNat
  let data := r.payload.drop 1
  let b := !s.mgmt.runSlot
  if r.payload.length = 0 ∨ 61 < r.payload.length then s.reply 2#8 []
  else if s.mgmt.upd = .trial then s.reply 4#8 []
  else if (off ≠ 0 ∧ off ≠ s.mgmt.updPos) ∨ slotBytes < off + 4 * data.length then s.reply 2#8 []
  else if !flashOk then s.flashError.reply 6#8 []
  else
    let bytes := data.flatMap leBytes
    let t := s.flashWork ((if off = 0 then eraseBlocks (imageBase b) 256 else []) ++
      pageRuns s.mport.page bytes.length (imageBase b + off) bytes)
    let t := t.modMgmt fun m =>
      let m := if off = 0 then m.modSlot b fun _ => { confirm := false, found := false } else m
      { m.modSlot b fun x => { x with version := if 12 ≤ off + 4 * data.length then t.imageVersion b else 0#32, passes := false } with
        updPos := off + 4 * data.length }
    (t.setUpd .staging).reply 0#8 []

/-- UPDATE_STAGE (R563, R579). -/
def execUpdateStage (flashOk : Bool) (s : State) : Host.Outcome State Fault Refusal :=
  if s.flashFree then s.serveMessage 8#8 (fun r t => t.updateStage flashOk r) else .next s

/-! ### Captures in flash -/

/-- The words of a capture slot up to its last sample (R280). -/
def State.slotImage (s : State) (k : Nat) : List Word :=
  let base := slotBase s.cap.slots k
  let at_ (i : Nat) : Word := Mem.get 0#32 s.cap.store (base + i)
  let mask : BitVec 24 := bits (at_ 1) 0 24
  let held := (bits (at_ 2) 0 24 : BitVec 24).toNat + (bits (at_ 3) 0 24 : BitVec 24).toNat
  let oldest := (bits (at_ 6) 0 24 : BitVec 24).toNat
  let samples := min (slotSamples s.cap.slots mask) (oldest + held)
  (List.range (16 + popcount mask * samples)).map at_

/-- The spills after the oldest ones have made room for n bytes (R563). -/
def makeRoom (area n : Nat) : List Spill → List Spill
  | [] => []
  | p :: ps => if (p.bytes + (ps.map Spill.bytes).sum) + n ≤ area then p :: ps else makeRoom area n ps

/-- A capture slot spilled under the next index (R563). -/
def State.spill (k : Nat) (s : State) : State :=
  let w := s.slotImage k
  let t := s.modMgmt fun m =>
    { m with
      spills := makeRoom s.mport.spillArea (4 * w.length) m.spills ++ [⟨m.spillNext, w⟩]
      spillNext := m.spillNext + 1#16 }
  t.modCap fun c => c.modEntry k fun d => { d with spilled := true }

/-- CAPTURE_SPILL of a slot whose request is in hand (R44, R90, R94, R262, R308, R437, R563): it reads the directory, for which it
waits for CS, then the slot, and marks the directory; without access to one of them the service is not possible. -/
def State.captureSpill (flies flashOk : Bool) (k : Nat) (s : State) : State :=
  if !s.cap.owner then s.spillStops (s.slotAddr k)
  else if s.dirTurned flies then s.spillStops (dirAddr k)
  else if !s.isOn .cs then s.demand .cs
  else if !(s.cap.entry k).used then (s.reply 4#8 []).endFlight dirGates
  else if !s.clken 7 || s.spec.mode = .capture then s.spillStops (s.slotAddr k)
  else if !s.clken 3 then s.spillStops (dirAddr k)
  else if !flashOk then s.flashError.reply 6#8 []
  else ((s.storeWork.touch .cs).spill k).reply 0#8 [fld s.mgmt.spillNext 0, BitVec.ofNat 32 (4 * (s.slotImage k).length)]

/-- A CAPTURE_SPILL message taken up: while OWNER is 0 the service is not possible (R563). -/
def State.takeSpill (flashOk : Bool) (r : Request) (s : State) : State :=
  if s.cap.owner then s.captureSpill false flashOk r.slot else s.reply 4#8 []

/-- The slot that SPILL_AUTO spills next (R275): a completed capture not yet spilled. -/
def State.autoSpill (s : State) : Option Nat :=
  if s.cap.spillAuto && s.cap.owner then
    firstFrom (fun k => (s.cap.entry k).used && !(s.cap.entry k).spilled) 0 16
  else none

/-- A spill under SPILL_AUTO, after which the slot is released (R44, R90, R94, R262, R275, R308). -/
def State.spillAuto (flies flashOk : Bool) (k : Nat) (s : State) : State :=
  if s.dirTurned flies then s.autoStops (dirAddr k)
  else if !s.isOn .cs then (s.modMgmt fun m => { m with autoWait := some k }).demand .cs
  else if !s.clken 7 || s.spec.mode = .capture then s.autoStops (s.slotAddr k)
  else if !s.clken 3 then s.autoStops (dirAddr k)
  else
    let t := s.modMgmt fun m => { m with autoWait := none }
    if !flashOk then t.flashError
    else if !(t.cap.entry k).used then t
    else ((t.storeWork.touch .cs).spill k).releaseSlot k

/-- CAPTURE_SPILL (R275, R563): a request that waits for CS going on, a spill under SPILL_AUTO, or a message taken up. -/
def execCaptureSpill (flashOk : Bool) (s : State) : Host.Outcome State Fault Refusal :=
  if !(s.flashFree && s.coreUp) then .next s
  else match s.spilling with
    | some r => answer s (s.endSeq.captureSpill true flashOk r.slot)
    | none => match s.mgmt.autoWait.or s.autoSpill with
      | some k => answer s (s.endSeq.spillAuto s.mgmt.autoWait.isSome flashOk k)
      | none => s.serveMessage 9#8 (withLen 1 fun r t => t.endSeq.takeSpill flashOk r)

/-- SPILL_READ (R563). -/
def State.spillRead (r : Request) (s : State) : State :=
  let off := (r.arg 1).toNat
  let n := (r.arg 2).toNat
  if n = 0 ∨ 60 < n then s.reply 2#8 []
  else match s.mgmt.spills.find? fun p => p.index == (bits (r.arg 0) 0 16 : BitVec 16) with
    | none => s.reply 5#8 []
    | some p => if p.words.length < off + n then s.reply 2#8 [] else s.reply 0#8 ((p.words.drop off).take n)

/-- SPILL_READ (R563): it reads the flash, and waits for the bus (R557). -/
def execSpillRead (s : State) : Host.Outcome State Fault Refusal :=
  if s.flashFree then s.serveMessage 10#8 (withLen 3 fun r t => t.storeWork.spillRead r) else .next s

/-! ### The watchdog (R559) -/

/-- The services that use the flash: LOG_READ, CONFIG_RESTORE, UPDATE_STAGE, CAPTURE_SPILL, SPILL_READ. -/
def flashService (c : BitVec 8) : Bool := [1#8, 7#8, 8#8, 9#8, 10#8].contains c

/-- Zoruimen has a work for the flash: a command, records, a map change, a service, a spill, the end of a trial, bytes to program or
a read (R557). -/
def State.flashDue (s : State) : Bool :=
  let m := s.mgmt
  m.busy || !m.logQ.isEmpty || m.logOvf != 0 || s.arr.dirtySince.isSome || s.mport.coreNeed.isSome || s.mport.seq.isSome ||
    s.mport.buffer.isSome || s.spilling.isSome || m.autoWait.isSome || s.autoSpill.isSome ||
    (m.req.isNone && m.message.any fun r => flashService r.service) ||
    (m.upd == .trial && decide (600 * 32768 ≤ s.clk.ht - m.zorHt))

/-- The core waits for a flash bus granted to the host (R557). -/
def State.coreWaits (s : State) : Bool := s.mport.granted && s.flashDue

/-- WATCHDOG (R559): it counts only while MC is On and the core is not waiting for a flash bus granted to the host. -/
def execWatchdog (lspd : BitVec 2) (s : State) : Host.Outcome State Fault Refusal :=
  if s.isOn .mc && !s.coreWaits then
    answerFresh ((s.releaseReset lspd 0x0004#16 0x07#8).wakeLog.log 0x09#8 0x04#8 0#32 0#32 0#32)
  else .next s

/-! ### Sources at T2 (R416) -/

/-- The address of the word that holds a source's bits, and the mask of the bits (R396): a register's byte offset or a
table-space address. -/
def sourcePlace (n : Nat) : Nat × Word :=
  if 1 ≤ n ∧ n ≤ 8 then (0x6081, flg true (n - 1))
  else if 9 ≤ n ∧ n ≤ 14 then (0x80, flg true (n - 9))
  else match n with
    | 15 => (0x80, 0xC0#32)
    | 16 => (0x7C, 1#32)
    | 17 => (0x7C, 2#32)
    | 18 => (0x7C, 4#32)
    | 19 => (0x80, 0x100#32)
    | 20 => (0x8C, 0x0F000000#32)
    | 21 => (0x8C, 0x00000F00#32)
    | 22 => (0x8C, 0x10F00000#32)
    | 23 => (0x88, flg true 23)
    | 24 => (0x88, flg true 24)
    | 25 => (0x98, 0xC#32)
    | 26 => (0x24, flg true 27)
    | 27 => (0x24, flg true 28)
    | 28 => (0x24, flg true 29)
    | 29 => (0x2C, flg true 10)
    | 30 => (0x30, flg true 16)
    | 31 => (0x30, flg true 17)
    | 32 => (0x30, flg true 18)
    | 33 => (0xCC, 1#32)
    | 34 => (0xCC, 2#32)
    | 35 => (0xD4, 2#32)
    | 36 => (0xD4, 4#32)
    | 43 => (0xDC, 0x20#32)
    | 44 => (0xDC, 0x40#32)
    | 45 => (0x3C, 0xC#32)
    | 46 => (0x88, flg true 25)
    | 47 => (0x88, flg true 26)
    | _ => (0, 0#32)

/-- The bits that make a source active. -/
def State.sourceBits (s : State) (n : Nat) : Word :=
  let p := sourcePlace n
  p.2 &&& (if p.1 = 0x6081 then (s.tsWord 0x6081).getD 0#32 else (s.readReg (p.1 / 4) false).1)

/-- Those bits are cleared in the owning block; the RW fields beside them stand. -/
def State.clearSource (n : Nat) (s : State) : State :=
  let p := sourcePlace n
  let b := s.sourceBits n
  if p.1 = 0x6081 then s.tsWrite 0x6081 b
  else if p.1 = 0x2C then s.modPwr fun x => { x with doneEvt := false }
  else s.writeReg (p.1 / 4) (b ||| (if p.1 = 0x3C then flg s.clk.align 0 else 0#32)) 0#12

/-- Zoruimen's service of source n (R416): claim, log record, clear, completion. -/
def State.serveT2 (n : Nat) (s : State) : State :=
  let t := s.serve 2#2 n
  let t := (t.clearSource n).log 0x08#8 (BitVec.ofNat 8 n) (t.sourceBits n) (BitVec.ofNat 32 (sourcePlace n).1) 0#32
  t.modInt fun c => c.setCfg n fun q => { q with serv := none }

/-- T2_SERVICE (R416): with MC not On the presentation wakes it on demand. -/
def execT2Service (s : State) : Host.Outcome State Fault Refusal :=
  match s.presented 2#2 with
  | none => .next s
  | some n => event s.hasLk s (if s.coreUp then s.serveT2 n else s.demand .mc)

end Sys2Proof.Machine
end

