-- ==== Sys2Proof/Machine/PowerLoss.lean ====
section
/-!
DEFINITION. The hold-up actions at a loss of power (R587).
-/

namespace Sys2Proof.Machine

open Sys2Proof

/-- The queued records are marked as being flushed, and, while the supply holds, written to the rescue area (R587). -/
def Mgmt.holdUp (m : Mgmt) (held : Bool) : Mgmt :=
  if m.logQ.isEmpty then m
  else if held then { m with flushMark := true, flushOk := true, rescue := m.rescue.write (m.rescue.newest ++ m.logQ), logQ := [] }
  else { m with flushMark := true, flushOk := false }

/-- POWER_FAIL (R587): no flash operation starts; Zoruimen, where it runs, saves its log queue. -/
def execPowerFail (held : Bool) (s : State) : Host.Outcome State Fault Refusal :=
  let t := s.modMgmt fun m => { m with pfail := true }
  answer s (if s.isOn .mc then t.modMgmt fun m => m.holdUp held else t)

end Sys2Proof.Machine
end

