-- ==== Sys2Proof/Machine/TimingLink.lean ====
section
/-!
DEFINITION. Frames of the timing link (15_timing_link.md): headers, reads, writes, epochs, discovery, addresses, attention.
Every frame is one command, which linkFrame reads from its bits: a frame that ends at a word boundary is the command of its
opcode, one that is cut mid-word is LINK_ABORT. A response that waits for a wake goes on when the wake ends (State.endWait),
unless the next frame has begun.
-/

namespace Sys2Proof.Machine

open Sys2Proof

/-- The module samples the link: LCLK runs, outside reset and Park and the entry into it (R460, R527). -/
def State.linkUp (s : State) : Bool := s.hasLk && s.clk.lclkPresent && s.clk.park == .running

/-- An address is the module's own (R516). -/
def State.own (s : State) (addr : BitVec 5) : Bool := s.link.assigned && addr == s.link.addr && addr != 31#5

/-- A frame names the module or every module (R516). -/
def State.named (s : State) (addr : BitVec 5) : Bool := s.own addr || addr == 31#5

/-- The CRC word of a block checks (R515). -/
def crcOk (data : List Word) (crc : Word) : Bool := crc16 data == bits crc 0 16

/-- The words the module drove in a frame. -/
def State.drive (l : List Word) (s : State) : State := s.modLink fun x => { x with ldo := l }

/-! ### Status words (R522, R523) -/

/-- A busy word (R517). -/
def busyWord : Word := 0xB0B0B0B0#32

/-- The CHECK byte for an INDEX (R522). -/
def checkByte (index : BitVec 6) : BitVec 8 := (Config.uid >>> (8 * (index.toNat % 8))).setWidth 8

/-- The next frame begins: the one before it is over, and LDO is released until the module drives it (R512, R514, R518). -/
def State.newFrame (s : State) : State := s.modLink fun x => { x with wait := none, ldo := [] }

/-- The READY word of a frame that has woken no domain (R522). -/
def State.readyWord (s : State) (index : BitVec 6) : Word :=
  0xA5#32 ||| fld (checkByte index) 8 ||| flg s.clk.epochValid 17 ||| flg s.clk.coast 18 ||| flg s.int.line0 19 |||
    flg s.int.line1 20 ||| flg s.bufAbove 21 ||| flg s.anyDegraded 22 ||| fld s.link.addr 24

/-- The READY word, with WOKE where a domain was woken for the frame (R522). -/
def State.ready (s : State) (index : BitVec 6) (woke : Bool) : Word := s.readyWord index ||| flg woke 16

/-- A FAIL word (R522). -/
def State.failWord (s : State) (index : BitVec 6) (cause : BitVec 4) (d : BitVec 4) : Word :=
  0x5A#32 ||| fld (checkByte index) 8 ||| fld cause 16 ||| fld d 20 ||| fld s.link.addr 24

/-- Another device drives a bit that the module released (R523). -/
def conflicts (driven bus : Word) : Bool := driven &&& ~~~bus != 0#32

/-- What the module drove of a word up to and with the bit of the conflict; the rest is released (R532). -/
def cutWord (driven bus : Word) : Word :=
  match firstFrom (fun k => bitAt driven (31 - k) && !bitAt bus (31 - k)) 0 32 with
  | some k => if k = 31 then driven else driven ||| (0xFFFFFFFF#32 >>> (k + 1))
  | none => driven

/-- The module gives up its address at a conflict (R532). -/
def State.conflict (s : State) : State :=
  let t := s.modLink fun x => { x.assign 31#5 with locked := false, discEvt := true }
  (t.stick 10).linkError 4#4

/-- The status words of a response that the host clocks, n at most, against what stands on LDO: the words driven, and whether
none met a conflict. -/
def sendStatus : Nat → List Word → List Word → List Word × Bool
  | 0, _, _ => ([], true)
  | _, [], _ => ([], true)
  | n + 1, w :: ws, bus =>
    let b := bus.headD w
    if conflicts w b then ([cutWord w b], false)
    else
      let r := sendStatus n ws bus.tail
      (w :: r.1, r.2)

/-! ### What a frame reaches (R518, R519, R520) -/

/-- A domain that an access would have to wake, or that is FAILED: with its flag FAILED. `flies`: the access has waited before. -/
def State.needs (s : State) (flies : Bool) (i : Nat) : Option (Dom × Bool) :=
  match s.resolveAs flies i with
  | .resting d => some (d, false)
  | .failed d => some (d, true)
  | _ => none

/-- The domains that the n words of a block read need. -/
def State.blockNeeds (s : State) (flies : Bool) (index : BitVec 6) (n : Nat) : List (Dom × Bool) :=
  (List.range n).filterMap fun k =>
    let i := blockIndex readFixed index k
    if 64 ≤ i then none else s.needs flies i

/-- A block has a word that needs a demand wake, which starts a domain or turns its wake to On (R427, R522). -/
def State.wakes (s : State) (l : List (Dom × Bool)) : Bool :=
  l.any fun e => s.demandStarts e.1 || ((s.dom e.1).st == .waking && (s.dom e.1).target != .on)

/-- A word of the block lies outside Headland: READY may come after up to two busy words (R517). -/
def State.blockBusy (s : State) (sticky : List Nat) (index : BitVec 6) (n : Nat) : Bool :=
  (List.range n).any fun k => let i := blockIndex sticky index k; decide (i < 64) && (s.regDom i).isSome && !s.regGated i

/-- Busy words before READY, with the state that has taken the free value. -/
def State.busyBefore (s : State) (busy : Bool) : Nat × State :=
  if busy then (min 2 (Config.busyWords s.fresh).toNat, { s with fresh := s.fresh + 1 }) else (0, s)

/-- Demand wakes for the domains of a block (R518, R520). -/
def State.wakeAll (l : List (Dom × Bool)) (s : State) : State := l.foldl (fun t e => t.demand e.1) s

/-- A word past index 63 (R519). -/
def State.overrun (s : State) : State := (s.stick 12).linkError 5#4

/-! ### READ (R517 to R519, R521) -/

/-- Data words k to k + n - 1 of a block read, each with its side effect; `single` says that the read has one word, `flies` that it
has waited. -/
def State.readBlock (flies : Bool) (index : BitVec 6) (single : Bool) (k : Nat) : Nat → State → List Word × State
  | 0, s => ([], s)
  | n + 1, s =>
    let i := blockIndex readFixed index k
    let r := if i < 64 then s.readAs (s.resolveAs flies i) i single else (0#32, s.overrun)
    let q := State.readBlock flies index single (k + 1) n r.2
    (r.1 :: q.1, q.2)

/-- The index of FAIL's DOMAIN field (R522). -/
def failDomain (d : Dom) : BitVec 4 := BitVec.ofNat 4 (domIdx d).val

/-- Status words of a response, at most n, driven after those that stand in `ldo`; with a conflict the address is given up. -/
def State.sendAfter (before : List Word) (n : Nat) (l : List Word) (bus : List Word) (s : State) : State :=
  let r := sendStatus n l bus
  let t := s.drive (before ++ r.1)
  if r.2 then t else t.conflict

/-- The response from READY on, n words of the frame being left: READY, the data words with their side effects, the CRC word
(R517). Its words take more than the 2 LK cycles of R401 (R519). -/
def State.readReady (flies woke : Bool) (before : List Word) (busy : Nat) (index : BitVec 6) (count n : Nat) (bus : List Word)
    (s : State) : State :=
  let s := s.modInt fun c => { c with gone0 := none, gone1 := none }
  let r := sendStatus n (List.replicate busy busyWord ++ [s.ready index woke]) bus
  if !r.2 then (s.drive (before ++ r.1)).conflict
  else
    let left := n - r.1.length
    let d := s.readBlock flies index (decide (count = 1)) 0 (min count left)
    let crc := if count < left then [fld (crc16 d.1) 0] else []
    d.2.drive (before ++ r.1 ++ d.1 ++ crc)

/-- A READ of the module with `words` words clocked after the header: FAIL where a domain is FAILED; where one is not On, demand
wakes and busy words, which count as one of `words`, with the rest of the frame to follow the wakes (R518); else READY, the
data words with their side effects, and the CRC word. -/
def State.linkRead (index : BitVec 6) (count : Nat) (words : Nat) (bus : List Word) (s : State) : State :=
  let needs := s.blockNeeds false index count
  match needs.find? (·.2) with
  | some e => s.sendAfter [] words [s.failWord index 1#4 (failDomain e.1)] bus
  | none =>
    if !needs.isEmpty then
      let r := sendStatus words [busyWord] bus
      let t := (s.wakeAll needs).drive r.1
      if r.2 then t.modLink fun x =>
        { x with wait := some ⟨false, index, count, words - 1, bus.tail, needs.map (·.1), s.wakes needs⟩ } else t.conflict
    else
      let p := s.busyBefore (s.blockBusy readFixed index count)
      p.2.readReady false false [] p.1 index count words bus

/-- A wake or a failure has come about: the READ in progress goes on once every domain it needs is On, or fails once one is
FAILED (R518). Without LCLK no word leaves. -/
def State.endWait (s : State) : State :=
  match s.link.wait with
  | none => s
  | some f =>
    if f.write || !s.linkUp || !s.link.assigned then s
    else
      let t := s.modLink fun x => { x with wait := none }
      let gates := s.blockGates readFixed f.index f.count
      match f.doms.find? fun d => (s.dom d).st == .failed with
      | some d => (t.sendAfter s.link.ldo f.left [s.failWord f.index 1#4 (failDomain d)] f.bus).endFlight gates
      | none =>
        if f.doms.all fun d => s.isOn d then
          (t.readReady true f.woke s.link.ldo 0 f.index f.count f.left f.bus).endFlight gates
        else s

/-- READ (R516 to R519, R521). -/
def execRead (addr : BitVec 5) (index : BitVec 6) (count : BitVec 8) (words : Nat) (bus : List Word) (s : State) :
    Host.Outcome State Fault Refusal :=
  event (s.linkUp && s.own addr && s.link.posted.isNone) s.newFrame (s.newFrame.linkRead index (count.toNat + 1) words bus)

/-! ### WRITE (R520, R521) -/

/-- Word k of a write applied; `flies`: the write has waited. -/
def State.applyWord (flies : Bool) (index : BitVec 6) (k : Nat) (w : Word) (s : State) : State :=
  let i := blockIndex writeFixed index k
  if i < 64 then s.writeAs (s.resolveAs flies i) i w 0#12 else s.overrun

/-- The words of a write applied in order. -/
def State.applyWords (flies : Bool) (index : BitVec 6) (k : Nat) : List Word → State → State
  | [], s => s
  | w :: ws, s => State.applyWords flies index (k + 1) ws (s.applyWord flies index k w)

/-- The domains that the words of a write need, each where the words before it leave the registers: a word to WIN_DATA lies where
WIN_ADDR then points (R518, R520). -/
def State.writeNeeds (flies : Bool) (index : BitVec 6) (k : Nat) : List Word → State → List (Dom × Bool)
  | [], _ => []
  | w :: ws, s =>
    let i := blockIndex writeFixed index k
    (if i < 64 then (s.needs flies i).toList else []) ++ State.writeNeeds flies index (k + 1) ws (s.applyWord flies index k w)

/-- The status words of a write, n of them clocked (R520, R523). -/
def State.writeStatus (own : Bool) (n : Nat) (l : List Word) (bus : List Word) (s : State) : State :=
  if own && s.link.assigned then s.sendAfter [] n l bus else s.drive []

/-- A WRITE of the module: data words, CRC word, and the words of the status phase as they stand on LDO. -/
def State.linkWrite (own : Bool) (index : BitVec 6) (count : Nat) (words : List Word) (s : State) : State :=
  let data := words.take count
  let bus := words.drop (count + 1)
  let n := bus.length
  if words.length ≤ count ∨ (!own ∧ 0 < n) then s
  else if !crcOk data (words.getD count 0#32) then
    let t := s.linkError 2#4
    t.writeStatus own n [t.failWord index 2#4 0#4] bus
  else
    let needs := State.writeNeeds false index 0 data s
    match needs.find? (·.2) with
    | some e => s.writeStatus own n [s.failWord index 1#4 (failDomain e.1)] bus
    | none =>
      if !needs.isEmpty then
        let woke := s.wakes needs
        let t := (s.wakeAll needs).modLink fun x => { x with posted := some ⟨index, data, needs.map (·.1), woke⟩ }
        if own then
          let r := sendStatus n [busyWord] bus
          let t := t.drive r.1
          if r.2 then t.modLink fun x => { x with wait := some ⟨true, index, count, n - 1, bus.tail, needs.map (·.1), woke⟩ }
          else t.conflict
        else t.drive []
      else
        let t := s.applyWords false index 0 data
        t.writeStatus own n [t.readyWord index] bus

/-- WRITE (R516, R520, R521). -/
def execWrite (addr : BitVec 5) (index : BitVec 6) (count : BitVec 8) (words : List Word) (s : State) :
    Host.Outcome State Fault Refusal :=
  event (s.linkUp && s.named addr && s.link.posted.isNone) s.newFrame
    (s.newFrame.linkWrite (s.own addr) index (count.toNat + 1) words)

/-- The status phase that the host still clocks goes on with READY or FAIL, unless the module has no address any more
(R520). -/
def State.endStatus (f : Option Wait) (before : List Word) (w : Word) (s : State) : State :=
  match f with
  | some f => if f.write && s.linkUp && s.link.assigned then s.sendAfter before f.left [w] f.bus else s
  | none => s

/-- A posted write whose domains have become On, or one of them FAILED (R520): dropped when one is FAILED, applied with the status
word once every domain is On; where one that it reaches has left On in the meantime, the write wakes that too and waits on. -/
def State.endPosted (p : Posted) (s : State) : State :=
  let f := s.link.wait
  let t := s.modLink fun x => { x with posted := none, wait := none }
  let gates := s.blockGates writeFixed p.index p.words.length
  let needs := State.writeNeeds true p.index 0 p.words s
  match p.doms.find? fun d => (s.dom d).st == .failed with
  | some d => (t.endStatus f s.link.ldo (s.failWord p.index 1#4 (failDomain d))).endFlight gates
  | none =>
    if needs.isEmpty then
      let u := t.applyWords true p.index 0 p.words
      (u.endStatus f s.link.ldo (u.ready p.index p.woke)).endFlight gates
    else (s.wakeAll needs).modLink fun x =>
      { x with posted := some { p with doms := needs.map (·.1), woke := p.woke || s.wakes needs } }

/-- POSTED_WRITE_COMMIT (R520). -/
def execPostedWriteCommit (s : State) : Host.Outcome State Fault Refusal :=
  match s.link.posted with
  | none => .next s
  | some p =>
    event (s.hasLk && ((p.doms.all fun d => s.isOn d) || (p.doms.any fun d => (s.dom d).st == .failed))) s (s.endPosted p)

/-! ### Frames without a response -/

/-- NOP (R516): nothing changes, but that the frame before it is over. -/
def execNop (_addr : BitVec 5) (_words : Nat) (s : State) : Host.Outcome State Fault Refusal := answer s s.newFrame

/-- SYNC (R56, R516, R524): E low word first, then the CRC word; a frame of another length is discarded. -/
def execSync (addr : BitVec 5) (words : List Word) (s : State) : Host.Outcome State Fault Refusal :=
  match words with
  | [lo, hi, crc] =>
    event (s.linkUp && s.named addr) s.newFrame
      (if crcOk [lo, hi] crc then s.newFrame.loadEpoch (joinWords lo hi) else s.newFrame.linkError 2#4)
  | _ => .next s.newFrame

/-- PARK (R82 to R84, R516, R527): a frame held past its header is discarded. -/
def execPark (frame : ShortFrame) (s : State) : Host.Outcome State Fault Refusal :=
  event (s.linkUp && s.named frame.addr && frame.words == 0) s.newFrame s.newFrame.parkFrame

/-- WAKE (R87, R516, R526): outside Park it changes nothing, and a frame held past its header is discarded. -/
def execWake (frame : ShortFrame) (s : State) : Host.Outcome State Fault Refusal :=
  event (s.clk.park == .parked && !s.clk.inReset && frame.words == 0 && (frame.addr == s.link.addr || frame.addr == 31#5))
    s.newFrame s.newFrame.endPark

/-! ### Discovery and addresses (R528 to R532) -/

/-- The UID agrees with a prefix of len bits (R530). -/
def uidMatches (len : Nat) (p : BitVec 64) : Bool := decide (Config.uid >>> (64 - len) = p >>> (64 - len))

/-- The response word of DISCOVER (R530). -/
def discoverWord (len : Nat) : Word :=
  if len = 64 then 0x7FFFFFFF#32
  else if Config.uid.getLsbD (63 - len) then 0xBFFFFFFF#32 else 0x7FFFFFFF#32

/-- The outcome of a DISCOVER for a module without an address (R515, R530). -/
def State.discovered (len : Nat) (words : List Word) (s : State) : State :=
  match words with
  | lo :: hi :: crc :: rest =>
    if !crcOk [lo, hi] crc then s.linkError 2#4
    else if len ≤ 64 && uidMatches len (joinWords lo hi) && !rest.isEmpty then s.drive [discoverWord len]
    else s.drive []
  | _ => s

/-- DISCOVER (R516, R529, R530). -/
def execDiscover (len : BitVec 8) (words : List Word) (s : State) : Host.Outcome State Fault Refusal :=
  event (s.linkUp && !s.link.assigned) s.newFrame (s.newFrame.discovered len.toNat words)

/-- The outcome of an ASSIGN (R515, R531). -/
def State.assigned (words : List Word) (s : State) : State :=
  match words with
  | [lo, hi, a, crc] =>
    if !crcOk [lo, hi, a] crc then s.linkError 2#4
    else if joinWords lo hi = Config.uid ∧ !s.link.locked then s.modLink fun x => x.assign (bits a 0 5)
    else s
  | _ => s

/-- ASSIGN (R516, R531). -/
def execAssign (words : List Word) (s : State) : Host.Outcome State Fault Refusal :=
  event s.linkUp s.newFrame (s.newFrame.assigned words)

/-! ### Errors and attention -/

/-- The module is a target of a frame (R516); while a write is posted it ignores READ and WRITE (R521). -/
def State.isTarget (s : State) (h : LinkHead) : Bool :=
  match h.op.toNat with
  | 1 => s.own h.addr && s.link.posted.isNone
  | 2 => s.named h.addr && s.link.posted.isNone
  | 5 => h.addr == 31#5 && !s.link.assigned
  | 6 => h.addr == 31#5
  | _ => s.named h.addr

/-- The frame in progress is cut: it is over, and a write that has not been committed is not committed (R513, R520). -/
def State.cutWait (s : State) : State :=
  let drops := s.link.wait.any Wait.write
  s.modLink fun x => { x with wait := none, posted := if drops then none else x.posted }

/-- What the whole words of a frame that is cut have done (R513): the words of a READ that have left keep their side effects, a
WRITE to the module's own address whose CRC word came commits where its domains are On, a DISCOVER is answered. A frame that acts
at its end has done nothing. -/
def State.cutFrame (h : LinkHead) (words bus : List Word) (s : State) : State :=
  let n := h.count.toNat + 1
  match h.op.toNat with
  | 1 => (s.linkRead h.index n bus.length bus).cutWait
  | 2 =>
    if !s.own h.addr || words.length ≤ n then s
    else
      let t := s.linkWrite true h.index n (words ++ bus)
      { t with link := { t.link with wait := none, posted := none } }
  | 5 => s.discovered h.count.toNat (words ++ bus)
  | _ => s

/-- An abort is counted and flagged (R513). -/
def State.noteAbort (s : State) : State := ((s.modLink fun x => { x with aborts := satInc x.aborts }).stick 9).linkError 3#4

/-- LINK_ABORT (R513): every module counts a release within the header, the targets of the frame any other. -/
def execLinkAbort (cut : LinkCut) (words bus : List Word) (s : State) : Host.Outcome State Fault Refusal :=
  match cut with
  | .header => event s.linkUp s.newFrame s.newFrame.noteAbort
  | .waiting => event (s.linkUp && s.link.wait.isSome) s s.cutWait.noteAbort
  | .frame h => event (s.linkUp && s.isTarget h) s.newFrame (s.newFrame.cutFrame h words bus).noteAbort

/-- HEADER_CRC_ERROR (R515). -/
def execHeaderCrcError (header : Word) (s : State) : Host.Outcome State Fault Refusal :=
  event (s.linkUp && crc8 header != bits header 0 8) s.newFrame ((s.newFrame.linkError 1#4).drive [])

/-- The header fields (R515). -/
def linkHead (w : Word) : LinkHead := ⟨bits w 27 5, bits w 24 3, bits w 18 6, bits w 10 8⟩

/-- The command that a frame is (R513, R515, R516): its header word, the whole words that the host sends after it, the whole words
clocked in its response as they stand on LDO, and whether it is cut mid-word. -/
def linkFrame (header : Word) (words bus : List Word) (cut : Bool) : Instr :=
  let h := linkHead header
  if crc8 header ≠ bits header 0 8 then .headerCrcError header
  else if cut then .linkAbort (.frame h) words bus
  else match h.op.toNat with
    | 0 => .nop h.addr words.length
    | 1 => .read h.addr h.index h.count bus.length bus
    | 2 => .write h.addr h.index h.count (words ++ bus)
    | 3 => .sync h.addr words
    | 4 => .wake ⟨h.addr, words.length⟩
    | 5 => if h.addr = 31#5 then .discover h.count (words ++ bus) else .nop h.addr words.length
    | 6 => if h.addr = 31#5 then .assign words else .nop h.addr words.length
    | _ => .park ⟨h.addr, words.length⟩

/-- A pulse of ATTN_N is due (R533): the first of a train at once, the others every 32 768 Headland ticks. The train goes on in
a coast and stops in Park. -/
def State.attnDue (s : State) : Bool :=
  !s.link.assigned && s.hasLk &&
    (!s.link.train || s.link.attnAt.any fun h => decide (h + 32768 ≤ s.clk.ht))

/-- ATTN_PULSE (R533). -/
def execAttnPulse (s : State) : Host.Outcome State Fault Refusal :=
  event s.attnDue s (s.modLink fun x => { x with attnAt := some s.clk.ht, train := true })

/-- ATTN_N is driven low (R283, R533): by a trip of Scarecrow, or for 32 Headland ticks by a pulse. -/
def State.attnLow (s : State) : Bool :=
  (s.scar.trip && s.scar.attn) ||
    match s.link.attnAt with
    | some h => decide (s.clk.ht < h + 32) && s.hasLk
    | none => false

end Sys2Proof.Machine
end

