-- ==== Sys2Proof/Machine/Wake.lean ====
section
/-!
DEFINITION. The end of a wake: WAKE_READY and WAKE_TIMEOUT (R419, R423, R428, R436), with what waited for it: a stalled host
access, a restore, a reply, a link frame.
-/

namespace Sys2Proof.Machine

open Sys2Proof

/-- A wake that leads to On has reported ready (R419, R425, R428, R462, R518). -/
def State.becomesOn (d : Dom) (s : State) : State :=
  let t := s.modDom d fun x => { x with st := .on, touched := true }
  let t := State.settleFront d s (t.arrives d (s.dom d).fromRet)
  let t := (t.endStalled d).endWait
  let t := (t.takeUp d).mapDemand
  t.restoreOn.stageOn.deliver

/-- A wake that leads to Retain enters Retain (R423). -/
def State.becomesRetained (d : Dom) (s : State) : State :=
  ((s.modDom d fun x => { x with st := .retain }).takeUp d).mapDemand

/-- WAKE_READY (R419, R423): before the timeout of the wake expires. -/
def execWakeReady (d : Dom) (s : State) : Host.Outcome State Fault Refusal :=
  event ((s.dom d).st == .waking && s.canReport d && s.hasLk && !s.wakeOver d) s
    (if (s.dom d).target = .retain then s.becomesRetained d else s.becomesOn d)

/-- WAKE_TIMEOUT (R135, R435, R436). -/
def execWakeTimeout (d : Dom) (s : State) : Host.Outcome State Fault Refusal :=
  event ((s.dom d).st == .waking && !s.waitsMap d && s.hasLk && s.wakeOver d) s (s.fail d).restoreOn.stageOn.spillEnds.endWait

/-! ### A gate that closes by force (R94) -/

/-- The frame and the posted write that wait go on waiting for the domains of the words that no gate turns away. -/
def State.linkNeeds (s : State) : State :=
  let reads (f : Wait) : List Dom := (s.blockNeeds true f.index f.count).map (·.1)
  let writes (p : Posted) : List Dom := (State.writeNeeds true p.index 0 p.words s).map (·.1)
  s.modLink fun x =>
    { x with
      wait := x.wait.map fun f => if f.write then f else { f with doms := f.doms.filter (reads f).contains }
      posted := x.posted.map fun p => { p with doms := p.doms.filter (writes p).contains } }

/-- GATE_FORCED (R94, R387): the accesses in flight end as gated ones, those of Zoruimen in a bus error (R90); at the gate of the
buffer an item that is part-way is discarded. `core` is the address of an access of Zoruimen that no domain keeps waiting. -/
def execGateForced (bit : Fin 12) (core : Option Word) (s : State) : Host.Outcome State Fault Refusal :=
  let t := ((s.forceGates [bit.val]).stick 7).gateStall bit.val
  let t := match core with
    | some a => t.coreError a
    | none => t
  let t := if bit = 6 then t.modBuf fun b => { b with part := none } else t
  event (s.forceDue bit.val && s.hasLk) s t.linkNeeds.restoreOn.stageOn.spillEnds.endWait

end Sys2Proof.Machine
end

