-- ==== Sys2Proof/Machine/Dispatch.lean ====
section
/-!
DEFINITION. The meaning of every command, one arm per row of spec/opcode_table.json.
-/

namespace Sys2Proof.Machine

open Sys2Proof

/-- The effect of a command on everything but the queue of waiting commands. -/
def exec (i : Instr) (s : State) : Host.Outcome State Fault Refusal :=
  match i with
  | .powerOn lspd => Sys2Proof.Machine.execPowerOn lspd s
  | .resetPin lspd => Sys2Proof.Machine.execResetPin lspd s
  | .watchdog lspd => Sys2Proof.Machine.execWatchdog lspd s
  | .brownRecover lspd => Sys2Proof.Machine.execBrownRecover lspd s
  | .pllmFloor => Sys2Proof.Machine.execPllmFloor s
  | .pllmLock => Sys2Proof.Machine.execPllmLock s
  | .pllFail => Sys2Proof.Machine.execPllFail s
  | .plleLock => Sys2Proof.Machine.execPlleLock s
  | .monitorTrip => Sys2Proof.Machine.execMonitorTrip s
  | .lclkReturn => Sys2Proof.Machine.execLclkReturn s
  | .sync addr words => Sys2Proof.Machine.execSync addr words s
  | .alignChange align => Sys2Proof.Machine.execAlignChange align s
  | .park frame => Sys2Proof.Machine.execPark frame s
  | .parkEntryDone => Sys2Proof.Machine.execParkEntryDone s
  | .wake frame => Sys2Proof.Machine.execWake frame s
  | .clkenWrite value busy => Sys2Proof.Machine.execClkenWrite value busy s
  | .gateForced bit core => Sys2Proof.Machine.execGateForced bit core s
  | .relocksClr => Sys2Proof.Machine.execRelocksClr s
  | .rangeWrite ch range => Sys2Proof.Machine.execRangeWrite ch range s
  | .driveWindowExclude g => Sys2Proof.Machine.execDriveWindowExclude g s
  | .driveWindowInclude g => Sys2Proof.Machine.execDriveWindowInclude g s
  | .dieFaultSet die check => Sys2Proof.Machine.execDieFaultSet die check s
  | .dieFaultClear die check => Sys2Proof.Machine.execDieFaultClear die check s
  | .thermCtrlWrite value => Sys2Proof.Machine.execThermCtrlWrite value s
  | .thermReady gradient plat => Sys2Proof.Machine.execThermReady gradient plat s
  | .thermFault ev gradient tplat => Sys2Proof.Machine.execThermFault ev gradient tplat s
  | .thermSaturated => Sys2Proof.Machine.execThermSaturated s
  | .rotationStart region => Sys2Proof.Machine.execRotationStart region s
  | .auditStart unit => Sys2Proof.Machine.execAuditStart unit s
  | .leakCheck region found => Sys2Proof.Machine.execLeakCheck region found s
  | .auditVerdict region moved meas => Sys2Proof.Machine.execAuditVerdict region moved meas s
  | .deadAuditDue unit => Sys2Proof.Machine.execDeadAuditDue unit s
  | .fallowAuditDue unit => Sys2Proof.Machine.execFallowAuditDue unit s
  | .windowFault cluster found => Sys2Proof.Machine.execWindowFault cluster found s
  | .retrimDone cluster => Sys2Proof.Machine.execRetrimDone cluster s
  | .healthCommit => Sys2Proof.Machine.execHealthCommit s
  | .residualCheck region exceeds => Sys2Proof.Machine.execResidualCheck region exceeds s
  | .residualRetrim cluster => Sys2Proof.Machine.execResidualRetrim cluster s
  | .clusterPwrWrite value => Sys2Proof.Machine.execClusterPwrWrite value s
  | .clusterRejoin cluster => Sys2Proof.Machine.execClusterRejoin cluster s
  | .commit conv => Sys2Proof.Machine.execCommit conv s
  | .pendingCopyStart conv => Sys2Proof.Machine.execPendingCopyStart conv s
  | .ampReset conv => Sys2Proof.Machine.execAmpReset conv s
  | .overload conv => Sys2Proof.Machine.execOverload conv s
  | .periodicReset conv => Sys2Proof.Machine.execPeriodicReset conv s
  | .resetEnd conv => Sys2Proof.Machine.execResetEnd conv s
  | .excitationWrite src value => Sys2Proof.Machine.execExcitationWrite src value s
  | .excitationChange src => Sys2Proof.Machine.execExcitationChange src s
  | .excRestore mask => Sys2Proof.Machine.execExcRestore mask s
  | .wireBreak conv input => Sys2Proof.Machine.execWireBreak conv input s
  | .wireBreakRecovery conv slot => Sys2Proof.Machine.execWireBreakRecovery conv slot s
  | .attach port present => Sys2Proof.Machine.execAttach port present s
  | .tedsReadStart port => Sys2Proof.Machine.execTedsReadStart port s
  | .tedsDone port found => Sys2Proof.Machine.execTedsDone port found s
  | .calCycleDone conv => Sys2Proof.Machine.execCalCycleDone conv s
  | .apply ch => Sys2Proof.Machine.execApply ch s
  | .biquadCommit ch group => Sys2Proof.Machine.execBiquadCommit ch group s
  | .diagSelChange sel => Sys2Proof.Machine.execDiagSelChange sel s
  | .pathSettled ch path => Sys2Proof.Machine.execPathSettled ch path s
  | .evtCtrlWrite value => Sys2Proof.Machine.execEvtCtrlWrite value s
  | .recParamWrite r offset value => Sys2Proof.Machine.execRecParamWrite r offset value s
  | .impactEvent => Sys2Proof.Machine.execImpactEvent s
  | .impactWinExpiry => Sys2Proof.Machine.execImpactWinExpiry s
  | .cadenceEvent => Sys2Proof.Machine.execCadenceEvent s
  | .cadenceEnd => Sys2Proof.Machine.execCadenceEnd s
  | .freefallEvent => Sys2Proof.Machine.execFreefallEvent s
  | .transientEvent => Sys2Proof.Machine.execTransientEvent s
  | .transientRearm => Sys2Proof.Machine.execTransientRearm s
  | .tiltBlockEnd => Sys2Proof.Machine.execTiltBlockEnd s
  | .setRef => Sys2Proof.Machine.execSetRef s
  | .resultSnapshotRead r => Sys2Proof.Machine.execResultSnapshotRead r s
  | .arm => Sys2Proof.Machine.execArm s
  | .trig => Sys2Proof.Machine.execTrig s
  | .abort => Sys2Proof.Machine.execAbort s
  | .release slot => Sys2Proof.Machine.execRelease slot s
  | .ownerChange owner => Sys2Proof.Machine.execOwnerChange owner s
  | .slotsChange slots => Sys2Proof.Machine.execSlotsChange slots s
  | .captureDone => Sys2Proof.Machine.execCaptureDone s
  | .scarTrip high axes => Sys2Proof.Machine.execScarTrip high axes s
  | .scarArmed => Sys2Proof.Machine.execScarArmed s
  | .scarRearm => Sys2Proof.Machine.execScarRearm s
  | .scarClassify => Sys2Proof.Machine.execScarClassify s
  | .scarClassTimeout => Sys2Proof.Machine.execScarClassTimeout s
  | .specRun => Sys2Proof.Machine.execSpecRun s
  | .specStop => Sys2Proof.Machine.execSpecStop s
  | .capGo slot => Sys2Proof.Machine.execCapGo slot s
  | .specAbort => Sys2Proof.Machine.execSpecAbort s
  | .hold on => Sys2Proof.Machine.execHold on s
  | .specPublish => Sys2Proof.Machine.execSpecPublish s
  | .specCountersClear => Sys2Proof.Machine.execSpecCountersClear s
  | .learn => Sys2Proof.Machine.execLearn s
  | .smStart mask => Sys2Proof.Machine.execSmStart mask s
  | .smStop mask => Sys2Proof.Machine.execSmStop mask s
  | .smTick rate t => Sys2Proof.Machine.execSmTick rate t s
  | .smTimeout m t => Sys2Proof.Machine.execSmTimeout m t s
  | .streamStart => Sys2Proof.Machine.execStreamStart s
  | .streamStop enable => Sys2Proof.Machine.execStreamStop enable s
  | .writerGateOpen => Sys2Proof.Machine.execWriterGateOpen s
  | .layoutChange group value => Sys2Proof.Machine.execLayoutChange group value s
  | .phaseChange minimum => Sys2Proof.Machine.execPhaseChange minimum s
  | .unitPlace unit => Sys2Proof.Machine.execUnitPlace unit s
  | .flush => Sys2Proof.Machine.execFlush s
  | .dropClr => Sys2Proof.Machine.execDropClr s
  | .bufDataRead => Sys2Proof.Machine.execBufDataRead s
  | .bufThreshWrite value => Sys2Proof.Machine.execBufThreshWrite value s
  | .intClaim x => Sys2Proof.Machine.execIntClaim x s
  | .intComplete x value => Sys2Proof.Machine.execIntComplete x value s
  | .intStatsClear => Sys2Proof.Machine.execIntStatsClear s
  | .t2Service => Sys2Proof.Machine.execT2Service s
  | .lowWordRead index => Sys2Proof.Machine.execLowWordRead index s
  | .pwrReqWrite value => Sys2Proof.Machine.execPwrReqWrite value s
  | .pwrReqProcess => Sys2Proof.Machine.execPwrReqProcess s
  | .demandWake d => Sys2Proof.Machine.execDemandWake d s
  | .wakeReady d => Sys2Proof.Machine.execWakeReady d s
  | .wakeTimeout d => Sys2Proof.Machine.execWakeTimeout d s
  | .stopDone d => Sys2Proof.Machine.execStopDone d s
  | .idleReturn d => Sys2Proof.Machine.execIdleReturn d s
  | .requestResume => Sys2Proof.Machine.execRequestResume s
  | .stallCut => Sys2Proof.Machine.execStallCut s
  | .opRaise value => Sys2Proof.Machine.execOpRaise value s
  | .opLower value => Sys2Proof.Machine.execOpLower value s
  | .dvfsSettled => Sys2Proof.Machine.execDvfsSettled s
  | .dvfsFail => Sys2Proof.Machine.execDvfsFail s
  | .dvfsDone => Sys2Proof.Machine.execDvfsDone s
  | .brownWarn rails => Sys2Proof.Machine.execBrownWarn rails s
  | .brownRestore depth duration => Sys2Proof.Machine.execBrownRestore depth duration s
  | .powerFail held => Sys2Proof.Machine.execPowerFail held s
  | .winDataAccess write value => Sys2Proof.Machine.execWinDataAccess write value s
  | .winAddrWrite value => Sys2Proof.Machine.execWinAddrWrite value s
  | .cmdArgWrite value => Sys2Proof.Machine.execCmdArgWrite value s
  | .clear => Sys2Proof.Machine.execClear s
  | .configCommit flashOk => Sys2Proof.Machine.execConfigCommit flashOk s
  | .configErase flashOk => Sys2Proof.Machine.execConfigErase flashOk s
  | .calSession flashOk => Sys2Proof.Machine.execCalSession flashOk s
  | .unitAdmit flashOk => Sys2Proof.Machine.execUnitAdmit flashOk s
  | .unitRetire flashOk => Sys2Proof.Machine.execUnitRetire flashOk s
  | .logErase flashOk => Sys2Proof.Machine.execLogErase flashOk s
  | .updateArm flashOk found => Sys2Proof.Machine.execUpdateArm flashOk found s
  | .updateCommit flashOk => Sys2Proof.Machine.execUpdateCommit flashOk s
  | .addrLock flashOk => Sys2Proof.Machine.execAddrLock flashOk s
  | .thermLimits flashOk => Sys2Proof.Machine.execThermLimits flashOk s
  | .keyRoll flashOk => Sys2Proof.Machine.execKeyRoll flashOk s
  | .factoryReset flashOk => Sys2Proof.Machine.execFactoryReset flashOk s
  | .lockoutEnd => Sys2Proof.Machine.execLockoutEnd s
  | .mbxInWrite value => Sys2Proof.Machine.execMbxInWrite value s
  | .mbxOutRead => Sys2Proof.Machine.execMbxOutRead s
  | .mbxFlush => Sys2Proof.Machine.execMbxFlush s
  | .messageIncomplete => Sys2Proof.Machine.execMessageIncomplete s
  | .logRead => Sys2Proof.Machine.execLogRead s
  | .healthReport => Sys2Proof.Machine.execHealthReport s
  | .sensorRead values => Sys2Proof.Machine.execSensorRead values s
  | .auxDiscover => Sys2Proof.Machine.execAuxDiscover s
  | .calRun => Sys2Proof.Machine.execCalRun s
  | .configStage => Sys2Proof.Machine.execConfigStage s
  | .configRestore => Sys2Proof.Machine.execConfigRestore s
  | .updateStage flashOk => Sys2Proof.Machine.execUpdateStage flashOk s
  | .captureSpill flashOk => Sys2Proof.Machine.execCaptureSpill flashOk s
  | .spillRead => Sys2Proof.Machine.execSpillRead s
  | .sensorMeasure values => Sys2Proof.Machine.execSensorMeasure values s
  | .logWrite => Sys2Proof.Machine.execLogWrite s
  | .trialConfirm => Sys2Proof.Machine.execTrialConfirm s
  | .boot flash imageA imageB flash1 copies => Sys2Proof.Machine.execBoot flash imageA imageB flash1 copies s
  | .nop addr words => Sys2Proof.Machine.execNop addr words s
  | .read addr index count words bus => Sys2Proof.Machine.execRead addr index count words bus s
  | .write addr index count words => Sys2Proof.Machine.execWrite addr index count words s
  | .postedWriteCommit => Sys2Proof.Machine.execPostedWriteCommit s
  | .discover len words => Sys2Proof.Machine.execDiscover len words s
  | .assign words => Sys2Proof.Machine.execAssign words s
  | .linkAbort cut words bus => Sys2Proof.Machine.execLinkAbort cut words bus s
  | .linkRelease => Sys2Proof.Machine.execLinkRelease s
  | .statsClr => Sys2Proof.Machine.execStatsClr s
  | .attnPulse => Sys2Proof.Machine.execAttnPulse s
  | .hostTake => Sys2Proof.Machine.execHostTake s
  | .grant => Sys2Proof.Machine.execGrant s
  | .hostTakeClear => Sys2Proof.Machine.execHostTakeClear s
  | .modeFault => Sys2Proof.Machine.execModeFault s
  | .modeFaultResume => Sys2Proof.Machine.execModeFaultResume s
  | .pageProgram addr bytes ends => Sys2Proof.Machine.execPageProgram addr bytes ends s
  | .erase kind addr ends => Sys2Proof.Machine.execErase kind addr ends s
  | .flashTimeout => Sys2Proof.Machine.execFlashTimeout s
  | .registerWrite index value => Sys2Proof.Machine.execRegisterWrite index value s
  | .pathOutput path clusters aux => Sys2Proof.Machine.execPathOutput path clusters aux s
  | .segmentDone valid late firstT lastT flags => Sys2Proof.Machine.execSegmentDone valid late firstT lastT flags s
  | .thermReadyLoss gradient tplat => Sys2Proof.Machine.execThermReadyLoss gradient tplat s
  | .headerCrcError header => Sys2Proof.Machine.execHeaderCrcError header s
  | .resetAssert => Sys2Proof.Machine.execResetAssert s
  | .unknownCommand => Sys2Proof.Machine.execUnknownCommand s
  | .unknownService => Sys2Proof.Machine.execUnknownService s

end Sys2Proof.Machine
end

