-- ==== Sys2Proof/Machine/Idle.lean ====
section
/-!
DEFINITION. What the block does while no command waits: one SM tick passes (R54, R452), with what the manual lets happen at a
tick without any event from outside: the isolation of a cluster (R148), the measurement of the platform (R127), and, at the end
of a period of HT, the supply dip in progress (R448), the idle timers (R429),
the pins (R502) and the memory port (R537, R544).
-/

namespace Sys2Proof.Machine

open Sys2Proof

/-- SM ticks in the present period of HT (R617): 6000 where HT is SM divided by 6000; before the floor at most what 187.5 MHz make,
and from the floor on what 112.5 MHz to 196.608 MHz make. -/
def State.htPeriod (s : State) : Nat :=
  if s.htExact then 6000
  else if s.clk.pllm = .rising then 1 + Config.smPerHt s.fresh % 5722
  else 3433 + Config.smPerHt s.fresh % 2568

/-- VANA is back above its warning level. -/
def closeDip (now : Tick) : List (Tick × Option Tick) → List (Tick × Option Tick)
  | (a, none) :: l => (a, some now) :: l
  | l => l

/-- A Headland tick of a supply dip (R448, R452): it counts in DURATION while a rail is below its warning level; the comparators may
find a rail back, and the 1 ms timer starts when every rail is. -/
def State.tickRails (s : State) : State :=
  if s.pwr.railsLow = 0#2 then s
  else
    let low := s.pwr.railsLow &&& ~~~Config.railsBack s.fresh
    ({ s with fresh := s.fresh + 1 }).modPwr fun p =>
      { p with
        railsLow := low
        lowTicks := satInc p.lowTicks
        backHt := if low = 0#2 then s.clk.ht else p.backHt
        vanaDips := if p.railsLow.getLsbD 1 && !low.getLsbD 1 then closeDip s.clk.tsc p.vanaDips else p.vanaDips }

/-- At a Headland tick the host may raise the strobe of a stalled access, which is then not executed (R459), and the machines' writes
of GPIO_DATA since the tick before are over (R335). -/
def State.tickHost (s : State) : State :=
  s.modHost fun h => { h with stall := if Config.strobeRaised s.clk.ht then none else h.stall, gMach := 0#8 }

/-- A Headland tick (R452); those counted from LCLK are kept with the tick at which they fell. -/
def State.tickHt (s : State) : State :=
  let t := s.tickHost.modClk fun c =>
    { c with htSub := 0, ht := c.ht + 1, htLog := if s.htExact then c.htLog else c.tsc :: c.htLog }
  if s.htExact then t else { t with fresh := t.fresh + 1 }

/-- MSS_N at a Headland tick (R534, R552): its level is free, but for a fall during a transaction, which is a MODE_FAULT. -/
def State.tickMss (n : Nat) (s : State) : State :=
  let high := Config.mssPin n
  s.modMport fun x =>
    if high then { x with mssLow := false, mssAt := if x.mssLow then s.clk.tsc else x.mssAt }
    else if x.mastering s.clk.tsc && !x.waiting && !x.granted then x
    else { x with mssLow := true }

/-- A core read of the window (R544, R545, R557): it closes the page buffer, waits for a sequence and for the bus, and goes out as a
read of a line; at or above the end of the window it is a bus error. -/
def State.readLine (a : Nat) (s : State) : State :=
  if s.mport.window ≤ a then s.coreError (BitVec.ofNat 32 a)
  else if !s.flashFree then s.modMport fun x => { x with coreNeed := some a }
  else
    let t := s.closeBuffer
    if t.mport.seq.isSome then t.modMport fun x => { x with coreNeed := some a }
    else
      t.modMport fun x =>
        { x with coreNeed := none, single := some (.line (a / 32 * 32)), repoll := false,
                 sent := x.sentPoll ++ [x.sentRead a] }

/-- What the port has done by a Headland tick, each as a free value: a transaction or a sequence has ended, the page buffer is closed
2 µs after its last write, the core or the boot ROM begins a read (R537, R539, R544, R545). -/
def State.tickPort (s : State) : State :=
  let n := s.fresh
  let t := State.tickMss n { s with fresh := n + 1 }
  let t := if t.mport.single.isSome && Config.readEnds n && !t.mport.waiting then t.modMport fun x => { x with single := none } else t
  let t :=
    if !t.flashFree || t.mport.seq.isNone then t
    else if t.mport.polling then
      (if Config.pollEnds n then t.modMport fun x => { x with polling := false, seqAt := t.clk.tsc } else t)
    else if Config.seqEnds n then t.endSeq
    else t
  let t := if t.flashFree && t.mport.buffer.isSome && t.usSince t.mport.bufAt 2 then t.closeBuffer else t
  if t.coreUp then
    (match t.mport.coreNeed.or (Config.coreRead n) with
     | some a => if t.mport.single.isNone then t.readLine a else t
     | none => t)
  else if t.coreRuns || !((t.dom .mc).st == .waking && !(t.dom .mc).fromRet) || !t.flashFree || t.mport.single.isSome then t
  else
    match Config.romRead n with
    | some status => t.modMport fun x => { x with single := some (if status then .status else .sfdp) }
    | none => t

/-- One SM tick of the two counters (R54, R452): the tick counter advances, and the Headland tick at the end of its period, at
which the idle timers count (R429) and the pins are sampled (R502). -/
def State.tickClock (s : State) : State :=
  let t := s.modClk fun c => { c with tsc := c.tsc + 1#64 }
  if s.clk.htSub + 1 < s.htPeriod then t.modClk fun c => { c with htSub := c.htSub + 1 } else t.tickHt.tickRails.tickPort.samplePins.tickIdle

/-- The block idles for one SM tick; without the SM clock nothing moves (R54, R85, R460). -/
def State.idle (s : State) : State :=
  if s.hasSm then State.arbitrate s s.tickClock.tickIsolations.tickTherm.tickItem else s

end Sys2Proof.Machine
end

