-- ==== Sys2Proof/Safety.lean ====
section
/-!
DEFINITION. The terms the claims use: the parts of the state, a state with some of its parts blanked (for frames), what it
means that a command completes, and the invariants.
-/

namespace Sys2Proof.Machine

open Sys2Proof

/-! ### Frames -/

/-- The parts of the state, but for the queue of waiting commands. -/
inductive Part where
  | clk | harrow | arr | therm | aux | recog | cap | scar | spec | smc | buf | int | pwr | host | link | mport | mgmt | fresh
deriving DecidableEq, Repr

/-- The state with the parts of a list blanked: two states that agree on it agree on every other part, and on the queue. -/
def State.mask (l : List Part) (s : State) : State :=
  { pending := s.pending
    clk := if Part.clk ∈ l then State.reset.clk else s.clk
    harrow := if Part.harrow ∈ l then State.reset.harrow else s.harrow
    arr := if Part.arr ∈ l then State.reset.arr else s.arr
    therm := if Part.therm ∈ l then State.reset.therm else s.therm
    aux := if Part.aux ∈ l then State.reset.aux else s.aux
    recog := if Part.recog ∈ l then State.reset.recog else s.recog
    cap := if Part.cap ∈ l then State.reset.cap else s.cap
    scar := if Part.scar ∈ l then State.reset.scar else s.scar
    spec := if Part.spec ∈ l then State.reset.spec else s.spec
    smc := if Part.smc ∈ l then State.reset.smc else s.smc
    buf := if Part.buf ∈ l then State.reset.buf else s.buf
    int := if Part.int ∈ l then State.reset.int else s.int
    pwr := if Part.pwr ∈ l then State.reset.pwr else s.pwr
    host := if Part.host ∈ l then State.reset.host else s.host
    link := if Part.link ∈ l then State.reset.link else s.link
    mport := if Part.mport ∈ l then State.reset.mport else s.mport
    mgmt := if Part.mgmt ∈ l then State.reset.mgmt else s.mgmt
    fresh := if Part.fresh ∈ l then 0 else s.fresh }

/-- Two states agree on every part outside a list, and on the queue. -/
def Same (l : List Part) (s t : State) : Prop := t.mask l = s.mask l

/-! ### Completion -/

/-- Command c on state s completes with a next state that has property P. -/
def Completes (c : Instr) (s : State) (P : State → Prop) : Prop := ∃ t, exec c s = .next t ∧ P t

/-- A cluster without its gain trims, which follow the units in its sum (R98, R144). -/
def Cluster.bare (c : Cluster) : Cluster := { c with trims := [] }

/-- No recogniser has completed a report that is not yet made (R258). -/
def Rec.noReports (x : Rec) : Bool :=
  x.impact.due.isNone && x.impact.winDue.isNone && x.cadence.due.isNone && x.cadence.endDue.isNone && x.fall.due.isNone &&
    x.trans.due.isNone && !x.trans.rearm && x.tilt.due.isNone

/-- The stream writer stands as its conditions ask (R354, R355): it writes where they hold, waits where only the gate is closed, and
else is stopped. -/
def State.writerSettled (s : State) : Bool :=
  if s.buf.armedGate then s.writerMay && s.buf.alignEp && !s.buf.writing else s.buf.writing == s.writerMay

/-- No unit of frames waits to be placed (R370). -/
def State.noUnits (s : State) : Bool := s.buf.events.isEmpty && s.harrow.fastOut.isEmpty && s.harrow.slowOut.isEmpty

/-- A host access to register i is executed at once (R462): the bus is open, no gate and no resting or failed domain stands
in the way. -/
def State.Reaches (s : State) (i : Nat) : Prop := s.busOpen = true ∧ s.resolve i = .executed

/-- A host access through the window to the table-space word a is executed at once (R462, R472): the word is mapped and not
lent, its gates are open, and its domain is On where it has one. -/
def State.ReachesTs (s : State) (a : Nat) : Prop :=
  s.busOpen = true ∧ a < 0x1000000 ∧ s.tsMapped a = true ∧ s.capLent a = false ∧ s.tsGated a = false ∧
    ∀ d, tsDom a = some d → s.isOn d = true

/-- No access that may be in flight besides those a gate waits for (R94): no stalled host access, no waiting frame or posted write of
the link, no restore, request or spill of the core that waits. -/
def State.quietFlights (s : State) : Bool :=
  s.host.stall.isNone && s.link.wait.isNone && s.link.posted.isNone && s.mgmt.restore.isEmpty && s.mgmt.req.isNone &&
    s.mgmt.autoWait.isNone

/-- The record that a command puts at the end of the log queue, its tick and UNTIMED flag taken from state s (R571). -/
def State.Logged (s t : State) (cls code : BitVec 8) (d0 d1 d2 : Word) : Prop :=
  t.mgmt.logQ = s.mgmt.logQ ++ [⟨0#32, s.clk.tsc, cls, code, !s.clk.epochValid, d0, d1, d2⟩]

/-- The state t is the state s after a reset (R460, R485, R613): STICKY holds the cause alone, WAKE_REC its source, every
volatile part stands at reset, what is not volatile is kept, and MC is waking to On. -/
def State.Restarted (lspd : BitVec 2) (cause : BitVec 16) (src : BitVec 8) (s t : State) : Prop :=
  t.host.sticky = cause ∧ t.pwr.wakeSrc = src ∧ t.clk.lspd = lspd ∧ t.clk.tsc = 0#64 ∧ t.clk.clken = 0#12 ∧
  t.clk.pllm = .rising ∧ t.clk.lclkPresent = true ∧ t.pwr.req = 0x08000#18 ∧ (t.dom .mc).st = .waking ∧
  (t.dom .mc).target = .on ∧ t.harrow = harrow0 ∧ t.aux = State.reset.aux ∧ t.recog = State.reset.recog ∧
  t.cap = {} ∧ t.scar = {} ∧ t.spec = {} ∧ t.smc = {} ∧ t.buf = {} ∧ t.link = {} ∧ t.arr.mapA = s.arr.mapA ∧
  t.arr.mapB = s.arr.mapB ∧ t.therm.maxCode = s.therm.maxCode ∧ t.therm.power = s.therm.power ∧
  t.mport.flash = s.mport.flash ∧ t.mport.flashB = s.mport.flashB ∧ t.mgmt.authCtr = s.mgmt.authCtr ∧ t.mgmt.cfgA = s.mgmt.cfgA ∧
  t.mgmt.cfgB = s.mgmt.cfgB ∧ t.mgmt.logRing = s.mgmt.logRing ∧ t.mgmt.slotA = s.mgmt.slotA ∧
  t.mgmt.slotB = s.mgmt.slotB ∧ t.pending = s.pending

/-- The command in CMD_CODE is ready to be carried out (R557, R582): Zoruimen runs, BUSY is 1, steps 2 to 7 pass, the flash bus
is free. -/
def State.CmdReady (s : State) (code : BitVec 8) : Prop :=
  s.cmdWaits = true ∧ s.mgmt.code = code ∧ s.mgmt.early = 0#8 ∧ s.mgmt.late = 0#8 ∧ s.flashFree = true

/-- A command has ended with a RESULT (R492): BUSY is 0, the queue and the tag are emptied, the event bit is the result's. -/
def State.CmdEnded (s t : State) (result : BitVec 8) : Prop :=
  t.mgmt.busy = false ∧ t.mgmt.result = result ∧ t.mgmt.args = [] ∧ t.mgmt.tagLo = 0#32 ∧ t.mgmt.tagHi = 0#32 ∧
  t.mgmt.doneEvt = (s.mgmt.doneEvt || result == 0#8) ∧ t.mgmt.rejEvt = (s.mgmt.rejEvt || result != 0#8)

/-- A mailbox request waits whole for a service (R561, R562). -/
def State.Serves (s : State) (r : Request) (code : BitVec 8) : Prop :=
  s.coreUp = true ∧ s.mgmt.req = none ∧ s.mgmt.message = some r ∧ r.service = code

/-- The request is answered (R561, R562): its message has left MBX_IN, the whole reply stands at the end of MBX_OUT with
REPLY_EVT, and no request is being processed. -/
def State.Replied (s t : State) (r : Request) (status : BitVec 8) (payload : List Word) : Prop :=
  t.mgmt.outQ = s.mgmt.outQ ++ replyWords r.hdr status payload ∧ t.mgmt.replyEvt = true ∧ t.mgmt.req = none ∧
  t.mgmt.reply = none ∧ t.mgmt.inQ = s.mgmt.inQ.drop (r.payload.length + 1)

/-! ### Invariants -/

/-- The canonical form of a sparse store whose unlisted addresses read as d: addresses strictly rising, no cell equal to what
its address would read as. -/
def Mem.wfBy (d : Nat → Word) : Mem → Bool
  | [] => true
  | (a, w) :: m => decide (w ≠ d a) && Mem.above a m && Mem.wfBy d m

/-- The link address and ASSIGNED agree (R497), a grant stands only while HOST_TAKE is 1 (R500, R555), a Headland tick comes
every 6000 SM ticks (R54), and both flashes are in canonical form. -/
def State.PortsOk (s : State) : Prop :=
  s.link.assigned = (s.link.addr != 31#5) ∧ (s.mport.granted = true → s.mport.take = true) ∧ s.clk.htSub < 6000 ∧
  flashWf s.mport.flash = true ∧ flashWf s.mport.flashB = true

/-- Every store is in canonical form, every queue within its bound (R373, R490, R495, R572), and WP and RP of the sample buffer
are as far apart as it holds words (R373). -/
def State.StoresOk (s : State) : Prop :=
  Mem.wf 0#32 s.cap.store = true ∧ Mem.wf 0#32 s.smc.prog = true ∧ Mem.wf 0#32 s.aux.teds = true ∧
  Mem.wfBy calDelivered s.mgmt.calStage = true ∧ Mem.wfBy calDelivered s.mgmt.calAct = true ∧
  s.mgmt.args.length ≤ 16 ∧ s.mgmt.inQ.length ≤ 64 ∧ s.mgmt.outQ.length ≤ 64 ∧ s.mgmt.logQ.length ≤ 16 ∧
  s.buf.words.length ≤ bufWords ∧ s.buf.wp = s.buf.rp + BitVec.ofNat 22 s.buf.words.length

end Sys2Proof.Machine
end

