-- ==== Sys2Proof/Certificates/Slice0/Obligations.lean ====
section
/-!
DEFINITION. The statements for the provers.
-/

open Sys2Proof Sys2Proof.Machine

/-! ### The block as a whole -/

/-- One step with command c at the front of the queue is exec of c on the state with the rest of the queue.
The model's own readings in it: log entry 10. -/
def Obligations.StepRunsTheFrontCommand : Prop :=
  ∀ (c : Instr) (s : State), step { s with pending := c :: s.pending } = exec c s

/-- On an empty queue one SM tick passes: with the SM clock the timestamp counter advances by one; the sub-count advances, or, at
the end of a period of HT, starts again at 0 with one Headland tick more; where PLL-M is locked a period has 6000 SM ticks.
Without the SM clock nothing moves. The parts named may change besides, by what R127, R148, R387, R403, R429, R448, R459, R502, R537 and R544 let a
tick do.
That the idle block ticks is the model's choice (log entry 2). -/
def Obligations.IdleStepIsOneTick : Prop :=
  ∀ s : State, s.pending = [] →
    ∃ t, step s = .next t ∧ Same [.clk, .arr, .therm, .buf, .pwr, .host, .mport, .mgmt, .int, .fresh] s t ∧
      (s.hasSm = false → t = s) ∧
      (s.hasSm = true →
        t.clk.tsc = s.clk.tsc + 1#64 ∧
        (s.clk.htSub + 1 < s.htPeriod →
          (s.buf.part = none → t.clk = { s.clk with tsc := s.clk.tsc + 1#64, htSub := s.clk.htSub + 1 } ∧ t.buf = s.buf) ∧
            t.clk.htSub = s.clk.htSub + 1 ∧ t.host = s.host ∧ t.mport = s.mport ∧
            (s.isOn .th = false → t.therm = s.therm) ∧
            ((∀ i < 36, (s.cluster i).iso = none) → t.arr = s.arr ∧ t.pwr = s.pwr)) ∧
        (s.htPeriod ≤ s.clk.htSub + 1 →
          t.clk = { s.clk with
            tsc := s.clk.tsc + 1#64, htSub := 0, ht := s.clk.ht + 1, htLog := t.clk.htLog, closing := t.clk.closing } ∧
            t.host = { s.host with gIn := t.host.gIn, stall := t.host.stall, gMach := 0#8 } ∧
            (t.host.stall = s.host.stall ∨ t.host.stall = none)) ∧
        (s.clk.pllm = .locked → s.htPeriod = 6000))

/-- Every command completes in every state: exec answers a next state, no fault and no refusal, and the queue of the commands that
wait is left as it was. What each command does where its own conditions hold, the statements below say. -/
def Obligations.EveryCommandCompletes : Prop :=
  ∀ (c : Instr) (s : State), ∃ t, exec c s = .next t ∧ t.pending = s.pending

/-! ### Resets and clock (chapters 02, 19) -/

/-- The resets complete (R460, R485, R559, R613): each leaves the reset state with its own cause in STICKY and its own source
in WAKE_REC, and keeps what is not volatile; the watchdog acts only while MC is On and does not wait for a granted flash
bus. While RESET_N is low no clock runs.
The model's own readings in it: log entries 3, 5, 88, 104. -/
def Obligations.ResetsComplete : Prop :=
  (∀ s l, Completes (.powerOn l) s (s.Restarted l 0x0001#16 0x01#8)) ∧
  (∀ s l, Completes (.resetPin l) s (s.Restarted l 0x0002#16 0x02#8)) ∧
  (∀ s l, s.isOn .mc = true → s.coreWaits = false → Completes (.watchdog l) s (s.Restarted l 0x0004#16 0x07#8)) ∧
  (∀ s l, Completes (.brownRecover l) s (s.Restarted l 0x0008#16 0x06#8)) ∧
  (∀ s, Completes .resetAssert s fun t =>
    t.clk.inReset = true ∧ t.hasLk = false ∧ t.hasSm = false ∧ t.harrow = harrow0 ∧ t.buf = {} ∧ t.host.scratch = 0#32 ∧
      t.pwr.req = 0x08000#18 ∧ t.mport.flash = s.mport.flash ∧ t.mgmt.authCtr = s.mgmt.authCtr ∧ t.pending = s.pending)

/-- The PLL events complete (R50 to R52, R78, R87): the floor, the first lock, a relock with RELOCK_EVT and RELOCKS, a failed
lock with its log record where 2 ms have passed since LCLK became present, and the lock of PLL-E; each with what it leaves alone.
The model's own readings in it: log entry 13. -/
def Obligations.PllEventsComplete : Prop :=
  (∀ s, s.clk.pllm = .rising → s.hasSm = true →
    Completes .pllmFloor s fun t => t.clk = { s.clk with pllm := .floor } ∧ Same [.clk, .int] s t) ∧
  (∀ s, s.clk.pllm = .floor → s.hasSm = true → s.clk.lclkPresent = true → s.clk.relockDue = false →
    Completes .pllmLock s fun t =>
      t.clk.pllm = .locked ∧ t.clk.relocks = s.clk.relocks ∧ t.clk.relockEvt = s.clk.relockEvt ∧
      t.clk.plle = (if s.wantsPllE then .locking else s.clk.plle) ∧ t.spec.waiting = false ∧ t.clk.tsc = s.clk.tsc ∧
      Same [.clk, .spec, .int] s t) ∧
  (∀ s, s.clk.pllm = .floor → s.hasSm = true → s.clk.lclkPresent = true → s.clk.relockDue = true →
    Completes .pllmLock s fun t =>
      t.clk.pllm = .locked ∧ t.clk.coast = false ∧ t.clk.frozen = false ∧ t.clk.relockDue = false ∧
      t.clk.relockEvt = true ∧ t.clk.relocks = satInc s.clk.relocks ∧ t.clk.tsc = s.clk.tsc ∧
      Same [.clk, .spec, .mgmt, .pwr, .buf, .int] s t) ∧
  (∀ s, (s.clk.pllm = .rising ∨ s.clk.pllm = .floor) → s.hasSm = true → s.clk.lclkPresent = true →
    s.failDue = true → s.mgmt.logQ.length < 16 →
    Completes .pllFail s fun t =>
      t.clk = { s.clk with pllFailEvt := true, relockDue := true, failHt := none } ∧ s.Logged t 0x03#8 0x03#8 t.clkStat 0#32 0#32 ∧
      Same [.clk, .mgmt, .int] s t) ∧
  (∀ s, s.clk.plle = .locking → s.clk.pllm = .locked →
    Completes .plleLock s fun t =>
      t.clk.plle = .locked ∧ (s.pwr.phase = .idle → t.clk.holdClk = false) ∧ Same [.clk, .int] s t)

/-- Coast completes (R72, R75, R77, R80): a trip while PLL-M is locked starts it, with LOST_EVT, EPOCH_VALID 0 and the STICKY bit;
a trip after the floor freezes the sequence; one before it holds the power-on sequencer with PLL-M off and ends a stalled access;
each sets LOST_EVT. LCLK returns: LCLK_PRESENT is 1, and a held sequencer starts again.
The model's own readings in it: log entries 13, 14, 113. -/
def Obligations.CoastEventsComplete : Prop :=
  (∀ s, s.clk.monitorArmed = true → s.clk.lclkPresent = true → s.clk.park = .running → s.clk.inReset = false →
    (s.clk.pllm = .locked → Completes .monitorTrip s fun t =>
      t.clk.coast = true ∧ t.clk.lclkPresent = false ∧ t.clk.epochValid = false ∧ t.clk.lostEvt = true ∧
      t.clk.htMark = s.clk.ht ∧ t.clk.pllm = .floor ∧ t.clk.holdClk = false ∧ t.clk.tsc = s.clk.tsc ∧
      t.host.sticky.getLsbD 4 = true ∧ Same [.clk, .host, .spec, .buf, .mgmt, .int] s t) ∧
    (s.clk.pllm = .floor → Completes .monitorTrip s fun t =>
      t.clk.coast = true ∧ t.clk.lclkPresent = false ∧ t.clk.frozen = true ∧ t.clk.pllm = .floor ∧
      t.clk.lostEvt = true ∧ t.clk.holdClk = false ∧ t.host.sticky.getLsbD 4 = true ∧ t.host.sticky.getLsbD 5 = true ∧
      Same [.clk, .host, .spec, .mgmt, .int] s t) ∧
    ((s.clk.pllm = .rising ∨ s.clk.pllm = .off) → Completes .monitorTrip s fun t =>
      t.clk.coast = s.clk.coast ∧ t.clk.lclkPresent = false ∧ t.clk.seqHeld = true ∧ t.clk.pllm = .off ∧
      t.clk.lostEvt = true ∧ t.host = { s.host with stall := none } ∧ Same [.clk, .host, .int] s t)) ∧
  (∀ s, s.clk.lclkPresent = false → s.clk.park = .running → s.clk.inReset = false →
    (s.clk.seqHeld = false → Completes .lclkReturn s fun t =>
      t.clk.lclkPresent = true ∧ t.clk.failHt = some s.clk.ht ∧ t.clk.pllm = s.clk.pllm ∧ t.clk.coast = s.clk.coast ∧
      t.link = { s.link with train := false } ∧ Same [.clk, .link, .int] s t) ∧
    (s.clk.seqHeld = true → Completes .lclkReturn s fun t =>
      t.clk = { s.clk with lclkPresent := true, seqHeld := false, pllm := .rising, failHt := some s.clk.ht } ∧
      t.host.sticky.getLsbD 5 = true ∧ t.link = { s.link with train := false } ∧ Same [.clk, .host, .link, .mgmt, .int] s t))

/-- A SYNC frame whose CRC checks loads the timestamp counter with E while PLL-M is locked, with EPOCH_VALID, SYNC_EVT, STEPPED
and STEP (R56, R61, R62, R71); without the lock it is refused: SYNC_REJECT is set and EPOCH_VALID is 0 (R57). A frame whose
CRC fails changes no clock part (R515). -/
def Obligations.EpochLoads : Prop :=
  ∀ (s : State) (addr : BitVec 5) (lo hi crc : Word), s.linkUp = true → s.named addr = true →
    (crcOk [lo, hi] crc = true → s.clk.pllm = .locked → Completes (.sync addr [lo, hi, crc]) s fun t =>
      t.clk.tsc = joinWords lo hi ∧ t.clk.epochValid = true ∧ t.clk.syncEvt = true ∧
      t.clk.stepped = (joinWords lo hi - s.clk.tsc != 0#64) ∧
      t.clk.step = stepField (joinWords lo hi - s.clk.tsc).toInt ∧ t.clk.syncReject = s.clk.syncReject ∧
      (joinWords lo hi = s.clk.tsc → t.harrow = s.harrow ∧ t.aux = s.aux ∧ t.arr = s.arr) ∧
      t.link = { s.link with wait := none, ldo := [] } ∧
      Same [.clk, .harrow, .arr, .aux, .recog, .smc, .buf, .pwr, .host, .mport, .mgmt, .link, .int] s t) ∧
    (crcOk [lo, hi] crc = true → s.clk.pllm ≠ .locked → Completes (.sync addr [lo, hi, crc]) s fun t =>
      t.clk.tsc = s.clk.tsc ∧ t.clk.epochValid = false ∧ t.clk.syncReject = true ∧
      t.link = { s.link with wait := none, ldo := [] } ∧ Same [.clk, .link, .int] s t) ∧
    (crcOk [lo, hi] crc = false → Completes (.sync addr [lo, hi, crc]) s fun t =>
      t.link.lastErr = 2#4 ∧ Same [.link, .int] s t)

/-- ALIGN_CHANGE, RELOCKS_CLR and CLKEN_WRITE complete where the host's access is executed (R71, R72, R88): ALIGN takes the
value, RELOCKS reads 0, CLKEN holds the 12 bits written; the gates cleared over an access in flight wait from then on (R94). A
gate forced when its time has come waits no longer, with the STICKY bit and, where the core was mid-access, a bus-error record;
CLKEN stands as it was.
The model's own readings in it: log entries 9, 19. -/
def Obligations.ClockWritesComplete : Prop :=
  (∀ s v, s.Reaches 15 → Completes (.alignChange v) s fun t =>
    t.clk.align = v ∧ t.clk.syncEvt = s.clk.syncEvt ∧ t.clk.syncReject = s.clk.syncReject ∧ t.clk.tsc = s.clk.tsc ∧
    t.host = { s.host with done := true, valid := false } ∧ Same [.clk, .harrow, .aux, .buf, .host, .int] s t) ∧
  (∀ s, s.Reaches 12 → Completes .relocksClr s fun t =>
    t.clk = { s.clk with relocks := 0#8 } ∧ t.host = { s.host with done := true, valid := false } ∧ Same [.clk, .host, .int] s t) ∧
  (∀ s w busy, s.Reaches 7 → Completes (.clkenWrite w busy) s fun t =>
    t.clk.clken = bits w 0 12 ∧
    t.clk.closing = closingAfter s.clk.clken (bits w 0 12)
      (busy ||| (if s.clken 6 && !bitAt w 6 then s.holdItem else s).flying) s.clk.tsc s.clk.closing ∧
    t.host = { s.host with done := true, valid := false } ∧ t.pending = s.pending ∧ t.link = s.link ∧ t.mport = s.mport ∧
    t.int.src = s.int.src) ∧
  (∀ s (b : Fin 12) a, s.forceDue b.val = true → s.hasLk = true → s.quietFlights = true → s.mgmt.logQ.length < 16 →
    Completes (.gateForced b (some a)) s fun t =>
      t.clk.closing.getD b.val none = none ∧ (∀ k, k ≠ b.val → t.clk.closing.getD k none = s.clk.closing.getD k none) ∧
      t.host = { s.host with sticky := putBit s.host.sticky 7 true } ∧ s.Logged t 0x09#8 0x01#8 a 0#32 0#32 ∧
      t.clk.clken = s.clk.clken ∧ (b = 6 → t.buf = { s.buf with part := none }) ∧ (b ≠ 6 → t.buf = s.buf) ∧
      Same [.clk, .host, .mgmt, .buf, .int] s t) ∧
  (∀ s (b : Fin 12), s.forceDue b.val = true → s.hasLk = true → s.quietFlights = true →
    Completes (.gateForced b none) s fun t =>
      t.clk.closing.getD b.val none = none ∧ (∀ k, k ≠ b.val → t.clk.closing.getD k none = s.clk.closing.getD k none) ∧
      t.host = { s.host with sticky := putBit s.host.sticky 7 true } ∧ t.clk.clken = s.clk.clken ∧
      (b = 6 → t.buf = { s.buf with part := none }) ∧ (b ≠ 6 → t.buf = s.buf) ∧ Same [.clk, .host, .buf, .int] s t)

/-- PARK (R82 to R87): accepted while the domains allow it, with the monitor disarmed; refused with PARK_REFUSED otherwise;
the entry ends with no clock and both lines high; WAKE ends Park with LINK_WAKE recorded. A frame held past its header is discarded
(R516).
The model's own readings in it: log entries 17, 78. -/
def Obligations.ParkCompletes : Prop :=
  (∀ s addr, s.linkUp = true → s.named addr = true →
    (s.parkReady = true → Completes (.park ⟨addr, 0⟩) s fun t =>
      t.clk.park = .entering ∧ t.clk.monitorArmed = false ∧ t.clk.epochValid = false ∧ t.clk.tsc = s.clk.tsc ∧
      t.link = { s.link with wait := none, ldo := [] } ∧ Same [.clk, .link, .int] s t) ∧
    (s.parkReady = false → Completes (.park ⟨addr, 0⟩) s fun t =>
      t.clk = { s.clk with parkRefused := true } ∧ t.link = { s.link with wait := none, ldo := [] } ∧ Same [.clk, .link, .int] s t)) ∧
  (∀ s addr n, s.linkUp = true → Completes (.park ⟨addr, n + 1⟩) s fun t => t.clk = s.clk ∧ Same [.link, .int] s t) ∧
  (∀ s, s.clk.park = .entering → Completes .parkEntryDone s fun t =>
    t.clk.park = .parked ∧ t.hasLk = false ∧ t.hasSm = false ∧ t.int.line0 = false ∧ t.int.line1 = false ∧
    t.clk.tsc = s.clk.tsc ∧ t.clk.ht = s.clk.ht ∧ t.host = { s.host with stall := none } ∧ Same [.clk, .host, .int] s t) ∧
  (∀ s addr, s.clk.park = .parked → s.clk.inReset = false → (addr = s.link.addr ∨ addr = 31#5) → s.scar.wakeOwed = false →
    Completes (.wake ⟨addr, 0⟩) s fun t =>
      t.clk.park = .running ∧ t.clk.monitorArmed = true ∧ t.clk.lclkPresent = true ∧ t.clk.pllm = .rising ∧
      t.clk.htMark = s.clk.ht ∧ t.clk.tsc = s.clk.tsc ∧ t.pwr.wakeSrc = 0x03#8 ∧ t.pwr.wakeDet = 0x04#8 ∧
      t.pwr.wakeHt = BitVec.ofNat 16 s.clk.ht ∧ t.link = { s.link with wait := none, ldo := [], train := false } ∧
      Same [.clk, .pwr, .link, .mgmt, .int] s t)

/-! ### Array and thermal hold (chapters 01, 03, 04) -/

/-- Drive window and die checks (R22, R28 to R30, R33, R108, R163): a gyro cluster that is not Isolating is Excluded, the exclusion
ends again, a fault of a die is set and cleared, with TEMP_EVT or CAV_EVT for a temperature or a pressure; nothing outside the
array, the log and the interrupt lines changes.
The model's own readings in it: log entries 11, 29. -/
def Obligations.WindowAndDieEventsComplete : Prop :=
  (∀ s (g : Fin 12), s.isOn .gf = true → (s.cluster (24 + g.val)).driveExcl = false →
    (s.cluster (24 + g.val)).iso = none → Completes (.driveWindowExclude g) s fun t =>
      t.cluster (24 + g.val) = { s.cluster (24 + g.val) with driveExcl := true } ∧ t.clusterState (24 + g.val) = 2#2 ∧
      (∀ i, i ≠ 24 + g.val → t.cluster i = s.cluster i) ∧ t.arr.units = s.arr.units ∧ Same [.arr, .mgmt, .int] s t) ∧
  (∀ s (g : Fin 12), s.isOn .gf = true → (s.cluster (24 + g.val)).driveExcl = true →
    Completes (.driveWindowInclude g) s fun t =>
      t.cluster (24 + g.val) = { s.cluster (24 + g.val) with driveExcl := false } ∧
      (∀ i, i ≠ 24 + g.val → t.cluster i = s.cluster i) ∧ t.arr.units = s.arr.units ∧ Same [.arr, .mgmt, .int] s t) ∧
  (∀ s die check, dieCheckExists die check = true → s.isOn (dieDom die) = true →
    ((s.dieFault die).get check = false → Completes (.dieFaultSet die check) s fun t =>
      (t.dieFault die).get check = true ∧ (∀ c, c ≠ check → (t.dieFault die).get c = (s.dieFault die).get c) ∧
      (check = .temperature → t.arr.tempEvt = true) ∧ (check = .pressure → t.arr.cavEvt = true) ∧
      t.arr.units = s.arr.units ∧ t.arr.cl = s.arr.cl ∧ Same [.arr, .mgmt, .int] s t) ∧
    ((s.dieFault die).get check = true → Completes (.dieFaultClear die check) s fun t =>
      (t.dieFault die).get check = false ∧ (∀ c, c ≠ check → (t.dieFault die).get c = (s.dieFault die).get c) ∧
      (check = .temperature → t.arr.tempEvt = true) ∧ (check = .pressure → t.arr.cavEvt = true) ∧
      t.arr.units = s.arr.units ∧ t.arr.cl = s.arr.cl ∧ Same [.arr, .mgmt, .int] s t))

/-- The thermal hold (R118 to R127): a write of THERM_CTRL takes ENABLE and SETPOINT, clears READY where the effective set point
moves and ends the cut of a fault where ENABLE rises; READY comes with its event after the 60 s of qualification, where the set
point can be held; it is lost at a deviation or a gradient, a gradient with FAULT 0b00 and FAULT_EVT; a fault 0b01 to 0b11 sets
FAULT, FAULT_EVT and the cut of the heaters, with a log record; SATURATED follows the drive; and once in a millisecond of TH On
THERM_STAT takes a measurement.
The model's own readings in it: log entry 28. -/
def Obligations.ThermalHoldCompletes : Prop :=
  (∀ s w, s.Reaches 54 → Completes (.thermCtrlWrite w) s fun t =>
    t.therm.enable = bitAt w 0 ∧ t.therm.setpoint = bits w 8 8 ∧
    (t.therm.effective ≠ s.therm.effective → t.therm.ready = false) ∧
    (bitAt w 0 = true → s.therm.enable = false → t.therm.faultLatch = false) ∧
    t.therm.maxCode = s.therm.maxCode ∧ t.therm.power = s.therm.power ∧ t.therm.readyEvt = s.therm.readyEvt ∧
    t.host = { s.host with done := true, valid := false } ∧ Same [.therm, .host, .int] s t) ∧
  (∀ s g m, s.regulating = true → s.therm.ready = false → s.thermQualified = true → g.toNat ≤ 10 →
    s.therm.near m.tplat 5 = true → s.therm.reachable m.ambient m.vhtr = true →
    Completes (.thermReady g m) s fun t =>
      t.therm = { s.therm with ready := true, readyEvt := true, gradient := g, tplat := m.tplat } ∧ Same [.therm, .int] s t) ∧
  (∀ s g p, s.regulating = true → s.therm.ready = true →
    (g.toNat ≤ 10 → s.therm.near p 10 = false → s.therm.tooHot p = false → Completes (.thermReadyLoss g p) s fun t =>
      t.therm.ready = false ∧ t.therm.gradient = g ∧ t.therm.tplat = p ∧ t.therm.faultEvt = s.therm.faultEvt ∧
      Same [.therm, .int] s t) ∧
    (10 < g.toNat → s.therm.tooHot p = false → Completes (.thermReadyLoss g p) s fun t =>
      t.therm.ready = false ∧ t.therm.gradient = g ∧ t.therm.tplat = p ∧ t.therm.fault = 0#2 ∧ t.therm.faultEvt = true ∧
      t.therm.faultLatch = s.therm.faultLatch ∧ t.therm.good = 0 ∧ Same [.therm, .mgmt, .int] s t) ∧
    (s.therm.near p 10 = false → s.therm.tooHot p = true → Completes (.thermReadyLoss g p) s fun t =>
      t.therm.ready = false ∧ t.therm.gradient = g ∧ t.therm.tplat = p ∧ t.therm.fault = 1#2 ∧ t.therm.faultEvt = true ∧
      t.therm.faultLatch = true ∧ t.regulating = false ∧ Same [.therm, .mgmt, .int] s t)) ∧
  (∀ s g p ev, s.isOn .th = true → s.clken 9 = true → s.mgmt.logQ.length < 16 → ev ≠ .gradient →
    Completes (.thermFault ev g p) s fun t =>
      t.therm.fault = thermCode ev ∧ t.therm.faultEvt = true ∧ t.therm.faultLatch = true ∧ t.therm.ready = false ∧
      t.therm.gradient = g ∧ t.therm.tplat = p ∧ t.regulating = false ∧
      s.Logged t 0x0B#8 0x01#8 t.thermStat 0#32 0#32 ∧ Same [.therm, .mgmt, .int] s t) ∧
  (∀ s g p, s.isOn .th = true → s.clken 9 = true → s.mgmt.logQ.length < 16 → s.therm.ready = true → 10 < g.toNat →
    Completes (.thermFault .gradient g p) s fun t =>
      t.therm.fault = 0#2 ∧ t.therm.faultEvt = true ∧ t.therm.faultLatch = s.therm.faultLatch ∧ t.therm.ready = false ∧
      t.therm.good = 0 ∧ t.therm.enable = s.therm.enable ∧ s.Logged t 0x0B#8 0x01#8 t.thermStat 0#32 0#32 ∧
      Same [.therm, .mgmt, .int] s t) ∧
  (∀ s, s.regulating = true → s.therm.saturated = false →
    Completes .thermSaturated s fun t => t.therm = { s.therm with saturated := true } ∧ Same [.therm, .int] s t) ∧
  (∀ s, s.pending = [] → s.clk.pllm = .locked → s.hasSm = true → s.isOn .th = true →
    ∃ t, step s = .next t ∧
      (s.therm.sub + 1 < 196608 → t.therm = { s.therm with sub := s.therm.sub + 1 }) ∧
      (196608 ≤ s.therm.sub + 1 → ∃ n,
        t.therm.sub = 0 ∧ t.therm.gradient = Config.platGradient n ∧ t.therm.tplat = Config.platMean n ∧
        (t.therm.saturated = true → s.therm.saturated = true ∧ Config.heaterAtMax n = true) ∧
        (s.regulating = true → s.therm.tooHot t.therm.tplat = true →
          t.therm.fault = 1#2 ∧ t.therm.faultEvt = true ∧ t.therm.faultLatch = true ∧ t.therm.ready = false)))

/-- A rotation starts and an audit begins (R139, R140): the audited unit is named, its RETURN is the state it had, the
lowest-indexed Spare stands in for an Active unit of a cluster that has one, and a unit that is not Active enters Audit at once;
a scheduled audit of a Dead or Fallow unit waits for its region (R151, R152). The model's reading of the slot order stands in log
entry 20. -/
def Obligations.AuditsStart : Prop :=
  (∀ s (r : Fin 6), s.auditsMay r.val = true → (s.rotation r.val).active = false → (s.rotation r.val).audit = none →
    s.gapOver r.val = true → Completes (.rotationStart r) s fun t =>
      (t.rotation r.val).active = true ∧ (t.rotation r.val).next = 0 ∧ (t.rotation r.val).audit = none ∧
      (t.rotation r.val).due = (s.rotation r.val).due ∧ (∀ q, q ≠ r.val → t.rotation q = s.rotation q) ∧
      t.arr.units = s.arr.units ∧ t.arr.cl = s.arr.cl ∧ t.arr.voids = s.arr.voids ∧ Same [.arr, .int] s t) ∧
  (∀ s (u : Fin 660) b, s.nextAudit (unitRegion u.val) = some (u.val, b) → s.auditsMay (unitRegion u.val) = true →
    (s.rotation (unitRegion u.val)).audit = none →
    Completes (.auditStart u) s fun t =>
      (∃ a, (t.rotation (unitRegion u.val)).audit = some a ∧ a.unit = u ∧ a.ret = (s.unit u.val).state ∧ a.rotation = b ∧
        (a.ret = .active → a.phase = .leak ∧ (u.val < 648 → a.standin.map Fin.val = (s.spares (clusterOf u.val)).head?)) ∧
        (a.ret ≠ .active → a.phase = .pilot ∧ a.standin = none ∧ (t.unit u.val).state = .audit)) ∧
      (∀ r, r ≠ unitRegion u.val → t.rotation r = s.rotation r) ∧ (∀ i, (t.cluster i).bare = (s.cluster i).bare) ∧
      Same [.arr, .mgmt, .int] s t) ∧
  (∀ s (u : Fin 660), (s.unit u.val).state = .dead → (s.unit u.val).lasting = false → s.hasLk = true →
    Completes (.deadAuditDue u) s fun t =>
      u ∈ (t.rotation (unitRegion u.val)).due ∧
      (∀ v, v ∈ (s.rotation (unitRegion u.val)).due → v ∈ (t.rotation (unitRegion u.val)).due) ∧
      (t.rotation (unitRegion u.val)).audit = (s.rotation (unitRegion u.val)).audit ∧ t.arr.units = s.arr.units ∧
      Same [.arr, .int] s t) ∧
  (∀ s (u : Fin 660), (s.unit u.val).state = .fallow → s.hasLk = true →
    Completes (.fallowAuditDue u) s fun t =>
      u ∈ (t.rotation (unitRegion u.val)).due ∧
      (∀ v, v ∈ (s.rotation (unitRegion u.val)).due → v ∈ (t.rotation (unitRegion u.val)).due) ∧
      (t.rotation (unitRegion u.val)).audit = (s.rotation (unitRegion u.val)).audit ∧ t.arr.units = s.arr.units ∧
      Same [.arr, .int] s t)

/-- The leak check of an Active unit (R140, R142, R157): a closed switch takes the unit into Audit; one stuck closed makes it Dead,
sealed, CAUSE 0b111, with the cluster STUCK and the audit over; where the region output moved the audit is void and the unit goes
back.
The model's own readings in it: log entries 21, 22. -/
def Obligations.LeakChecksComplete : Prop :=
  ∀ s (r : Fin 6) (a : Audit), (s.rotation r.val).audit = some a → a.phase = .leak → s.auditsMay r.val = true →
    unitRegion a.unit.val = r.val → a.standin ≠ some a.unit → (s.unit a.unit.val).state = .active → a.ret = .active →
    Completes (.leakCheck r ⟨false, false⟩) s (fun t =>
      (t.rotation r.val).audit = some { a with phase := .pilot } ∧
      t.unit a.unit.val = { s.unit a.unit.val with state := .audit, ret := .active } ∧
      (∀ u, u ≠ a.unit.val → t.unit u = s.unit u) ∧ t.arr.cl = s.arr.cl ∧ Same [.arr, .mgmt, .int] s t) ∧
    Completes (.leakCheck r ⟨false, true⟩) s (fun t =>
      (t.rotation r.val).audit = none ∧ (t.unit a.unit.val).state = .dead ∧ (t.unit a.unit.val).lasting = true ∧
      (t.unit a.unit.val).cause = 7#3 ∧ (t.cluster (clusterOf a.unit.val)).stuck = true ∧ t.arr.unitEvt = true ∧
      t.arr.dirtySince.isSome = true ∧ Same [.arr, .pwr, .mgmt, .int] s t) ∧
    (∀ stuck, Completes (.leakCheck r ⟨true, stuck⟩) s fun t =>
      (t.rotation r.val).audit = none ∧ (t.unit a.unit.val).state = .active ∧ t.arr.voids = satInc s.arr.voids ∧
      Same [.arr, .mgmt, .int] s t)

/-- The verdict of an audit (R142 to R144, R146, R147, R151, R152, R154). For a unit whose RETURN is Active or Spare: within every
limit it goes back with SENS as measured and FAILS 0, where the fill rule does not take a Spare at once; outside one, FAILS
counts and the third fail makes it Dead with the CAUSE of the first failing quantity. For a Fallow unit: a pass counts in PASSES,
and the unit stays Fallow below 24 and becomes a Spare where R152 lets it; a fail makes it Dead again and counts in FLAPS, the
third sealing it. For a Dead unit: a pass makes it Fallow with PASSES 1, a fail leaves it Dead. An audit during which the region
output moved is void. The limits that auditCause compares with are those of R141; for a Scarecrow unit they are the model's
choice (log entry 110).
The model's own readings in it: log entries 21, 110. -/
def Obligations.AuditVerdictsComplete : Prop :=
  ∀ s (r : Fin 6) (a : Audit) m, (s.rotation r.val).audit = some a → a.phase = .pilot → s.auditsMay r.val = true →
    unitRegion a.unit.val = r.val → a.standin ≠ some a.unit → (a.ret ≠ .active → a.standin = none) →
    (s.unit a.unit.val).state = .audit →
    Completes (.auditVerdict r true m) s (fun t =>
      (t.rotation r.val).audit = none ∧ (a.ret ≠ .spare → (t.unit a.unit.val).state = a.ret) ∧
      (a.ret = .spare → 16 ≤ s.activeCount (clusterOf a.unit.val) → (t.unit a.unit.val).state = .spare) ∧
      t.arr.voids = satInc s.arr.voids ∧ Same [.arr, .mgmt, .int] s t) ∧
    (a.ret = .active ∨ a.ret = .spare → auditCause (3 ≤ r.val) m = 0#3 → Completes (.auditVerdict r false m) s fun t =>
      (t.rotation r.val).audit = none ∧ (a.ret = .active → (t.unit a.unit.val).state = .active) ∧
      (a.ret = .spare → 16 ≤ s.activeCount (clusterOf a.unit.val) → (t.unit a.unit.val).state = .spare) ∧
      (t.unit a.unit.val).sens = BitVec.ofInt 13 m.sens ∧ (t.unit a.unit.val).fails = 0#2 ∧
      t.arr.voids = s.arr.voids ∧ Same [.arr, .mgmt, .int] s t) ∧
    (a.ret = .active ∨ a.ret = .spare → auditCause (3 ≤ r.val) m ≠ 0#3 → (s.unit a.unit.val).fails.toNat < 2 →
      Completes (.auditVerdict r false m) s fun t =>
        (t.rotation r.val).audit = some a ∧ (t.unit a.unit.val).fails = (s.unit a.unit.val).fails + 1#2 ∧
        (t.unit a.unit.val).state = .audit ∧ t.arr.unitEvt = s.arr.unitEvt ∧ Same [.arr, .mgmt, .int] s t) ∧
    (a.ret = .active ∨ a.ret = .spare → auditCause (3 ≤ r.val) m ≠ 0#3 → 2 ≤ (s.unit a.unit.val).fails.toNat →
      Completes (.auditVerdict r false m) s fun t =>
        (t.rotation r.val).audit = none ∧ (t.unit a.unit.val).state = .dead ∧
        (t.unit a.unit.val).cause = auditCause (3 ≤ r.val) m ∧ t.arr.unitEvt = true ∧
        Same [.arr, .pwr, .mgmt, .int] s t) ∧
    (a.ret = .dead → auditCause (3 ≤ r.val) m = 0#3 → Completes (.auditVerdict r false m) s fun t =>
      (t.rotation r.val).audit = none ∧ (t.unit a.unit.val).state = .fallow ∧ (t.unit a.unit.val).passes = 1#5 ∧
      (t.unit a.unit.val).sens = BitVec.ofInt 13 m.sens ∧ Same [.arr, .pwr, .mgmt, .int] s t) ∧
    (a.ret = .dead → auditCause (3 ≤ r.val) m ≠ 0#3 → Completes (.auditVerdict r false m) s fun t =>
      (t.rotation r.val).audit = none ∧ (t.unit a.unit.val).state = .dead ∧ Same [.arr, .mgmt, .int] s t) ∧
    (a.ret = .fallow → auditCause (3 ≤ r.val) m = 0#3 → Completes (.auditVerdict r false m) s fun t =>
      (t.rotation r.val).audit = none ∧ (t.unit a.unit.val).passes = satInc (s.unit a.unit.val).passes ∧
      (t.unit a.unit.val).sens = BitVec.ofInt 13 m.sens ∧ (t.unit a.unit.val).fails = 0#2 ∧
      ((satInc (s.unit a.unit.val).passes).toNat < 24 → (t.unit a.unit.val).state = .fallow) ∧
      (a.unit.val < 648 → 24 ≤ (satInc (s.unit a.unit.val).passes).toNat → s.spanReached (s.unit a.unit.val) = true →
        (s.spares (clusterOf a.unit.val)).length < 2 →
        (t.unit a.unit.val).state = .spare ∨ (t.unit a.unit.val).state = .active) ∧
      Same [.arr, .pwr, .mgmt, .int] s t) ∧
    (a.ret = .fallow → auditCause (3 ≤ r.val) m ≠ 0#3 → Completes (.auditVerdict r false m) s fun t =>
      (t.rotation r.val).audit = none ∧ (t.unit a.unit.val).state = .dead ∧
      (t.unit a.unit.val).flaps = satInc (s.unit a.unit.val).flaps ∧ (t.unit a.unit.val).passes = 0#5 ∧
      (t.unit a.unit.val).lasting = (satInc (s.unit a.unit.val).flaps == 3#2) ∧ Same [.arr, .pwr, .mgmt, .int] s t)

/-- Clusters (R148 to R150, R159, R453). A window fault counts in WINEVT and the cluster is Isolating for what the bisection will
find, within the bound of R148; the tick that ends an isolation with the fault still there excludes the cluster, one that found a
unit makes it Dead with CAUSE 0b101 and starts the re-trim. A re-trim ends with a measured gain. A commit of the map writes one
copy. A residual check compares each cluster of its region, and a re-trim of an excluded cluster starts. CLUSTER_PWR takes its
mask, and a cluster switched on again rejoins after 2 ms.
The model's own readings in it: log entries 24, 25, 111. -/
def Obligations.ClusterEventsComplete : Prop :=
  (∀ s (i : Fin 36) f, s.frontRuns (regionOf i.val) = true → s.clusterOn i.val = true → (s.cluster i.val).nodeFault = false →
    (s.cluster i.val).iso = none → (s.rotation (regionOf i.val)).audit = none → s.bisects i.val f = true →
    Completes (.windowFault i f) s fun t =>
      (∃ n, 1 ≤ n ∧ n ≤ 7352 ∧
        t.cluster i.val = { s.cluster i.val with winevt := satInc (s.cluster i.val).winevt, retrim := false, iso := some (f, n) }) ∧
      t.clusterState i.val = 3#2 ∧ (∀ j, j ≠ i.val → t.cluster j = s.cluster j) ∧ t.arr.units = s.arr.units ∧
      t.arr.degrEvt = true ∧ Same [.arr, .mgmt, .int, .fresh] s t) ∧
  (∀ s (i : Fin 36), s.pending = [] → s.hasSm = true → s.frontRuns (regionOf i.val) = true →
    (∀ j, j ≠ i.val → (s.cluster j).iso = none) →
    ((s.cluster i.val).iso = some (.nodeFault, 1) → ∃ t, step s = .next t ∧
      (t.cluster i.val).iso = none ∧ (t.cluster i.val).nodeFault = true ∧ t.clusterState i.val = 2#2 ∧
      t.arr.units = s.arr.units) ∧
    (∀ u : Fin 660, (s.cluster i.val).iso = some (.unit u, 1) → s.bisects i.val (.unit u) = true → ∃ t, step s = .next t ∧
      (t.cluster i.val).iso = none ∧ (t.unit u.val).state = .dead ∧ (t.unit u.val).cause = 5#3 ∧
      (t.cluster i.val).retrim = true ∧ t.arr.unitEvt = true)) ∧
  (∀ s (i : Fin 36), (s.cluster i.val).retrim = true → s.frontRuns (regionOf i.val) = true →
    Completes (.retrimDone i) s fun t =>
      (∃ g, t.cluster i.val =
        { s.cluster i.val with retrim := false, residGood := 0, trims := ⟨s.clk.tsc, g, g⟩ :: (s.cluster i.val).trims }) ∧
      (∀ j, j ≠ i.val → t.cluster j = s.cluster j) ∧ t.arr.units = s.arr.units ∧ Same [.arr, .mgmt, .int, .fresh] s t) ∧
  (∀ s, s.arr.dirtySince.isSome = true → s.arr.mapLoaded = true → s.isOn .mc = true → s.flashFree = true →
    Completes .healthCommit s fun t =>
      t.arr.dirtySince = none ∧ t.arr.units = s.arr.units ∧
      (∃ c, c.units = s.arr.units.map UnitHealth.settled ∧ t.arr.newerCopy = some c ∧
        (s.mport.seq = none →
          t.arr.mapA = some c ∧ t.arr.mapB = s.arr.mapB ∨ t.arr.mapB = some c ∧ t.arr.mapA = s.arr.mapA)) ∧
      Same [.arr, .mport, .mgmt, .int] s t) ∧
  (∀ s (r : Fin 6) e, s.isOn (frontDom r.val) = true → s.isOn .mc = true →
    Completes (.residualCheck r e) s fun t =>
      (∀ i, i ∉ regionClusters r.val → t.cluster i = s.cluster i) ∧ t.arr.units = s.arr.units ∧
      (∀ i ∈ regionClusters r.val, t.cluster i =
        (s.cluster i).compare (s.included i) (e.getLsbD (i - (regionClusters r.val).headD 0))) ∧
      Same [.arr, .mgmt, .int] s t) ∧
  (∀ s (i : Fin 36), (s.cluster i.val).residExcl = true → s.isOn .mc = true → s.isOn (frontDom (regionOf i.val)) = true →
    Completes (.residualRetrim i) s fun t =>
      t.cluster i.val = { s.cluster i.val with residTrim := true, retrim := true } ∧
      (∀ j, j ≠ i.val → t.cluster j = s.cluster j) ∧ t.arr.units = s.arr.units ∧ Same [.arr, .mgmt, .int] s t) ∧
  (∀ s v, s.ReachesTs 0x7023 → Completes (.clusterPwrWrite v) s fun t =>
    t.arr.clusterPwr = v ∧
    (∀ i, i < 24 → s.arr.clusterPwr.getLsbD i = false → v.getLsbD i = true →
      (t.cluster i).rejoin = true ∧ (t.cluster i).rejoinAt = s.clk.tsc) ∧
    Same [.arr, .pwr, .mgmt, .host, .int] s t) ∧
  (∀ s (i : Fin 24), (s.cluster i.val).rejoin = true → s.isOn .af = true →
    s.usSince (s.cluster i.val).rejoinAt 2000 = true →
    Completes (.clusterRejoin i) s fun t =>
      t.cluster i.val = { s.cluster i.val with rejoin := false } ∧ (∀ j, j ≠ i.val → t.cluster j = s.cluster j) ∧
      Same [.arr, .int] s t)

/-! ### Auxiliary front end (chapter 05) -/

/-- Converters (R181, R189, R190, R196 to R198): a commit takes the staging block to pending, with the tick at which the active
copy stops, or answers its error; the pending copy becomes active at its start; charge resets start by command, overload or timer
and end after 149 modulator periods. A commit with an error leaves the pending copy alone; an overload sets its flag also during a
reset.
The model's own readings in it: log entries 30, 32, 114. -/
def Obligations.ConverterEventsComplete : Prop :=
  (∀ s (c : Fin 4), s.Reaches 36 → s.isOn .xf = true →
    (s.aux.conv[c].stage.check = 0#3 → s.aux.conv[c].pend = none → Completes (.commit c) s fun t =>
      t.aux.conv[c] = { s.aux.conv[c] with
        pend := some s.aux.conv[c].stage, err := 0#3, stopAt := some (s.stopFor c),
        startAt := s.startFor s.aux.conv[c].stage (s.stopFor c) } ∧
      (∀ d, d ≠ c → t.aux.conv[d] = s.aux.conv[d]) ∧ t.aux.exc = s.aux.exc ∧ t.aux.tedsAuto = s.aux.tedsAuto ∧
      t.aux.probeEn = s.aux.probeEn ∧ t.host = { s.host with done := true, valid := false } ∧ Same [.aux, .host, .int] s t) ∧
    (s.aux.conv[c].stage.check = 0#3 → Completes (.commit c) s fun t =>
      t.aux.conv[c].pend = some s.aux.conv[c].stage ∧ t.aux.conv[c].err = 0#3 ∧ t.aux.conv[c].act = s.aux.conv[c].act ∧
      (∀ d, d ≠ c → t.aux.conv[d] = s.aux.conv[d]) ∧ Same [.aux, .host, .int] s t) ∧
    (s.aux.conv[c].stage.check ≠ 0#3 → Completes (.commit c) s fun t =>
      t.aux.conv[c] = { s.aux.conv[c] with err := s.aux.conv[c].stage.check } ∧
      (∀ d, d ≠ c → t.aux.conv[d] = s.aux.conv[d]) ∧ Same [.aux, .host, .int] s t)) ∧
  (∀ s (c : Fin 4) b, s.aux.conv[c].pend = some b → s.isOn .xf = true → s.clken 2 = true → s.hasSm = true →
    0 ≤ (s.clk.tsc - s.aux.conv[c].startAt).toInt →
    Completes (.pendingCopyStart c) s fun t =>
      t.aux.conv[c].act = b ∧ t.aux.conv[c].pend = none ∧ t.aux.conv[c].resetting = false ∧
      t.aux.conv[c].start = s.aux.conv[c].startAt ∧ t.aux.conv[c].fault = s.aux.conv[c].fault ∧
      t.aux.conv[c].stage = s.aux.conv[c].stage ∧ (∀ k : Fin 4, t.aux.conv[c].offs[k] = b.offset k.val) ∧
      (∀ k : Fin 4, t.aux.conv[c].supAt[k].isSome = true) ∧
      (∀ d, d ≠ c → t.aux.conv[d] = s.aux.conv[d]) ∧
      (∀ n : Fin 4, t.aux.exc[n] = { s.aux.exc[n] with due := t.aux.exc[n].due }) ∧ Same [.aux, .harrow, .int] s t) ∧
  (∀ s (c : Fin 4), s.Reaches 36 → s.mayReset c = true → Completes (.ampReset c) s fun t =>
    t.aux.conv[c].resetting = true ∧ t.aux.conv[c].resets = s.aux.conv[c].resets ∧ t.aux.conv[c].act = s.aux.conv[c].act ∧
    t.aux.conv[c].holds.head? = some (s.nextMod, none) ∧
    (∀ d, d ≠ c → t.aux.conv[d] = s.aux.conv[d]) ∧ Same [.aux, .host, .int] s t) ∧
  (∀ s (c : Fin 4), s.convRuns c = true → Completes (.overload c) s fun t =>
    t.aux.overload = putBit s.aux.overload c.val true ∧
    t.aux.conv[c].resetting =
      (s.aux.conv[c].resetting || (convCharge s.aux.conv[c].act.conv && bitAt s.aux.conv[c].act.rst 4)) ∧
    (∀ d, d ≠ c → t.aux.conv[d] = s.aux.conv[d]) ∧ Same [.aux, .int] s t) ∧
  (∀ s (c : Fin 4), s.mayReset c = true → bits s.aux.conv[c].act.rst 0 4 ≠ 0#4 → s.timerOver c = true →
    Completes (.periodicReset c) s fun t =>
      t.aux.conv[c].resetting = true ∧ t.aux.conv[c].holds.head? = some (s.nextMod, none) ∧
      (∀ d, d ≠ c → t.aux.conv[d] = s.aux.conv[d]) ∧ Same [.aux, .int] s t) ∧
  (∀ s (c : Fin 4), s.aux.conv[c].resetting = true → s.convRuns c = true → s.aux.conv[c].resetOver s.clk.tsc = true →
    Completes (.resetEnd c) s fun t =>
      t.aux.conv[c].resetting = false ∧ t.aux.conv[c].resets = satInc s.aux.conv[c].resets ∧
      t.aux.conv[c].timerHt = s.clk.ht ∧ (∀ d, d ≠ c → t.aux.conv[d] = s.aux.conv[d]) ∧ Same [.aux, .int] s t)

/-- Excitation and wire break (R191 to R195, R200 to R204): a source's word takes the 20 bits written and its setting stands until
the boundary; at the boundary it comes into effect; EXC_CUT is cleared by a restore; a wire break, where the comparators check,
faults the slot and cuts the sources the step names, with a log record; a recovery clears the fault and leaves the cuts.
The model's own readings in it: log entry 31. -/
def Obligations.ExcitationEventsComplete : Prop :=
  (∀ s (n : Fin 4) w, s.ReachesTs (0x1050 + n.val) → Completes (.excitationWrite n w) s fun t =>
    t.aux.exc[n].word = w &&& 0xFFFFF#32 ∧ (∀ m, m ≠ n → t.aux.exc[m].word = s.aux.exc[m].word) ∧
    (∀ m : Fin 4, t.aux.exc[m].live = s.aux.exc[m].live) ∧
    (∀ m : Fin 4, t.aux.exc[m].conflict = t.aux.conflictOf m.val) ∧
    (w &&& 0xFFFFF#32 ≠ s.aux.exc[n].word → t.aux.exc[n].pend = true) ∧ t.aux.conv = s.aux.conv ∧
    Same [.aux, .pwr, .host, .int] s t) ∧
  (∀ s (n : Fin 4), s.aux.exc[n].pend = true → s.isOn .xf = true → s.clken 2 = true →
    0 ≤ (s.clk.tsc - s.aux.exc[n].due).toInt →
    Completes (.excitationChange n) s fun t =>
      t.aux.exc[n] = { s.aux.exc[n] with
        pend := false, live := s.aux.exc[n].word, ok := !s.aux.exc[n].conflict && !s.aux.excCut.getLsbD n.val } ∧
      (∀ m, m ≠ n → t.aux.exc[m] = s.aux.exc[m]) ∧ t.aux.excCut = s.aux.excCut ∧
      (∀ c : Fin 4, t.aux.conv[c].act = s.aux.conv[c].act ∧ t.aux.conv[c].fault = s.aux.conv[c].fault) ∧
      Same [.aux, .harrow, .int] s t) ∧
  (∀ s m, s.Reaches 35 → Completes (.excRestore m) s fun t =>
    t.aux.excCut = s.aux.excCut &&& ~~~m ∧ t.aux.overload = s.aux.overload ∧ t.aux.attachEvt = s.aux.attachEvt ∧
    t.aux.wbEvt = s.aux.wbEvt ∧ t.aux.tedsDone = s.aux.tedsDone ∧ t.aux.conv = s.aux.conv ∧ Same [.aux, .host, .int] s t) ∧
  (∀ s (c k : Fin 4) neg, s.compares c k.val neg = true → s.mgmt.logQ.length < 16 →
    Completes (.wireBreak c ⟨k, neg⟩) s fun t =>
      t.aux.conv[c].fault = putBit s.aux.conv[c].fault k.val true ∧ t.aux.wbEvt = putBit s.aux.wbEvt c.val true ∧
      t.aux.excCut = s.aux.excCut ||| bits (s.aux.conv[c].act.stepA k.val) 22 4 ∧
      (∀ n : Fin 4, bitAt (s.aux.conv[c].act.stepA k.val) (22 + n.val) = true → t.aux.exc[n].ok = false) ∧
      (∀ d, d ≠ c → t.aux.conv[d].fault = s.aux.conv[d].fault) ∧
      s.Logged t 0x05#8 0x01#8 t.aux.stat (BitVec.ofNat 32 c.val) 0#32 ∧ Same [.aux, .harrow, .mgmt, .int] s t) ∧
  (∀ s (c k : Fin 4), s.compares c k.val false = true → s.aux.conv[c].fault.getLsbD k.val = true →
    Completes (.wireBreakRecovery c k) s fun t =>
      t.aux.conv[c].fault = putBit s.aux.conv[c].fault k.val false ∧ t.aux.conv[c].supAt[k].isSome = true ∧
      t.aux.excCut = s.aux.excCut ∧ (∀ d, d ≠ c → t.aux.conv[d] = s.aux.conv[d]) ∧ Same [.aux, .harrow, .int] s t)

/-- Identification and calibration cycles (R207 to R211, R217): attach and detach with their event and log record; the start of a
read 100 ms after the attach, which records the wake where it starts MC; its end with the image of tedsImage at the port's
addresses of table space, TEDS_DONE and TEDS_VALID; and the end of a calibration cycle, which answers CAL_RUN after the last
converter.
The model's own readings in it: log entries 34, 35. -/
def Obligations.IdentificationCompletes : Prop :=
  (∀ s (p : Fin 4) v, s.aux.probeEn.getLsbD p.val = true → s.hasLk = true → s.aux.attach.getLsbD p.val ≠ v →
    s.mgmt.logQ.length < 16 →
    Completes (.attach p v) s fun t =>
      t.aux.attach = putBit s.aux.attach p.val v ∧ t.aux.attachEvt = putBit s.aux.attachEvt p.val true ∧
      t.aux.tedsDue = putBit s.aux.tedsDue p.val (v && s.aux.tedsAuto) ∧ t.aux.attachHt[p] = s.clk.ht ∧
      (v = false → t.aux.tedsValid = putBit s.aux.tedsValid p.val false) ∧
      s.Logged t 0x05#8 0x02#8 t.aux.stat (BitVec.ofNat 32 p.val) 0#32 ∧ t.aux.conv = s.aux.conv ∧
      Same [.aux, .mgmt, .int] s t) ∧
  (∀ s (p : Fin 4), s.aux.tedsDue.getLsbD p.val = true → s.aux.attach.getLsbD p.val = true → s.tedsTime p = true →
    s.hasLk = true →
    (s.demandStarts .mc = false → Completes (.tedsReadStart p) s fun t =>
      t.aux = { s.aux with tedsDue := putBit s.aux.tedsDue p.val false, tedsBusy := putBit s.aux.tedsBusy p.val true } ∧
      t.pwr.wakeSrc = s.pwr.wakeSrc ∧ Same [.aux, .pwr, .int] s t) ∧
    (s.demandStarts .mc = true → Completes (.tedsReadStart p) s fun t =>
      t.aux = { s.aux with tedsDue := putBit s.aux.tedsDue p.val false, tedsBusy := putBit s.aux.tedsBusy p.val true } ∧
      t.pwr.wakeSrc = 0x05#8 ∧ t.pwr.wakeDet = BitVec.ofNat 8 p.val ∧ Same [.aux, .pwr, .mgmt, .int] s t)) ∧
  (∀ s (p : Fin 4) found, memoryFits found = true → s.coreUp = true → s.aux.tedsBusy.getLsbD p.val = true →
    s.discovers p.val = false → Mem.wf 0#32 s.aux.teds = true →
    Completes (.tedsDone p found) s fun t =>
      t.aux.tedsBusy = putBit s.aux.tedsBusy p.val false ∧ t.aux.tedsDone = true ∧
      t.aux.tedsValid.getLsbD p.val = (match found with | .memory _ => true | _ => false) ∧
      (∀ i, i < 256 → Mem.get 0#32 t.aux.teds (tedsBase p.val + i) = (tedsImage p.val found).getD i 0#32) ∧
      (∀ a, a < tedsBase p.val ∨ tedsBase p.val + 256 ≤ a → Mem.get 0#32 t.aux.teds a = Mem.get 0#32 s.aux.teds a) ∧
      t.aux.conv = s.aux.conv ∧ Same [.aux, .mgmt, .int] s t) ∧
  (∀ s (c : Fin 4), s.calibrating c = true → s.aux.calTag = none → Completes (.calCycleDone c) s fun t =>
    t.aux.calQueue = putBit s.aux.calQueue c.val false ∧ t.aux.calDone = putBit s.aux.calDone c.val true ∧
    (∀ k : Fin 4, t.aux.conv[c].supAt[k].isSome = true) ∧ (∀ d, d ≠ c → t.aux.conv[d] = s.aux.conv[d]) ∧
    Same [.aux, .harrow, .int] s t) ∧
  (∀ s (c : Fin 4) r, s.calibrating c = true → s.aux.calTag.isSome = true → putBit s.aux.calQueue c.val false = 0#4 →
    s.mgmt.req = some r → s.isOn .mc = true → s.mgmt.outQ.length + 2 ≤ 64 →
    Completes (.calCycleDone c) s fun t =>
      t.aux.calQueue = 0#4 ∧ t.aux.calTag = none ∧ t.mgmt.req = none ∧ t.mgmt.reply = none ∧ t.mgmt.replyEvt = true ∧
      t.mgmt.outQ = s.mgmt.outQ ++ replyWords r.hdr 0#8 [fld (putBit s.aux.calDone c.val true) 0] ∧
      Same [.aux, .harrow, .mgmt, .int] s t)

/-! ### Harrow (chapter 06) -/

/-- Writes of Harrow and of the channel configuration (R102, R103, R236, R238, R242, R243, R246, R247): RANGE takes its value; APPLY
puts the staging set in force from the next multiple of 4096 ticks, or sets COEF_ERR where a coefficient is no finite number;
a biquad commit waits for the next output, or sets COEF_ERR; DIAG_SEL takes its value. The suppression of a path ends, at t0 plus
its latency, for every channel of its triad (R239). No other channel changes, but that RANGE may restart the triad of its channel.
The model's own readings in it: log entries 9, 39. -/
def Obligations.HarrowWritesComplete : Prop :=
  (∀ s (ch : Fin 6) v, s.ReachesTs (64 * ch.val + 1) → Completes (.rangeWrite ch v) s fun t =>
    (t.chan ch.val).range = v ∧ (∀ i, i ≠ ch.val → (t.chan i).range = (s.chan i).range) ∧
    (∀ i, i / 3 ≠ ch.val / 3 → t.chan i = s.chan i) ∧
    (v = (s.chan ch.val).range → t.harrow = s.harrow ∧ t.arr = s.arr) ∧ Same [.harrow, .arr, .mgmt, .host, .int] s t) ∧
  (∀ s (ch : Fin 24), s.ReachesTs (64 * ch.val + 2) →
    ((∀ k, k < 16 → fNonFinite ((s.chan ch.val).userStage.getD k 0#32) = false) → Completes (.apply ch) s fun t =>
      (t.chan ch.val).userSets.head? =
        some (s.clk.tsc + (4096#64 - s.clk.tsc % 4096#64), (s.chan ch.val).userStage) ∧
      (t.chan ch.val).tsrc = (s.chan ch.val).tsrc ∧ (t.chan ch.val).linUser = (s.chan ch.val).linUser ∧
      (t.chan ch.val).coefErr = (s.chan ch.val).coefErr ∧ t.harrow.diagSel = s.harrow.diagSel ∧
      (∀ i, i ≠ ch.val → t.chan i = s.chan i) ∧ Same [.harrow, .host, .int] s t) ∧
    ((∃ k, k < 16 ∧ fNonFinite ((s.chan ch.val).userStage.getD k 0#32) = true) → Completes (.apply ch) s fun t =>
      t.chan ch.val = { s.chan ch.val with coefErr := true } ∧ (∀ i, i ≠ ch.val → t.chan i = s.chan i) ∧
      Same [.harrow, .host, .int] s t)) ∧
  (∀ s (ch : Fin 24) g, s.ReachesTs (bqCtrl ch.val g) →
    ((∀ k, k < 4 → ((s.chan ch.val).biquads g).stageEn.getLsbD k = true → badBiquad ((s.chan ch.val).biquads g).stage k = false) →
      Completes (.biquadCommit ch g) s fun t =>
        (t.chan ch.val).biquads g =
          { (s.chan ch.val).biquads g with
            pend := true, pendC := ((s.chan ch.val).biquads g).stage, pendEn := ((s.chan ch.val).biquads g).stageEn } ∧
        (t.chan ch.val).coefErr = (s.chan ch.val).coefErr ∧ (∀ i, i ≠ ch.val → t.chan i = s.chan i) ∧
        Same [.harrow, .pwr, .host, .int] s t) ∧
    ((∃ k, k < 4 ∧ ((s.chan ch.val).biquads g).stageEn.getLsbD k = true ∧ badBiquad ((s.chan ch.val).biquads g).stage k = true) →
      Completes (.biquadCommit ch g) s fun t =>
        (t.chan ch.val).coefErr = true ∧ (t.chan ch.val).biquads g = (s.chan ch.val).biquads g ∧
        (∀ i, i ≠ ch.val → t.chan i = s.chan i) ∧ Same [.harrow, .pwr, .host, .int] s t)) ∧
  (∀ s sel, s.ReachesTs (64 * 23 + 2) → Completes (.diagSelChange sel) s fun t =>
    t.harrow.diagSel = sel ∧ (t.chan 23).tsrc = (s.chan 23).tsrc ∧ (t.chan 23).linUser = (s.chan 23).linUser ∧
    (∀ i, i ≠ 23 → t.chan i = s.chan i) ∧ Same [.harrow, .host, .int] s t) ∧
  (∀ s (ch : Fin 24) k, ((s.chan ch.val).path k).sup = true → s.isOn .en = true → s.hasSm = true →
    s.latencyOver ch.val k = true → Completes (.pathSettled ch k) s fun t =>
      (∀ i, (withTriads (putBit 0#24 ch.val true)).getLsbD i = true →
        (t.chan i).path k = { (s.chan i).path k with sup := false, rephasing := false } ∧
        ∀ j, j ≠ k → (t.chan i).path j = (s.chan i).path j) ∧
      (∀ i, (withTriads (putBit 0#24 ch.val true)).getLsbD i = false → t.chan i = s.chan i) ∧
      Same [.harrow, .int] s t)

/-- One output of the running paths of a kind (R64, R230, R245, R247, R356, R357): it has the next instant of the kind's grid, from
which the one after it lies one period on; on the recogniser path a suppressed channel puts out the invalid grain, and one that
does not run keeps its latest grain; on a stream group that writes, one output with the group's mask and that instant waits to be
placed.
The model's own readings in it: log entries 37, 61. -/
def Obligations.PathOutputsComplete : Prop :=
  (∀ s cl aux, s.outputsCome .recog = true → s.outputDue .recog = true → s.nextRate = none →
    Completes (.pathOutput .recog cl aux) s fun t =>
      t.harrow.recT = s.harrow.recNext ∧ t.harrow.recNext = s.harrow.recNext + BitVec.ofNat 64 (s.period .recog) ∧
      t.harrow.fastOut = s.harrow.fastOut ∧ t.harrow.slowOut = s.harrow.slowOut ∧
      (∀ ch, ch < 24 → (s.chan ch).recog.running = true → (s.chan ch).recog.sup = true → (s.chan ch).recog.keep = none →
        s.repeated ch = false →
        (t.chan ch).lastRec = 0x800000#24) ∧
      (∀ ch, ch < 24 → (s.chan ch).recog.running = false → (t.chan ch).lastRec = (s.chan ch).lastRec) ∧
      Same [.harrow, .recog, .cap, .scar, .smc, .buf, .int] s t) ∧
  (∀ s cl aux, s.outputsCome .fast = true → s.outputDue .fast = true → s.nextRate = none → s.buf.writing = true →
    s.buf.fast.mask ≠ 0#24 → s.buf.fast.olds = [] → 0 < (s.harrow.fastNext - s.buf.fast.startAt).toInt →
    Completes (.pathOutput .fast cl aux) s fun t =>
      (∃ o, t.harrow.fastOut = s.harrow.fastOut ++ [o] ∧ o.t = s.harrow.fastNext ∧ o.mask = s.buf.fast.mask ∧ o.relaid = false ∧
        (∀ ch : Fin 24, (s.chan ch.val).fast.running = true → (s.chan ch.val).fast.sup = true →
          (s.chan ch.val).fast.keep = none → o.grains[ch] = 0x800000#24) ∧
        (∀ ch : Fin 24, (s.chan ch.val).fast.running = false → o.grains[ch] = 0x800000#24)) ∧
      t.harrow.fastNext = s.harrow.fastNext + BitVec.ofNat 64 (s.period .fast) ∧
      t.harrow.slowOut = s.harrow.slowOut ∧ t.buf = { s.buf with fast := { s.buf.fast with timeNext := false } } ∧
      Same [.harrow, .cap, .spec, .smc, .buf, .int] s t) ∧
  (∀ s cl aux, s.outputsCome .slow = true → s.outputDue .slow = true → s.nextRate = none → s.buf.writing = true →
    s.buf.slow.mask ≠ 0#24 → s.buf.slow.olds = [] → 0 < (s.harrow.slowNext - s.buf.slow.startAt).toInt →
    Completes (.pathOutput .slow cl aux) s fun t =>
      (∃ o, t.harrow.slowOut = s.harrow.slowOut ++ [o] ∧ o.t = s.harrow.slowNext ∧ o.mask = s.buf.slow.mask ∧ o.relaid = false) ∧
      t.harrow.slowNext = s.harrow.slowNext + BitVec.ofNat 64 (s.period .slow) ∧
      t.harrow.fastOut = s.harrow.fastOut ∧ t.buf = { s.buf with slow := { s.buf.slow with timeNext := false } } ∧
      Same [.harrow, .smc, .buf, .int] s t)

/-! ### Recognisers (chapter 07) -/

/-- Recogniser registers (R251, R253, R254, R257, R271): EVT_CTRL takes its fields, a parameter word the bits written and a reserved one nothing
(R468), SET_REF is recorded, and a read of offset 8 copies the eight result words into the snapshot and shows the first. Where no completed report
waits, EVT and, for a recogniser that does not begin to run, its results stay.
The model's own readings in it: log entries 9, 49. -/
def Obligations.RecogniserWritesComplete : Prop :=
  (∀ s w, s.Reaches 33 → Completes (.evtCtrlWrite w) s fun t =>
    t.recog.en = bits w 0 6 ∧ t.recog.frame = bits w 8 6 ∧ t.recog.capt = bits w 16 6 ∧ t.recog.scarFr = bitAt w 22 ∧
    (s.recog.noReports = true → t.recog.evt = s.recog.evt ∧ t.recog.params = s.recog.params ∧
      (∀ q : Fin 6, s.recog.live.getLsbD q.val = true ∨ bitAt w q.val = false → t.recog.results[q] = s.recog.results[q]) ∧
      Same [.recog, .host, .int] s t) ∧
    t.host = { s.host with done := true, valid := false } ∧ Same [.recog, .cap, .smc, .buf, .host, .int] s t) ∧
  (∀ s (r : Fin 6) (k : Fin 8) w, s.ReachesTs (0x4000 + 16 * r.val + k.val) → paramMask r.val k.val ≠ 0#32 →
    Completes (.recParamWrite r k w) s fun t =>
    t.recog.param r.val k.val = w &&& paramMask r.val k.val ∧
    (∀ q j, q ≠ r.val ∨ j ≠ k.val → t.recog.param q j = s.recog.param q j) ∧ t.recog.en = s.recog.en ∧
    (s.recog.noReports = true → t.recog.evt = s.recog.evt ∧ Same [.recog, .pwr, .host, .int] s t) ∧
    Same [.recog, .cap, .smc, .buf, .pwr, .host, .int] s t) ∧
  (∀ s (r : Fin 6) (k : Fin 8) w, s.ReachesTs (0x4000 + 16 * r.val + k.val) → paramMask r.val k.val = 0#32 →
    Completes (.recParamWrite r k w) s fun t => t.recog = s.recog ∧ Same [.pwr, .host, .int] s t) ∧
  (∀ s, s.ReachesTs 0x4040 → Completes .setRef s fun t =>
    t.recog.tilt.setRef = true ∧ (∀ q j, q ≠ 4 ∨ j ≠ 0 → t.recog.param q j = s.recog.param q j) ∧
    Same [.recog, .cap, .smc, .buf, .pwr, .host, .int] s t) ∧
  (∀ s (r : Fin 6), s.ReachesTs (0x4008 + 16 * r.val) → Completes (.resultSnapshotRead r) s fun t =>
    t.host.rdata = s.recog.result r.val 0 ∧ t.recog.snap[r] = s.recog.results[r] ∧ t.recog.results = s.recog.results ∧
    (∀ q : Fin 6, q ≠ r → t.recog.snap[q] = s.recog.snap[q]) ∧ Same [.recog, .pwr, .host, .int] s t)

/-- Reports of the recognisers (R257 to R259): a report that is due is made while EN is On and SM runs: its result words take the
report's bits together, and at an event its event bit is set, and LOST too where the bit was still set; with no enable in
EVT_CTRL it becomes neither a frame nor a trigger, and with EV_FRAME alone, while the writer runs, an EVENT frame. A report without
an event (a counted peak, a Tilt block) changes no event bit. Transient re-arms with ACTIVE cleared and nothing else.
The model's own readings in it: log entries 42, 47. -/
def Obligations.RecogniserReportsComplete : Prop :=
  (∀ s (p : Report), s.hasSm = true → s.isOn .en = true → s.recog.frame = 0#6 → s.recog.capt = 0#6 → p.evt = true →
    (s.recog.impact.due = some p → Completes .impactEvent s fun t =>
      t.recog.results = (s.recog.writeReport 0 p).results ∧ t.recog.evt = putBit s.recog.evt 0 true ∧
      t.recog.lost = (s.recog.lost || s.recog.evt.getLsbD 0) ∧ t.recog.impact = { s.recog.impact with due := none } ∧
      Same [.recog, .smc, .int] s t) ∧
    (s.recog.impact.winDue = some p → Completes .impactWinExpiry s fun t =>
      t.recog.results = (s.recog.writeReport 0 p).results ∧ t.recog.evt = putBit s.recog.evt 0 true ∧
      t.recog.lost = (s.recog.lost || s.recog.evt.getLsbD 0) ∧ t.recog.impact = { s.recog.impact with winDue := none } ∧
      Same [.recog, .smc, .int] s t) ∧
    (s.recog.cadence.due = some p → Completes .cadenceEvent s fun t =>
      t.recog.results = (s.recog.writeReport 1 p).results ∧ t.recog.evt = putBit s.recog.evt 1 true ∧
      t.recog.lost = (s.recog.lost || s.recog.evt.getLsbD 1) ∧ t.recog.cadence = { s.recog.cadence with due := none } ∧
      Same [.recog, .smc, .int] s t) ∧
    (s.recog.cadence.endDue = some p → Completes .cadenceEnd s fun t =>
      t.recog.results = (s.recog.writeReport 1 p).results ∧ t.recog.evt = putBit s.recog.evt 1 true ∧
      t.recog.lost = (s.recog.lost || s.recog.evt.getLsbD 1) ∧ t.recog.cadence = { s.recog.cadence with endDue := none } ∧
      Same [.recog, .smc, .int] s t) ∧
    (s.recog.fall.due = some p → Completes .freefallEvent s fun t =>
      t.recog.results = (s.recog.writeReport 2 p).results ∧ t.recog.evt = putBit s.recog.evt 2 true ∧
      t.recog.lost = (s.recog.lost || s.recog.evt.getLsbD 2) ∧ t.recog.fall = { s.recog.fall with due := none } ∧
      Same [.recog, .smc, .int] s t) ∧
    (s.recog.trans.due = some p → Completes .transientEvent s fun t =>
      t.recog.results = (s.recog.writeReport 3 p).results ∧ t.recog.evt = putBit s.recog.evt 3 true ∧
      t.recog.lost = (s.recog.lost || s.recog.evt.getLsbD 3) ∧ t.recog.trans = { s.recog.trans with due := none } ∧
      Same [.recog, .smc, .int] s t) ∧
    (s.recog.tilt.due = some p → Completes .tiltBlockEnd s fun t =>
      t.recog.results = (s.recog.writeReport 4 p).results ∧ t.recog.evt = putBit s.recog.evt 4 true ∧
      t.recog.lost = (s.recog.lost || s.recog.evt.getLsbD 4) ∧ t.recog.tilt = { s.recog.tilt with due := none } ∧
      Same [.recog, .smc, .int] s t)) ∧
  (∀ s (p : Report), s.hasSm = true → s.isOn .en = true → p.evt = false →
    (s.recog.cadence.due = some p → Completes .cadenceEvent s fun t =>
      t.recog.results = (s.recog.writeReport 1 p).results ∧ t.recog.evt = s.recog.evt ∧
      t.recog.cadence = { s.recog.cadence with due := none } ∧ Same [.recog, .int] s t) ∧
    (s.recog.tilt.due = some p → Completes .tiltBlockEnd s fun t =>
      t.recog.results = (s.recog.writeReport 4 p).results ∧ t.recog.evt = s.recog.evt ∧
      t.recog.tilt = { s.recog.tilt with due := none } ∧ Same [.recog, .int] s t)) ∧
  (∀ s (p : Report), s.hasSm = true → s.isOn .en = true → p.evt = true → s.recog.frame.getLsbD 0 = true →
    s.recog.capt = 0#6 → s.buf.writing = true → s.recog.impact.due = some p → Completes .impactEvent s fun t =>
      (∃ e ∈ t.buf.events, e.source = 9#6 ∧ e.ts = p.ts ∧ e.r8 = t.recog.result 0 0 ∧ e.r9 = t.recog.result 0 1) ∧
      t.buf.events.length = s.buf.events.length + 1 ∧ Same [.recog, .smc, .buf, .int] s t) ∧
  (∀ s, s.recog.trans.rearm = true → s.hasSm = true → s.isOn .en = true → Completes .transientRearm s fun t =>
    t.recog.result 3 0 = s.recog.result 3 0 &&& ~~~1#32 ∧ (∀ k, k ≠ 0 → t.recog.result 3 k = s.recog.result 3 k) ∧
    t.recog.trans.rearm = false ∧ t.recog.evt = s.recog.evt ∧ Same [.recog, .int] s t)

/-! ### Captures and Scarecrow (chapter 07) -/

/-- CAP_CTRL and the directory (R43, R275 to R278, R281): an accepted ARM starts pre-trigger recording in the lowest free slot, or
sets FULL without one, while EN and CS are On (R438), an invalid one sets ERR; TRIG during recording makes it a capture, and
changes nothing while EN is not On (R438); ABORT clears ARM and discards pre-trigger
data, and ends a capture with its slot USED and ABORTED in its header; RELEASE frees a slot; OWNER and SLOTS take their values,
OWNER not during a capture; a capture with its POST samples completes with its slot USED, CAP_DONE and SEQ.
The model's own readings in it: log entries 51, 52. -/
def Obligations.CapturesComplete : Prop :=
  (∀ s, s.Reaches 39 → s.cap.arm = false → s.cap.capturing = false → s.cap.armOk = true → s.cap.recording = none →
    (s.capPorts = true → ∀ k, s.cap.lowestFree = some k → Completes .arm s fun t =>
      t.cap.arm = true ∧ t.cap.err = false ∧ t.cap.full = false ∧ t.cap.cur = BitVec.ofNat 4 k ∧
      t.cap.recording =
        some { mask := s.cap.mask, src := s.cap.src, pre := s.cap.pre.toNat, post := s.cap.post.toNat, rate := s.fastCode } ∧
      t.cap.dir = s.cap.dir ∧ t.cap.slots = s.cap.slots ∧ t.cap.owner = s.cap.owner ∧
      t.host = { s.host with done := true, valid := false } ∧ Same [.cap, .host, .int] s t) ∧
    (s.capPorts = true → s.cap.lowestFree = none → Completes .arm s fun t =>
      t.cap.arm = true ∧ t.cap.err = false ∧ t.cap.full = true ∧ t.cap.recording = none ∧ t.cap.dir = s.cap.dir ∧
      Same [.cap, .host, .int] s t) ∧
    (s.capPorts = false → Completes .arm s fun t =>
      t.cap = { s.cap with arm := true, err := false, full := false } ∧ Same [.cap, .host, .int] s t)) ∧
  (∀ s, s.Reaches 39 → s.cap.arm = false → s.cap.capturing = false → s.cap.armOk = false →
    Completes .arm s fun t => t.cap.arm = false ∧ t.cap.err = true ∧ t.cap.dir = s.cap.dir ∧ Same [.cap, .host, .int] s t) ∧
  (∀ s, s.Reaches 39 → s.cap.arm = true → s.isOn .en = false →
    Completes .trig s fun t => t.cap = s.cap ∧ Same [.cap, .host, .int] s t) ∧
  (∀ s r, s.Reaches 39 → s.cap.arm = true → s.isOn .en = true → s.cap.full = false → s.cap.recording = some r → r.trig = none →
    s.cap.capturing = false → Completes .trig s fun t =>
      t.cap.capturing = true ∧ t.cap.triggers = satInc s.cap.triggers ∧ t.cap.missed = s.cap.missed ∧
      (∃ q g, t.cap.recording = some q ∧ q.trig = some g ∧ g.source = 0#8 ∧ g.at_ = s.clk.tsc + 1#64 ∧
        g.came = s.clk.tsc ∧ q.mask = r.mask) ∧
      t.cap.dir = s.cap.dir ∧ t.cap.store = s.cap.store ∧ Same [.cap, .host, .int] s t) ∧
  (∀ s r, s.Reaches 39 → s.cap.recording = some r → r.trig = none → s.cap.capturing = false →
    Completes .abort s fun t =>
      t.cap.arm = false ∧ t.cap.full = false ∧ t.cap.recording = none ∧ t.cap.dir = s.cap.dir ∧ t.cap.seq = s.cap.seq ∧
      t.cap.capDone = s.cap.capDone ∧ Same [.cap, .host, .int] s t) ∧
  (∀ s r g, s.Reaches 39 → s.cap.recording = some r → r.trig = some g → s.cap.capturing = true →
    Mem.wf 0#32 s.cap.store = true →
    Completes .abort s fun t =>
      t.cap.arm = false ∧ t.cap.full = false ∧ t.cap.recording = none ∧ t.cap.capturing = false ∧ t.cap.capDone = true ∧
      t.cap.seq = s.cap.seq + 1#32 ∧ (t.cap.entry s.cap.cur.toNat).used = true ∧
      bitAt (Mem.get 0#32 t.cap.store (slotBase s.cap.slots s.cap.cur.toNat)) 22 = true ∧
      Same [.cap, .host, .int, .fresh] s t) ∧
  (∀ s (k : Fin 16), s.ReachesTs (0x4080 + k.val) → s.cap.recording = none → s.spec.mode ≠ .capture → s.cap.full = false →
    Completes (.release k) s fun t =>
      t.cap.entry k.val = {} ∧ (∀ j, j ≠ k.val → t.cap.entry j = s.cap.entry j) ∧ t.cap.store = s.cap.store ∧
      t.cap.seq = s.cap.seq ∧ Same [.cap, .pwr, .host, .int] s t) ∧
  (∀ s v, s.Reaches 39 → s.cap.capturing = false → s.spec.mode ≠ .capture → s.cap.arm = false →
    Completes (.ownerChange v) s fun t =>
      t.cap.owner = v ∧ t.cap.slots = s.cap.slots ∧ t.cap.dir = s.cap.dir ∧ t.cap.store = s.cap.store ∧
      Same [.cap, .host, .int] s t) ∧
  (∀ s v, s.Reaches 39 → s.cap.capturing = true → Completes (.ownerChange v) s fun t =>
    t.cap = { s.cap with arm := t.cap.arm } ∧ Same [.cap, .host, .int] s t) ∧
  (∀ s v, s.Reaches 39 → s.cap.capturing = false → s.spec.mode ≠ .capture → s.cap.arm = false → v ≠ s.cap.slots →
    Completes (.slotsChange v) s fun t =>
      t.cap.slots = v ∧ (∀ k, t.cap.entry k = {}) ∧ t.cap.store = [] ∧ t.cap.owner = s.cap.owner ∧
      t.cap.seq = s.cap.seq ∧ Same [.cap, .host, .int] s t) ∧
  (∀ s r g, s.cap.recording = some r → r.trig = some g → r.post ≤ g.post → s.cap.arm = false → s.hasSm = true →
    Completes .captureDone s fun t =>
      (t.cap.entry s.cap.cur.toNat).used = true ∧ (t.cap.entry s.cap.cur.toNat).spilled = false ∧ t.cap.capDone = true ∧
      t.cap.seq = s.cap.seq + 1#32 ∧ t.cap.capturing = false ∧ t.cap.recording = none ∧
      (∀ j, j ≠ s.cap.cur.toNat → t.cap.entry j = s.cap.entry j) ∧ Same [.cap, .int, .fresh] s t)

/-- Scarecrow (R282 to R287): a trip sets SCAR_TRIP with its side, axes and Headland tick, and CLASS_PEND where CLASSIFY is 1; with
AUTOWAKE it asks for AF and EN, with WAKE_REC where that starts one of them, and in Park it owes the wakes; arming; the clear of
SCAR_TRIP disarms; a full window is classified by its mean and its peak against the codes that act, and a window without its
samples times out as CLASS 0b100.
The model's own readings in it: log entry 53. -/
def Obligations.ScarecrowCompletes : Prop :=
  (∀ s high axes, s.scarMay high = true → s.scar.autowake = false → Completes (.scarTrip high axes) s fun t =>
    t.scar.trip = true ∧ t.scar.high = high ∧ t.scar.axes = (if high then axes else 0#3) ∧
    t.scar.tripHt = BitVec.ofNat 32 s.clk.ht ∧
    (s.scar.classify = true → t.scar.pend = true ∧ t.scar.winCount = 0 ∧ t.scar.pendHt = s.clk.ht) ∧
    (s.scar.classify = false → t.scar.pend = s.scar.pend) ∧ t.scar.wakeHold = false ∧
    t.scar.armed = s.scar.armed ∧ Same [.scar, .harrow, .int] s t) ∧
  (∀ s high axes, s.scarMay high = true → s.scar.autowake = true → s.clk.park = .running →
    (s.demandStarts .af = false → s.demandStarts .en = false → Completes (.scarTrip high axes) s fun t =>
      t.scar.trip = true ∧ t.scar.high = high ∧ t.scar.wakeHold = s.scar.classify ∧ t.pwr.wakeSrc = s.pwr.wakeSrc ∧
      Same [.scar, .harrow, .pwr, .int] s t) ∧
    (s.demandStarts .af = true → Completes (.scarTrip high axes) s fun t =>
      t.scar.trip = true ∧ t.scar.high = high ∧ t.scar.wakeHold = s.scar.classify ∧ (t.dom .af).demandDue = true ∧
      t.pwr.wakeSrc = 0x04#8 ∧ t.pwr.wakeDet = (if high then axes else 0#3).setWidth 8 ∧
      t.pwr.wakeHt = BitVec.ofNat 16 s.clk.ht ∧ Same [.scar, .harrow, .pwr, .mgmt, .int] s t) ∧
    (s.demandStarts .en = true → Completes (.scarTrip high axes) s fun t =>
      t.scar.trip = true ∧ t.scar.high = high ∧ t.scar.wakeHold = s.scar.classify ∧ (t.dom .en).demandDue = true ∧
      t.pwr.wakeSrc = 0x04#8 ∧ Same [.scar, .harrow, .pwr, .mgmt, .int] s t)) ∧
  (∀ s high axes, s.scarMay high = true → s.scar.autowake = true → s.clk.park ≠ .running →
    Completes (.scarTrip high axes) s fun t =>
      t.scar.trip = true ∧ t.scar.high = high ∧ t.scar.wakeOwed = true ∧ Same [.scar, .harrow, .int] s t) ∧
  (∀ s, s.clken 11 = true → s.scar.armed = false → s.clk.inReset = false → Completes .scarArmed s fun t =>
    t.scar = { s.scar with armed := true } ∧ Same [.scar, .int] s t) ∧
  (∀ s, s.Reaches 32 → s.scar.trip = true → Completes .scarRearm s fun t =>
    t.scar = { s.scar with trip := false, armed := false } ∧ t.recog = s.recog ∧ t.cap = s.cap ∧
    t.host = { s.host with done := true, valid := false } ∧ Same [.scar, .host, .int] s t) ∧
  (∀ s mean, s.scar.pend = true → s.scar.window ≤ s.scar.winCount → s.isOn .en = true → s.hasSm = true →
    s.recog.scarFr = false → mean = intGrain (quotient (s.scar.winSum : Int) s.scar.winCount) →
    Completes .scarClassify s fun t =>
      t.scar.pend = false ∧ t.scar.cls = true ∧ t.scar.wakeHold = false ∧ t.scar.axis = s.scar.winAxis ∧
      t.scar.neg = s.scar.winNeg ∧ t.scar.peak = s.scar.winPeak ∧ t.scar.mean = mean ∧ t.scar.ts = s.scar.winLast ∧
      (s.scar.lo ≠ 0#8 → s.lowOff = false → mean.toNat < s.scarGrains s.scar.loCode → t.scar.cclass = 2#3) ∧
      (s.scar.lo = 0#8 ∨ s.lowOff = true ∨ s.scarGrains s.scar.loCode ≤ mean.toNat →
        (s.scar.hi ≠ 0#8 → s.scarGrains s.scar.hiCode ≤ s.scar.winPeak.toNat → t.scar.cclass = 1#3) ∧
        (s.scar.hi = 0#8 ∨ s.scar.winPeak.toNat < s.scarGrains s.scar.hiCode → t.scar.cclass = 0#3)) ∧
      t.scar.trip = s.scar.trip ∧ Same [.scar, .harrow, .int] s t) ∧
  (∀ s, s.scar.pend = true → s.scar.winCount < s.scar.window → s.clk.park = .running → s.scarLate = true →
    s.recog.scarFr = false →
    Completes .scarClassTimeout s fun t =>
      t.scar.pend = false ∧ t.scar.cls = true ∧ t.scar.cclass = 4#3 ∧ t.scar.wakeHold = false ∧ t.scar.ts = s.clk.tsc ∧
      t.scar.trip = s.scar.trip ∧ Same [.scar, .harrow, .int] s t)

/-! ### Spectral engine (chapter 08) -/

/-- Writes of SPEC_CTRL (R291, R302, R307, R309 to R312): RUN starts stream mode with the staged configuration, or sets ERR where a
check fails, which ends a stream mode that runs; clearing RUN discards the average and counts it in ABANDONED; CAP_GO starts an
analysis, which waits for CS where CS is not On; ABORT ends one; HOLD freezes the window or lets it show the newest result. The
model's own readings in it: log entries 55, 119. -/
def Obligations.SpectralControlsComplete : Prop :=
  (∀ s, s.Reaches 37 → s.spec.mode = .idle →
    (s.spec.stage.check = 0#3 → Completes .specRun s fun t =>
      t.spec.mode = .stream ∧ t.spec.act = s.spec.stage ∧ t.spec.err = 0#3 ∧
      t.spec.cycles = BitVec.ofNat 32 s.spec.stage.cycles ∧ t.spec.segs = 0 ∧ t.spec.waiting = s.clk.coast ∧
      t.spec.hold = s.spec.hold ∧ t.spec.counts = s.spec.counts ∧ t.spec.newest = s.spec.newest ∧
      Same [.spec, .harrow, .pwr, .host, .int] s t) ∧
    (s.spec.stage.check ≠ 0#3 → Completes .specRun s fun t =>
      t.spec.mode = .idle ∧ t.spec.err = s.spec.stage.check ∧ t.spec.act = s.spec.act ∧ t.spec.counts = s.spec.counts ∧
      Same [.spec, .harrow, .pwr, .host, .int] s t)) ∧
  (∀ s, s.Reaches 37 → s.spec.mode = .stream → s.spec.stage.check ≠ 0#3 → Completes .specRun s fun t =>
    t.spec.mode = .idle ∧ t.spec.err = s.spec.stage.check ∧ t.spec.newest = s.spec.newest ∧ Same [.spec, .harrow, .pwr, .host, .int] s t) ∧
  (∀ s, s.Reaches 37 → s.spec.mode = .stream → Completes .specStop s fun t =>
    t.spec.mode = .idle ∧ t.spec.waiting = false ∧ t.spec.segs = 0 ∧
    t.spec.counts = s.spec.counts.setIfInBounds 5 (satInc (s.spec.counts.getD 5 0#32)) ∧
    t.spec.abortEvt = s.spec.abortEvt ∧ t.spec.newest = s.spec.newest ∧ Same [.spec, .harrow, .pwr, .host, .int] s t) ∧
  (∀ s (k : Fin 16), s.Reaches 37 → s.spec.mode = .idle →
    (s.capGoCheck k.val = 0#3 → s.isOn .cs = true → Completes (.capGo k) s fun t =>
      t.spec.mode = .capture ∧ t.spec.act = s.spec.stage ∧ t.spec.err = 0#3 ∧ t.spec.capWait = false ∧
      t.spec.capSlot = BitVec.ofNat 4 k.val ∧ t.spec.anSlot = BitVec.ofNat 4 k.val ∧ t.spec.capTotal = s.capSegments k.val ∧
      t.spec.capSeen = 0 ∧
      Same [.spec, .harrow, .pwr, .host, .int] s t) ∧
    (s.capGoCheck k.val = 0#3 → s.isOn .cs = false → Completes (.capGo k) s fun t =>
      t.spec.mode = .capture ∧ t.spec.capWait = true ∧ Same [.spec, .harrow, .pwr, .host, .int] s t) ∧
    (s.capGoCheck k.val ≠ 0#3 → Completes (.capGo k) s fun t =>
      t.spec.mode = .idle ∧ t.spec.err = s.capGoCheck k.val ∧ t.spec.act = s.spec.act ∧
      Same [.spec, .harrow, .pwr, .host, .int] s t)) ∧
  (∀ s, s.Reaches 37 → s.spec.mode = .capture → Completes .specAbort s fun t =>
    t.spec.mode = .idle ∧ t.spec.segs = 0 ∧
    t.spec.counts = s.spec.counts.setIfInBounds 5 (satInc (s.spec.counts.getD 5 0#32)) ∧
    t.spec.abortEvt = s.spec.abortEvt ∧ t.spec.doneEvt = s.spec.doneEvt ∧ t.spec.newest = s.spec.newest ∧
    Same [.spec, .harrow, .pwr, .host, .int] s t) ∧
  (∀ s v, s.Reaches 37 → (s.spec.mode = .stream → s.spec.stage.check = 0#3) → Completes (.hold v) s fun t =>
    t.spec = { s.spec with hold := v, shown := if v then s.spec.shown else s.spec.newest } ∧
    Same [.spec, .harrow, .pwr, .host, .int] s t) ∧
  (∀ s, s.ReachesTs 0xB010 → Completes .specCountersClear s fun t =>
    t.spec = { s.spec with counts := Vector.replicate 6 0#32 } ∧ Same [.spec, .pwr, .host, .int] s t) ∧
  (∀ s, s.ReachesTs 0xB00C → Completes .learn s fun t =>
    t.spec = { s.spec with learning := true } ∧ Same [.spec, .pwr, .host, .int] s t)

/-- Segments and publications (R294, R297, R301, R302, R307, R314): the engine completes the segment in hand: with every enabled
input valid throughout it counts in SEGMENTS and enters the averages of R297, linear ones here by 1/m; else it counts in
DROP_INVALID and enters nothing. In a capture the next segment of the capture is completed in the same way. A complete result is
published under the next SEQ with DONE_EVT, as the newest bank, shown unless HOLD is 1, and ends a capture-mode analysis.
The model's own readings in it: log entries 54, 56. -/
def Obligations.SpectralResultsComplete : Prop :=
  (∀ s g, s.specClocked = true → s.spec.mode = .stream → s.spec.seg = some g → s.spec.due = false →
    ((∀ f ∈ g.frames, ∀ i : Fin 8, s.spec.act.enabled i.val = true → f[i] ≠ none) →
      Completes (.segmentDone true false g.firstT g.lastT g.flags) s fun t =>
      t.spec.seg = none ∧ t.spec.segs = s.spec.segs + 1 ∧ t.spec.sincePub = s.spec.sincePub + 1 ∧
      t.spec.counts = s.spec.counts.setIfInBounds 0 (satInc (s.spec.counts.getD 0 0#32)) ∧
      (s.spec.act.expo = false →
        t.spec.acc = average (1 / ((s.spec.segs + 1 : Nat) : Rat)) s.spec.acc (s.spec.act.estimate s.spec.rate.toNat g.frames)) ∧
      t.spec.firstT = (if s.spec.segs = 0 then g.firstT else s.spec.firstT) ∧ t.spec.lastT = g.lastT ∧
      t.spec.flags = s.spec.flags ||| g.flags ∧ t.spec.newest = s.spec.newest ∧ t.spec.shown = s.spec.shown ∧
      Same [.spec, .int] s t) ∧
    ((∃ f ∈ g.frames, ∃ i : Fin 8, s.spec.act.enabled i.val = true ∧ f[i] = none) →
      Completes (.segmentDone false false g.firstT g.lastT g.flags) s fun t =>
      t.spec = { s.spec with
        seg := none
        counts := s.spec.counts.setIfInBounds 1 (satInc (s.spec.counts.getD 1 0#32)) } ∧ Same [.spec, .int] s t)) ∧
  (∀ s g, s.specClocked = true → s.spec.mode = .capture → s.isOn .cs = true → s.spec.capWait = false →
    s.spec.capSeen < s.spec.capTotal → s.capSegment = g →
    Completes (.segmentDone (!s.spec.act.spoils g) false g.firstT g.lastT g.flags) s fun t =>
      t.spec.capSeen = s.spec.capSeen + 1 ∧ t.spec.mode = .capture ∧ t.spec.newest = s.spec.newest ∧
      (s.spec.act.spoils g = false → t.spec.segs = s.spec.segs + 1 ∧ t.spec.lastT = g.lastT ∧
        t.spec.counts = s.spec.counts.setIfInBounds 0 (satInc (s.spec.counts.getD 0 0#32))) ∧
      (s.spec.act.spoils g = true → t.spec.segs = s.spec.segs ∧ t.spec.acc = s.spec.acc ∧
        t.spec.counts = s.spec.counts.setIfInBounds 1 (satInc (s.spec.counts.getD 1 0#32))) ∧
      Same [.spec, .int] s t) ∧
  (∀ s, s.spec.due = true → s.specClocked = true → Completes .specPublish s fun t =>
    t.spec.seq = s.spec.seq + 1#16 ∧ t.spec.doneEvt = true ∧ t.spec.newest.id = s.spec.serial + 1 ∧
    t.spec.newest.seq = s.spec.seq + 1#16 ∧ t.spec.newest.body = s.spec.act.sections s.spec.means ∧ t.spec.hold = s.spec.hold ∧
    (s.spec.hold = false → t.spec.shown = t.spec.newest) ∧ (s.spec.hold = true → t.spec.shown = s.spec.shown) ∧
    t.spec.mode = (if s.spec.mode = .capture then .idle else s.spec.mode) ∧
    (s.spec.mode = .capture ∨ s.recog.live.getLsbD 5 = false → Same [.spec, .harrow, .int] s t) ∧
    Same [.spec, .harrow, .recog, .smc, .buf, .cap, .int] s t)

/-! ### State machines (chapter 09) -/

/-- SM_CTRL (R343 to R346): START of machines whose checks pass sets them running from their next tick; a machine whose check
fails gets CFG_ERR with its code and state; STOP stops at once; no other machine changes.
The model's own readings in it: log entry 57. -/
def Obligations.MachinesStartAndStop : Prop :=
  (∀ s mask, s.ReachesTs 0x6080 → Completes (.smStart mask) s fun t =>
    (∀ m : Fin 8, mask.getLsbD m.val = true → s.smCheck m.val = none →
      t.machine m.val = { s.machine m.val with
        running := true, halted := false, startReq := true, cfgErr := false, errCode := 0#3, errState := 0#6 }) ∧
    (∀ (m : Fin 8) c st, mask.getLsbD m.val = true → s.smCheck m.val = some (c, st) →
      t.machine m.val = { s.machine m.val with cfgErr := true, errCode := c, errState := st }) ∧
    (∀ m : Fin 8, mask.getLsbD m.val = false → t.machine m.val = s.machine m.val) ∧
    t.smc.prog = s.smc.prog ∧ t.smc.evt = s.smc.evt ∧ t.smc.flags = s.smc.flags ∧ Same [.smc, .pwr, .host, .int] s t) ∧
  (∀ s mask, s.ReachesTs 0x6080 → Completes (.smStop mask) s fun t =>
    (∀ m : Fin 8, mask.getLsbD m.val = true →
      t.machine m.val = { s.machine m.val with running := false, halted := false, startReq := false }) ∧
    (∀ m : Fin 8, mask.getLsbD m.val = false → t.machine m.val = s.machine m.val) ∧
    t.smc.prog = s.smc.prog ∧ t.smc.evt = s.smc.evt ∧ t.smc.flags = s.smc.flags ∧ Same [.smc, .pwr, .host, .int] s t)

/-- The tick of a rate that is due next (R321, R324 to R329, R345), with no recogniser report waiting: the running machines of the
rate, and they alone, evaluate on the state before the tick; one to be started enters its initial state with cause 3; one whose
slot or timeout fires enters the state named with its cause, its age 0 and the tick's instant in ENTRY; another stays and ages.
A timeout enters the state of TO_NEXT with cause 2.
The model's own readings in it: log entries 57, 59. -/
def Obligations.MachineTicksComplete : Prop :=
  (∀ s (rate : Fin 3) t due, s.smRuns = true → s.nextRate = some rate → s.smc.ticks[rate] = some (t, due) →
    s.recog.noReports = true → Completes (.smTick rate t) s fun u =>
    (∀ m : Fin 8, (s.machine m.val).running = false ∨ (s.machine m.val).rate ≠ rate.val →
      u.machine m.val = s.machine m.val) ∧
    (∀ m : Fin 8, (s.machine m.val).running = true → (s.machine m.val).rate = rate.val →
      ((s.machine m.val).startReq = true →
        (u.machine m.val).state = (s.machine m.val).cfg.setWidth 6 ∧ (u.machine m.val).entCause = 3#2 ∧
        (u.machine m.val).ts = t ∧ (u.machine m.val).age = 0#24) ∧
      ((s.machine m.val).startReq = false →
        (∀ st c, (s.smEvaluate m.val).2 = some (st, c) →
          (u.machine m.val).state = st ∧ (u.machine m.val).entState = st ∧
          (u.machine m.val).entFrom = (s.machine m.val).state ∧ (u.machine m.val).entCause = c ∧
          (u.machine m.val).ts = t ∧ (u.machine m.val).age = 0#24) ∧
        ((s.smEvaluate m.val).2 = none →
          (u.machine m.val).state = (s.machine m.val).state ∧ (u.machine m.val).age = satInc (s.machine m.val).age ∧
          (u.machine m.val).running = true))) ∧
    u.smc.ticks = s.smc.ticks.set rate none ∧ u.smc.prog = s.smc.prog ∧ Same [.smc, .cap, .buf, .host, .int] s u) ∧
  (∀ s (m : Fin 8) (rate : Fin 3) t due st, s.smRuns = true → (s.machine m.val).running = true →
    (s.machine m.val).startReq = false → (s.smEvaluate m.val).2 = some (st, 2#2) → (s.machine m.val).rate = rate.val →
    s.nextRate = some rate → s.smc.ticks[rate] = some (t, due) → s.recog.noReports = true →
    Completes (.smTimeout m t) s fun u =>
      st = bits (s.program m.val (s.machine m.val).state.toNat 3) 0 6 ∧ (u.machine m.val).state = st ∧
      (u.machine m.val).entCause = 2#2 ∧ (u.machine m.val).ts = t ∧ Same [.smc, .cap, .buf, .host, .int] s u)

/-! ### Stream and buffer (chapter 10) -/

/-- The controls of the writer (R354 to R357, R369, R618): with every condition the writer starts, each of its groups owing
LAYOUT and TIME; with the gate of R355 closed it waits, and starts when the gate opens; a stop owes a FILL frame; a MASK
write takes effect later, a RATE write restarts the group; PHASE takes its value. Where no frame is owed or ready, and no report
is to be made, the words of the buffer stay.
The model's own readings in it: log entry 60. -/
def Obligations.StreamControlsComplete : Prop :=
  (∀ s, s.Reaches 30 → s.isOn .en = true → s.buf.writing = false → s.buf.armedGate = false →
    (s.gateOpen = true → Completes .streamStart s fun t =>
      t.buf.run = true ∧ t.buf.enable = true ∧ t.buf.writing = true ∧
      (s.buf.fast.mask ≠ 0#24 → t.buf.fast = s.buf.fast.start s.clk.tsc) ∧
      (s.buf.slow.mask ≠ 0#24 → t.buf.slow = s.buf.slow.start s.clk.tsc) ∧ t.buf.thresh = s.buf.thresh ∧
      (s.buf.fillOwed = none → t.buf.seq = s.buf.seq ∧ t.buf.words = s.buf.words ∧ Same [.harrow, .buf, .host, .int] s t) ∧
      Same [.harrow, .buf, .pwr, .host, .int] s t) ∧
    (s.gateOpen = false → Completes .streamStart s fun t =>
      t.buf.run = true ∧ t.buf.enable = true ∧ t.buf.writing = false ∧ t.buf.armedGate = true ∧
      t.buf.words = s.buf.words ∧ Same [.harrow, .buf, .host, .int] s t)) ∧
  (∀ s, s.buf.armedGate = true → s.writerMay = true → s.gateOpen = true → s.hasSm = true →
    Completes .writerGateOpen s fun t =>
    t.buf.writing = true ∧ t.buf.armedGate = false ∧
    (s.buf.fast.mask ≠ 0#24 → t.buf.fast = s.buf.fast.start s.clk.tsc) ∧
    (s.buf.slow.mask ≠ 0#24 → t.buf.slow = s.buf.slow.start s.clk.tsc) ∧
    (s.buf.fillOwed = none → t.buf.words = s.buf.words ∧ Same [.harrow, .buf, .int] s t) ∧
    Same [.harrow, .buf, .pwr, .int] s t) ∧
  (∀ s, s.Reaches 30 → s.buf.writing = true → s.buf.enable = true → Completes (.streamStop true) s fun t =>
    t.buf.enable = false ∧ t.buf.run = s.buf.run ∧ t.buf.writing = false ∧ t.buf.fillOwed = some 2#4 ∧
    (s.noUnits = true → s.recog.noReports = true → t.buf.words = s.buf.words ∧ t.buf.seq = s.buf.seq ∧
      Same [.harrow, .buf, .host, .int] s t) ∧
    Same [.harrow, .recog, .cap, .smc, .buf, .pwr, .host, .int] s t) ∧
  (∀ s, s.Reaches 26 → s.buf.writing = true → s.buf.run = true → Completes (.streamStop false) s fun t =>
    t.buf.run = false ∧ t.buf.enable = s.buf.enable ∧ t.buf.writing = false ∧ t.buf.fillOwed = some 1#4 ∧
    (s.noUnits = true → s.recog.noReports = true → t.buf.words = s.buf.words ∧ t.buf.seq = s.buf.seq ∧
      Same [.harrow, .buf, .host, .int] s t) ∧
    Same [.harrow, .recog, .cap, .smc, .buf, .pwr, .host, .int] s t) ∧
  (∀ s g w, s.Reaches (groupReg g).val →
    (rateCode (bits w 24 4) = rateCode (s.group g).rate → Completes (.layoutChange g w) s fun t =>
      (t.group g).mask = bits w 0 24 ∧ (t.group g).rate = bits w 24 4 ∧
      (s.buf.writing = true → s.writerMay = true → bits w 0 24 ≠ (s.group g).mask →
        (s.group g).mask ≠ 0#24 ∨ (s.group g).olds ≠ [] →
        (t.group g).olds = (s.group g).olds ++ [(s.clk.tsc, (s.group g).mask)]) ∧
      (s.writerSettled = true → t.group (otherGroup g) = s.group (otherGroup g) ∧ t.buf.words = s.buf.words ∧
        Same [.harrow, .buf, .host, .int] s t) ∧
      Same [.harrow, .buf, .pwr, .host, .int] s t) ∧
    (rateCode (bits w 24 4) ≠ rateCode (s.group g).rate → Completes (.layoutChange g w) s fun t =>
      (t.group g).mask = bits w 0 24 ∧ (t.group g).rate = bits w 24 4 ∧ t.outs g = [] ∧
      (s.buf.writing = true → s.writerMay = true → (t.group g).layout = true ∧ (t.group g).timeOwed = true) ∧
      (s.writerSettled = true → t.buf.words = s.buf.words ∧ Same [.harrow, .cap, .spec, .buf, .host, .int, .fresh] s t) ∧
      Same [.harrow, .cap, .spec, .buf, .pwr, .host, .int, .fresh] s t)) ∧
  (∀ s v, s.Reaches 26 → Completes (.phaseChange v) s fun t =>
    t.buf.minPhase = v ∧ t.buf.run = s.buf.run ∧ t.buf.alignEp = s.buf.alignEp ∧ t.buf.timeEvery = s.buf.timeEvery ∧
    (v = s.buf.minPhase → t.spec = s.spec) ∧
    (s.writerSettled = true → t.buf = { s.buf with minPhase := v } ∧ Same [.harrow, .spec, .buf, .host, .int] s t) ∧
    Same [.harrow, .recog, .cap, .spec, .smc, .buf, .pwr, .host, .int] s t)

/-- Units of frames (R360, R370, R371, R374, R378 to R381): with SB On and room enough the data unit or EVENT frame that is next,
or a FILL frame that is owed, is appended whole, the pending GAP frames before it, and the sequence counter counts every frame; in a
full buffer a data unit is dropped whole, counted, with OVERFLOW, and the contents stay.
The model's own readings in it: log entries 60, 62. -/
def Obligations.UnitsArePlaced : Prop :=
  (∀ s g o rest, s.buf.writing = true → s.hasSm = true → s.isNext (.data g) = true → s.outs g = o :: rest →
    s.isOn .sb = true → s.level + 3 * s.buf.flushGap.length + 31 ≤ bufWords → Completes (.unitPlace (.data g)) s fun t =>
      (∃ (before : List BufWord) (n : BitVec 16), t.buf.words = s.buf.words ++ before ++ packItem (dataFrame g o n) ∧
        t.buf.seq = n + 1#16 ∧ t.buf.wp = s.buf.wp + BitVec.ofNat 22 (t.level - s.level)) ∧
      t.outs g = rest ∧ t.outs (otherGroup g) = s.outs (otherGroup g) ∧ t.buf.full = 0#24 ∧ t.buf.flushGap = [] ∧
      t.buf.dropped = s.buf.dropped ∧ t.buf.rp = s.buf.rp ∧ Same [.harrow, .buf, .int] s t) ∧
  (∀ s e rest, s.buf.writing = true → s.hasSm = true → s.isNext .event = true → s.buf.events = e :: rest →
    s.isOn .sb = true → s.level + 3 * s.buf.flushGap.length + 12 ≤ bufWords → Completes (.unitPlace .event) s fun t =>
      (∃ (before : List BufWord) (n : BitVec 16), t.buf.words = s.buf.words ++ before ++ packItem (eventFrame e n) ∧
        t.buf.seq = n + 1#16) ∧
      t.buf.events = rest ∧ t.buf.dropped = s.buf.dropped ∧ t.buf.rp = s.buf.rp ∧ Same [.buf, .int] s t) ∧
  (∀ s c, s.buf.fillOwed = some c → s.clken 6 = true → s.isOn .en = true → s.hasSm = true → s.isOn .sb = true →
    s.level + 3 * s.buf.flushGap.length + 8 ≤ bufWords →
    Completes (.unitPlace .fill) s fun t =>
      (∃ (before : List BufWord) (n : BitVec 16),
        t.buf.words = s.buf.words ++ before ++ packItem (fillFrame (!s.clk.epochValid) c n) ∧ t.buf.seq = n + 1#16) ∧
      t.buf.fillOwed = none ∧ (s.buf.thresh ≠ 0#22 → t.buf.threshHit = true) ∧ t.buf.rp = s.buf.rp ∧
      Same [.buf, .int] s t) ∧
  (∀ s g o rest, s.buf.writing = true → s.hasSm = true → s.isNext (.data g) = true → s.outs g = o :: rest →
    s.isOn .sb = true → s.level = bufWords →
    Completes (.unitPlace (.data g)) s fun t =>
      t.buf.words = s.buf.words ∧ t.buf.wp = s.buf.wp ∧ t.buf.overflow = true ∧ t.outs g = rest ∧
      t.buf.dropped = satAdd s.buf.dropped (if s.timeDue g o then 2 else 1) ∧
      t.buf.seq = s.buf.seq + BitVec.ofNat 16 (if s.timeDue g o then 2 else 1) ∧ Same [.harrow, .buf, .int] s t)

/-- Reads and writes of the sample buffer (R375 to R377, R381, R382): BUF_DATA takes the oldest word, or at level 0 shows the
last one again with UNDERRUN; a threshold that the level already meets sets THRESH_HIT; FLUSH removes every word and moves RP
to WP. The drop count saturates, DROP_CLR clears it, and clearing OVERFLOW leaves it. -/
def Obligations.BufferAccessesComplete : Prop :=
  (∀ s w ws, s.Reaches 27 → s.buf.words = w :: ws → Completes .bufDataRead s fun t =>
    t.host = { s.host with rdata := w.data, done := true, valid := Config.strobeHeld s.clk.tsc } ∧
    t.buf = { s.buf with words := ws, rp := s.buf.rp + 1#22, last := w } ∧ Same [.buf, .pwr, .host, .int] s t) ∧
  (∀ s, s.Reaches 27 → s.buf.words = [] → Completes .bufDataRead s fun t =>
    t.host = { s.host with rdata := s.buf.last.data, done := true, valid := Config.strobeHeld s.clk.tsc } ∧
    t.buf = { s.buf with underrun := true } ∧ Same [.buf, .pwr, .host, .int] s t) ∧
  (∀ s w, s.Reaches 29 → Completes (.bufThreshWrite w) s fun t =>
    t.buf.thresh = bits w 0 22 ∧ t.buf.words = s.buf.words ∧
    (s.bufAbove = false → bits w 0 22 ≠ 0#22 → (bits w 0 22 : BitVec 22).toNat ≤ s.level → t.buf.threshHit = true) ∧
    (s.bufAbove = true ∨ s.level < (bits w 0 22 : BitVec 22).toNat → t.buf.threshHit = s.buf.threshHit) ∧
    Same [.buf, .host, .int] s t) ∧
  (∀ s, s.Reaches 30 → Completes .flush s fun t =>
    t.buf.words = [] ∧ t.buf.rp = t.buf.wp ∧ t.buf.flushDone = true ∧ t.buf.enable = s.buf.enable ∧
    (s.writerSettled = true → t.buf.dropped = s.buf.dropped ∧ (s.unitInHand = none → t.buf.wp = s.buf.wp ∧ t.buf.seq = s.buf.seq) ∧
      Same [.harrow, .buf, .fresh, .host, .int] s t) ∧
    Same [.harrow, .recog, .cap, .smc, .buf, .pwr, .fresh, .host, .int] s t) ∧
  (∀ s, s.Reaches 30 → s.writerSettled = true → Completes .dropClr s fun t =>
    t.buf.dropped = 0#16 ∧ t.buf.words = s.buf.words ∧ t.buf.enable = s.buf.enable ∧ t.buf.keep = s.buf.keep ∧
    t.buf.seq = s.buf.seq ∧ Same [.harrow, .buf, .host, .int] s t) ∧
  (∀ s w, s.Reaches 31 → Completes (.registerWrite 31 w) s fun t =>
    t.buf.dropped = s.buf.dropped ∧ t.buf.overflow = (s.buf.overflow && !bitAt w 1) ∧ Same [.buf, .host, .int] s t) ∧
  (∀ s e rest, s.buf.writing = true → s.hasSm = true → s.isNext .event = true → s.buf.events = e :: rest →
    s.isOn .sb = true → s.level = bufWords →
    Completes (.unitPlace .event) s fun t =>
      t.buf.overflow = true ∧ t.buf.dropped = (if s.buf.dropped = 0xFFFF#16 then 0xFFFF#16 else s.buf.dropped + 1#16) ∧
      t.buf.words = s.buf.words ∧ Same [.buf, .int] s t)

/-! ### Interrupts (chapter 11) -/

/-- Claims and completions (R404 to R410, R415): a claim with the line asserted returns the number and priority that arbitration
presents and puts that source in service at its priority; with nothing presented it returns 63 and counts; with the line not
asserted it returns 0, but for the source masked within the 2 LK cycles of R401, of which it returns the number or 63, and one
withdrawn within them, of which it returns 63 or 0. A completion of a source in service there ends its service, any other counts in
BADCOMP. INT_STATS is cleared. Writes of 0 and 63 and bits [31:6] of the value written count for nothing. No other source changes.
The model's own readings in it: log entry 64. -/
def Obligations.ClaimsAndCompletionsComplete : Prop :=
  (∀ s x, s.Reaches (claimReg x).val →
    (∀ n, s.int.line x = true → s.presented (lineTarget x) = some n → Completes (.intClaim x) s fun t =>
      t.host.rdata = BitVec.ofNat 32 n ||| fld (s.int.cfg n).prio 8 ∧
      t.int.cfg n = { s.int.cfg n with serv := some (lineTarget x, (s.int.cfg n).prio) } ∧
      (∀ m, m ≠ n → t.int.cfg m = s.int.cfg m) ∧ t.int.spurious = s.int.spurious ∧ Same [.int, .host] s t) ∧
    (s.int.line x = true → s.presented (lineTarget x) = none → Completes (.intClaim x) s fun t =>
      t.host.rdata = 63#32 ∧ t.int.spurious = satInc s.int.spurious ∧ t.int.src = s.int.src ∧ Same [.int, .host] s t) ∧
    (s.int.line x = false → (∀ g, s.int.gone x = some g → s.withinLk g.at_ 2 = false) → Completes (.intClaim x) s fun t =>
      t.host.rdata = 0#32 ∧ t.int.spurious = s.int.spurious ∧ t.int.src = s.int.src ∧ Same [.int, .host] s t) ∧
    (∀ g, s.int.line x = false → s.int.gone x = some g → s.withinLk g.at_ 2 = true →
      (g.masked = true → Completes (.intClaim x) s fun t =>
        ((t.host.rdata = 63#32 ∧ t.int.src = s.int.src) ∨
          ((s.int.cfg g.src.toNat).serv = none ∧ t.host.rdata = BitVec.ofNat 32 g.src.toNat ||| fld g.prio 8)) ∧
        Same [.int, .host, .fresh] s t) ∧
      (g.masked = false → Completes (.intClaim x) s fun t =>
        (t.host.rdata = 63#32 ∨ t.host.rdata = 0#32) ∧ t.int.src = s.int.src ∧ Same [.int, .host, .fresh] s t))) ∧
  (∀ s x w p, s.Reaches (claimReg x).val → bits w 0 6 ≠ 0#6 → bits w 0 6 ≠ 63#6 →
    ((s.int.cfg (bits w 0 6 : BitVec 6).toNat).serv = some (lineTarget x, p) → Completes (.intComplete x w) s fun t =>
      t.int.cfg (bits w 0 6 : BitVec 6).toNat = { s.int.cfg (bits w 0 6 : BitVec 6).toNat with serv := none } ∧
      (∀ m, m ≠ (bits w 0 6 : BitVec 6).toNat → t.int.cfg m = s.int.cfg m) ∧ t.int.badcomp = s.int.badcomp ∧
      Same [.int, .host] s t) ∧
    ((∀ q, (s.int.cfg (bits w 0 6 : BitVec 6).toNat).serv ≠ some (lineTarget x, q)) →
      Completes (.intComplete x w) s fun t =>
        t.int.badcomp = satInc s.int.badcomp ∧ t.int.src = s.int.src ∧ Same [.int, .host] s t)) ∧
  (∀ s x w, s.Reaches (claimReg x).val → (bits w 0 6 = 0#6 ∨ bits w 0 6 = 63#6) → Completes (.intComplete x w) s fun t =>
    t.int.badcomp = s.int.badcomp ∧ t.int.src = s.int.src ∧ Same [.int, .host] s t) ∧
  (∀ s x w v, (bits w 0 6 : BitVec 6) = bits v 0 6 → exec (.intComplete x w) s = exec (.intComplete x v) s) ∧
  (∀ s, s.Reaches 23 → Completes .intStatsClear s fun t =>
    t.int.badcomp = 0#16 ∧ t.int.spurious = 0#16 ∧ t.int.src = s.int.src ∧ Same [.int, .host] s t)

/-- After every claim that puts a source in service at a target, the running priority of the target is that source's and is
higher than before (R405), and nothing of that priority or a lower one is presented there (R402, R404).
The model's own readings in it: log entries 64, 65. -/
def Obligations.ClaimsRaiseTheRunningPriority : Prop :=
  ∀ s x n, s.Reaches (claimReg x).val → s.int.line x = true → s.presented (lineTarget x) = some n →
    Completes (.intClaim x) s fun t =>
      t.int.running (lineTarget x) = (s.int.cfg n).prio.toNat ∧
      s.int.running (lineTarget x) < t.int.running (lineTarget x) ∧
      ∀ m, t.presented (lineTarget x) = some m → (s.int.cfg n).prio.toNat < (t.int.cfg m).prio.toNat

/-- Zoruimen's service of a source at T2 (R416): with MC On the source is claimed, logged, cleared and completed, so that it is
out of service again with its configuration as it was; with MC resting the presentation wakes it.
The model's own readings in it: log entry 102. -/
def Obligations.CoreServiceCompletes : Prop :=
  (∀ s n, s.presented 2#2 = some n → s.coreUp = true → s.mgmt.logQ.length < 16 → Completes .t2Service s fun t =>
    t.int.cfg n = { s.int.cfg n with serv := none } ∧ (∀ m, m ≠ n → t.int.cfg m = s.int.cfg m) ∧
    (∃ b, s.Logged t 0x08#8 (BitVec.ofNat 8 n) b (BitVec.ofNat 32 (sourcePlace n).1) 0#32) ∧
    t.clk.tsc = s.clk.tsc ∧ t.host.rdata = s.host.rdata ∧ t.pending = s.pending) ∧
  (∀ s n, s.presented 2#2 = some n → s.coreUp = false → s.hasLk = true →
    ((s.dom .mc).st = .off ∨ (s.dom .mc).st = .retain) → Completes .t2Service s fun t =>
      (t.dom .mc).demandDue = true ∧ (∀ d, d ≠ .mc → t.dom d = s.dom d) ∧ Same [.pwr, .int] s t)

/-- A read of a low word holds the high word for the read that follows (R466): the timestamp counter, the UID and INT_PEND.
The model's own readings in it: log entry 74. -/
def Obligations.LowWordReadsHoldTheHighWord : Prop :=
  (∀ s, s.Reaches 13 → Completes (.lowWordRead 13) s fun t =>
    t.host = { s.host with rdata := lowWord s.clk.tsc, tsLatch := some (highWord s.clk.tsc), done := true,
                           valid := Config.strobeHeld s.clk.tsc } ∧
    (t.readReg 14 true).1 = highWord s.clk.tsc ∧ Same [.host, .int] s t) ∧
  (∀ s, s.Reaches 2 → Completes (.lowWordRead 2) s fun t =>
    t.host = { s.host with rdata := lowWord Config.uid, uidLatch := some (highWord Config.uid), done := true,
                           valid := Config.strobeHeld s.clk.tsc } ∧
    (t.readReg 3 true).1 = highWord Config.uid ∧ Same [.host, .int] s t) ∧
  (∀ s, s.Reaches 19 → Completes (.lowWordRead 19) s fun t =>
    t.host = { s.host with rdata := s.pendWord 0, pendLatch := some (s.pendWord 32), done := true,
                           valid := Config.strobeHeld s.clk.tsc } ∧
    (t.readReg 20 true).1 = s.pendWord 32 ∧ Same [.host, .int] s t)

/-! ### Power (chapter 12) -/

/-- Requests and demands (R421 to R423, R425, R427, R431): a write of PWR_REQ waits for the next Headland tick and replaces the
request before it; at that tick every domain that is Off and is asked for starts its wake; a demand starts a wake to On.
The model's own readings in it: log entries 66, 68. -/
def Obligations.PowerRequestsComplete : Prop :=
  (∀ s w, s.Reaches 8 → Completes (.pwrReqWrite w) s fun t =>
    t.pwr = { s.pwr with req := bits w 0 18, reqDue := true, resumeAt := none, refusedOnce := false } ∧
    t.host = { s.host with done := true, valid := false } ∧ Same [.pwr, .host, .int] s t) ∧
  (∀ s, s.pwr.reqDue = true → s.hasLk = true → Completes .pwrReqProcess s fun t =>
    t.pwr.reqDue = false ∧ t.pwr.req = s.pwr.req ∧
    (∀ d, (s.dom d).st = .off → s.resting d = .on → (t.dom d).st = .waking ∧ (t.dom d).target = .on) ∧
    (∀ d, (s.dom d).st = .off → s.resting d = .off → (t.dom d).st = .off) ∧
    (∀ d, (s.dom d).st = .on → s.resting d = .on → (t.dom d).st = .on) ∧
    (∀ d, (s.dom d).st = .failed → s.resting d = .off → (t.dom d).st = .off) ∧
    t.clk.tsc = s.clk.tsc ∧ t.link = s.link ∧ t.mport.flash = s.mport.flash ∧ t.mport.seq = s.mport.seq ∧ t.smc = s.smc ∧
    t.pending = s.pending) ∧
  (∀ s d, (s.dom d).demandDue = true → ((s.dom d).st = .off ∨ (s.dom d).st = .retain) → s.hasLk = true →
    Completes (.demandWake d) s fun t =>
      (t.dom d).st = .waking ∧ (t.dom d).target = .on ∧ (t.dom d).fromRet = ((s.dom d).st == .retain) ∧
      (t.dom d).demand = (s.resting d != .on) ∧ (t.dom d).demandDue = false ∧
      (∀ e, e ≠ d → e ≠ .mc → t.dom e = s.dom e) ∧ t.pwr.req = s.pwr.req ∧ Same [.clk, .pwr, .int] s t)

/-- The end of a wake (R135, R419, R423, R435, R436): a domain that may report ready, before its timeout, becomes On or enters
Retain as the wake was meant; one whose timeout has passed becomes FAILED with WAKEFAIL and its STICKY bit. Stated with nothing else waiting
for the wake: no host access, restore, request, spill or link frame.
The model's own readings in it: log entries 68, 69. -/
def Obligations.WakesComplete : Prop :=
  (∀ s d, (s.dom d).st = .waking → s.canReport d = true → s.hasLk = true → s.wakeOver d = false → s.quietFlights = true →
    ((s.dom d).target = .on → (s.resting d = .on ∨ (s.dom d).demand = true) → Completes (.wakeReady d) s fun t =>
      (t.dom d).st = .on ∧ t.clk.tsc = s.clk.tsc ∧ t.link = s.link ∧ t.pending = s.pending) ∧
    ((s.dom d).target = .retain → s.resting d = .retain → Completes (.wakeReady d) s fun t =>
      (t.dom d).st = .retain ∧ t.link = s.link ∧ t.clk.tsc = s.clk.tsc ∧ t.pending = s.pending)) ∧
  (∀ s d, (s.dom d).st = .waking → s.waitsMap d = false → s.hasLk = true → s.wakeOver d = true → s.quietFlights = true →
    Completes (.wakeTimeout d) s fun t =>
      (t.dom d).st = .failed ∧ t.pwr.wakefail = true ∧ t.host.sticky.getLsbD 6 = true ∧
      (d = .gf → Same [.pwr, .host, .mgmt, .int] s t) ∧
      (d = .th → Same [.therm, .pwr, .host, .mgmt, .int] s t) ∧ t.link = s.link ∧ t.arr = s.arr ∧ t.clk.tsc = s.clk.tsc)

/-- A host access that a wake stalled completes with the wake, here a read of BUF_DATA, and one whose STALL limit has passed
ends without effect while the wake goes on (R428, R462).
The model's own readings in it: log entry 75. -/
def Obligations.StallsEnd : Prop :=
  (∀ s, (s.dom .sb).st = .waking → (s.dom .sb).target = .on → s.hasLk = true → s.wakeOver .sb = false → s.mgmt.restore = [] →
    s.link.wait = none → s.clken 6 = true → ∀ a, s.host.stall = some a → a.dom = .sb → a.write = false → a.index = 27 →
    (∀ w ws, s.buf.words = w :: ws → Completes (.wakeReady .sb) s fun t =>
      t.host.stall = none ∧ t.host.rdata = w.data ∧ t.host.done = true ∧ t.buf.words = ws ∧
      t.buf.rp = s.buf.rp + 1#22)) ∧
  (∀ s a, s.host.stall = some a → s.hasLk = true → s.stallOver a = true → a.index ≠ 57 → Completes .stallCut s fun t =>
    t.host = { s.host with stall := none, rdata := if a.write then s.host.rdata else 0#32, done := true,
                           valid := !a.write && Config.strobeHeld s.clk.tsc } ∧
    (t.dom a.dom).stallCut = true ∧ (t.dom a.dom).st = (s.dom a.dom).st ∧ (∀ d, d ≠ a.dom → t.dom d = s.dom d) ∧
    Same [.pwr, .host, .int] s t)

/-- Stops (R419, R425, R426, R429, R430, R433): a stop ends in Off or Retain; SB loses its contents when it goes Off; an idle
domain On by demand starts its stop, or refuses it with its REASON and REFUSED_EVT; a request that nothing refuses any longer
goes on.
The model's own readings in it: log entries 67, 69. -/
def Obligations.StopsComplete : Prop :=
  (∀ s d, (s.dom d).st = .stopping → s.hasLk = true → s.pwr.reqDue = true → Completes (.stopDone d) s fun t =>
    ((s.dom d).target = .retain → (t.dom d).st = .retain ∧ Same [.pwr, .int] s t) ∧
    ((s.dom d).target ≠ .retain → (t.dom d).st = .off ∧ (d = .sb → t.buf.words = [] ∧ t.buf.wp = 0#22) ∧
      (d = .cs → t.cap.store = [] ∧ t.cap.seq = s.cap.seq) ∧ (d = .en → t.smc = {}) ∧ (d = .mc → t.pwr.booted = false)) ∧
    t.arr = s.arr ∧ t.link = s.link ∧ t.pending = s.pending) ∧
  (∀ s d, s.idleDue d = true → s.hasLk = true → d ≠ .mc →
    (s.ownReason d (s.resting d) = 0#4 → s.held d = false → Completes (.idleReturn d) s fun t =>
      (t.dom d).st = .stopping ∧ (t.dom d).target = s.resting d ∧ (t.dom d).demand = false ∧ t.pwr.req = s.pwr.req ∧
      t.link = s.link ∧ t.pending = s.pending) ∧
    (s.ownReason d (s.resting d) ≠ 0#4 → Completes (.idleReturn d) s fun t =>
      (t.dom d).st = .onRefused ∧ (t.dom d).reason = s.ownReason d (s.resting d) ∧ t.pwr.refused = true ∧
      (∀ e, e ≠ d → t.dom e = s.dom e) ∧ Same [.pwr, .mgmt, .int] s t)) ∧
  (∀ s d, s.pwr.resumeAt = some (reqPlace d) → s.hasLk = true → (s.dom .mc).reason ≠ 3#4 →
    ((s.dom d).st = .onRefused ∨ (s.dom d).st = .onHeld) → (s.dom d).demand = false → s.resting d ≠ .on →
    s.ownReason d (s.resting d) = 0#4 → s.held d = false → (∀ e, s.stillRefuses e = false) →
    Completes .requestResume s fun t =>
      (t.dom d).st = .stopping ∧ (t.dom d).target = s.resting d ∧ t.pwr.req = s.pwr.req ∧ t.pending = s.pending)

/-- Operating points (R439 to R446): a raise drives VID of the new point first and waits for PGOOD, a lowering relocks PLL-E
first; once SETTLE has passed PLL-E relocks, once it is locked the point is in force with DONE_EVT; a rail that is not up after 2 ms ends
the change with FAIL, VID of the old point and the STICKY bit.
The model's own readings in it: log entry 72. -/
def Obligations.OperatingPointsComplete : Prop :=
  (∀ s (v : BitVec 2), s.Reaches 11 → s.pwr.phase = .idle → s.clk.coast = false →
    (s.pwr.opCur.toNat < v.toNat → Completes (.opRaise v) s fun t =>
      t.pwr = { s.pwr with opReq := v, busy := true, fail := false, phase := .settling, goal := v, vidPt := v,
                           vid := vidOf v s.pwr.margin, phaseAt := s.clk.tsc } ∧ Same [.pwr, .host, .int] s t) ∧
    (v.toNat < s.pwr.opCur.toNat → Completes (.opLower v) s fun t =>
      t.pwr = { s.pwr with opReq := v, busy := true, phase := .lowering, goal := v } ∧
      (s.isOn .en = true → t.clk.holdClk = true) ∧ t.clk.tsc = s.clk.tsc ∧ Same [.clk, .pwr, .host, .int] s t)) ∧
  (∀ s, s.pwr.phase = .settling → s.hasLk = true → s.clk.coast = false →
    (s.settleOver = true → s.isOn .en = true → Completes .dvfsSettled s fun t =>
      t.pwr = { s.pwr with phase := .relocking } ∧ t.clk.holdClk = true ∧ Same [.clk, .pwr, .int] s t) ∧
    (s.settleOver = true → s.isOn .en = false → s.pwr.opReq = s.pwr.goal → Completes .dvfsSettled s fun t =>
      t.pwr.opCur = s.pwr.goal ∧ t.pwr.phase = .idle ∧ t.pwr.busy = false ∧ t.pwr.doneEvt = true ∧
      Same [.clk, .pwr, .int] s t) ∧
    (s.settleLate = true → s.pwr.opReq = s.pwr.goal → s.mgmt.logQ.length < 16 → Completes .dvfsFail s fun t =>
      t.pwr.opCur = s.pwr.opCur ∧ t.pwr.vid = vidOf s.pwr.opCur s.pwr.margin ∧ t.pwr.fail = true ∧ t.pwr.busy = false ∧
      t.pwr.doneEvt = true ∧ t.pwr.phase = .idle ∧ t.host.sticky.getLsbD 8 = true ∧
      s.Logged t 0x02#8 0x04#8 0#32 0#32 t.dvfs ∧ Same [.pwr, .host, .mgmt, .int] s t)) ∧
  (∀ s, (s.pwr.phase = .relocking ∨ s.pwr.phase = .lowering) → s.hasLk = true → s.clk.coast = false →
    s.clk.plle = .locked → s.pwr.opReq = s.pwr.goal → Completes .dvfsDone s fun t =>
      t.pwr = { s.pwr with opCur := s.pwr.goal, vidPt := s.pwr.goal, vid := vidOf s.pwr.goal s.pwr.margin, busy := false,
                           doneEvt := true, phase := .idle } ∧
      t.clk = { s.clk with holdClk := false } ∧ Same [.clk, .pwr, .int] s t)

/-- Supply dips and a loss of power (R447 to R449, R452, R587): a warning takes the module to OP0 with BROWN_EVT and the STICKY
bit; the restore, once every rail has been back for 1 ms,
fills the BROWN word with the ticks counted below warning, counts the dip and logs it, and goes back to OP_REQ; a loss of power with the supply
held saves the log queue in the rescue area.
The model's own readings in it: log entries 73, 103. -/
def Obligations.SupplyEventsComplete : Prop :=
  (∀ s r, s.pwr.phase ≠ .dip → Completes (.brownWarn r) s fun t =>
    t.pwr = { s.pwr with opCur := 0#2, busy := true, phase := .dip, dipRails := railBits r, brownEvt := true,
                         railsLow := s.pwr.railsLow ||| railBits r, lowTicks := 0#12,
                         vanaDips := if (railBits r).getLsbD 1 && !s.pwr.railsLow.getLsbD 1 then (s.clk.tsc, none) :: s.pwr.vanaDips
                           else s.pwr.vanaDips } ∧
    t.host.sticky.getLsbD 3 = true ∧ (s.isOn .en = true → t.clk.holdClk = true) ∧ t.clk.tsc = s.clk.tsc ∧
    Same [.clk, .pwr, .host, .int] s t) ∧
  (∀ s depth dur, s.pwr.phase = .dip → s.hasLk = true → s.railsStable = true → dur = s.pwr.lowTicks → s.mgmt.logQ.length < 16 →
    (s.pwr.opReq = 0#2 → Completes (.brownRestore depth dur) s fun t =>
      t.pwr.rail = s.pwr.dipRails ∧ t.pwr.depth = depth ∧ t.pwr.duration = dur ∧ t.pwr.dips = satInc s.pwr.dips ∧
      t.pwr.opCur = 0#2 ∧ t.pwr.phase = .idle ∧ t.pwr.busy = false ∧ t.mgmt.pfail = false ∧
      (∃ w, s.Logged t 0x02#8 0x03#8 0#32 t.pwr.brown w) ∧ Same [.clk, .pwr, .mgmt, .int] s t) ∧
    (s.pwr.opReq ≠ 0#2 → Completes (.brownRestore depth dur) s fun t =>
      t.pwr.rail = s.pwr.dipRails ∧ t.pwr.depth = depth ∧ t.pwr.duration = dur ∧ t.pwr.dips = satInc s.pwr.dips ∧
      t.pwr.goal = s.pwr.opReq ∧ t.pwr.phase = .restoring ∧ t.pwr.vidPt = s.pwr.opReq ∧ t.mgmt.pfail = false ∧
      (∃ w, s.Logged t 0x02#8 0x03#8 0#32 t.pwr.brown w) ∧ Same [.pwr, .mgmt, .int] s t)) ∧
  (∀ s, s.isOn .mc = true → s.mgmt.logQ ≠ [] →
    Completes (.powerFail true) s (fun t =>
      t.mgmt = { s.mgmt with pfail := true, flushMark := true, flushOk := true,
                             rescue := s.mgmt.rescue.write (s.mgmt.rescue.newest ++ s.mgmt.logQ), logQ := [] } ∧ Same [.mgmt, .int] s t) ∧
    Completes (.powerFail false) s fun t =>
      t.mgmt = { s.mgmt with pfail := true, flushMark := true, flushOk := false } ∧ Same [.mgmt, .int] s t)

/-! ### Window and gates (chapters 02, 13) -/

/-- The window (R469 to R473): WIN_ADDR takes its value and clears AT_END and LATCHED; a read of WIN_DATA shows the word at
ADDR, or the held one; a write reaches the word, here a program word of a machine that does not run, and no other word; an
unmapped word reads 0 with UNMAPPED set and wakes nothing; and every access that ends moves ADDR on, with AT_END after the
last word of a region.
The model's own readings in it: log entries 9, 52. -/
def Obligations.WindowAccessesComplete : Prop :=
  (∀ s w, s.Reaches 56 → Completes (.winAddrWrite w) s fun t =>
    t.host = { s.host with winAddr := bits w 0 24, atEnd := false, latched := false, done := true, valid := false } ∧
    Same [.host, .int] s t) ∧
  (∀ s w, s.Reaches 57 → s.host.latched = false → Completes (.winDataAccess false w) s fun t =>
    some t.host.rdata = s.tsWord s.winAt ∧ t.host.winAddr = s.host.winAddr + 1#24 ∧ t.host.atEnd = regionLast s.winAt ∧
    t.host.latched = s.tsLow64 s.winAt ∧ Same [.recog, .smc, .pwr, .host, .int] s t) ∧
  (∀ s w, s.Reaches 57 → s.host.latched = true → s.host.latchAt = s.winAt → Completes (.winDataAccess false w) s fun t =>
    t.host.rdata = s.host.winLatch ∧ t.host.latched = false ∧ t.host.winAddr = s.host.winAddr + 1#24 ∧
    Same [.pwr, .host, .int] s t) ∧
  (∀ s w, s.Reaches 57 → 0x5000 ≤ s.winAt → s.winAt < 0x5800 → (s.machine ((s.winAt - 0x5000) / 256)).running = false →
    Mem.wf 0#32 s.smc.prog = true → Completes (.winDataAccess true w) s fun t =>
      (∀ o, Mem.get 0#32 t.smc.prog o = if o = s.winAt - 0x5000 then w else Mem.get 0#32 s.smc.prog o) ∧
      t.smc.m = s.smc.m ∧ t.smc.flags = s.smc.flags ∧ t.host.winAddr = s.host.winAddr + 1#24 ∧
      Same [.smc, .pwr, .host, .int] s t) ∧
  (∀ s b w, s.busOpen = true → s.host.atEnd = false → (∀ d, s.resolve 57 ≠ .resting d) →
    Completes (.winDataAccess b w) s fun t =>
      t.host.winAddr = s.host.winAddr + 1#24 ∧ t.host.atEnd = regionLast s.winAt) ∧
  (∀ s w, s.busOpen = true → s.host.atEnd = false → s.tsMapped s.winAt = false → s.tsGated s.winAt = false →
    Completes (.winDataAccess false w) s (fun t =>
      t.host.rdata = 0#32 ∧ t.host.unmapped = true ∧ Same [.host, .int] s t) ∧
    Completes (.winDataAccess true w) s fun t =>
      t.host.rdata = s.host.rdata ∧ t.host.unmapped = true ∧ Same [.host, .int] s t)

/-- A host access whose word CLKEN gates (R89, R462): a write is dropped, a read returns 0, and nothing but the bus moves.
The model's own readings in it: log entry 19. -/
def Obligations.GatedAccessesDoNothing : Prop :=
  ∀ s (i : Fin 64), s.busOpen = true → s.regGated i.val = true → i ≠ 57 →
    (∀ w, Completes (.registerWrite i w) s fun t =>
      t.host = { s.host with done := true, valid := false } ∧ Same [.host, .int] s t) ∧
    Completes (.lowWordRead i) s fun t =>
      t.host = { s.host with rdata := 0#32, done := true, valid := Config.strobeHeld s.clk.tsc } ∧ Same [.host, .int] s t

/-! ### Authenticated commands (chapters 14, 17) -/

/-- The command registers (R490 to R492): CMD_ARG queues up to 16 words, one more sets ARG_OVF and is lost; CLEAR empties the
queue and the other command registers; while BUSY a write of any of the six registers changes nothing.
The model's own readings in it: log entries 9, 91. -/
def Obligations.CommandRegistersComplete : Prop :=
  (∀ s w, s.Reaches 41 → s.mgmt.busy = false →
    (s.mgmt.args.length < 16 → Completes (.cmdArgWrite w) s fun t =>
      t.mgmt = { s.mgmt with args := s.mgmt.args ++ [w] } ∧ Same [.mgmt, .host, .int] s t) ∧
    (16 ≤ s.mgmt.args.length → Completes (.cmdArgWrite w) s fun t =>
      t.mgmt = { s.mgmt with argOvf := true } ∧ Same [.mgmt, .host, .int] s t)) ∧
  (∀ s, s.Reaches 45 → s.mgmt.busy = false → Completes .clear s fun t =>
    t.mgmt = { s.mgmt with args := [], code := 0#8, ctr := 0#32, tagLo := 0#32, tagHi := 0#32 } ∧
    Same [.mgmt, .host, .int] s t) ∧
  (∀ s w (i : Fin 64), s.mgmt.busy = true → 40 ≤ i.val → i.val ≤ 45 → s.Reaches i.val →
    Completes (.registerWrite i w) s fun t =>
      t.host = { s.host with done := true, valid := false } ∧ Same [.host, .int] s t)

/-- The commands on configuration, calibration and units (R155, R507, R564, R574, R583, R584), each ready and with its own
condition met: the command ends with RESULT 0 and CTR stored, and has its effect, a program or erase of the port in progress having
ended before it (`endSeq`).
The model's own readings in it: log entries 91, 138. -/
def Obligations.StoreCommandsComplete : Prop :=
  (∀ s l, s.CmdReady 0x01#8 → s.mgmt.staged = some l → Completes (.configCommit true) s fun t =>
    s.CmdEnded t 0#8 ∧ t.mgmt.authCtr = s.mgmt.ctr ∧ t.mgmt.consec = 0#5 ∧
    (∃ c, c.list = l ∧ c.auto = bitAt (s.mgmt.arg 0) 0 ∧
      (t.mgmt.cfgA = some c ∧ t.mgmt.cfgB = s.endSeq.mgmt.cfgB ∨
        t.mgmt.cfgB = some c ∧ t.mgmt.cfgA = s.endSeq.mgmt.cfgA)) ∧
    Same [.mgmt, .mport, .int] s.endSeq t) ∧
  (∀ s, s.CmdReady 0x01#8 → s.mgmt.staged = none → Completes (.configCommit true) s fun t =>
    s.CmdEnded t 0x06#8 ∧ t.mgmt.cfgA = s.endSeq.mgmt.cfgA ∧ t.mgmt.cfgB = s.endSeq.mgmt.cfgB ∧
    t.host.sticky.getLsbD 13 = true ∧ Same [.mgmt, .mport, .host, .int] s.endSeq t) ∧
  (∀ s, s.CmdReady 0x02#8 → Completes (.configErase true) s fun t =>
    s.CmdEnded t 0#8 ∧ t.mgmt.authCtr = s.mgmt.ctr ∧ t.mgmt.cfgA = none ∧ t.mgmt.cfgB = none ∧
    t.mgmt.spills = s.endSeq.mgmt.spills ∧ t.mgmt.logRing = s.endSeq.mgmt.logRing ∧
    Same [.mgmt, .mport, .int] s.endSeq t) ∧
  (∀ s, s.CmdReady 0x03#8 → bitAt (s.mgmt.arg 0) 0 ≠ s.mgmt.calOpen →
    (s.mgmt.calOpen = false → Completes (.calSession true) s fun t =>
      s.CmdEnded t 0#8 ∧ t.mgmt.calOpen = true ∧ t.mgmt.calAct = s.mgmt.calAct ∧
      Same [.mgmt, .mport, .int] s.endSeq t) ∧
    (s.mgmt.calOpen = true → Completes (.calSession true) s fun t =>
      s.CmdEnded t 0#8 ∧ t.mgmt.calOpen = false ∧ t.mgmt.calAct = s.mgmt.calStage ∧
      Same [.arr, .mgmt, .mport, .int] s t)) ∧
  (∀ s, s.CmdReady 0x04#8 → s.mgmt.unitArg < 648 → (s.unit s.mgmt.unitArg).lasting = false →
    s.auditOf s.mgmt.unitArg = none → ((s.unit s.mgmt.unitArg).state = .fallow ∨ (s.unit s.mgmt.unitArg).state = .dead) →
    Completes (.unitAdmit true) s fun t =>
      s.CmdEnded t 0#8 ∧ ((t.unit s.mgmt.unitArg).state = .spare ∨ (t.unit s.mgmt.unitArg).state = .active) ∧
      t.arr.dirtySince.isSome = true ∧ Same [.arr, .pwr, .mgmt, .mport, .int] s t) ∧
  (∀ s, s.CmdReady 0x05#8 → s.mgmt.unitArg < 660 → (s.unit s.mgmt.unitArg).lasting = false →
    (∀ a, s.auditOf s.mgmt.unitArg = some a → a.standin.map Fin.val ≠ some s.mgmt.unitArg) →
    Completes (.unitRetire true) s fun t =>
      s.CmdEnded t 0#8 ∧ (t.unit s.mgmt.unitArg).state = .dead ∧ (t.unit s.mgmt.unitArg).lasting = true ∧
      (t.unit s.mgmt.unitArg).cause = 6#3 ∧ t.arr.dirtySince.isSome = true ∧ Same [.arr, .pwr, .mgmt, .mport, .int] s t) ∧
  (∀ s, s.CmdReady 0x06#8 → Completes (.logErase true) s fun t =>
    s.CmdEnded t 0#8 ∧ t.mgmt.authCtr = s.mgmt.ctr ∧ t.mgmt.logRing = [] ∧ t.mgmt.logAck = s.mgmt.logNext ∧
    t.mgmt.logNext = s.mgmt.logNext ∧ t.mgmt.cfgA = s.endSeq.mgmt.cfgA ∧
    (∀ a, logBase ≤ a → a < spillBase → flashGet t.mport.flash a = 0xFF#8) ∧
    Same [.mgmt, .mport, .int] s.endSeq t)

/-- The commands on updates, the link address, the thermal limits, the key and the factory state (R120, R156, R497, R578,
R584, R586), each ready and with its own condition met, a program or erase of the port in progress having ended before it. KEY_ROLL
leaves the counter at 0, every other CTR.
The model's own readings in it: log entries 91, 99, 138. -/
def Obligations.UpdateAndKeyCommandsComplete : Prop :=
  (∀ s f q, s.CmdReady 0x07#8 → q = s.endSeq.learn (!s.mgmt.runSlot) f →
    (q.armOk = true → Completes (.updateArm true f) s fun t =>
      s.CmdEnded t 0#8 ∧ t.mgmt.authCtr = s.mgmt.ctr ∧ t.mgmt.upd = .armed ∧
      (t.mgmt.slot (!s.mgmt.runSlot)).version = q.imageVersion (!s.mgmt.runSlot) ∧
      t.mgmt.slot s.mgmt.runSlot = q.mgmt.slot s.mgmt.runSlot ∧ Same [.mgmt, .mport, .int] q t) ∧
    (q.armOk = false → Completes (.updateArm true f) s fun t =>
      s.CmdEnded t 0x07#8 ∧ t.mgmt.authCtr = s.mgmt.ctr ∧ t.mgmt.upd = s.mgmt.upd ∧ t.mgmt.slotA = q.mgmt.slotA ∧
      t.mgmt.slotB = q.mgmt.slotB ∧ Same [.mgmt, .mport, .host, .int] q t)) ∧
  (∀ s, s.CmdReady 0x08#8 → s.mgmt.upd = .armed → Completes (.updateCommit true) s fun t =>
    s.CmdEnded t 0#8 ∧ t.mgmt.authCtr = s.mgmt.ctr ∧ (t.mgmt.slot (!s.mgmt.runSlot)).commit = true ∧
    t.mgmt.zor = false ∧ (t.dom .mc).st = .waking ∧ (t.dom .mc).target = .on ∧ t.pwr.booted = false ∧
    t.link = s.link ∧ t.pending = s.pending) ∧
  (∀ s, s.CmdReady 0x09#8 → (bitAt (s.mgmt.arg 0) 0 = true → s.link.assigned = true) →
    Completes (.addrLock true) s fun t =>
      s.CmdEnded t 0#8 ∧ t.link = { s.link with locked := bitAt (s.mgmt.arg 0) 0 } ∧
      Same [.link, .mgmt, .mport, .int] s.endSeq t) ∧
  (∀ s, s.CmdReady 0x0A#8 → (bits (s.mgmt.arg 0) 0 8 : BitVec 8).toNat ≤ 110 →
    20 ≤ (bits (s.mgmt.arg 0) 16 9 : BitVec 9).toNat → (bits (s.mgmt.arg 0) 16 9 : BitVec 9).toNat ≤ 290 →
    Completes (.thermLimits true) s fun t =>
      s.CmdEnded t 0#8 ∧ t.therm.maxCode = bits (s.mgmt.arg 0) 0 8 ∧ t.therm.power = bits (s.mgmt.arg 0) 16 9 ∧
      t.therm.enable = s.therm.enable ∧ t.therm.setpoint = s.therm.setpoint ∧
      Same [.therm, .mgmt, .mport, .int] s.endSeq t) ∧
  (∀ s, s.CmdReady 0x0B#8 → Completes (.keyRoll true) s fun t =>
    s.CmdEnded t 0#8 ∧ t.mgmt.key = some s.mgmt.rolledKey ∧ t.mgmt.keyGen = s.mgmt.keyGen + 1 ∧ t.mgmt.authCtr = 0#32 ∧
    Same [.mgmt, .mport, .int] s.endSeq t) ∧
  (∀ s, s.CmdReady 0x0C#8 → Completes (.factoryReset true) s fun t =>
    s.CmdEnded t 0#8 ∧ t.mgmt.cfgA = none ∧ t.mgmt.cfgB = none ∧ t.therm.maxCode = 90#8 ∧ t.therm.power = 290#9 ∧
    (∀ u, u < 660 → (t.unit u).lasting = false ∧ (t.unit u).flaps = 0#2) ∧ t.arr.dirtySince.isSome = true ∧
    t.mgmt.key = s.mgmt.key ∧ Same [.arr, .therm, .pwr, .mgmt, .mport, .int] s t)

/-- Commands that are turned away (R582, R585): one stopped at lockout, code or argument count ends with that RESULT and
nothing else counts; one whose tag, key-roll rule or counter fails also counts in CONSEC and FAILS, the sixteenth starting a
lockout; the stored counter stays. A lockout whose duration has passed ends.
The model's own readings in it: log entries 91, 92. -/
def Obligations.CommandsAreTurnedAway : Prop :=
  (∀ s, s.cmdWaits = true → s.mgmt.early ≠ 0#8 → Completes .unknownCommand s fun t =>
    s.CmdEnded t s.mgmt.early ∧ t.mgmt.authCtr = s.mgmt.authCtr ∧ t.mgmt.consec = s.mgmt.consec ∧
    t.mgmt.fails = s.mgmt.fails ∧ t.host.sticky.getLsbD 13 = true ∧ Same [.mgmt, .host, .int] s t) ∧
  (∀ s, s.cmdWaits = true → s.mgmt.code = 0x0A#8 → s.mgmt.early = 0#8 → s.mgmt.late ≠ 0#8 →
    Completes (.thermLimits true) s fun t =>
      s.CmdEnded t s.mgmt.late ∧ t.mgmt.authCtr = s.mgmt.authCtr ∧ t.mgmt.consec = satInc s.mgmt.consec ∧
      t.mgmt.fails = satInc s.mgmt.fails ∧ (15 ≤ s.mgmt.consec.toNat → t.mgmt.lockout = true) ∧
      (s.mgmt.consec.toNat < 15 → s.mgmt.lockLate = false → t.mgmt.lockout = false) ∧ t.therm = s.therm ∧
      Same [.mgmt, .host, .int] s t) ∧
  (∀ s, s.mgmt.lockout = true → s.hasLk = true → lockSeconds s.mgmt.lockStep * 32768 ≤ s.clk.ht - s.mgmt.lockAt →
    Completes .lockoutEnd s fun t =>
      t.mgmt = ({ s.mgmt with lockout := false, lockLate := true } : Mgmt).keepLock ∧ t.mgmt.lockout = false ∧
      Same [.mgmt, .int] s t)

/-! ### Mailbox and services (chapter 17) -/

/-- The mailbox queues (R494 to R496, R561, R562): MBX_IN takes up to 64 words and wakes MC, MBX_OUT gives the oldest word, an
empty one shows UNDERRUN; FLUSH empties both and drops the request; a message still incomplete 10 ms after its header is answered
0x03, an unknown service 0x01.
The model's own readings in it: log entry 93. -/
def Obligations.MailboxQueuesComplete : Prop :=
  (∀ s w, s.Reaches 47 → s.isOn .mc = true →
    (s.mgmt.inQ.length < 64 → Completes (.mbxInWrite w) s fun t =>
      t.mgmt = { s.mgmt with inQ := s.mgmt.inQ ++ [w], inAt := s.mgmt.inAt ++ [s.clk.tsc] } ∧ Same [.mgmt, .host, .int] s t) ∧
    (64 ≤ s.mgmt.inQ.length → Completes (.mbxInWrite w) s fun t =>
      t.mgmt = { s.mgmt with inOvf := true } ∧ Same [.mgmt, .host, .int] s t)) ∧
  (∀ s w, s.Reaches 47 → (s.dom .mc).st = .retain → Completes (.mbxInWrite w) s fun t =>
    (t.dom .mc).demandDue = true ∧ Same [.pwr, .mgmt, .host, .int] s t) ∧
  (∀ s w ws, s.Reaches 48 → s.mgmt.outQ = w :: ws → s.mgmt.reply = none → Completes .mbxOutRead s fun t =>
    t.host.rdata = w ∧ t.mgmt = { s.mgmt with outQ := ws } ∧ Same [.mgmt, .host, .int] s t) ∧
  (∀ s, s.Reaches 48 → s.mgmt.outQ = [] → Completes .mbxOutRead s fun t =>
    t.host.rdata = 0#32 ∧ t.mgmt = { s.mgmt with outUnder := true } ∧ Same [.mgmt, .host, .int] s t) ∧
  (∀ s, s.Reaches 49 → Completes .mbxFlush s fun t =>
    t.mgmt = { s.mgmt with inQ := [], inAt := [], outQ := [], req := none, reply := none } ∧ t.aux.conv = s.aux.conv ∧
    t.aux.calQueue = s.aux.calQueue ∧ Same [.aux, .mgmt, .host, .int] s t) ∧
  (∀ s h rest, s.coreUp = true → s.mgmt.req = none → s.mgmt.inQ = h :: rest → s.mgmt.message = none →
    s.headerOld = true → s.mgmt.outQ.length < 64 → Completes .messageIncomplete s fun t =>
      t.mgmt.inQ = [] ∧ t.mgmt.outQ = s.mgmt.outQ ++ replyWords h 3#8 [] ∧ t.mgmt.replyEvt = true ∧ t.mgmt.req = none ∧
      Same [.mgmt, .int] s t) ∧
  (∀ s r, s.coreUp = true → s.mgmt.req = none → s.mgmt.message = some r → knownService r.service = false →
    s.mgmt.outQ.length < 64 → Completes .unknownService s fun t => s.Replied t r 1#8 [] ∧ Same [.mgmt, .int] s t)

/-- LOG_READ, HEALTH_REPORT, SENSOR_READ, AUX_DISCOVER and CAL_RUN (R209, R217, R563, R566, R567): each whole request is taken
from MBX_IN and answered with STATUS 0 and the payload of its row once there is room, or, for the last two, sets its work
going; a payload of another length is answered 0x02. LOG_READ reads the flash once the bus is free (R557).
The model's own readings in it: log entries 93, 96, 97, 98, 138. -/
def Obligations.ReadServicesComplete : Prop :=
  (∀ s r, s.Serves r 1#8 → s.flashFree = true → s.mgmt.outQ.length + 58 ≤ 64 →
    (r.payload.length = 2 → (bits (r.arg 1) 0 3 : BitVec 3) ≠ 0#3 → bitAt (r.arg 1) 8 = false → Completes .logRead s fun t =>
      (∃ w0, s.Replied t r 0#8
        (w0 :: (s.endSeq.mgmt.readLog (r.arg 0) (bits (r.arg 1) 0 3 : BitVec 3).toNat).flatMap LogRec.words) ∧
        ∀ x, (s.endSeq.mgmt.readLog (r.arg 0) (bits (r.arg 1) 0 3 : BitVec 3).toNat).getLast? = some x → w0 = x.seq + 1#32) ∧
      t.mgmt.logRing = s.endSeq.mgmt.logRing ∧ t.mgmt.logAck = s.mgmt.logAck ∧ t.mport.flash = s.endSeq.mport.flash ∧
      Same [.mgmt, .mport, .int] s.endSeq t) ∧
    (r.payload.length ≠ 2 → Completes .logRead s fun t => s.Replied t r 2#8 [] ∧ Same [.mgmt, .int] s t)) ∧
  (∀ s r, s.Serves r 2#8 → r.payload = [] → s.mgmt.outQ.length + 11 ≤ 64 → Completes .healthReport s fun t =>
    s.Replied t r 0#8 (s.healthWords ++ [s.uncommittedAge]) ∧ Same [.mgmt, .int] s t) ∧
  (∀ s r v, s.Serves r 3#8 → r.payload.length = 1 → s.mgmt.outQ.length + 17 ≤ 64 → Completes (.sensorRead v) s fun t =>
    s.Replied t r 0#8 (((List.range 16).filter fun k => bitAt (r.arg 0) k).map fun k => v.getD k 0#32) ∧
    t.mgmt.sens = s.mgmt.sens ∧ Same [.mgmt, .int] s t) ∧
  (∀ s v, s.coreUp = true → s.sensDue = true → Completes (.sensorMeasure v) s fun t =>
    t.mgmt = { s.mgmt with sens := v, sensAt := some s.clk.tsc } ∧ Same [.mgmt, .int] s t) ∧
  (∀ s r, s.Serves r 4#8 → r.payload.length = 1 → Completes .auxDiscover s fun t =>
    t.aux = { s.aux with tedsBusy := putBit s.aux.tedsBusy (bits (r.arg 0) 0 2 : BitVec 2).toNat true, tedsTag := some r.hdr } ∧
    t.mgmt.req = some r ∧ t.mgmt.outQ = s.mgmt.outQ ∧ Same [.aux, .mgmt, .int] s t) ∧
  (∀ s r, s.Serves r 5#8 → r.payload.length = 1 → bits (r.arg 0) 0 4 ≠ 0#4 →
    (s.isOn .xf = true → s.clken 2 = true → Completes .calRun s fun t =>
      t.aux = { s.aux with
        calQueue := s.aux.calQueue ||| bits (r.arg 0) 0 4
        calNow := calFirst (s.aux.calQueue ||| bits (r.arg 0) 0 4) s.aux.calNow
        calDone := 0#4
        calTag := some r.hdr } ∧ t.mgmt.req = some r ∧
      Same [.aux, .mgmt, .int] s t) ∧
    (s.isOn .xf = false → s.mgmt.outQ.length < 64 → Completes .calRun s fun t =>
      s.Replied t r 4#8 [] ∧ Same [.mgmt, .int] s t)) ∧
  (∀ s r v, s.mgmt.outQ.length < 64 →
    (s.Serves r 2#8 → r.payload ≠ [] → Completes .healthReport s fun t => s.Replied t r 2#8 [] ∧ Same [.mgmt, .int] s t) ∧
    (s.Serves r 3#8 → r.payload.length ≠ 1 → Completes (.sensorRead v) s fun t => s.Replied t r 2#8 [] ∧ Same [.mgmt, .int] s t) ∧
    (s.Serves r 4#8 → r.payload.length ≠ 1 → Completes .auxDiscover s fun t => s.Replied t r 2#8 [] ∧ Same [.mgmt, .int] s t) ∧
    (s.Serves r 5#8 → r.payload.length ≠ 1 → Completes .calRun s fun t => s.Replied t r 2#8 [] ∧ Same [.mgmt, .int] s t))

/-- CONFIG_STAGE, CONFIG_RESTORE, UPDATE_STAGE, CAPTURE_SPILL and SPILL_READ (R275, R557, R563 to R565, R579): with a listed domain
resting a staging wakes it and waits; else it records every listed value that it can read and answers their count; a restore
without a store is answered 0x05, and one of a single value of CTRL writes it; a write of update data in order is programmed into the
slot that does not run; a spilled capture keeps its words under the next index; SPILL_READ gives them back. The ones that use the flash
need its bus free.
The model's own readings in it: log entries 94, 99, 101, 138. -/
def Obligations.WorkServicesComplete : Prop :=
  (∀ s r, s.Serves r 6#8 → r.payload = [] → s.stageWaits false = [] → s.mgmt.outQ.length + 3 ≤ 64 → Completes .configStage s fun t =>
    (∃ l crc, t.mgmt.staged = some l ∧ l = (stageKeys.filter (s.coreReads false)).map (fun k => (k, s.stageValue k)) ∧
      s.Replied t r 0#8 [BitVec.ofNat 32 l.length, crc]) ∧
    t.mgmt.cfgA = s.mgmt.cfgA ∧ t.mgmt.cfgB = s.mgmt.cfgB ∧ Same [.pwr, .mgmt, .int] s t) ∧
  (∀ s r, s.Serves r 6#8 → r.payload = [] → s.mgmt.reply = none → s.stageWaits false ≠ [] → Completes .configStage s fun t =>
    (∀ k ∈ s.stageWaits false, ∀ d, keyDom k = some d → ((s.dom d).st = .off ∨ (s.dom d).st = .retain) →
      (t.dom d).demandDue = true) ∧
    t.mgmt.req = some r ∧ t.mgmt.reply = none ∧ t.mgmt.staged = s.mgmt.staged ∧ t.mgmt.outQ = s.mgmt.outQ ∧
    Same [.pwr, .mgmt, .int] s t) ∧
  (∀ s r, s.Serves r 7#8 → s.flashFree = true → r.payload = [] → s.mgmt.restore = [] → s.mgmt.outQ.length < 64 →
    s.endSeq.mgmt.newerCfg = none → Completes .configRestore s fun t => s.Replied t r 5#8 [] ∧ Same [.mgmt, .int] s t) ∧
  (∀ s r w, s.Serves r 7#8 → s.flashFree = true → r.payload = [] → s.mgmt.restore = [] → s.mgmt.reply = none →
    s.mgmt.outQ.length < 64 → (∃ c, s.endSeq.mgmt.newerCfg = some c ∧ c.list = [(regKey 6, w)]) → Completes .configRestore s fun t =>
      t.host = { s.host with ctrl := bits w 0 3 } ∧ s.Replied t r 0#8 [] ∧ t.mgmt.restore = [] ∧
      Same [.host, .mgmt, .mport, .int] s.endSeq t) ∧
  (∀ s r, s.Serves r 8#8 → s.flashFree = true → 0 < r.payload.length → r.payload.length ≤ 61 → s.mgmt.upd ≠ .trial →
    (r.arg 0).toNat = s.mgmt.updPos → 0 < s.mgmt.updPos → s.mgmt.updPos + 4 * (r.payload.length - 1) ≤ slotBytes →
    s.mgmt.outQ.length < 64 → Completes (.updateStage true) s fun t =>
      t.mport.flash = flashProgram s.endSeq.mport.flash (imageBase (!s.mgmt.runSlot) + s.mgmt.updPos)
        ((r.payload.drop 1).flatMap leBytes) ∧
      t.mgmt.slot s.mgmt.runSlot = s.endSeq.mgmt.slot s.mgmt.runSlot ∧ (t.mgmt.slot (!s.mgmt.runSlot)).passes = false ∧
      t.mgmt.updPos = s.mgmt.updPos + 4 * (r.payload.length - 1) ∧ t.mgmt.upd = .staging ∧ s.Replied t r 0#8 [] ∧
      Same [.mport, .mgmt, .int] s.endSeq t) ∧
  (∀ s r, s.Serves r 9#8 → s.flashFree = true → r.payload.length = 1 → s.isOn .cs = true → s.clken 7 = true →
    s.clken 3 = true → s.autoSpill = none → s.mgmt.autoWait = none → s.spec.mode ≠ .capture → s.cap.owner = true →
    (s.cap.entry (bits (r.arg 0) 0 4 : BitVec 4).toNat).used = true → s.mgmt.outQ.length + 3 ≤ 64 →
    Completes (.captureSpill true) s fun t =>
      t.mgmt.spills.getLast? = some ⟨s.mgmt.spillNext, s.slotImage (bits (r.arg 0) 0 4 : BitVec 4).toNat⟩ ∧
      t.mgmt.spillNext = s.mgmt.spillNext + 1#16 ∧
      (t.cap.entry (bits (r.arg 0) 0 4 : BitVec 4).toNat).spilled = true ∧
      (t.cap.entry (bits (r.arg 0) 0 4 : BitVec 4).toNat).used = true ∧ t.cap.store = s.cap.store ∧
      s.Replied t r 0#8 [fld s.mgmt.spillNext 0,
        BitVec.ofNat 32 (4 * (s.slotImage (bits (r.arg 0) 0 4 : BitVec 4).toNat).length)] ∧
      Same [.cap, .pwr, .mport, .mgmt, .int] s.endSeq t) ∧
  (∀ s r p, s.Serves r 10#8 → s.flashFree = true → r.payload.length = 3 →
    s.endSeq.mgmt.spills.find? (fun q => q.index == (bits (r.arg 0) 0 16 : BitVec 16)) = some p →
    0 < (r.arg 2).toNat → (r.arg 2).toNat ≤ 60 → (r.arg 1).toNat + (r.arg 2).toNat ≤ p.words.length →
    s.mgmt.outQ.length + 61 ≤ 64 → Completes .spillRead s fun t =>
      s.Replied t r 0#8 ((p.words.drop (r.arg 1).toNat).take (r.arg 2).toNat) ∧ t.mgmt.spills = s.endSeq.mgmt.spills ∧
      Same [.mgmt, .mport, .int] s.endSeq t)

/-- The log, a trial image and the boot (R539 to R541, R571 to R574, R577, R578, R580, R613): a queued record is written under
LOG_NEXT, as one page program at its place; a trial image that has run for 600 s is confirmed, raises MIN_VER to its own version and
ends the trial; a boot with an image chosen starts Zoruimen from that slot, one with no eligible image or on a flash it cannot use
starts nothing.
The model's own readings in it: log entries 90, 95, 138, 139. -/
def Obligations.CoreWorkCompletes : Prop :=
  (∀ s r rs, s.coreUp = true → s.flashFree = true → s.mgmt.logOvf = 0 → s.mgmt.logQ = r :: rs → Completes .logWrite s fun t =>
    t.mgmt.logQ = rs ∧ t.mgmt.logNext = s.mgmt.logNext + 1#32 ∧
    t.mgmt.logRing.getLast? = some { r with seq := s.mgmt.logNext } ∧
    t.mport.seq = some (.program false (recordAddr s.mgmt.logNext) ({ r with seq := s.mgmt.logNext } : LogRec).bytes) ∧
    Same [.mgmt, .mport, .int] s.endSeq t) ∧
  (∀ s, s.coreUp = true → s.flashFree = true → s.mgmt.logOvf ≠ 0 → Completes .logWrite s fun t =>
    t.mgmt.logQ = s.mgmt.logQ ∧ t.mgmt.logOvf = 0 ∧ t.mgmt.logNext = s.mgmt.logNext + 1#32 ∧
    (∃ x, t.mgmt.logRing.getLast? = some x ∧ x.cls = 0x0A#8 ∧ x.code = 0x01#8 ∧ x.d0 = BitVec.ofNat 32 s.mgmt.logOvf) ∧
    Same [.mgmt, .mport, .int] s.endSeq t) ∧
  (∀ s, s.coreUp = true → s.flashFree = true → s.mgmt.upd = .trial → 600 * 32768 ≤ s.clk.ht - s.mgmt.zorHt →
    Completes .trialConfirm s fun t =>
    t.mgmt.running.confirm = true ∧ t.mgmt.upd = .idle ∧ t.mgmt.updEvt = true ∧
    s.mgmt.minVersion.toNat ≤ t.mgmt.minVersion.toNat ∧ s.mgmt.running.secVer.toNat ≤ t.mgmt.minVersion.toNat ∧
    Same [.arr, .mgmt, .mport, .int] s t) ∧
  (∀ s f a b w c r, (s.dom .mc).st = .waking → (s.dom .mc).fromRet = false → s.mgmt.zor = false → s.hasLk = true →
    s.flashFree = true → f.answers = true → r = (s.modMport fun x => x.discovered f).chooseImage a b →
    (∀ sl, flashUsable f = true → r.2 = some sl → s.mgmt.restore = [] →
      (∀ x, (s.mgmt.cfgA = some x ∨ s.mgmt.cfgB = some x) → x.auto = false) →
      Completes (.boot f a b w c) s fun t =>
        t.mgmt.zor = true ∧ t.mgmt.runSlot = sl ∧ t.mgmt.entry = r.1.imageWord sl 5 ∧ t.arr.mapLoaded = true ∧
        t.canReport .mc = true ∧ t.mport.size = (match f.table with | some p => p.log2 | none => 23#5) ∧
        t.mgmt.rescue.newest = [] ∧ t.pending = s.pending ∧ t.link = s.link) ∧
    (flashUsable f = true → r.2 = none → Completes (.boot f a b w c) s fun t =>
      t.mgmt.zor = false ∧ t.canReport .mc = false ∧ t.arr.units = s.arr.units ∧ Same [.arr, .mgmt, .mport, .int] s t) ∧
    (flashUsable f = false → Completes (.boot f a b w c) s fun t =>
      t.mport = s.mport.discovered f ∧ t.canReport .mc = false ∧ Same [.mport, .int] s t))

/-! ### Timing link (chapter 15) -/

/-- Frames that read or write (R515 to R523): a header whose CRC checks names its command; a READ of one register answers READY, the
word and its CRC; one that needs a resting domain answers busy words and wakes it, and goes on with READY, WOKE set where a domain
was woken for it, once the domain is On, or with FAIL where it failed; a WRITE whose CRC checks is applied, one whose CRC fails is
not and is recorded; a write that needs a resting domain is posted and applied once the domain is On, or dropped where it failed,
with its status word where the host still clocks; a NOP changes nothing but that the frame before it is over and LDO is released.
The model's own readings in it: log entries 77, 78. -/
def Obligations.LinkFramesComplete : Prop :=
  (∀ s addr n, Completes (.nop addr n) s fun t => t.link = { s.link with wait := none, ldo := [] } ∧ Same [.link, .int] s t) ∧
  (∀ h ws bus, crc8 h = bits h 0 8 → let a : BitVec 5 := bits h 27 5
    (bits h 24 3 = 0#3 → linkFrame h ws bus false = .nop a ws.length) ∧
    (bits h 24 3 = 1#3 → linkFrame h ws bus false = .read a (bits h 18 6) (bits h 10 8) bus.length bus) ∧
    (bits h 24 3 = 2#3 → linkFrame h ws bus false = .write a (bits h 18 6) (bits h 10 8) (ws ++ bus)) ∧
    (bits h 24 3 = 3#3 → linkFrame h ws bus false = .sync a ws) ∧
    (bits h 24 3 = 4#3 → linkFrame h ws bus false = .wake ⟨a, ws.length⟩) ∧
    (bits h 24 3 = 7#3 → linkFrame h ws bus false = .park ⟨a, ws.length⟩)) ∧
  (∀ s addr, s.linkUp = true → s.own addr = true → s.link.posted = none →
    Completes (.read addr 61 0 3 []) s fun t =>
      t.link = { s.link with ldo := [s.readyWord 61, s.host.scratch, fld (crc16 [s.host.scratch]) 0], wait := none } ∧
      Same [.link, .int] s t) ∧
  (∀ s addr n, s.linkUp = true → s.own addr = true → s.link.posted = none → s.clken 6 = true → 0 < s.level →
    (s.dom .sb).st = .retain → Completes (.read addr 27 0 (n + 1) []) s fun t =>
      (t.dom .sb).demandDue = true ∧ t.buf = s.buf ∧
      t.link = { s.link with ldo := [busyWord], wait := some ⟨false, 27, 1, n, [], [.sb], true⟩ } ∧
      Same [.pwr, .link, .int] s t) ∧
  (∀ s w ws k, (s.dom .sb).st = .waking → (s.dom .sb).target = .on → s.linkUp = true → s.link.assigned = true →
    s.wakeOver .sb = false → s.host.stall = none → s.mgmt.restore = [] → s.mgmt.req = none → s.clken 6 = true →
    s.link.wait = some ⟨false, 27, 1, 3, [], [.sb], k⟩ →
    s.buf.words = w :: ws → Completes (.wakeReady .sb) s fun t =>
      t.buf.words = ws ∧ t.buf.rp = s.buf.rp + 1#22 ∧ t.buf.last = w ∧ t.link.wait = none ∧
      ∃ r : Word, bits r 0 8 = 0xA5#8 ∧ bitAt r 16 = k ∧ bits r 24 5 = s.link.addr ∧
        t.link.ldo = s.link.ldo ++ [r, w.data, fld (crc16 [w.data]) 0]) ∧
  (∀ s n k, (s.dom .sb).st = .waking → s.linkUp = true → s.link.assigned = true → s.wakeOver .sb = true →
    s.mgmt.restore = [] → s.mgmt.req = none → s.clken 6 = true → 0 < s.level →
    s.link.wait = some ⟨false, 27, 1, n + 1, [], [.sb], k⟩ → Completes (.wakeTimeout .sb) s fun t =>
      (t.dom .sb).st = .failed ∧
      t.link = { s.link with wait := none, ldo := s.link.ldo ++ [s.failWord 27 1#4 (failDomain .sb)] }) ∧
  (∀ s addr w crc, s.linkUp = true → s.named addr = true → s.link.posted = none →
    (crcOk [w] crc = true → Completes (.write addr 61 0 [w, crc]) s fun t =>
      t.host = { s.host with scratch := w } ∧ Same [.host, .link, .int] s t) ∧
    (crcOk [w] crc = false → Completes (.write addr 61 0 [w, crc]) s fun t =>
      t.link.lastErr = 2#4 ∧ t.link.errEvt = true ∧ t.link.addr = s.link.addr ∧ Same [.link, .int] s t) ∧
    (crcOk [w] crc = true → s.clken 5 = true → (s.dom .sp).st = .retain → Completes (.write addr 38 0 [w, crc]) s fun t =>
      (t.dom .sp).demandDue = true ∧ t.link.posted = some ⟨38, [w], [.sp], true⟩ ∧ t.spec = s.spec ∧
      Same [.pwr, .link, .int] s t)) ∧
  (∀ s p, s.link.posted = some p → s.hasLk = true → s.link.wait = none →
    ((∀ d ∈ p.doms, s.isOn d = true) → p.index = 38 → (∃ w, p.words = [w]) → s.Reaches 38 → Completes .postedWriteCommit s fun t =>
      t.link.posted = none ∧ (∀ w, p.words = [w] → t.spec.doneEvt = (s.spec.doneEvt && !bitAt w 2) ∧
        t.spec.abortEvt = (s.spec.abortEvt && !bitAt w 3)) ∧ t.clk = { s.clk with closing := t.clk.closing } ∧
      Same [.clk, .spec, .pwr, .link, .int] s t) ∧
    ((∃ d ∈ p.doms, (s.dom d).st = .failed) → Completes .postedWriteCommit s fun t =>
      t.link = { s.link with posted := none } ∧ t.clk = { s.clk with closing := t.clk.closing } ∧
      Same [.clk, .link, .int] s t)) ∧
  (∀ s w n k, s.link.posted = some ⟨38, [w], [.sp], k⟩ → s.linkUp = true → s.link.assigned = true →
    s.link.wait = some ⟨true, 38, 1, n + 1, [], [.sp], k⟩ →
    (s.isOn .sp = true → s.Reaches 38 → Completes .postedWriteCommit s fun t =>
      t.link.posted = none ∧ t.link.wait = none ∧ t.spec.doneEvt = (s.spec.doneEvt && !bitAt w 2) ∧
      ∃ r : Word, bits r 0 8 = 0xA5#8 ∧ bitAt r 16 = k ∧ t.link.ldo = s.link.ldo ++ [r]) ∧
    ((s.dom .sp).st = .failed → Completes .postedWriteCommit s fun t =>
      t.link = { s.link with posted := none, wait := none, ldo := s.link.ldo ++ [s.failWord 38 1#4 (failDomain .sp)] } ∧
      Same [.clk, .link, .int] s t))

/-- Discovery, addresses and link errors (R498, R513, R515, R523, R529 to R533): DISCOVER is answered by the modules without an
address whose UID agrees; ASSIGN gives the named UID its address unless it is locked; RELEASE gives it up; a conflict on LDO
gives it up with its error; an aborted frame and a header whose CRC fails leave their marks; an attention pulse that is due
drives ATTN_N low.
The model's own readings in it: log entries 77, 80. -/
def Obligations.LinkAddressesComplete : Prop :=
  (∀ s len lo hi crc c, s.linkUp = true → s.link.assigned = false → crcOk [lo, hi] crc = true → (len : BitVec 8).toNat ≤ 64 →
    (uidMatches len.toNat (joinWords lo hi) = true → Completes (.discover len [lo, hi, crc, c]) s fun t =>
      t.link = { s.link with ldo := [discoverWord len.toNat], wait := none } ∧ Same [.link, .int] s t) ∧
    (uidMatches len.toNat (joinWords lo hi) = false → Completes (.discover len [lo, hi, crc, c]) s fun t =>
      t.link = { s.link with ldo := [], wait := none } ∧ Same [.link, .int] s t)) ∧
  (∀ s lo hi a crc, s.linkUp = true → crcOk [lo, hi, a] crc = true →
    (joinWords lo hi = Config.uid → s.link.locked = false → Completes (.assign [lo, hi, a, crc]) s fun t =>
      t.link.addr = bits a 0 5 ∧ t.link.assigned = (bits a 0 5 != 31#5) ∧ t.link.locked = false ∧
      t.link.aborts = s.link.aborts ∧ Same [.link, .int] s t) ∧
    (joinWords lo hi ≠ Config.uid ∨ s.link.locked = true → Completes (.assign [lo, hi, a, crc]) s fun t =>
      t.link = { s.link with wait := none, ldo := [] } ∧ Same [.link, .int] s t)) ∧
  (∀ s, s.Reaches 50 →
    (s.link.locked = false → Completes .linkRelease s fun t =>
      t.link.addr = 31#5 ∧ t.link.assigned = false ∧ (s.link.assigned = true → t.link.discEvt = true) ∧
      Same [.link, .host, .int] s t) ∧
    (s.link.locked = true → Completes .linkRelease s fun t => Same [.host, .int] s t)) ∧
  (∀ s addr b n, s.linkUp = true → s.own addr = true → s.link.posted = none → conflicts (s.readyWord 61) b = true →
    Completes (.read addr 61 0 (n + 1) [b]) s fun t =>
      t.link.addr = 31#5 ∧ t.link.assigned = false ∧ t.link.locked = false ∧ t.link.lastErr = 4#4 ∧
      t.host.sticky.getLsbD 10 = true ∧ t.host.rdata = s.host.rdata ∧ Same [.link, .host, .int] s t) ∧
  (∀ s c ws bus, s.linkUp = true →
    (c = .header ∨ (c = .waiting ∧ s.link.wait.isSome = true) ∨ ∃ h, c = .frame h ∧ s.isTarget h = true) →
    Completes (.linkAbort c ws bus) s fun t =>
      t.link.errEvt = true ∧ t.link.lastErr = 3#4 ∧ t.link.wait = none ∧ t.host.sticky.getLsbD 9 = true ∧
      t.pending = s.pending) ∧
  (∀ s c ws bus, s.linkUp = true →
    (c = .header ∨ ∃ h, c = .frame h ∧ s.isTarget h = true ∧ (h.op = 0#3 ∨ h.op = 3#3 ∨ h.op = 4#3 ∨ h.op = 6#3 ∨ h.op = 7#3 ∨
      (h.op = 2#3 ∧ (s.own h.addr = false ∨ ws.length ≤ h.count.toNat + 1)))) →
    Completes (.linkAbort c ws bus) s fun t =>
      t.link.aborts = satInc s.link.aborts ∧ t.link.addr = s.link.addr ∧ t.link.posted = s.link.posted ∧ t.link.ldo = [] ∧
      Same [.link, .host, .int] s t) ∧
  (∀ s f ws bus, s.linkUp = true → s.link.wait = some f → Completes (.linkAbort .waiting ws bus) s fun t =>
    t.link.aborts = satInc s.link.aborts ∧ t.link.posted = (if f.write then none else s.link.posted) ∧
    t.link.addr = s.link.addr ∧ Same [.link, .host, .int] s t) ∧
  (∀ s, s.Reaches 51 → Completes .statsClr s fun t =>
    t.link = { s.link with aborts := 0#16 } ∧ Same [.link, .host, .int] s t) ∧
  (∀ s h, s.linkUp = true → crc8 h ≠ bits h 0 8 → Completes (.headerCrcError h) s fun t =>
    t.link = { s.link with errEvt := true, lastErr := 1#4, ldo := [], wait := none } ∧ Same [.link, .int] s t) ∧
  (∀ s, s.attnDue = true → Completes .attnPulse s fun t =>
    t.link = { s.link with attnAt := some s.clk.ht, train := true } ∧ t.attnLow = true ∧ Same [.link, .int] s t)

/-! ### Memory port (chapter 16) -/

/-- The grant and the mode fault (R499, R500, R553 to R555, R571): HOST_TAKE asks, the grant comes with MPORT_DONE, HOST_TAKE = 0
gives the bus back, after which the status register is read first; a mode fault, which MSS_N makes by falling during a transaction,
is recorded and logged and the port waits until MSS_N has been high for 1 ms.
The model's own readings in it: log entries 88, 138. -/
def Obligations.PortGrantsComplete : Prop :=
  (∀ s, s.Reaches 52 → Completes .hostTake s fun t =>
    t.mport = { s.mport with take := true } ∧ t.host = { s.host with done := true, valid := false } ∧
    Same [.mport, .host, .int] s t) ∧
  (∀ s, s.Reaches 52 →
    (s.mport.granted = true → Completes .hostTakeClear s fun t =>
      t.mport = { s.mport with take := false, granted := false, doneEvt := true, repoll := true } ∧
      t.mgmt = { s.mgmt with slotA := { s.mgmt.slotA with found := true }, slotB := { s.mgmt.slotB with found := true } } ∧
      (s.isOn .mc = true ∨ s.arr.dirtySince = none → Same [.mport, .mgmt, .host, .int] s t) ∧
      Same [.pwr, .mport, .mgmt, .host, .int] s t) ∧
    (s.mport.granted = false → Completes .hostTakeClear s fun t =>
      t.mport = { s.mport with take := false } ∧
      (s.isOn .mc = true ∨ s.arr.dirtySince = none → Same [.mport, .host, .int] s t) ∧ Same [.pwr, .mport, .host, .int] s t)) ∧
  (∀ s, s.mport.take = true → s.mport.granted = false → s.hasLk = true → s.mport.seq = none → Completes .grant s fun t =>
    t.mport = { s.mport with granted := true, doneEvt := true, single := if s.mport.waiting then s.mport.single else none } ∧
    Same [.mport, .int] s t) ∧
  (∀ s a bs, s.mport.take = true → s.mport.granted = false → s.hasLk = true → s.mport.waiting = false →
    s.mport.mssLow = false → s.mport.seq = some (.program false a bs) → Completes .grant s fun t =>
      t.mport.granted = true ∧ t.mport.doneEvt = true ∧ t.mport.seq = none ∧
      t.mport.flash = flashProgram s.mport.flash a bs ∧ Same [.arr, .mport, .mgmt, .int] s t) ∧
  (∀ s, (s.mport.single.isSome = true ∨ s.mport.seq.isSome = true) → s.mport.granted = false → s.mport.waiting = false →
    s.mport.mssLow = false → s.hasLk = true → s.mgmt.logQ.length < 16 → Completes .modeFault s fun t =>
      t.mport = { s.mport with mfault := true, waiting := true, mssLow := true, opDone := s.opSent } ∧
      s.Logged t 0x09#8 0x03#8 s.portAddress 0#32 0#32 ∧ Same [.mport, .mgmt, .fresh, .int] s t) ∧
  (∀ s, s.mport.waiting = true → s.mport.mssLow = false → s.usSince s.mport.mssAt 1000 = true → s.hasLk = true →
    Completes .modeFaultResume s fun t =>
      t.mport = { s.mport with waiting := false, sent := s.mport.sentAgain,
                               seqAt := if s.mport.opDone then s.mport.seqAt else s.clk.tsc } ∧ Same [.mport, .int] s t)

/-- Program and erase sequences (R540, R544 to R548): consecutive core writes gather in the page buffer; once it is closed and its
programs have ended they have cleared bits, over as many pages as they take, within the addresses named; bytes at or above the end of
the window are not programmed and make a bus error in the log; an explicit command programs bytes of one page; an erase of a type that
the flash has makes its addresses 0xFF; a sequence that has not ended leaves the flash as it was; after a timeout no byte outside
the sequence differs and none within it has gained a bit. Every other byte reads as before.
The model's own readings in it: log entries 86, 87, 89, 138. -/
def Obligations.FlashSequencesComplete : Prop :=
  (∀ s addr bs, bs ≠ [] → s.portFree = true → s.mport.seq = none → s.mport.buffer = none → flashWf s.mport.flash = true →
    (addr.toNat + bs.length ≤ s.mport.window → Completes (.pageProgram (.window addr) bs ⟨true, true⟩) s fun t =>
        (∀ b, flashGet t.mport.flash b =
          if addr.toNat ≤ b ∧ b < addr.toNat + bs.length
          then flashGet s.mport.flash b &&& bs.getD (b - addr.toNat) 0xFF#8 else flashGet s.mport.flash b) ∧
        t.mport.flashB = s.mport.flashB ∧ t.mport.seq = none ∧ t.mport.buffer = none ∧ Same [.arr, .mport, .mgmt, .int] s t) ∧
    (addr.toNat + bs.length ≤ s.mport.window → addr.toNat % s.mport.page + bs.length < s.mport.page →
      Completes (.pageProgram (.window addr) bs ⟨false, false⟩) s fun t =>
        t.mport = { s.mport with buffer := some (addr.toNat, bs), bufAt := s.clk.tsc } ∧ Same [.mport, .int] s t) ∧
    (s.mport.window < addr.toNat + bs.length → s.mgmt.logQ.length < 16 →
      Completes (.pageProgram (.window addr) bs ⟨true, true⟩) s fun t =>
        s.Logged t 0x09#8 0x01#8 (BitVec.ofNat 32 (max addr.toNat s.mport.window)) 0#32 0#32 ∧
        (∀ b, s.mport.window ≤ b → flashGet t.mport.flash b = flashGet s.mport.flash b) ∧
        Same [.arr, .mport, .mgmt, .int] s t)) ∧
  (∀ s p bs, s.portFree = true → s.mport.seq = none → pageFits s.mport.page p.addr bs = true →
    s.mport.reaches p bs.length = true →
    (s.mport.buffer = none → Completes (.pageProgram (.command p) bs ⟨true, true⟩) s fun t =>
      t.mport.seq = none ∧ (p.flash1 = true → t.mport.flash = s.mport.flash ∧
        t.mport.flashB = flashProgram s.mport.flashB p.addr.toNat bs) ∧
      (p.flash1 = false → t.mport.flash = flashProgram s.mport.flash p.addr.toNat bs ∧ t.mport.flashB = s.mport.flashB) ∧
      Same [.arr, .mport, .mgmt, .int] s t) ∧
    (s.mport.buffer = none → Completes (.pageProgram (.command p) bs ⟨true, false⟩) s fun t =>
      t.mport.flash = s.mport.flash ∧ t.mport.flashB = s.mport.flashB ∧
      t.mport.seq = some (.program p.flash1 p.addr.toNat bs) ∧ t.mport.seqAt = s.clk.tsc ∧ Same [.mport, .int] s t) ∧
    (∀ a ds, s.mport.buffer = some (a, ds) → Completes (.pageProgram (.command p) bs ⟨true, false⟩) s fun t =>
      t.mport.flash = flashProgram s.mport.flash a ds ∧ t.mport.buffer = none ∧
      t.mport.seq = some (.program p.flash1 p.addr.toNat bs) ∧ Same [.arr, .mport, .mgmt, .int] s t)) ∧
  (∀ s k p e, eraseAligned k p.addr = true → s.portFree = true → s.mport.seq = none → s.mport.buffer = none →
    flashWf s.mport.flash = true → s.mport.eraseType (eraseSize k) = some e → s.mport.reaches p (eraseSize k) = true →
    (p.flash1 = false → Completes (.erase k p true) s fun t =>
      (∀ b, flashGet t.mport.flash b =
        if p.addr.toNat ≤ b ∧ b < p.addr.toNat + eraseSize k then 0xFF#8 else flashGet s.mport.flash b) ∧
      t.mport.flashB = s.mport.flashB ∧ t.mport.seq = none ∧ Same [.arr, .mport, .mgmt, .int] s t) ∧
    Completes (.erase k p false) s fun t =>
      t.mport.flash = s.mport.flash ∧ t.mport.flashB = s.mport.flashB ∧
      t.mport.seq = some (.erase p.flash1 p.addr.toNat (eraseSize k)) ∧
      t.mport.sent = s.mport.sentPoll ++ [sentEnable, msbFirst e.opcode ++ s.mport.addrBits p.addr.toNat, sentStatus] ∧
      Same [.mport, .int] s t) ∧
  (∀ s a bs, s.mport.seq = some (.program false a bs) → s.seqOver = true → s.mport.waiting = false → s.hasLk = true →
    flashWf s.mport.flash = true → s.mgmt.logQ.length < 16 → Completes .flashTimeout s fun t =>
      (∀ b, b < a ∨ a + bs.length ≤ b → flashGet t.mport.flash b = flashGet s.mport.flash b) ∧
      (∀ b, flashGet t.mport.flash b &&& flashGet s.mport.flash b = flashGet t.mport.flash b) ∧
      (s.mport.polling = true → t.mport.flash = s.mport.flash) ∧
      t.mport.seq = none ∧ t.mport.repoll = true ∧ t.mgmt.alert = 0x01#8 ∧ t.mgmt.alertEvt = true ∧
      s.Logged t 0x09#8 0x02#8 (BitVec.ofNat 32 a) 0#32 0#32 ∧ Same [.arr, .mport, .mgmt, .fresh, .int] s t)

/-! ### Registers and reset (chapter 14) -/

/-- Plain writes of registers (R4, R398, R399, R417, R467, R484, R486, R501 to R503): a register takes its fields, W1C bits clear,
INT_CFG reaches the source that INT_SEL names, and a write to a register without writable fields is discarded. An OUT bit that a
machine has written in the same Headland tick stays the machine's (R335).
The model's own readings in it: log entry 9. -/
def Obligations.RegisterWritesComplete : Prop :=
  (∀ s w, s.Reaches 61 → Completes (.registerWrite 61 w) s fun t =>
    t.host = { s.host with scratch := w, done := true, valid := false } ∧ Same [.host, .int] s t) ∧
  (∀ s w, s.Reaches 6 → Completes (.registerWrite 6 w) s fun t =>
    t.host = { s.host with ctrl := bits w 0 3, done := true, valid := false } ∧ Same [.host, .int] s t) ∧
  (∀ s w, s.Reaches 5 → Completes (.registerWrite 5 w) s fun t =>
    t.host = { s.host with sticky := s.host.sticky &&& ~~~(bits w 0 16), done := true, valid := false } ∧ Same [.host, .int] s t) ∧
  (∀ s w, s.Reaches 59 → Completes (.registerWrite 59 w) s fun t =>
    t.host = { s.host with gDir := bits w 0 8, gOd := bits w 8 8, done := true, valid := false } ∧ Same [.host, .int] s t) ∧
  (∀ s w, s.Reaches 60 → Completes (.registerWrite 60 w) s fun t =>
    t.host = { s.host with gOut := (s.host.gOut &&& s.host.gMach) ||| (bits w 0 8 &&& ~~~s.host.gMach), done := true, valid := false } ∧
    Same [.host, .int] s t) ∧
  (∀ s w, s.Reaches 18 → Completes (.registerWrite 18 w) s fun t =>
    t.int.th0 = bits w 0 3 ∧ t.int.th1 = bits w 4 3 ∧ t.int.th2 = s.int.th2 ∧ t.int.src = s.int.src ∧
    Same [.int, .host] s t) ∧
  (∀ s w n, s.Reaches 22 → s.int.shown = some n → Completes (.registerWrite 22 w) s fun t =>
    t.int.cfg n = { s.int.cfg n with en := bitAt w 0, prio := bits w 4 3, target := storedTarget n (bits w 8 2) } ∧
    (∀ m, m ≠ n → t.int.cfg m = s.int.cfg m) ∧ t.int.sel = s.int.sel ∧ Same [.int, .host] s t) ∧
  (∀ s w (i : Fin 64), i.val ∈ [0, 1, 2, 3, 4, 10, 13, 14, 19, 20, 28, 48, 62, 63] → s.Reaches i.val →
    Completes (.registerWrite i w) s fun t => t.host = { s.host with done := true, valid := false } ∧ Same [.host, .int] s t)

/-- What reset leaves where the manual gives a value (R418, R421, R477 to R503): the identification word, PWR_REQ, DVFS at OP0, the
clock enables all 0, BUF_THRESH, INT_THRESH, CTRL, SCRATCH and WIN_ADDR 0, STICKY with its power-on bit, no address on the
link, every source disabled and no domain On. -/
def Obligations.ResetValues : Prop :=
  let r (i : Nat) : Word := (State.reset.readReg i true).1
  r 0 = 0x71600E5A#32 ∧ r 5 = 1#32 ∧ r 6 = 0#32 ∧ r 7 = 0#32 ∧ r 8 = 0x8000#32 ∧ r 13 = 0#32 ∧ r 18 = 0#32 ∧ r 21 = 0#32 ∧
  r 26 = 0#32 ∧ r 29 = 0#32 ∧ r 30 = 0#32 ∧ r 50 = 31#32 ∧ r 56 = 0#32 ∧ r 61 = 0#32 ∧ State.reset.pending = [] ∧
  (∀ d, State.reset.isOn d = false) ∧ (∀ n : Fin 48, (State.reset.int.cfg n.val).en = false)

/-! ### Invariants -/

/-- Both invariants hold at reset. -/
def Obligations.ResetMeetsTheInvariants : Prop := State.reset.PortsOk ∧ State.reset.StoresOk

/-- Every step, whatever the command, keeps ASSIGNED in agreement with the link address, a grant within HOST_TAKE, the Headland
tick divider in range, and flash 0 in canonical form. -/
def Obligations.StepKeepsPortsOk : Prop := ∀ s t, s.PortsOk → step s = .next t → t.PortsOk

/-- Every step, whatever the command, keeps every sparse store canonical, every queue within its bound, and the pointers of the
sample buffer as far apart as it holds words. -/
def Obligations.StepKeepsStoresOk : Prop := ∀ s t, s.StoresOk → step s = .next t → t.StoresOk
end

