-- ==== Sys2Proof/Laws/Answer.lean ====
section
/-!
SUPPORT. What the answer of a command adds to its own effect: arbitration changes the interrupt controller alone, the
clock-quality history the clock part alone. What masking says of one part.
-/

namespace Sys2Proof.Machine

open Sys2Proof

/-- An answer is a next state. -/
@[simp] theorem answer_next (s t : State) : answer s t = .next (State.arbitrate s t) := rfl

/-- An event whose conditions hold takes effect. -/
@[simp] theorem event_true (s t : State) : event true s t = .next (State.arbitrate s t) := rfl

/-- An event whose conditions do not hold changes nothing. -/
@[simp] theorem event_false (s t : State) : event false s t = .next s := rfl

@[simp] theorem State.arbitrate_pending (s t : State) : (State.arbitrate s t).pending = t.pending := by
  unfold State.arbitrate; split <;> rfl

@[simp] theorem State.arbitrate_clk (s t : State) : (State.arbitrate s t).clk = t.clk := by
  unfold State.arbitrate; split <;> rfl

@[simp] theorem State.arbitrate_harrow (s t : State) : (State.arbitrate s t).harrow = t.harrow := by
  unfold State.arbitrate; split <;> rfl

@[simp] theorem State.arbitrate_arr (s t : State) : (State.arbitrate s t).arr = t.arr := by
  unfold State.arbitrate; split <;> rfl

@[simp] theorem State.arbitrate_therm (s t : State) : (State.arbitrate s t).therm = t.therm := by
  unfold State.arbitrate; split <;> rfl

@[simp] theorem State.arbitrate_aux (s t : State) : (State.arbitrate s t).aux = t.aux := by
  unfold State.arbitrate; split <;> rfl

@[simp] theorem State.arbitrate_recog (s t : State) : (State.arbitrate s t).recog = t.recog := by
  unfold State.arbitrate; split <;> rfl

@[simp] theorem State.arbitrate_cap (s t : State) : (State.arbitrate s t).cap = t.cap := by
  unfold State.arbitrate; split <;> rfl

@[simp] theorem State.arbitrate_scar (s t : State) : (State.arbitrate s t).scar = t.scar := by
  unfold State.arbitrate; split <;> rfl

@[simp] theorem State.arbitrate_spec (s t : State) : (State.arbitrate s t).spec = t.spec := by
  unfold State.arbitrate; split <;> rfl

@[simp] theorem State.arbitrate_smc (s t : State) : (State.arbitrate s t).smc = t.smc := by
  unfold State.arbitrate; split <;> rfl

@[simp] theorem State.arbitrate_buf (s t : State) : (State.arbitrate s t).buf = t.buf := by
  unfold State.arbitrate; split <;> rfl

@[simp] theorem State.arbitrate_pwr (s t : State) : (State.arbitrate s t).pwr = t.pwr := by
  unfold State.arbitrate; split <;> rfl

@[simp] theorem State.arbitrate_host (s t : State) : (State.arbitrate s t).host = t.host := by
  unfold State.arbitrate; split <;> rfl

@[simp] theorem State.arbitrate_link (s t : State) : (State.arbitrate s t).link = t.link := by
  unfold State.arbitrate; split <;> rfl

@[simp] theorem State.arbitrate_mport (s t : State) : (State.arbitrate s t).mport = t.mport := by
  unfold State.arbitrate; split <;> rfl

@[simp] theorem State.arbitrate_mgmt (s t : State) : (State.arbitrate s t).mgmt = t.mgmt := by
  unfold State.arbitrate; split <;> rfl

@[simp] theorem State.arbitrate_fresh (s t : State) : (State.arbitrate s t).fresh = t.fresh := by
  unfold State.arbitrate; split <;> rfl

@[simp] theorem State.arbitrate_int_src (s t : State) : (State.arbitrate s t).int.src = t.int.src := by
  unfold State.arbitrate; split <;> rfl

@[simp] theorem State.arbitrate_int_sel (s t : State) : (State.arbitrate s t).int.sel = t.int.sel := by
  unfold State.arbitrate; split <;> rfl

@[simp] theorem State.arbitrate_int_th0 (s t : State) : (State.arbitrate s t).int.th0 = t.int.th0 := by
  unfold State.arbitrate; split <;> rfl

@[simp] theorem State.arbitrate_int_th1 (s t : State) : (State.arbitrate s t).int.th1 = t.int.th1 := by
  unfold State.arbitrate; split <;> rfl

@[simp] theorem State.arbitrate_int_th2 (s t : State) : (State.arbitrate s t).int.th2 = t.int.th2 := by
  unfold State.arbitrate; split <;> rfl

@[simp] theorem State.arbitrate_int_badcomp (s t : State) : (State.arbitrate s t).int.badcomp = t.int.badcomp := by
  unfold State.arbitrate; split <;> rfl

@[simp] theorem State.arbitrate_int_spurious (s t : State) : (State.arbitrate s t).int.spurious = t.int.spurious := by
  unfold State.arbitrate; split <;> rfl

@[simp] theorem State.markQuality_pending (s t : State) : (State.markQuality s t).pending = t.pending := by
  unfold State.markQuality; split <;> rfl

@[simp] theorem State.markQuality_harrow (s t : State) : (State.markQuality s t).harrow = t.harrow := by
  unfold State.markQuality; split <;> rfl

@[simp] theorem State.markQuality_arr (s t : State) : (State.markQuality s t).arr = t.arr := by
  unfold State.markQuality; split <;> rfl

@[simp] theorem State.markQuality_therm (s t : State) : (State.markQuality s t).therm = t.therm := by
  unfold State.markQuality; split <;> rfl

@[simp] theorem State.markQuality_aux (s t : State) : (State.markQuality s t).aux = t.aux := by
  unfold State.markQuality; split <;> rfl

@[simp] theorem State.markQuality_recog (s t : State) : (State.markQuality s t).recog = t.recog := by
  unfold State.markQuality; split <;> rfl

@[simp] theorem State.markQuality_cap (s t : State) : (State.markQuality s t).cap = t.cap := by
  unfold State.markQuality; split <;> rfl

@[simp] theorem State.markQuality_scar (s t : State) : (State.markQuality s t).scar = t.scar := by
  unfold State.markQuality; split <;> rfl

@[simp] theorem State.markQuality_spec (s t : State) : (State.markQuality s t).spec = t.spec := by
  unfold State.markQuality; split <;> rfl

@[simp] theorem State.markQuality_smc (s t : State) : (State.markQuality s t).smc = t.smc := by
  unfold State.markQuality; split <;> rfl

@[simp] theorem State.markQuality_buf (s t : State) : (State.markQuality s t).buf = t.buf := by
  unfold State.markQuality; split <;> rfl

@[simp] theorem State.markQuality_int (s t : State) : (State.markQuality s t).int = t.int := by
  unfold State.markQuality; split <;> rfl

@[simp] theorem State.markQuality_pwr (s t : State) : (State.markQuality s t).pwr = t.pwr := by
  unfold State.markQuality; split <;> rfl

@[simp] theorem State.markQuality_host (s t : State) : (State.markQuality s t).host = t.host := by
  unfold State.markQuality; split <;> rfl

@[simp] theorem State.markQuality_link (s t : State) : (State.markQuality s t).link = t.link := by
  unfold State.markQuality; split <;> rfl

@[simp] theorem State.markQuality_mport (s t : State) : (State.markQuality s t).mport = t.mport := by
  unfold State.markQuality; split <;> rfl

@[simp] theorem State.markQuality_mgmt (s t : State) : (State.markQuality s t).mgmt = t.mgmt := by
  unfold State.markQuality; split <;> rfl

@[simp] theorem State.markQuality_fresh (s t : State) : (State.markQuality s t).fresh = t.fresh := by
  unfold State.markQuality; split <;> rfl

@[simp] theorem State.markQuality_clk_inReset (s t : State) : (State.markQuality s t).clk.inReset = t.clk.inReset := by
  unfold State.markQuality; split <;> rfl

@[simp] theorem State.markQuality_clk_lspd (s t : State) : (State.markQuality s t).clk.lspd = t.clk.lspd := by
  unfold State.markQuality; split <;> rfl

@[simp] theorem State.markQuality_clk_tsc (s t : State) : (State.markQuality s t).clk.tsc = t.clk.tsc := by
  unfold State.markQuality; split <;> rfl

@[simp] theorem State.markQuality_clk_htSub (s t : State) : (State.markQuality s t).clk.htSub = t.clk.htSub := by
  unfold State.markQuality; split <;> rfl

@[simp] theorem State.markQuality_clk_ht (s t : State) : (State.markQuality s t).clk.ht = t.clk.ht := by
  unfold State.markQuality; split <;> rfl

@[simp] theorem State.markQuality_clk_htMark (s t : State) : (State.markQuality s t).clk.htMark = t.clk.htMark := by
  unfold State.markQuality; split <;> rfl

@[simp] theorem State.markQuality_clk_pllm (s t : State) : (State.markQuality s t).clk.pllm = t.clk.pllm := by
  unfold State.markQuality; split <;> rfl

@[simp] theorem State.markQuality_clk_plle (s t : State) : (State.markQuality s t).clk.plle = t.clk.plle := by
  unfold State.markQuality; split <;> rfl

@[simp] theorem State.markQuality_clk_relockDue (s t : State) : (State.markQuality s t).clk.relockDue = t.clk.relockDue := by
  unfold State.markQuality; split <;> rfl

@[simp] theorem State.markQuality_clk_seqHeld (s t : State) : (State.markQuality s t).clk.seqHeld = t.clk.seqHeld := by
  unfold State.markQuality; split <;> rfl

@[simp] theorem State.markQuality_clk_frozen (s t : State) : (State.markQuality s t).clk.frozen = t.clk.frozen := by
  unfold State.markQuality; split <;> rfl

@[simp] theorem State.markQuality_clk_coast (s t : State) : (State.markQuality s t).clk.coast = t.clk.coast := by
  unfold State.markQuality; split <;> rfl

@[simp] theorem State.markQuality_clk_lclkPresent (s t : State) : (State.markQuality s t).clk.lclkPresent = t.clk.lclkPresent := by
  unfold State.markQuality; split <;> rfl

@[simp] theorem State.markQuality_clk_holdClk (s t : State) : (State.markQuality s t).clk.holdClk = t.clk.holdClk := by
  unfold State.markQuality; split <;> rfl

@[simp] theorem State.markQuality_clk_monitorArmed (s t : State) : (State.markQuality s t).clk.monitorArmed = t.clk.monitorArmed := by
  unfold State.markQuality; split <;> rfl

@[simp] theorem State.markQuality_clk_lostEvt (s t : State) : (State.markQuality s t).clk.lostEvt = t.clk.lostEvt := by
  unfold State.markQuality; split <;> rfl

@[simp] theorem State.markQuality_clk_relockEvt (s t : State) : (State.markQuality s t).clk.relockEvt = t.clk.relockEvt := by
  unfold State.markQuality; split <;> rfl

@[simp] theorem State.markQuality_clk_pllFailEvt (s t : State) : (State.markQuality s t).clk.pllFailEvt = t.clk.pllFailEvt := by
  unfold State.markQuality; split <;> rfl

@[simp] theorem State.markQuality_clk_parkRefused (s t : State) : (State.markQuality s t).clk.parkRefused = t.clk.parkRefused := by
  unfold State.markQuality; split <;> rfl

@[simp] theorem State.markQuality_clk_relocks (s t : State) : (State.markQuality s t).clk.relocks = t.clk.relocks := by
  unfold State.markQuality; split <;> rfl

@[simp] theorem State.markQuality_clk_park (s t : State) : (State.markQuality s t).clk.park = t.clk.park := by
  unfold State.markQuality; split <;> rfl

@[simp] theorem State.markQuality_clk_align (s t : State) : (State.markQuality s t).clk.align = t.clk.align := by
  unfold State.markQuality; split <;> rfl

@[simp] theorem State.markQuality_clk_epochValid (s t : State) : (State.markQuality s t).clk.epochValid = t.clk.epochValid := by
  unfold State.markQuality; split <;> rfl

@[simp] theorem State.markQuality_clk_syncEvt (s t : State) : (State.markQuality s t).clk.syncEvt = t.clk.syncEvt := by
  unfold State.markQuality; split <;> rfl

@[simp] theorem State.markQuality_clk_syncReject (s t : State) : (State.markQuality s t).clk.syncReject = t.clk.syncReject := by
  unfold State.markQuality; split <;> rfl

@[simp] theorem State.markQuality_clk_stepped (s t : State) : (State.markQuality s t).clk.stepped = t.clk.stepped := by
  unfold State.markQuality; split <;> rfl

@[simp] theorem State.markQuality_clk_step (s t : State) : (State.markQuality s t).clk.step = t.clk.step := by
  unfold State.markQuality; split <;> rfl

@[simp] theorem State.markQuality_clk_clken (s t : State) : (State.markQuality s t).clk.clken = t.clk.clken := by
  unfold State.markQuality; split <;> rfl

@[simp] theorem State.markQuality_clk_closing (s t : State) : (State.markQuality s t).clk.closing = t.clk.closing := by
  unfold State.markQuality; split <;> rfl

@[simp] theorem State.markQuality_clk_modPhase (s t : State) : (State.markQuality s t).clk.modPhase = t.clk.modPhase := by
  unfold State.markQuality; split <;> rfl

/-! ### From a mask to one part -/

variable {ps : List Part} {s t : State}

@[simp] theorem State.mask_pending : (s.mask ps).pending = s.pending := rfl

theorem State.pending_of_mask (h : t.mask ps = s.mask ps) : t.pending = s.pending := by
  simpa using congrArg State.pending h

/-- Two choices with the same first branch agree where the second ones do. -/
theorem ite_agree {α : Type} {c : Prop} [Decidable c] {a b z : α} (h : ¬c → a = b) : (if c then z else a) = if c then z else b := by
  split
  · rfl
  · exact h ‹_›

theorem State.clk_of_mask (h : t.mask ps = s.mask ps) (hp : Part.clk ∉ ps) : t.clk = s.clk := by
  simpa [State.mask, hp] using congrArg State.clk h

theorem State.harrow_of_mask (h : t.mask ps = s.mask ps) (hp : Part.harrow ∉ ps) : t.harrow = s.harrow := by
  simpa [State.mask, hp] using congrArg State.harrow h

theorem State.arr_of_mask (h : t.mask ps = s.mask ps) (hp : Part.arr ∉ ps) : t.arr = s.arr := by
  simpa [State.mask, hp] using congrArg State.arr h

theorem State.therm_of_mask (h : t.mask ps = s.mask ps) (hp : Part.therm ∉ ps) : t.therm = s.therm := by
  simpa [State.mask, hp] using congrArg State.therm h

theorem State.aux_of_mask (h : t.mask ps = s.mask ps) (hp : Part.aux ∉ ps) : t.aux = s.aux := by
  simpa [State.mask, hp] using congrArg State.aux h

theorem State.recog_of_mask (h : t.mask ps = s.mask ps) (hp : Part.recog ∉ ps) : t.recog = s.recog := by
  simpa [State.mask, hp] using congrArg State.recog h

theorem State.cap_of_mask (h : t.mask ps = s.mask ps) (hp : Part.cap ∉ ps) : t.cap = s.cap := by
  simpa [State.mask, hp] using congrArg State.cap h

theorem State.scar_of_mask (h : t.mask ps = s.mask ps) (hp : Part.scar ∉ ps) : t.scar = s.scar := by
  simpa [State.mask, hp] using congrArg State.scar h

theorem State.spec_of_mask (h : t.mask ps = s.mask ps) (hp : Part.spec ∉ ps) : t.spec = s.spec := by
  simpa [State.mask, hp] using congrArg State.spec h

theorem State.smc_of_mask (h : t.mask ps = s.mask ps) (hp : Part.smc ∉ ps) : t.smc = s.smc := by
  simpa [State.mask, hp] using congrArg State.smc h

theorem State.buf_of_mask (h : t.mask ps = s.mask ps) (hp : Part.buf ∉ ps) : t.buf = s.buf := by
  simpa [State.mask, hp] using congrArg State.buf h

theorem State.int_of_mask (h : t.mask ps = s.mask ps) (hp : Part.int ∉ ps) : t.int = s.int := by
  simpa [State.mask, hp] using congrArg State.int h

theorem State.pwr_of_mask (h : t.mask ps = s.mask ps) (hp : Part.pwr ∉ ps) : t.pwr = s.pwr := by
  simpa [State.mask, hp] using congrArg State.pwr h

theorem State.host_of_mask (h : t.mask ps = s.mask ps) (hp : Part.host ∉ ps) : t.host = s.host := by
  simpa [State.mask, hp] using congrArg State.host h

theorem State.link_of_mask (h : t.mask ps = s.mask ps) (hp : Part.link ∉ ps) : t.link = s.link := by
  simpa [State.mask, hp] using congrArg State.link h

theorem State.mport_of_mask (h : t.mask ps = s.mask ps) (hp : Part.mport ∉ ps) : t.mport = s.mport := by
  simpa [State.mask, hp] using congrArg State.mport h

theorem State.mgmt_of_mask (h : t.mask ps = s.mask ps) (hp : Part.mgmt ∉ ps) : t.mgmt = s.mgmt := by
  simpa [State.mask, hp] using congrArg State.mgmt h

theorem State.fresh_of_mask (h : t.mask ps = s.mask ps) (hp : Part.fresh ∉ ps) : t.fresh = s.fresh := by
  simpa [State.mask, hp] using congrArg State.fresh h

/-- Masking more parts. -/
theorem State.mask_mono {qs : List Part} (h : t.mask ps = s.mask ps) (hq : ∀ p ∈ ps, p ∈ qs) : t.mask qs = s.mask qs := by
  have k (p : Part) (hp : p ∉ qs) : p ∉ ps := fun m => hp (hq p m)
  simp only [State.mask, State.mk.injEq]
  exact ⟨State.pending_of_mask h,
    ite_agree fun n => State.clk_of_mask h (k _ n),
    ite_agree fun n => State.harrow_of_mask h (k _ n),
    ite_agree fun n => State.arr_of_mask h (k _ n),
    ite_agree fun n => State.therm_of_mask h (k _ n),
    ite_agree fun n => State.aux_of_mask h (k _ n),
    ite_agree fun n => State.recog_of_mask h (k _ n),
    ite_agree fun n => State.cap_of_mask h (k _ n),
    ite_agree fun n => State.scar_of_mask h (k _ n),
    ite_agree fun n => State.spec_of_mask h (k _ n),
    ite_agree fun n => State.smc_of_mask h (k _ n),
    ite_agree fun n => State.buf_of_mask h (k _ n),
    ite_agree fun n => State.int_of_mask h (k _ n),
    ite_agree fun n => State.pwr_of_mask h (k _ n),
    ite_agree fun n => State.host_of_mask h (k _ n),
    ite_agree fun n => State.link_of_mask h (k _ n),
    ite_agree fun n => State.mport_of_mask h (k _ n),
    ite_agree fun n => State.mgmt_of_mask h (k _ n),
    ite_agree fun n => State.fresh_of_mask h (k _ n)⟩

end Sys2Proof.Machine
end

