-- ==== Sys2Proof/Laws/State.lean ====
section
/-!
SUPPORT. What each update of one part of the state does to each part: true by definition, for the simplifier.
-/

namespace Sys2Proof.Machine

variable (s : State)

@[simp] theorem State.modClk_clk (f : Clk → Clk) : (s.modClk f).clk = f s.clk := rfl
@[simp] theorem State.modClk_harrow (f : Clk → Clk) : (s.modClk f).harrow = s.harrow := rfl
@[simp] theorem State.modClk_arr (f : Clk → Clk) : (s.modClk f).arr = s.arr := rfl
@[simp] theorem State.modClk_therm (f : Clk → Clk) : (s.modClk f).therm = s.therm := rfl
@[simp] theorem State.modClk_aux (f : Clk → Clk) : (s.modClk f).aux = s.aux := rfl
@[simp] theorem State.modClk_recog (f : Clk → Clk) : (s.modClk f).recog = s.recog := rfl
@[simp] theorem State.modClk_cap (f : Clk → Clk) : (s.modClk f).cap = s.cap := rfl
@[simp] theorem State.modClk_scar (f : Clk → Clk) : (s.modClk f).scar = s.scar := rfl
@[simp] theorem State.modClk_spec (f : Clk → Clk) : (s.modClk f).spec = s.spec := rfl
@[simp] theorem State.modClk_smc (f : Clk → Clk) : (s.modClk f).smc = s.smc := rfl
@[simp] theorem State.modClk_buf (f : Clk → Clk) : (s.modClk f).buf = s.buf := rfl
@[simp] theorem State.modClk_int (f : Clk → Clk) : (s.modClk f).int = s.int := rfl
@[simp] theorem State.modClk_pwr (f : Clk → Clk) : (s.modClk f).pwr = s.pwr := rfl
@[simp] theorem State.modClk_host (f : Clk → Clk) : (s.modClk f).host = s.host := rfl
@[simp] theorem State.modClk_link (f : Clk → Clk) : (s.modClk f).link = s.link := rfl
@[simp] theorem State.modClk_mport (f : Clk → Clk) : (s.modClk f).mport = s.mport := rfl
@[simp] theorem State.modClk_mgmt (f : Clk → Clk) : (s.modClk f).mgmt = s.mgmt := rfl
@[simp] theorem State.modClk_pending (f : Clk → Clk) : (s.modClk f).pending = s.pending := rfl
@[simp] theorem State.modClk_fresh (f : Clk → Clk) : (s.modClk f).fresh = s.fresh := rfl

@[simp] theorem State.modHarrow_clk (f : Harrow → Harrow) : (s.modHarrow f).clk = s.clk := rfl
@[simp] theorem State.modHarrow_harrow (f : Harrow → Harrow) : (s.modHarrow f).harrow = f s.harrow := rfl
@[simp] theorem State.modHarrow_arr (f : Harrow → Harrow) : (s.modHarrow f).arr = s.arr := rfl
@[simp] theorem State.modHarrow_therm (f : Harrow → Harrow) : (s.modHarrow f).therm = s.therm := rfl
@[simp] theorem State.modHarrow_aux (f : Harrow → Harrow) : (s.modHarrow f).aux = s.aux := rfl
@[simp] theorem State.modHarrow_recog (f : Harrow → Harrow) : (s.modHarrow f).recog = s.recog := rfl
@[simp] theorem State.modHarrow_cap (f : Harrow → Harrow) : (s.modHarrow f).cap = s.cap := rfl
@[simp] theorem State.modHarrow_scar (f : Harrow → Harrow) : (s.modHarrow f).scar = s.scar := rfl
@[simp] theorem State.modHarrow_spec (f : Harrow → Harrow) : (s.modHarrow f).spec = s.spec := rfl
@[simp] theorem State.modHarrow_smc (f : Harrow → Harrow) : (s.modHarrow f).smc = s.smc := rfl
@[simp] theorem State.modHarrow_buf (f : Harrow → Harrow) : (s.modHarrow f).buf = s.buf := rfl
@[simp] theorem State.modHarrow_int (f : Harrow → Harrow) : (s.modHarrow f).int = s.int := rfl
@[simp] theorem State.modHarrow_pwr (f : Harrow → Harrow) : (s.modHarrow f).pwr = s.pwr := rfl
@[simp] theorem State.modHarrow_host (f : Harrow → Harrow) : (s.modHarrow f).host = s.host := rfl
@[simp] theorem State.modHarrow_link (f : Harrow → Harrow) : (s.modHarrow f).link = s.link := rfl
@[simp] theorem State.modHarrow_mport (f : Harrow → Harrow) : (s.modHarrow f).mport = s.mport := rfl
@[simp] theorem State.modHarrow_mgmt (f : Harrow → Harrow) : (s.modHarrow f).mgmt = s.mgmt := rfl
@[simp] theorem State.modHarrow_pending (f : Harrow → Harrow) : (s.modHarrow f).pending = s.pending := rfl
@[simp] theorem State.modHarrow_fresh (f : Harrow → Harrow) : (s.modHarrow f).fresh = s.fresh := rfl

@[simp] theorem State.modArr_clk (f : Arr → Arr) : (s.modArr f).clk = s.clk := rfl
@[simp] theorem State.modArr_harrow (f : Arr → Arr) : (s.modArr f).harrow = s.harrow := rfl
@[simp] theorem State.modArr_arr (f : Arr → Arr) : (s.modArr f).arr = f s.arr := rfl
@[simp] theorem State.modArr_therm (f : Arr → Arr) : (s.modArr f).therm = s.therm := rfl
@[simp] theorem State.modArr_aux (f : Arr → Arr) : (s.modArr f).aux = s.aux := rfl
@[simp] theorem State.modArr_recog (f : Arr → Arr) : (s.modArr f).recog = s.recog := rfl
@[simp] theorem State.modArr_cap (f : Arr → Arr) : (s.modArr f).cap = s.cap := rfl
@[simp] theorem State.modArr_scar (f : Arr → Arr) : (s.modArr f).scar = s.scar := rfl
@[simp] theorem State.modArr_spec (f : Arr → Arr) : (s.modArr f).spec = s.spec := rfl
@[simp] theorem State.modArr_smc (f : Arr → Arr) : (s.modArr f).smc = s.smc := rfl
@[simp] theorem State.modArr_buf (f : Arr → Arr) : (s.modArr f).buf = s.buf := rfl
@[simp] theorem State.modArr_int (f : Arr → Arr) : (s.modArr f).int = s.int := rfl
@[simp] theorem State.modArr_pwr (f : Arr → Arr) : (s.modArr f).pwr = s.pwr := rfl
@[simp] theorem State.modArr_host (f : Arr → Arr) : (s.modArr f).host = s.host := rfl
@[simp] theorem State.modArr_link (f : Arr → Arr) : (s.modArr f).link = s.link := rfl
@[simp] theorem State.modArr_mport (f : Arr → Arr) : (s.modArr f).mport = s.mport := rfl
@[simp] theorem State.modArr_mgmt (f : Arr → Arr) : (s.modArr f).mgmt = s.mgmt := rfl
@[simp] theorem State.modArr_pending (f : Arr → Arr) : (s.modArr f).pending = s.pending := rfl
@[simp] theorem State.modArr_fresh (f : Arr → Arr) : (s.modArr f).fresh = s.fresh := rfl

@[simp] theorem State.modTherm_clk (f : Therm → Therm) : (s.modTherm f).clk = s.clk := rfl
@[simp] theorem State.modTherm_harrow (f : Therm → Therm) : (s.modTherm f).harrow = s.harrow := rfl
@[simp] theorem State.modTherm_arr (f : Therm → Therm) : (s.modTherm f).arr = s.arr := rfl
@[simp] theorem State.modTherm_therm (f : Therm → Therm) : (s.modTherm f).therm = f s.therm := rfl
@[simp] theorem State.modTherm_aux (f : Therm → Therm) : (s.modTherm f).aux = s.aux := rfl
@[simp] theorem State.modTherm_recog (f : Therm → Therm) : (s.modTherm f).recog = s.recog := rfl
@[simp] theorem State.modTherm_cap (f : Therm → Therm) : (s.modTherm f).cap = s.cap := rfl
@[simp] theorem State.modTherm_scar (f : Therm → Therm) : (s.modTherm f).scar = s.scar := rfl
@[simp] theorem State.modTherm_spec (f : Therm → Therm) : (s.modTherm f).spec = s.spec := rfl
@[simp] theorem State.modTherm_smc (f : Therm → Therm) : (s.modTherm f).smc = s.smc := rfl
@[simp] theorem State.modTherm_buf (f : Therm → Therm) : (s.modTherm f).buf = s.buf := rfl
@[simp] theorem State.modTherm_int (f : Therm → Therm) : (s.modTherm f).int = s.int := rfl
@[simp] theorem State.modTherm_pwr (f : Therm → Therm) : (s.modTherm f).pwr = s.pwr := rfl
@[simp] theorem State.modTherm_host (f : Therm → Therm) : (s.modTherm f).host = s.host := rfl
@[simp] theorem State.modTherm_link (f : Therm → Therm) : (s.modTherm f).link = s.link := rfl
@[simp] theorem State.modTherm_mport (f : Therm → Therm) : (s.modTherm f).mport = s.mport := rfl
@[simp] theorem State.modTherm_mgmt (f : Therm → Therm) : (s.modTherm f).mgmt = s.mgmt := rfl
@[simp] theorem State.modTherm_pending (f : Therm → Therm) : (s.modTherm f).pending = s.pending := rfl
@[simp] theorem State.modTherm_fresh (f : Therm → Therm) : (s.modTherm f).fresh = s.fresh := rfl

@[simp] theorem State.modAux_clk (f : Aux → Aux) : (s.modAux f).clk = s.clk := rfl
@[simp] theorem State.modAux_harrow (f : Aux → Aux) : (s.modAux f).harrow = s.harrow := rfl
@[simp] theorem State.modAux_arr (f : Aux → Aux) : (s.modAux f).arr = s.arr := rfl
@[simp] theorem State.modAux_therm (f : Aux → Aux) : (s.modAux f).therm = s.therm := rfl
@[simp] theorem State.modAux_aux (f : Aux → Aux) : (s.modAux f).aux = f s.aux := rfl
@[simp] theorem State.modAux_recog (f : Aux → Aux) : (s.modAux f).recog = s.recog := rfl
@[simp] theorem State.modAux_cap (f : Aux → Aux) : (s.modAux f).cap = s.cap := rfl
@[simp] theorem State.modAux_scar (f : Aux → Aux) : (s.modAux f).scar = s.scar := rfl
@[simp] theorem State.modAux_spec (f : Aux → Aux) : (s.modAux f).spec = s.spec := rfl
@[simp] theorem State.modAux_smc (f : Aux → Aux) : (s.modAux f).smc = s.smc := rfl
@[simp] theorem State.modAux_buf (f : Aux → Aux) : (s.modAux f).buf = s.buf := rfl
@[simp] theorem State.modAux_int (f : Aux → Aux) : (s.modAux f).int = s.int := rfl
@[simp] theorem State.modAux_pwr (f : Aux → Aux) : (s.modAux f).pwr = s.pwr := rfl
@[simp] theorem State.modAux_host (f : Aux → Aux) : (s.modAux f).host = s.host := rfl
@[simp] theorem State.modAux_link (f : Aux → Aux) : (s.modAux f).link = s.link := rfl
@[simp] theorem State.modAux_mport (f : Aux → Aux) : (s.modAux f).mport = s.mport := rfl
@[simp] theorem State.modAux_mgmt (f : Aux → Aux) : (s.modAux f).mgmt = s.mgmt := rfl
@[simp] theorem State.modAux_pending (f : Aux → Aux) : (s.modAux f).pending = s.pending := rfl
@[simp] theorem State.modAux_fresh (f : Aux → Aux) : (s.modAux f).fresh = s.fresh := rfl

@[simp] theorem State.modRecog_clk (f : Rec → Rec) : (s.modRecog f).clk = s.clk := rfl
@[simp] theorem State.modRecog_harrow (f : Rec → Rec) : (s.modRecog f).harrow = s.harrow := rfl
@[simp] theorem State.modRecog_arr (f : Rec → Rec) : (s.modRecog f).arr = s.arr := rfl
@[simp] theorem State.modRecog_therm (f : Rec → Rec) : (s.modRecog f).therm = s.therm := rfl
@[simp] theorem State.modRecog_aux (f : Rec → Rec) : (s.modRecog f).aux = s.aux := rfl
@[simp] theorem State.modRecog_recog (f : Rec → Rec) : (s.modRecog f).recog = f s.recog := rfl
@[simp] theorem State.modRecog_cap (f : Rec → Rec) : (s.modRecog f).cap = s.cap := rfl
@[simp] theorem State.modRecog_scar (f : Rec → Rec) : (s.modRecog f).scar = s.scar := rfl
@[simp] theorem State.modRecog_spec (f : Rec → Rec) : (s.modRecog f).spec = s.spec := rfl
@[simp] theorem State.modRecog_smc (f : Rec → Rec) : (s.modRecog f).smc = s.smc := rfl
@[simp] theorem State.modRecog_buf (f : Rec → Rec) : (s.modRecog f).buf = s.buf := rfl
@[simp] theorem State.modRecog_int (f : Rec → Rec) : (s.modRecog f).int = s.int := rfl
@[simp] theorem State.modRecog_pwr (f : Rec → Rec) : (s.modRecog f).pwr = s.pwr := rfl
@[simp] theorem State.modRecog_host (f : Rec → Rec) : (s.modRecog f).host = s.host := rfl
@[simp] theorem State.modRecog_link (f : Rec → Rec) : (s.modRecog f).link = s.link := rfl
@[simp] theorem State.modRecog_mport (f : Rec → Rec) : (s.modRecog f).mport = s.mport := rfl
@[simp] theorem State.modRecog_mgmt (f : Rec → Rec) : (s.modRecog f).mgmt = s.mgmt := rfl
@[simp] theorem State.modRecog_pending (f : Rec → Rec) : (s.modRecog f).pending = s.pending := rfl
@[simp] theorem State.modRecog_fresh (f : Rec → Rec) : (s.modRecog f).fresh = s.fresh := rfl

@[simp] theorem State.modCap_clk (f : Cap → Cap) : (s.modCap f).clk = s.clk := rfl
@[simp] theorem State.modCap_harrow (f : Cap → Cap) : (s.modCap f).harrow = s.harrow := rfl
@[simp] theorem State.modCap_arr (f : Cap → Cap) : (s.modCap f).arr = s.arr := rfl
@[simp] theorem State.modCap_therm (f : Cap → Cap) : (s.modCap f).therm = s.therm := rfl
@[simp] theorem State.modCap_aux (f : Cap → Cap) : (s.modCap f).aux = s.aux := rfl
@[simp] theorem State.modCap_recog (f : Cap → Cap) : (s.modCap f).recog = s.recog := rfl
@[simp] theorem State.modCap_cap (f : Cap → Cap) : (s.modCap f).cap = f s.cap := rfl
@[simp] theorem State.modCap_scar (f : Cap → Cap) : (s.modCap f).scar = s.scar := rfl
@[simp] theorem State.modCap_spec (f : Cap → Cap) : (s.modCap f).spec = s.spec := rfl
@[simp] theorem State.modCap_smc (f : Cap → Cap) : (s.modCap f).smc = s.smc := rfl
@[simp] theorem State.modCap_buf (f : Cap → Cap) : (s.modCap f).buf = s.buf := rfl
@[simp] theorem State.modCap_int (f : Cap → Cap) : (s.modCap f).int = s.int := rfl
@[simp] theorem State.modCap_pwr (f : Cap → Cap) : (s.modCap f).pwr = s.pwr := rfl
@[simp] theorem State.modCap_host (f : Cap → Cap) : (s.modCap f).host = s.host := rfl
@[simp] theorem State.modCap_link (f : Cap → Cap) : (s.modCap f).link = s.link := rfl
@[simp] theorem State.modCap_mport (f : Cap → Cap) : (s.modCap f).mport = s.mport := rfl
@[simp] theorem State.modCap_mgmt (f : Cap → Cap) : (s.modCap f).mgmt = s.mgmt := rfl
@[simp] theorem State.modCap_pending (f : Cap → Cap) : (s.modCap f).pending = s.pending := rfl
@[simp] theorem State.modCap_fresh (f : Cap → Cap) : (s.modCap f).fresh = s.fresh := rfl

@[simp] theorem State.modScar_clk (f : Scar → Scar) : (s.modScar f).clk = s.clk := rfl
@[simp] theorem State.modScar_harrow (f : Scar → Scar) : (s.modScar f).harrow = s.harrow := rfl
@[simp] theorem State.modScar_arr (f : Scar → Scar) : (s.modScar f).arr = s.arr := rfl
@[simp] theorem State.modScar_therm (f : Scar → Scar) : (s.modScar f).therm = s.therm := rfl
@[simp] theorem State.modScar_aux (f : Scar → Scar) : (s.modScar f).aux = s.aux := rfl
@[simp] theorem State.modScar_recog (f : Scar → Scar) : (s.modScar f).recog = s.recog := rfl
@[simp] theorem State.modScar_cap (f : Scar → Scar) : (s.modScar f).cap = s.cap := rfl
@[simp] theorem State.modScar_scar (f : Scar → Scar) : (s.modScar f).scar = f s.scar := rfl
@[simp] theorem State.modScar_spec (f : Scar → Scar) : (s.modScar f).spec = s.spec := rfl
@[simp] theorem State.modScar_smc (f : Scar → Scar) : (s.modScar f).smc = s.smc := rfl
@[simp] theorem State.modScar_buf (f : Scar → Scar) : (s.modScar f).buf = s.buf := rfl
@[simp] theorem State.modScar_int (f : Scar → Scar) : (s.modScar f).int = s.int := rfl
@[simp] theorem State.modScar_pwr (f : Scar → Scar) : (s.modScar f).pwr = s.pwr := rfl
@[simp] theorem State.modScar_host (f : Scar → Scar) : (s.modScar f).host = s.host := rfl
@[simp] theorem State.modScar_link (f : Scar → Scar) : (s.modScar f).link = s.link := rfl
@[simp] theorem State.modScar_mport (f : Scar → Scar) : (s.modScar f).mport = s.mport := rfl
@[simp] theorem State.modScar_mgmt (f : Scar → Scar) : (s.modScar f).mgmt = s.mgmt := rfl
@[simp] theorem State.modScar_pending (f : Scar → Scar) : (s.modScar f).pending = s.pending := rfl
@[simp] theorem State.modScar_fresh (f : Scar → Scar) : (s.modScar f).fresh = s.fresh := rfl

@[simp] theorem State.modSpec_clk (f : Spec → Spec) : (s.modSpec f).clk = s.clk := rfl
@[simp] theorem State.modSpec_harrow (f : Spec → Spec) : (s.modSpec f).harrow = s.harrow := rfl
@[simp] theorem State.modSpec_arr (f : Spec → Spec) : (s.modSpec f).arr = s.arr := rfl
@[simp] theorem State.modSpec_therm (f : Spec → Spec) : (s.modSpec f).therm = s.therm := rfl
@[simp] theorem State.modSpec_aux (f : Spec → Spec) : (s.modSpec f).aux = s.aux := rfl
@[simp] theorem State.modSpec_recog (f : Spec → Spec) : (s.modSpec f).recog = s.recog := rfl
@[simp] theorem State.modSpec_cap (f : Spec → Spec) : (s.modSpec f).cap = s.cap := rfl
@[simp] theorem State.modSpec_scar (f : Spec → Spec) : (s.modSpec f).scar = s.scar := rfl
@[simp] theorem State.modSpec_spec (f : Spec → Spec) : (s.modSpec f).spec = f s.spec := rfl
@[simp] theorem State.modSpec_smc (f : Spec → Spec) : (s.modSpec f).smc = s.smc := rfl
@[simp] theorem State.modSpec_buf (f : Spec → Spec) : (s.modSpec f).buf = s.buf := rfl
@[simp] theorem State.modSpec_int (f : Spec → Spec) : (s.modSpec f).int = s.int := rfl
@[simp] theorem State.modSpec_pwr (f : Spec → Spec) : (s.modSpec f).pwr = s.pwr := rfl
@[simp] theorem State.modSpec_host (f : Spec → Spec) : (s.modSpec f).host = s.host := rfl
@[simp] theorem State.modSpec_link (f : Spec → Spec) : (s.modSpec f).link = s.link := rfl
@[simp] theorem State.modSpec_mport (f : Spec → Spec) : (s.modSpec f).mport = s.mport := rfl
@[simp] theorem State.modSpec_mgmt (f : Spec → Spec) : (s.modSpec f).mgmt = s.mgmt := rfl
@[simp] theorem State.modSpec_pending (f : Spec → Spec) : (s.modSpec f).pending = s.pending := rfl
@[simp] theorem State.modSpec_fresh (f : Spec → Spec) : (s.modSpec f).fresh = s.fresh := rfl

@[simp] theorem State.modSmc_clk (f : Smcs → Smcs) : (s.modSmc f).clk = s.clk := rfl
@[simp] theorem State.modSmc_harrow (f : Smcs → Smcs) : (s.modSmc f).harrow = s.harrow := rfl
@[simp] theorem State.modSmc_arr (f : Smcs → Smcs) : (s.modSmc f).arr = s.arr := rfl
@[simp] theorem State.modSmc_therm (f : Smcs → Smcs) : (s.modSmc f).therm = s.therm := rfl
@[simp] theorem State.modSmc_aux (f : Smcs → Smcs) : (s.modSmc f).aux = s.aux := rfl
@[simp] theorem State.modSmc_recog (f : Smcs → Smcs) : (s.modSmc f).recog = s.recog := rfl
@[simp] theorem State.modSmc_cap (f : Smcs → Smcs) : (s.modSmc f).cap = s.cap := rfl
@[simp] theorem State.modSmc_scar (f : Smcs → Smcs) : (s.modSmc f).scar = s.scar := rfl
@[simp] theorem State.modSmc_spec (f : Smcs → Smcs) : (s.modSmc f).spec = s.spec := rfl
@[simp] theorem State.modSmc_smc (f : Smcs → Smcs) : (s.modSmc f).smc = f s.smc := rfl
@[simp] theorem State.modSmc_buf (f : Smcs → Smcs) : (s.modSmc f).buf = s.buf := rfl
@[simp] theorem State.modSmc_int (f : Smcs → Smcs) : (s.modSmc f).int = s.int := rfl
@[simp] theorem State.modSmc_pwr (f : Smcs → Smcs) : (s.modSmc f).pwr = s.pwr := rfl
@[simp] theorem State.modSmc_host (f : Smcs → Smcs) : (s.modSmc f).host = s.host := rfl
@[simp] theorem State.modSmc_link (f : Smcs → Smcs) : (s.modSmc f).link = s.link := rfl
@[simp] theorem State.modSmc_mport (f : Smcs → Smcs) : (s.modSmc f).mport = s.mport := rfl
@[simp] theorem State.modSmc_mgmt (f : Smcs → Smcs) : (s.modSmc f).mgmt = s.mgmt := rfl
@[simp] theorem State.modSmc_pending (f : Smcs → Smcs) : (s.modSmc f).pending = s.pending := rfl
@[simp] theorem State.modSmc_fresh (f : Smcs → Smcs) : (s.modSmc f).fresh = s.fresh := rfl

@[simp] theorem State.modBuf_clk (f : Buf → Buf) : (s.modBuf f).clk = s.clk := rfl
@[simp] theorem State.modBuf_harrow (f : Buf → Buf) : (s.modBuf f).harrow = s.harrow := rfl
@[simp] theorem State.modBuf_arr (f : Buf → Buf) : (s.modBuf f).arr = s.arr := rfl
@[simp] theorem State.modBuf_therm (f : Buf → Buf) : (s.modBuf f).therm = s.therm := rfl
@[simp] theorem State.modBuf_aux (f : Buf → Buf) : (s.modBuf f).aux = s.aux := rfl
@[simp] theorem State.modBuf_recog (f : Buf → Buf) : (s.modBuf f).recog = s.recog := rfl
@[simp] theorem State.modBuf_cap (f : Buf → Buf) : (s.modBuf f).cap = s.cap := rfl
@[simp] theorem State.modBuf_scar (f : Buf → Buf) : (s.modBuf f).scar = s.scar := rfl
@[simp] theorem State.modBuf_spec (f : Buf → Buf) : (s.modBuf f).spec = s.spec := rfl
@[simp] theorem State.modBuf_smc (f : Buf → Buf) : (s.modBuf f).smc = s.smc := rfl
@[simp] theorem State.modBuf_buf (f : Buf → Buf) : (s.modBuf f).buf = f s.buf := rfl
@[simp] theorem State.modBuf_int (f : Buf → Buf) : (s.modBuf f).int = s.int := rfl
@[simp] theorem State.modBuf_pwr (f : Buf → Buf) : (s.modBuf f).pwr = s.pwr := rfl
@[simp] theorem State.modBuf_host (f : Buf → Buf) : (s.modBuf f).host = s.host := rfl
@[simp] theorem State.modBuf_link (f : Buf → Buf) : (s.modBuf f).link = s.link := rfl
@[simp] theorem State.modBuf_mport (f : Buf → Buf) : (s.modBuf f).mport = s.mport := rfl
@[simp] theorem State.modBuf_mgmt (f : Buf → Buf) : (s.modBuf f).mgmt = s.mgmt := rfl
@[simp] theorem State.modBuf_pending (f : Buf → Buf) : (s.modBuf f).pending = s.pending := rfl
@[simp] theorem State.modBuf_fresh (f : Buf → Buf) : (s.modBuf f).fresh = s.fresh := rfl

@[simp] theorem State.modInt_clk (f : Intc → Intc) : (s.modInt f).clk = s.clk := rfl
@[simp] theorem State.modInt_harrow (f : Intc → Intc) : (s.modInt f).harrow = s.harrow := rfl
@[simp] theorem State.modInt_arr (f : Intc → Intc) : (s.modInt f).arr = s.arr := rfl
@[simp] theorem State.modInt_therm (f : Intc → Intc) : (s.modInt f).therm = s.therm := rfl
@[simp] theorem State.modInt_aux (f : Intc → Intc) : (s.modInt f).aux = s.aux := rfl
@[simp] theorem State.modInt_recog (f : Intc → Intc) : (s.modInt f).recog = s.recog := rfl
@[simp] theorem State.modInt_cap (f : Intc → Intc) : (s.modInt f).cap = s.cap := rfl
@[simp] theorem State.modInt_scar (f : Intc → Intc) : (s.modInt f).scar = s.scar := rfl
@[simp] theorem State.modInt_spec (f : Intc → Intc) : (s.modInt f).spec = s.spec := rfl
@[simp] theorem State.modInt_smc (f : Intc → Intc) : (s.modInt f).smc = s.smc := rfl
@[simp] theorem State.modInt_buf (f : Intc → Intc) : (s.modInt f).buf = s.buf := rfl
@[simp] theorem State.modInt_int (f : Intc → Intc) : (s.modInt f).int = f s.int := rfl
@[simp] theorem State.modInt_pwr (f : Intc → Intc) : (s.modInt f).pwr = s.pwr := rfl
@[simp] theorem State.modInt_host (f : Intc → Intc) : (s.modInt f).host = s.host := rfl
@[simp] theorem State.modInt_link (f : Intc → Intc) : (s.modInt f).link = s.link := rfl
@[simp] theorem State.modInt_mport (f : Intc → Intc) : (s.modInt f).mport = s.mport := rfl
@[simp] theorem State.modInt_mgmt (f : Intc → Intc) : (s.modInt f).mgmt = s.mgmt := rfl
@[simp] theorem State.modInt_pending (f : Intc → Intc) : (s.modInt f).pending = s.pending := rfl
@[simp] theorem State.modInt_fresh (f : Intc → Intc) : (s.modInt f).fresh = s.fresh := rfl

@[simp] theorem State.modPwr_clk (f : Pwr → Pwr) : (s.modPwr f).clk = s.clk := rfl
@[simp] theorem State.modPwr_harrow (f : Pwr → Pwr) : (s.modPwr f).harrow = s.harrow := rfl
@[simp] theorem State.modPwr_arr (f : Pwr → Pwr) : (s.modPwr f).arr = s.arr := rfl
@[simp] theorem State.modPwr_therm (f : Pwr → Pwr) : (s.modPwr f).therm = s.therm := rfl
@[simp] theorem State.modPwr_aux (f : Pwr → Pwr) : (s.modPwr f).aux = s.aux := rfl
@[simp] theorem State.modPwr_recog (f : Pwr → Pwr) : (s.modPwr f).recog = s.recog := rfl
@[simp] theorem State.modPwr_cap (f : Pwr → Pwr) : (s.modPwr f).cap = s.cap := rfl
@[simp] theorem State.modPwr_scar (f : Pwr → Pwr) : (s.modPwr f).scar = s.scar := rfl
@[simp] theorem State.modPwr_spec (f : Pwr → Pwr) : (s.modPwr f).spec = s.spec := rfl
@[simp] theorem State.modPwr_smc (f : Pwr → Pwr) : (s.modPwr f).smc = s.smc := rfl
@[simp] theorem State.modPwr_buf (f : Pwr → Pwr) : (s.modPwr f).buf = s.buf := rfl
@[simp] theorem State.modPwr_int (f : Pwr → Pwr) : (s.modPwr f).int = s.int := rfl
@[simp] theorem State.modPwr_pwr (f : Pwr → Pwr) : (s.modPwr f).pwr = f s.pwr := rfl
@[simp] theorem State.modPwr_host (f : Pwr → Pwr) : (s.modPwr f).host = s.host := rfl
@[simp] theorem State.modPwr_link (f : Pwr → Pwr) : (s.modPwr f).link = s.link := rfl
@[simp] theorem State.modPwr_mport (f : Pwr → Pwr) : (s.modPwr f).mport = s.mport := rfl
@[simp] theorem State.modPwr_mgmt (f : Pwr → Pwr) : (s.modPwr f).mgmt = s.mgmt := rfl
@[simp] theorem State.modPwr_pending (f : Pwr → Pwr) : (s.modPwr f).pending = s.pending := rfl
@[simp] theorem State.modPwr_fresh (f : Pwr → Pwr) : (s.modPwr f).fresh = s.fresh := rfl

@[simp] theorem State.modHost_clk (f : HostIf → HostIf) : (s.modHost f).clk = s.clk := rfl
@[simp] theorem State.modHost_harrow (f : HostIf → HostIf) : (s.modHost f).harrow = s.harrow := rfl
@[simp] theorem State.modHost_arr (f : HostIf → HostIf) : (s.modHost f).arr = s.arr := rfl
@[simp] theorem State.modHost_therm (f : HostIf → HostIf) : (s.modHost f).therm = s.therm := rfl
@[simp] theorem State.modHost_aux (f : HostIf → HostIf) : (s.modHost f).aux = s.aux := rfl
@[simp] theorem State.modHost_recog (f : HostIf → HostIf) : (s.modHost f).recog = s.recog := rfl
@[simp] theorem State.modHost_cap (f : HostIf → HostIf) : (s.modHost f).cap = s.cap := rfl
@[simp] theorem State.modHost_scar (f : HostIf → HostIf) : (s.modHost f).scar = s.scar := rfl
@[simp] theorem State.modHost_spec (f : HostIf → HostIf) : (s.modHost f).spec = s.spec := rfl
@[simp] theorem State.modHost_smc (f : HostIf → HostIf) : (s.modHost f).smc = s.smc := rfl
@[simp] theorem State.modHost_buf (f : HostIf → HostIf) : (s.modHost f).buf = s.buf := rfl
@[simp] theorem State.modHost_int (f : HostIf → HostIf) : (s.modHost f).int = s.int := rfl
@[simp] theorem State.modHost_pwr (f : HostIf → HostIf) : (s.modHost f).pwr = s.pwr := rfl
@[simp] theorem State.modHost_host (f : HostIf → HostIf) : (s.modHost f).host = f s.host := rfl
@[simp] theorem State.modHost_link (f : HostIf → HostIf) : (s.modHost f).link = s.link := rfl
@[simp] theorem State.modHost_mport (f : HostIf → HostIf) : (s.modHost f).mport = s.mport := rfl
@[simp] theorem State.modHost_mgmt (f : HostIf → HostIf) : (s.modHost f).mgmt = s.mgmt := rfl
@[simp] theorem State.modHost_pending (f : HostIf → HostIf) : (s.modHost f).pending = s.pending := rfl
@[simp] theorem State.modHost_fresh (f : HostIf → HostIf) : (s.modHost f).fresh = s.fresh := rfl

@[simp] theorem State.modLink_clk (f : Link → Link) : (s.modLink f).clk = s.clk := rfl
@[simp] theorem State.modLink_harrow (f : Link → Link) : (s.modLink f).harrow = s.harrow := rfl
@[simp] theorem State.modLink_arr (f : Link → Link) : (s.modLink f).arr = s.arr := rfl
@[simp] theorem State.modLink_therm (f : Link → Link) : (s.modLink f).therm = s.therm := rfl
@[simp] theorem State.modLink_aux (f : Link → Link) : (s.modLink f).aux = s.aux := rfl
@[simp] theorem State.modLink_recog (f : Link → Link) : (s.modLink f).recog = s.recog := rfl
@[simp] theorem State.modLink_cap (f : Link → Link) : (s.modLink f).cap = s.cap := rfl
@[simp] theorem State.modLink_scar (f : Link → Link) : (s.modLink f).scar = s.scar := rfl
@[simp] theorem State.modLink_spec (f : Link → Link) : (s.modLink f).spec = s.spec := rfl
@[simp] theorem State.modLink_smc (f : Link → Link) : (s.modLink f).smc = s.smc := rfl
@[simp] theorem State.modLink_buf (f : Link → Link) : (s.modLink f).buf = s.buf := rfl
@[simp] theorem State.modLink_int (f : Link → Link) : (s.modLink f).int = s.int := rfl
@[simp] theorem State.modLink_pwr (f : Link → Link) : (s.modLink f).pwr = s.pwr := rfl
@[simp] theorem State.modLink_host (f : Link → Link) : (s.modLink f).host = s.host := rfl
@[simp] theorem State.modLink_link (f : Link → Link) : (s.modLink f).link = f s.link := rfl
@[simp] theorem State.modLink_mport (f : Link → Link) : (s.modLink f).mport = s.mport := rfl
@[simp] theorem State.modLink_mgmt (f : Link → Link) : (s.modLink f).mgmt = s.mgmt := rfl
@[simp] theorem State.modLink_pending (f : Link → Link) : (s.modLink f).pending = s.pending := rfl
@[simp] theorem State.modLink_fresh (f : Link → Link) : (s.modLink f).fresh = s.fresh := rfl

@[simp] theorem State.modMport_clk (f : Mport → Mport) : (s.modMport f).clk = s.clk := rfl
@[simp] theorem State.modMport_harrow (f : Mport → Mport) : (s.modMport f).harrow = s.harrow := rfl
@[simp] theorem State.modMport_arr (f : Mport → Mport) : (s.modMport f).arr = s.arr := rfl
@[simp] theorem State.modMport_therm (f : Mport → Mport) : (s.modMport f).therm = s.therm := rfl
@[simp] theorem State.modMport_aux (f : Mport → Mport) : (s.modMport f).aux = s.aux := rfl
@[simp] theorem State.modMport_recog (f : Mport → Mport) : (s.modMport f).recog = s.recog := rfl
@[simp] theorem State.modMport_cap (f : Mport → Mport) : (s.modMport f).cap = s.cap := rfl
@[simp] theorem State.modMport_scar (f : Mport → Mport) : (s.modMport f).scar = s.scar := rfl
@[simp] theorem State.modMport_spec (f : Mport → Mport) : (s.modMport f).spec = s.spec := rfl
@[simp] theorem State.modMport_smc (f : Mport → Mport) : (s.modMport f).smc = s.smc := rfl
@[simp] theorem State.modMport_buf (f : Mport → Mport) : (s.modMport f).buf = s.buf := rfl
@[simp] theorem State.modMport_int (f : Mport → Mport) : (s.modMport f).int = s.int := rfl
@[simp] theorem State.modMport_pwr (f : Mport → Mport) : (s.modMport f).pwr = s.pwr := rfl
@[simp] theorem State.modMport_host (f : Mport → Mport) : (s.modMport f).host = s.host := rfl
@[simp] theorem State.modMport_link (f : Mport → Mport) : (s.modMport f).link = s.link := rfl
@[simp] theorem State.modMport_mport (f : Mport → Mport) : (s.modMport f).mport = f s.mport := rfl
@[simp] theorem State.modMport_mgmt (f : Mport → Mport) : (s.modMport f).mgmt = s.mgmt := rfl
@[simp] theorem State.modMport_pending (f : Mport → Mport) : (s.modMport f).pending = s.pending := rfl
@[simp] theorem State.modMport_fresh (f : Mport → Mport) : (s.modMport f).fresh = s.fresh := rfl

@[simp] theorem State.modMgmt_clk (f : Mgmt → Mgmt) : (s.modMgmt f).clk = s.clk := rfl
@[simp] theorem State.modMgmt_harrow (f : Mgmt → Mgmt) : (s.modMgmt f).harrow = s.harrow := rfl
@[simp] theorem State.modMgmt_arr (f : Mgmt → Mgmt) : (s.modMgmt f).arr = s.arr := rfl
@[simp] theorem State.modMgmt_therm (f : Mgmt → Mgmt) : (s.modMgmt f).therm = s.therm := rfl
@[simp] theorem State.modMgmt_aux (f : Mgmt → Mgmt) : (s.modMgmt f).aux = s.aux := rfl
@[simp] theorem State.modMgmt_recog (f : Mgmt → Mgmt) : (s.modMgmt f).recog = s.recog := rfl
@[simp] theorem State.modMgmt_cap (f : Mgmt → Mgmt) : (s.modMgmt f).cap = s.cap := rfl
@[simp] theorem State.modMgmt_scar (f : Mgmt → Mgmt) : (s.modMgmt f).scar = s.scar := rfl
@[simp] theorem State.modMgmt_spec (f : Mgmt → Mgmt) : (s.modMgmt f).spec = s.spec := rfl
@[simp] theorem State.modMgmt_smc (f : Mgmt → Mgmt) : (s.modMgmt f).smc = s.smc := rfl
@[simp] theorem State.modMgmt_buf (f : Mgmt → Mgmt) : (s.modMgmt f).buf = s.buf := rfl
@[simp] theorem State.modMgmt_int (f : Mgmt → Mgmt) : (s.modMgmt f).int = s.int := rfl
@[simp] theorem State.modMgmt_pwr (f : Mgmt → Mgmt) : (s.modMgmt f).pwr = s.pwr := rfl
@[simp] theorem State.modMgmt_host (f : Mgmt → Mgmt) : (s.modMgmt f).host = s.host := rfl
@[simp] theorem State.modMgmt_link (f : Mgmt → Mgmt) : (s.modMgmt f).link = s.link := rfl
@[simp] theorem State.modMgmt_mport (f : Mgmt → Mgmt) : (s.modMgmt f).mport = s.mport := rfl
@[simp] theorem State.modMgmt_mgmt (f : Mgmt → Mgmt) : (s.modMgmt f).mgmt = f s.mgmt := rfl
@[simp] theorem State.modMgmt_pending (f : Mgmt → Mgmt) : (s.modMgmt f).pending = s.pending := rfl
@[simp] theorem State.modMgmt_fresh (f : Mgmt → Mgmt) : (s.modMgmt f).fresh = s.fresh := rfl

end Sys2Proof.Machine
end

