-- ==== Sys2Proof/Laws/Ops.lean ====
section
/-!
SUPPORT. What the operations of Machine/Ops.lean and Machine/Bits.lean do to single fields: domains, the log queue, STICKY.
-/

namespace Sys2Proof.Machine

open Sys2Proof

/-! ### Domains -/

theorem domIdx_inj {d e : Dom} : domIdx d = domIdx e ↔ d = e := by cases d <;> cases e <;> decide

/-- A domain after an update of one domain. -/
theorem State.dom_modDom (d e : Dom) (f : Domain → Domain) (s : State) :
    (s.modDom d f).dom e = if e = d then f (s.dom d) else s.dom e := by
  by_cases h : e = d
  · subst h
    simp [State.dom, State.modDom]
  · have h2 : (domIdx d).val ≠ (domIdx e).val := fun k => h (domIdx_inj.1 (Fin.ext k)).symm
    simp [State.dom, State.modDom, h, Vector.getElem_set_ne _ _ h2]

@[simp] theorem State.dom_modDom_self (d : Dom) (f : Domain → Domain) (s : State) : (s.modDom d f).dom d = f (s.dom d) := by
  simp [State.dom_modDom]

theorem State.dom_modDom_ne {d e : Dom} (h : e ≠ d) (f : Domain → Domain) (s : State) : (s.modDom d f).dom e = s.dom e := by
  simp [State.dom_modDom, h]

/-- Domains depend on the power part alone. -/
theorem State.dom_congr {s t : State} (h : t.pwr = s.pwr) (d : Dom) : t.dom d = s.dom d := by
  simp [State.dom, h]

/-! ### The log queue -/

/-- A record at a queue with room. -/
theorem State.log_logQ {s : State} (h : s.mgmt.logQ.length < 16) (cls code : BitVec 8) (d0 d1 d2 : Word) :
    (s.log cls code d0 d1 d2).mgmt.logQ = s.mgmt.logQ ++ [⟨0#32, s.clk.tsc, cls, code, !s.clk.epochValid, d0, d1, d2⟩] := by
  simp [State.log, h]

@[simp] theorem State.log_mgmt_code (cls code : BitVec 8) (d0 d1 d2 : Word) (s : State) :
    (s.log cls code d0 d1 d2).mgmt.code = s.mgmt.code := by
  unfold State.log; split <;> rfl

@[simp] theorem State.log_mgmt_args (cls code : BitVec 8) (d0 d1 d2 : Word) (s : State) :
    (s.log cls code d0 d1 d2).mgmt.args = s.mgmt.args := by
  unfold State.log; split <;> rfl

@[simp] theorem State.log_mgmt_ctr (cls code : BitVec 8) (d0 d1 d2 : Word) (s : State) :
    (s.log cls code d0 d1 d2).mgmt.ctr = s.mgmt.ctr := by
  unfold State.log; split <;> rfl

@[simp] theorem State.log_mgmt_tagLo (cls code : BitVec 8) (d0 d1 d2 : Word) (s : State) :
    (s.log cls code d0 d1 d2).mgmt.tagLo = s.mgmt.tagLo := by
  unfold State.log; split <;> rfl

@[simp] theorem State.log_mgmt_tagHi (cls code : BitVec 8) (d0 d1 d2 : Word) (s : State) :
    (s.log cls code d0 d1 d2).mgmt.tagHi = s.mgmt.tagHi := by
  unfold State.log; split <;> rfl

@[simp] theorem State.log_mgmt_zor (cls code : BitVec 8) (d0 d1 d2 : Word) (s : State) :
    (s.log cls code d0 d1 d2).mgmt.zor = s.mgmt.zor := by
  unfold State.log; split <;> rfl

@[simp] theorem State.log_mgmt_busy (cls code : BitVec 8) (d0 d1 d2 : Word) (s : State) :
    (s.log cls code d0 d1 d2).mgmt.busy = s.mgmt.busy := by
  unfold State.log; split <;> rfl

@[simp] theorem State.log_mgmt_doneEvt (cls code : BitVec 8) (d0 d1 d2 : Word) (s : State) :
    (s.log cls code d0 d1 d2).mgmt.doneEvt = s.mgmt.doneEvt := by
  unfold State.log; split <;> rfl

@[simp] theorem State.log_mgmt_rejEvt (cls code : BitVec 8) (d0 d1 d2 : Word) (s : State) :
    (s.log cls code d0 d1 d2).mgmt.rejEvt = s.mgmt.rejEvt := by
  unfold State.log; split <;> rfl

@[simp] theorem State.log_mgmt_argOvf (cls code : BitVec 8) (d0 d1 d2 : Word) (s : State) :
    (s.log cls code d0 d1 d2).mgmt.argOvf = s.mgmt.argOvf := by
  unfold State.log; split <;> rfl

@[simp] theorem State.log_mgmt_result (cls code : BitVec 8) (d0 d1 d2 : Word) (s : State) :
    (s.log cls code d0 d1 d2).mgmt.result = s.mgmt.result := by
  unfold State.log; split <;> rfl

@[simp] theorem State.log_mgmt_fails (cls code : BitVec 8) (d0 d1 d2 : Word) (s : State) :
    (s.log cls code d0 d1 d2).mgmt.fails = s.mgmt.fails := by
  unfold State.log; split <;> rfl

@[simp] theorem State.log_mgmt_inQ (cls code : BitVec 8) (d0 d1 d2 : Word) (s : State) :
    (s.log cls code d0 d1 d2).mgmt.inQ = s.mgmt.inQ := by
  unfold State.log; split <;> rfl

@[simp] theorem State.log_mgmt_outQ (cls code : BitVec 8) (d0 d1 d2 : Word) (s : State) :
    (s.log cls code d0 d1 d2).mgmt.outQ = s.mgmt.outQ := by
  unfold State.log; split <;> rfl

@[simp] theorem State.log_mgmt_replyEvt (cls code : BitVec 8) (d0 d1 d2 : Word) (s : State) :
    (s.log cls code d0 d1 d2).mgmt.replyEvt = s.mgmt.replyEvt := by
  unfold State.log; split <;> rfl

@[simp] theorem State.log_mgmt_alertEvt (cls code : BitVec 8) (d0 d1 d2 : Word) (s : State) :
    (s.log cls code d0 d1 d2).mgmt.alertEvt = s.mgmt.alertEvt := by
  unfold State.log; split <;> rfl

@[simp] theorem State.log_mgmt_lognfEvt (cls code : BitVec 8) (d0 d1 d2 : Word) (s : State) :
    (s.log cls code d0 d1 d2).mgmt.lognfEvt = s.mgmt.lognfEvt := by
  unfold State.log; split <;> rfl

@[simp] theorem State.log_mgmt_updEvt (cls code : BitVec 8) (d0 d1 d2 : Word) (s : State) :
    (s.log cls code d0 d1 d2).mgmt.updEvt = s.mgmt.updEvt := by
  unfold State.log; split <;> rfl

@[simp] theorem State.log_mgmt_inOvf (cls code : BitVec 8) (d0 d1 d2 : Word) (s : State) :
    (s.log cls code d0 d1 d2).mgmt.inOvf = s.mgmt.inOvf := by
  unfold State.log; split <;> rfl

@[simp] theorem State.log_mgmt_outUnder (cls code : BitVec 8) (d0 d1 d2 : Word) (s : State) :
    (s.log cls code d0 d1 d2).mgmt.outUnder = s.mgmt.outUnder := by
  unfold State.log; split <;> rfl

@[simp] theorem State.log_mgmt_req (cls code : BitVec 8) (d0 d1 d2 : Word) (s : State) :
    (s.log cls code d0 d1 d2).mgmt.req = s.mgmt.req := by
  unfold State.log; split <;> rfl

@[simp] theorem State.log_mgmt_reply (cls code : BitVec 8) (d0 d1 d2 : Word) (s : State) :
    (s.log cls code d0 d1 d2).mgmt.reply = s.mgmt.reply := by
  unfold State.log; split <;> rfl

@[simp] theorem State.log_mgmt_authCtr (cls code : BitVec 8) (d0 d1 d2 : Word) (s : State) :
    (s.log cls code d0 d1 d2).mgmt.authCtr = s.mgmt.authCtr := by
  unfold State.log; split <;> rfl

@[simp] theorem State.log_mgmt_key (cls code : BitVec 8) (d0 d1 d2 : Word) (s : State) :
    (s.log cls code d0 d1 d2).mgmt.key = s.mgmt.key := by
  unfold State.log; split <;> rfl

@[simp] theorem State.log_mgmt_keyGen (cls code : BitVec 8) (d0 d1 d2 : Word) (s : State) :
    (s.log cls code d0 d1 d2).mgmt.keyGen = s.mgmt.keyGen := by
  unfold State.log; split <;> rfl

@[simp] theorem State.log_mgmt_consec (cls code : BitVec 8) (d0 d1 d2 : Word) (s : State) :
    (s.log cls code d0 d1 d2).mgmt.consec = s.mgmt.consec := by
  unfold State.log; split <;> rfl

@[simp] theorem State.log_mgmt_lockStep (cls code : BitVec 8) (d0 d1 d2 : Word) (s : State) :
    (s.log cls code d0 d1 d2).mgmt.lockStep = s.mgmt.lockStep := by
  unfold State.log; split <;> rfl

@[simp] theorem State.log_mgmt_lockout (cls code : BitVec 8) (d0 d1 d2 : Word) (s : State) :
    (s.log cls code d0 d1 d2).mgmt.lockout = s.mgmt.lockout := by
  unfold State.log; split <;> rfl

@[simp] theorem State.log_mgmt_lockAt (cls code : BitVec 8) (d0 d1 d2 : Word) (s : State) :
    (s.log cls code d0 d1 d2).mgmt.lockAt = s.mgmt.lockAt := by
  unfold State.log; split <;> rfl

@[simp] theorem State.log_mgmt_lockLate (cls code : BitVec 8) (d0 d1 d2 : Word) (s : State) :
    (s.log cls code d0 d1 d2).mgmt.lockLate = s.mgmt.lockLate := by
  unfold State.log; split <;> rfl

@[simp] theorem State.log_mgmt_staged (cls code : BitVec 8) (d0 d1 d2 : Word) (s : State) :
    (s.log cls code d0 d1 d2).mgmt.staged = s.mgmt.staged := by
  unfold State.log; split <;> rfl

@[simp] theorem State.log_mgmt_restore (cls code : BitVec 8) (d0 d1 d2 : Word) (s : State) :
    (s.log cls code d0 d1 d2).mgmt.restore = s.mgmt.restore := by
  unfold State.log; split <;> rfl

@[simp] theorem State.log_mgmt_cfgA (cls code : BitVec 8) (d0 d1 d2 : Word) (s : State) :
    (s.log cls code d0 d1 d2).mgmt.cfgA = s.mgmt.cfgA := by
  unfold State.log; split <;> rfl

@[simp] theorem State.log_mgmt_cfgB (cls code : BitVec 8) (d0 d1 d2 : Word) (s : State) :
    (s.log cls code d0 d1 d2).mgmt.cfgB = s.mgmt.cfgB := by
  unfold State.log; split <;> rfl

@[simp] theorem State.log_mgmt_calStage (cls code : BitVec 8) (d0 d1 d2 : Word) (s : State) :
    (s.log cls code d0 d1 d2).mgmt.calStage = s.mgmt.calStage := by
  unfold State.log; split <;> rfl

@[simp] theorem State.log_mgmt_calAct (cls code : BitVec 8) (d0 d1 d2 : Word) (s : State) :
    (s.log cls code d0 d1 d2).mgmt.calAct = s.mgmt.calAct := by
  unfold State.log; split <;> rfl

@[simp] theorem State.log_mgmt_calOpen (cls code : BitVec 8) (d0 d1 d2 : Word) (s : State) :
    (s.log cls code d0 d1 d2).mgmt.calOpen = s.mgmt.calOpen := by
  unfold State.log; split <;> rfl

@[simp] theorem State.log_mgmt_calDenied (cls code : BitVec 8) (d0 d1 d2 : Word) (s : State) :
    (s.log cls code d0 d1 d2).mgmt.calDenied = s.mgmt.calDenied := by
  unfold State.log; split <;> rfl

@[simp] theorem State.log_mgmt_calOk (cls code : BitVec 8) (d0 d1 d2 : Word) (s : State) :
    (s.log cls code d0 d1 d2).mgmt.calOk = s.mgmt.calOk := by
  unfold State.log; split <;> rfl

@[simp] theorem State.log_mgmt_calChecked (cls code : BitVec 8) (d0 d1 d2 : Word) (s : State) :
    (s.log cls code d0 d1 d2).mgmt.calChecked = s.mgmt.calChecked := by
  unfold State.log; split <;> rfl

@[simp] theorem State.log_mgmt_sens (cls code : BitVec 8) (d0 d1 d2 : Word) (s : State) :
    (s.log cls code d0 d1 d2).mgmt.sens = s.mgmt.sens := by
  unfold State.log; split <;> rfl

@[simp] theorem State.log_mgmt_logOver (cls code : BitVec 8) (d0 d1 d2 : Word) (s : State) :
    (s.log cls code d0 d1 d2).mgmt.logOver = s.mgmt.logOver := by
  unfold State.log; split <;> rfl

@[simp] theorem State.log_mgmt_logNext (cls code : BitVec 8) (d0 d1 d2 : Word) (s : State) :
    (s.log cls code d0 d1 d2).mgmt.logNext = s.mgmt.logNext := by
  unfold State.log; split <;> rfl

@[simp] theorem State.log_mgmt_logRing (cls code : BitVec 8) (d0 d1 d2 : Word) (s : State) :
    (s.log cls code d0 d1 d2).mgmt.logRing = s.mgmt.logRing := by
  unfold State.log; split <;> rfl

@[simp] theorem State.log_mgmt_logAck (cls code : BitVec 8) (d0 d1 d2 : Word) (s : State) :
    (s.log cls code d0 d1 d2).mgmt.logAck = s.mgmt.logAck := by
  unfold State.log; split <;> rfl

@[simp] theorem State.log_mgmt_logSel (cls code : BitVec 8) (d0 d1 d2 : Word) (s : State) :
    (s.log cls code d0 d1 d2).mgmt.logSel = s.mgmt.logSel := by
  unfold State.log; split <;> rfl

@[simp] theorem State.log_mgmt_slotA (cls code : BitVec 8) (d0 d1 d2 : Word) (s : State) :
    (s.log cls code d0 d1 d2).mgmt.slotA = s.mgmt.slotA := by
  unfold State.log; split <;> rfl

@[simp] theorem State.log_mgmt_slotB (cls code : BitVec 8) (d0 d1 d2 : Word) (s : State) :
    (s.log cls code d0 d1 d2).mgmt.slotB = s.mgmt.slotB := by
  unfold State.log; split <;> rfl

@[simp] theorem State.log_mgmt_runSlot (cls code : BitVec 8) (d0 d1 d2 : Word) (s : State) :
    (s.log cls code d0 d1 d2).mgmt.runSlot = s.mgmt.runSlot := by
  unfold State.log; split <;> rfl

@[simp] theorem State.log_mgmt_aOk (cls code : BitVec 8) (d0 d1 d2 : Word) (s : State) :
    (s.log cls code d0 d1 d2).mgmt.aOk = s.mgmt.aOk := by
  unfold State.log; split <;> rfl

@[simp] theorem State.log_mgmt_bOk (cls code : BitVec 8) (d0 d1 d2 : Word) (s : State) :
    (s.log cls code d0 d1 d2).mgmt.bOk = s.mgmt.bOk := by
  unfold State.log; split <;> rfl

@[simp] theorem State.log_mgmt_fallback (cls code : BitVec 8) (d0 d1 d2 : Word) (s : State) :
    (s.log cls code d0 d1 d2).mgmt.fallback = s.mgmt.fallback := by
  unfold State.log; split <;> rfl

@[simp] theorem State.log_mgmt_upd (cls code : BitVec 8) (d0 d1 d2 : Word) (s : State) :
    (s.log cls code d0 d1 d2).mgmt.upd = s.mgmt.upd := by
  unfold State.log; split <;> rfl

@[simp] theorem State.log_mgmt_updPos (cls code : BitVec 8) (d0 d1 d2 : Word) (s : State) :
    (s.log cls code d0 d1 d2).mgmt.updPos = s.mgmt.updPos := by
  unfold State.log; split <;> rfl

@[simp] theorem State.log_mgmt_minVer (cls code : BitVec 8) (d0 d1 d2 : Word) (s : State) :
    (s.log cls code d0 d1 d2).mgmt.minVer = s.mgmt.minVer := by
  unfold State.log; split <;> rfl

@[simp] theorem State.log_mgmt_alert (cls code : BitVec 8) (d0 d1 d2 : Word) (s : State) :
    (s.log cls code d0 d1 d2).mgmt.alert = s.mgmt.alert := by
  unfold State.log; split <;> rfl

@[simp] theorem State.log_mgmt_spills (cls code : BitVec 8) (d0 d1 d2 : Word) (s : State) :
    (s.log cls code d0 d1 d2).mgmt.spills = s.mgmt.spills := by
  unfold State.log; split <;> rfl

@[simp] theorem State.log_mgmt_spillNext (cls code : BitVec 8) (d0 d1 d2 : Word) (s : State) :
    (s.log cls code d0 d1 d2).mgmt.spillNext = s.mgmt.spillNext := by
  unfold State.log; split <;> rfl

@[simp] theorem State.log_mgmt_pfail (cls code : BitVec 8) (d0 d1 d2 : Word) (s : State) :
    (s.log cls code d0 d1 d2).mgmt.pfail = s.mgmt.pfail := by
  unfold State.log; split <;> rfl

@[simp] theorem State.log_mgmt_flushMark (cls code : BitVec 8) (d0 d1 d2 : Word) (s : State) :
    (s.log cls code d0 d1 d2).mgmt.flushMark = s.mgmt.flushMark := by
  unfold State.log; split <;> rfl

@[simp] theorem State.log_mgmt_flushOk (cls code : BitVec 8) (d0 d1 d2 : Word) (s : State) :
    (s.log cls code d0 d1 d2).mgmt.flushOk = s.mgmt.flushOk := by
  unfold State.log; split <;> rfl

@[simp] theorem State.log_mgmt_rescue (cls code : BitVec 8) (d0 d1 d2 : Word) (s : State) :
    (s.log cls code d0 d1 d2).mgmt.rescue = s.mgmt.rescue := by
  unfold State.log; split <;> rfl

end Sys2Proof.Machine
end

