-- ==== Sys2Proof/Laws/Array.lean ====
section
/-!
SUPPORT. Units, clusters and rotations of the array after the updates of Machine/Array.lean, and what settling leaves alone.
-/

namespace Sys2Proof.Machine

open Sys2Proof

/-! ### They depend on the array part alone -/

theorem State.unit_congr {s t : State} (h : t.arr.units = s.arr.units) (u : Nat) : t.unit u = s.unit u := by
  simp [State.unit, h]

theorem State.cluster_congr {s t : State} (h : t.arr.cl = s.arr.cl) (i : Nat) : t.cluster i = s.cluster i := by
  simp [State.cluster, h]

theorem State.rotation_congr {s t : State} (h : t.arr.rot = s.arr.rot) (r : Nat) : t.rotation r = s.rotation r := by
  simp [State.rotation, h]

/-! ### One update -/

/-- A cluster after an update of one cluster. -/
theorem State.cluster_modCluster (i j : Nat) (f : Cluster → Cluster) (s : State) :
    (s.modCluster i f).cluster j = if i = j ∧ i < 39 then f (s.cluster j) else s.cluster j := by
  unfold State.modCluster State.cluster
  by_cases hj : j < 39
  · by_cases hi : i < 39
    · simp only [State.modArr_arr, hi, hj, dite_true, and_true]
      by_cases h : i = j
      · subst h; simp
      · simp [h, Vector.getElem_set_ne hi hj h]
    · simp [hi]
  · simp only [hj, dite_false]
    split
    · omega
    · rfl

@[simp] theorem State.cluster_modCluster_self {i : Nat} (h : i < 39) (f : Cluster → Cluster) (s : State) :
    (s.modCluster i f).cluster i = f (s.cluster i) := by
  simp [State.cluster_modCluster, h]

theorem State.cluster_modCluster_ne {i j : Nat} (h : i ≠ j) (f : Cluster → Cluster) (s : State) :
    (s.modCluster i f).cluster j = s.cluster j := by
  simp [State.cluster_modCluster, h]

@[simp] theorem State.modCluster_units (i : Nat) (f : Cluster → Cluster) (s : State) : (s.modCluster i f).arr.units = s.arr.units := by
  unfold State.modCluster; simp only [State.modArr_arr]; split <;> rfl

@[simp] theorem State.modCluster_rot (i : Nat) (f : Cluster → Cluster) (s : State) : (s.modCluster i f).arr.rot = s.arr.rot := by
  unfold State.modCluster; simp only [State.modArr_arr]; split <;> rfl

@[simp] theorem State.unit_modCluster (i u : Nat) (f : Cluster → Cluster) (s : State) : (s.modCluster i f).unit u = s.unit u :=
  State.unit_congr (by simp) u

@[simp] theorem State.rotation_modCluster (i r : Nat) (f : Cluster → Cluster) (s : State) :
    (s.modCluster i f).rotation r = s.rotation r :=
  State.rotation_congr (by simp) r

/-- A rotation after an update of one rotation. -/
theorem State.rotation_modRotation (r q : Nat) (f : Rotation → Rotation) (s : State) :
    (s.modRotation r f).rotation q = if r = q ∧ r < 6 then f (s.rotation q) else s.rotation q := by
  unfold State.modRotation State.rotation
  by_cases hj : q < 6
  · by_cases hi : r < 6
    · simp only [State.modArr_arr, hi, hj, dite_true, and_true]
      by_cases h : r = q
      · subst h; simp
      · simp [h, Vector.getElem_set_ne hi hj h]
    · simp [hi]
  · simp only [hj, dite_false]
    split
    · omega
    · rfl

@[simp] theorem State.rotation_modRotation_self {r : Nat} (h : r < 6) (f : Rotation → Rotation) (s : State) :
    (s.modRotation r f).rotation r = f (s.rotation r) := by
  simp [State.rotation_modRotation, h]

theorem State.rotation_modRotation_ne {r q : Nat} (h : r ≠ q) (f : Rotation → Rotation) (s : State) :
    (s.modRotation r f).rotation q = s.rotation q := by
  simp [State.rotation_modRotation, h]

@[simp] theorem State.modRotation_units (r : Nat) (f : Rotation → Rotation) (s : State) : (s.modRotation r f).arr.units = s.arr.units := by
  unfold State.modRotation; simp only [State.modArr_arr]; split <;> rfl

@[simp] theorem State.modRotation_cl (r : Nat) (f : Rotation → Rotation) (s : State) : (s.modRotation r f).arr.cl = s.arr.cl := by
  unfold State.modRotation; simp only [State.modArr_arr]; split <;> rfl

@[simp] theorem State.unit_modRotation (r u : Nat) (f : Rotation → Rotation) (s : State) : (s.modRotation r f).unit u = s.unit u :=
  State.unit_congr (by simp) u

@[simp] theorem State.cluster_modRotation (r i : Nat) (f : Rotation → Rotation) (s : State) :
    (s.modRotation r f).cluster i = s.cluster i :=
  State.cluster_congr (by simp) i

/-! ### Units -/

@[simp] theorem State.mapChanged_units (s : State) : s.mapChanged.arr.units = s.arr.units := by
  have h (x : State) : (x.demand .mc).arr = x.arr := by unfold State.demand; repeat' (first | rfl | split)
  unfold State.mapChanged; dsimp only; split <;> simp [h]

@[simp] theorem State.mapChanged_cl (s : State) : s.mapChanged.arr.cl = s.arr.cl := by
  have h (x : State) : (x.demand .mc).arr = x.arr := by unfold State.demand; repeat' (first | rfl | split)
  unfold State.mapChanged; dsimp only; split <;> simp [h]

@[simp] theorem State.mapChanged_rot (s : State) : s.mapChanged.arr.rot = s.arr.rot := by
  have h (x : State) : (x.demand .mc).arr = x.arr := by unfold State.demand; repeat' (first | rfl | split)
  unfold State.mapChanged; dsimp only; split <;> simp [h]

@[simp] theorem State.log_arr (cls code : BitVec 8) (d0 d1 d2 : Word) (s : State) : (s.log cls code d0 d1 d2).arr = s.arr := by
  unfold State.log; split <;> rfl

theorem State.setUnit_units (u : Nat) (quiet commit : Bool) (f : UnitHealth → UnitHealth) (s : State) :
    (s.setUnit u quiet commit f).arr.units = if h : u < 660 then s.arr.units.set u (f s.arr.units[u]) else s.arr.units := by
  by_cases h : u < 660 <;> cases commit <;> unfold State.setUnit <;> dsimp only <;> (repeat' split) <;> simp_all [State.unit]

/-- A unit after a change of one unit. -/
theorem State.unit_setUnit (u v : Nat) (quiet commit : Bool) (f : UnitHealth → UnitHealth) (s : State) :
    (s.setUnit u quiet commit f).unit v = if u = v ∧ u < 660 then f (s.unit v) else s.unit v := by
  unfold State.unit
  rw [State.setUnit_units]
  by_cases hv : v < 660
  · by_cases hu : u < 660
    · by_cases h : u = v
      · subst h; simp [hu]
      · simp [hu, hv, h, Vector.getElem_set_ne hu hv h]
    · simp [hu]
  · simp only [hv, dite_false]
    split
    · omega
    · rfl

@[simp] theorem State.unit_setUnit_self {u : Nat} (h : u < 660) (quiet commit : Bool) (f : UnitHealth → UnitHealth) (s : State) :
    (s.setUnit u quiet commit f).unit u = f (s.unit u) := by
  simp [State.unit_setUnit, h]

theorem State.unit_setUnit_ne {u v : Nat} (h : u ≠ v) (quiet commit : Bool) (f : UnitHealth → UnitHealth) (s : State) :
    (s.setUnit u quiet commit f).unit v = s.unit v := by
  simp [State.unit_setUnit, h]

@[simp] theorem State.setUnit_cl (u : Nat) (quiet commit : Bool) (f : UnitHealth → UnitHealth) (s : State) :
    (s.setUnit u quiet commit f).arr.cl = s.arr.cl := by
  by_cases h : u < 660 <;> cases commit <;> unfold State.setUnit <;> dsimp only <;> (repeat' split) <;> simp_all

@[simp] theorem State.setUnit_rot (u : Nat) (quiet commit : Bool) (f : UnitHealth → UnitHealth) (s : State) :
    (s.setUnit u quiet commit f).arr.rot = s.arr.rot := by
  by_cases h : u < 660 <;> cases commit <;> unfold State.setUnit <;> dsimp only <;> (repeat' split) <;> simp_all

@[simp] theorem State.cluster_setUnit (u i : Nat) (quiet commit : Bool) (f : UnitHealth → UnitHealth) (s : State) :
    (s.setUnit u quiet commit f).cluster i = s.cluster i :=
  State.cluster_congr (by simp) i

@[simp] theorem State.rotation_setUnit (u r : Nat) (quiet commit : Bool) (f : UnitHealth → UnitHealth) (s : State) :
    (s.setUnit u quiet commit f).rotation r = s.rotation r :=
  State.rotation_congr (by simp) r

/-! ### Settling -/

/-- Setting trims changes clusters alone. -/
theorem State.setTrim_arr (i : Nat) (was : Vector Rat 2) (s : State) :
    (s.setTrim i was).arr = { s.arr with cl := (s.setTrim i was).arr.cl } := by
  unfold State.setTrim State.modCluster
  dsimp only
  split <;> rfl

/-- Setting trims leaves each cluster as it was but for its gain trims (R98, R144). -/
theorem State.cluster_setTrim (i j : Nat) (was : Vector Rat 2) (s : State) :
    ((s.setTrim i was).cluster j).bare = (s.cluster j).bare := by
  unfold State.setTrim
  dsimp only
  rw [State.cluster_modCluster]
  split <;> rfl

/-- What every step of a fold keeps, the fold keeps. -/
theorem foldl_keeps {α β : Type} (P : α → Prop) {f : α → β → α} (h : ∀ a b, P a → P (f a b)) (l : List β) {a : α} (ha : P a) :
    P (l.foldl f a) := by
  induction l generalizing a with
  | nil => exact ha
  | cons b l ih => exact ih (h a b ha)

/-- The trims a command moves are parts of clusters. -/
theorem State.trimsAfter_arr (s t : State) : (State.trimsAfter s t).arr = { t.arr with cl := (State.trimsAfter s t).arr.cl } := by
  unfold State.trimsAfter
  refine foldl_keeps (fun u : State => u.arr = { t.arr with cl := u.arr.cl }) (fun u i h => ?_) _ rfl
  dsimp only
  split
  · rw [State.setTrim_arr, h]
  · split
    · rw [State.setTrim_arr, h]
    · exact h

theorem State.cluster_trimsAfter (s t : State) (j : Nat) : ((State.trimsAfter s t).cluster j).bare = (t.cluster j).bare := by
  unfold State.trimsAfter
  refine foldl_keeps (fun u : State => (u.cluster j).bare = (t.cluster j).bare) (fun u i h => ?_) _ rfl
  dsimp only
  split
  · rw [State.cluster_setTrim, h]
  · split
    · rw [State.cluster_setTrim, h]
    · exact h

/-- Settling writes the trims, log records and DEGR_EVT; the rest of the array stands. -/
theorem State.settleArray_arr (s t : State) :
    (State.settleArray s t).arr =
      { t.arr with cl := (State.trimsAfter s t).arr.cl, degrEvt := (State.settleArray s t).arr.degrEvt } := by
  have h (is : List Nat) (u : State) : (is.foldl (fun u i => u.log 0x04#8 0x02#8 (BitVec.ofNat 32 i) (t.clusterWord i) (s.clusterWord i)) u).arr = u.arr := by
    induction is generalizing u with
    | nil => rfl
    | cons i is ih => rw [List.foldl_cons, ih, State.log_arr]
  unfold State.settleArray
  dsimp only
  split
  · simp only [State.modArr_arr, h]
    rw [State.trimsAfter_arr]
  · rw [h, State.trimsAfter_arr]

@[simp] theorem State.settleArray_units (s t : State) : (State.settleArray s t).arr.units = t.arr.units := by
  rw [State.settleArray_arr]

@[simp] theorem State.settleArray_mapLoaded (s t : State) : (State.settleArray s t).arr.mapLoaded = t.arr.mapLoaded := by
  rw [State.settleArray_arr]

@[simp] theorem State.settleArray_mapA (s t : State) : (State.settleArray s t).arr.mapA = t.arr.mapA := by
  rw [State.settleArray_arr]

@[simp] theorem State.settleArray_mapB (s t : State) : (State.settleArray s t).arr.mapB = t.arr.mapB := by
  rw [State.settleArray_arr]

@[simp] theorem State.settleArray_dirtySince (s t : State) : (State.settleArray s t).arr.dirtySince = t.arr.dirtySince := by
  rw [State.settleArray_arr]

@[simp] theorem State.settleArray_rot (s t : State) : (State.settleArray s t).arr.rot = t.arr.rot := by
  rw [State.settleArray_arr]

@[simp] theorem State.settleArray_run (s t : State) : (State.settleArray s t).arr.run = t.arr.run := by
  rw [State.settleArray_arr]

@[simp] theorem State.settleArray_evtRot (s t : State) : (State.settleArray s t).arr.evtRot = t.arr.evtRot := by
  rw [State.settleArray_arr]

@[simp] theorem State.settleArray_gap (s t : State) : (State.settleArray s t).arr.gap = t.arr.gap := by
  rw [State.settleArray_arr]

@[simp] theorem State.settleArray_rotations (s t : State) : (State.settleArray s t).arr.rotations = t.arr.rotations := by
  rw [State.settleArray_arr]

@[simp] theorem State.settleArray_voids (s t : State) : (State.settleArray s t).arr.voids = t.arr.voids := by
  rw [State.settleArray_arr]

@[simp] theorem State.settleArray_dieA (s t : State) : (State.settleArray s t).arr.dieA = t.arr.dieA := by
  rw [State.settleArray_arr]

@[simp] theorem State.settleArray_dieG (s t : State) : (State.settleArray s t).arr.dieG = t.arr.dieG := by
  rw [State.settleArray_arr]

@[simp] theorem State.settleArray_unitEvt (s t : State) : (State.settleArray s t).arr.unitEvt = t.arr.unitEvt := by
  rw [State.settleArray_arr]

@[simp] theorem State.settleArray_tempEvt (s t : State) : (State.settleArray s t).arr.tempEvt = t.arr.tempEvt := by
  rw [State.settleArray_arr]

@[simp] theorem State.settleArray_cavEvt (s t : State) : (State.settleArray s t).arr.cavEvt = t.arr.cavEvt := by
  rw [State.settleArray_arr]

@[simp] theorem State.settleArray_clusterPwr (s t : State) : (State.settleArray s t).arr.clusterPwr = t.arr.clusterPwr := by
  rw [State.settleArray_arr]

@[simp] theorem State.unit_settleArray (s t : State) (u : Nat) : (State.settleArray s t).unit u = t.unit u :=
  State.unit_congr (by rw [State.settleArray_arr]) u

/-- Settling leaves each cluster as it was but for its gain trims. -/
@[simp] theorem State.cluster_settleArray (s t : State) (i : Nat) : ((State.settleArray s t).cluster i).bare = (t.cluster i).bare := by
  rw [State.cluster_congr (s := State.trimsAfter s t) (by rw [State.settleArray_arr]), State.cluster_trimsAfter]

@[simp] theorem State.rotation_settleArray (s t : State) (r : Nat) : (State.settleArray s t).rotation r = t.rotation r :=
  State.rotation_congr (by rw [State.settleArray_arr]) r

@[simp] theorem State.unit_arbitrate (s t : State) (u : Nat) : (State.arbitrate s t).unit u = t.unit u :=
  State.unit_congr (by simp) u

@[simp] theorem State.cluster_arbitrate (s t : State) (i : Nat) : (State.arbitrate s t).cluster i = t.cluster i :=
  State.cluster_congr (by simp) i

@[simp] theorem State.rotation_arbitrate (s t : State) (r : Nat) : (State.arbitrate s t).rotation r = t.rotation r :=
  State.rotation_congr (by simp) r

end Sys2Proof.Machine
end

