-- ==== Sys2Proof/Laws/Auth.lean ====
section
/-!
SUPPORT. Words and checks: a 64-bit quantity from its own two words, the CRC word of a link block, the tag of a command.
-/

namespace Sys2Proof.Machine

open Sys2Proof

/-- A 64-bit quantity is joined from its own two words. -/
@[simp] theorem joinWords_words (t : Tick) : joinWords (lowWord t) (highWord t) = t := by
  apply BitVec.eq_of_getLsbD_eq
  intro i hi
  simp only [joinWords, lowWord, highWord, BitVec.getLsbD_or, BitVec.getLsbD_shiftLeft, BitVec.getLsbD_setWidth,
    BitVec.getLsbD_ushiftRight]
  by_cases h : i < 32
  · simp [h, hi]
  · have h1 : i - 32 < 32 := by omega
    have h2 : 32 + (i - 32) = i := by omega
    simp [h, hi, h1, h2, show i - 32 < 64 by omega]

/-- The low 16 bits of a 16-bit field placed at bit 0 are the field. -/
theorem bits_fld16 (x : BitVec 16) : bits (fld x 0) 0 16 = x := by
  apply BitVec.eq_of_getLsbD_eq
  intro i hi
  simp only [bits, fld, BitVec.getLsbD_setWidth, BitVec.getLsbD_ushiftRight, BitVec.getLsbD_shiftLeft]
  simp [hi, show i < 32 by omega]

/-- A CRC word made by the rule of the link checks. -/
theorem crcOk_self (l : List Word) : crcOk l (fld (crc16 l) 0) = true := by simp [crcOk, bits_fld16]

/-- A tag has two words: the HMAC has more. -/
theorem Mgmt.tag_two (m : Mgmt) : ∃ x y, m.tag = [x, y] := ⟨_, _, rfl⟩

/-- The tag of a command does not depend on what stands in the tag registers, so its own words match. -/
theorem Mgmt.tagOk_self (m : Mgmt) : Mgmt.tagOk { m with tagHi := m.tag.getD 0 0#32, tagLo := m.tag.getD 1 0#32 } = true := by
  obtain ⟨x, y, h⟩ := m.tag_two
  have h2 : Mgmt.tag { m with tagHi := m.tag.getD 0 0#32, tagLo := m.tag.getD 1 0#32 } = m.tag := rfl
  simp only [Mgmt.tagOk, h2]
  rw [h]
  simp

end Sys2Proof.Machine
end

