-- ==== Sys2Proof/Laws/Frames.lean ====
section
/-!
SUPPORT. For every shared operation the parts of the state it may change: with those parts blanked, the state after it is the
state before it.
-/

namespace Sys2Proof.Machine

open Sys2Proof

set_option Elab.async false

variable {ps : List Part}

@[simp] theorem State.mask_modClk (h : Part.clk ∈ ps) (f : Clk → Clk) (s : State) : (s.modClk f).mask ps = s.mask ps := by
  simp [State.mask, h]

@[simp] theorem State.mask_modHarrow (h : Part.harrow ∈ ps) (f : Harrow → Harrow) (s : State) :
    (s.modHarrow f).mask ps = s.mask ps := by
  simp [State.mask, h]

@[simp] theorem State.mask_modArr (h : Part.arr ∈ ps) (f : Arr → Arr) (s : State) : (s.modArr f).mask ps = s.mask ps := by
  simp [State.mask, h]

@[simp] theorem State.mask_modTherm (h : Part.therm ∈ ps) (f : Therm → Therm) (s : State) :
    (s.modTherm f).mask ps = s.mask ps := by
  simp [State.mask, h]

@[simp] theorem State.mask_modAux (h : Part.aux ∈ ps) (f : Aux → Aux) (s : State) : (s.modAux f).mask ps = s.mask ps := by
  simp [State.mask, h]

@[simp] theorem State.mask_modRecog (h : Part.recog ∈ ps) (f : Rec → Rec) (s : State) : (s.modRecog f).mask ps = s.mask ps := by
  simp [State.mask, h]

@[simp] theorem State.mask_modCap (h : Part.cap ∈ ps) (f : Cap → Cap) (s : State) : (s.modCap f).mask ps = s.mask ps := by
  simp [State.mask, h]

@[simp] theorem State.mask_modScar (h : Part.scar ∈ ps) (f : Scar → Scar) (s : State) : (s.modScar f).mask ps = s.mask ps := by
  simp [State.mask, h]

@[simp] theorem State.mask_modSpec (h : Part.spec ∈ ps) (f : Spec → Spec) (s : State) : (s.modSpec f).mask ps = s.mask ps := by
  simp [State.mask, h]

@[simp] theorem State.mask_modSmc (h : Part.smc ∈ ps) (f : Smcs → Smcs) (s : State) : (s.modSmc f).mask ps = s.mask ps := by
  simp [State.mask, h]

@[simp] theorem State.mask_modBuf (h : Part.buf ∈ ps) (f : Buf → Buf) (s : State) : (s.modBuf f).mask ps = s.mask ps := by
  simp [State.mask, h]

@[simp] theorem State.mask_modInt (h : Part.int ∈ ps) (f : Intc → Intc) (s : State) : (s.modInt f).mask ps = s.mask ps := by
  simp [State.mask, h]

@[simp] theorem State.mask_modPwr (h : Part.pwr ∈ ps) (f : Pwr → Pwr) (s : State) : (s.modPwr f).mask ps = s.mask ps := by
  simp [State.mask, h]

@[simp] theorem State.mask_modHost (h : Part.host ∈ ps) (f : HostIf → HostIf) (s : State) :
    (s.modHost f).mask ps = s.mask ps := by
  simp [State.mask, h]

@[simp] theorem State.mask_modLink (h : Part.link ∈ ps) (f : Link → Link) (s : State) : (s.modLink f).mask ps = s.mask ps := by
  simp [State.mask, h]

@[simp] theorem State.mask_modMport (h : Part.mport ∈ ps) (f : Mport → Mport) (s : State) :
    (s.modMport f).mask ps = s.mask ps := by
  simp [State.mask, h]

@[simp] theorem State.mask_modMgmt (h : Part.mgmt ∈ ps) (f : Mgmt → Mgmt) (s : State) : (s.modMgmt f).mask ps = s.mask ps := by
  simp [State.mask, h]

@[simp] theorem State.mask_withFresh (h : Part.fresh ∈ ps) (n : Nat)
    (s : State) : State.mask ps { s with fresh := n } = s.mask ps := by
  simp [State.mask, h]

@[simp] theorem State.mask_ite (c : Prop) [Decidable c] (a b : State) :
    (if c then a else b).mask ps = if c then a.mask ps else b.mask ps := apply_ite _ _ _ _

theorem State.mask_foldUpto (f : State → Nat → State) (h : ∀ t k, (f t k).mask ps = t.mask ps) (s : State) (n : Nat) :
    (foldUpto f s n).mask ps = s.mask ps := by
  induction n with
  | zero => rfl
  | succ n ih => rw [foldUpto, h, ih]

theorem State.mask_foldl {α : Type} (f : State → α → State) (h : ∀ t a, (f t a).mask ps = t.mask ps) (s : State) (as : List α) :
    (as.foldl f s).mask ps = s.mask ps := by
  induction as generalizing s with
  | nil => rfl
  | cons a as ih => rw [List.foldl_cons, ih, h]

/-! ### Machine/Bits.lean -/

@[simp] theorem State.mask_modDom (h0 : Part.pwr ∈ ps) (d : Dom) (g : Domain → Domain) (s : State) :
    (State.modDom d g s).mask ps = s.mask ps := by
  simp [State.modDom, *]

@[simp] theorem State.mask_stick (h0 : Part.host ∈ ps) (k : Nat) (s : State) :
    (State.stick k s).mask ps = s.mask ps := by
  simp [State.stick, *]

/-! ### Machine/Ops.lean -/

@[simp] theorem State.mask_markQuality (h0 : Part.clk ∈ ps) (s t : State) :
    (State.markQuality s t).mask ps = t.mask ps := by
  simp [State.markQuality, *]

@[simp] theorem State.mask_arbitrate (h0 : Part.int ∈ ps) (before after : State) :
    (State.arbitrate before after).mask ps = after.mask ps := by
  simp [State.arbitrate, *]

@[simp] theorem State.mask_log (h0 : Part.mgmt ∈ ps) (cls code : BitVec 8) (d0 d1 d2 : Word) (s : State) :
    (State.log cls code d0 d1 d2 s).mask ps = s.mask ps := by
  simp [State.log, *]

@[simp] theorem State.mask_coreError (h0 : Part.mgmt ∈ ps) (addr : Word) (s : State) :
    (State.coreError addr s).mask ps = s.mask ps := by
  simp [State.coreError, h0]

@[simp] theorem State.mask_raiseAlert (h0 : Part.mgmt ∈ ps) (code : BitVec 8) (s : State) :
    (State.raiseAlert code s).mask ps = s.mask ps := by
  simp [State.raiseAlert, *]

@[simp] theorem State.mask_demand (h0 : Part.pwr ∈ ps) (d : Dom) (s : State) :
    (State.demand d s).mask ps = s.mask ps := by
  unfold State.demand
  (repeat' split) <;> simp [*]

@[simp] theorem State.mask_touch (h0 : Part.pwr ∈ ps) (d : Dom) (s : State) :
    (State.touch d s).mask ps = s.mask ps := by
  simp [State.touch, h0]

@[simp] theorem State.mask_samplePins (h0 : Part.host ∈ ps) (s : State) :
    (State.samplePins s).mask ps = s.mask ps := by
  simp [State.samplePins, h0]

@[simp] theorem State.mask_wakeRec (h0 : Part.pwr ∈ ps) (h1 : Part.mgmt ∈ ps) (src det : BitVec 8) (s : State) :
    (State.wakeRec src det s).mask ps = s.mask ps := by
  unfold State.wakeRec
  lift_lets
  intro t
  have e1 : State.mask ps t = s.mask ps := by subst t; simp [*]
  clear_value t
  simp [*]

@[simp] theorem State.mask_scarWake (h0 : Part.pwr ∈ ps) (h1 : Part.mgmt ∈ ps) (s : State) :
    (State.scarWake s).mask ps = s.mask ps := by
  unfold State.scarWake
  lift_lets
  intro t
  have e1 : State.mask ps t = s.mask ps := by subst t; simp [*]
  clear_value t
  simp [*]

/-! ### Machine/Paths.lean -/

@[simp] theorem State.mask_modGroup (h0 : Part.buf ∈ ps) (g : Group) (f : Grp → Grp) (s : State) :
    (State.modGroup g f s).mask ps = s.mask ps := by
  unfold State.modGroup
  (repeat' split) <;> simp [*]

@[simp] theorem State.mask_modChan (h0 : Part.harrow ∈ ps) (ch : Nat) (f : Chan → Chan) (s : State) :
    (State.modChan ch f s).mask ps = s.mask ps := by
  simp [State.modChan, *]

@[simp] theorem State.mask_mapChans (h0 : Part.harrow ∈ ps) (f : Nat → Chan → Chan) (s : State) :
    (State.mapChans f s).mask ps = s.mask ps := by
  simp [State.mapChans, *]

@[simp] theorem State.mask_modNext (h0 : Part.harrow ∈ ps) (k : PathKind) (f : Tick → Tick) (s : State) :
    (State.modNext k f s).mask ps = s.mask ps := by
  unfold State.modNext
  (repeat' split) <;> simp [h0]

@[simp] theorem State.mask_startGrid (h0 : Part.harrow ∈ ps) (k : PathKind) (s : State) :
    (State.startGrid k s).mask ps = s.mask ps := by
  unfold State.startGrid
  lift_lets
  intro t u
  clear_value t u
  simp [*]

@[simp] theorem State.mask_catchUp (h0 : Part.harrow ∈ ps) (k : PathKind) (s : State) :
    (State.catchUp k s).mask ps = s.mask ps := by
  unfold State.catchUp
  lift_lets
  intro t
  clear_value t
  simp [*]

@[simp] theorem State.mask_restartFrom (h0 : Part.harrow ∈ ps) (at_ : Nat → Tick) (k : PathKind) (set : BitVec 24)
    (rephase : Bool) (s : State) :
    (State.restartFrom at_ k set rephase s).mask ps = s.mask ps := by
  simp [State.restartFrom, *]

@[simp] theorem State.mask_restart (h0 : Part.harrow ∈ ps) (k : PathKind) (set : BitVec 24) (rephase : Bool) (s : State) :
    (State.restart k set rephase s).mask ps = s.mask ps := by
  simp [State.restart, *]

@[simp] theorem State.mask_restartAll (h0 : Part.harrow ∈ ps) (set : BitVec 24) (s : State) :
    (State.restartAll set s).mask ps = s.mask ps := by
  simp [State.restartAll, *]

@[simp] theorem State.mask_restartAllFrom (h0 : Part.harrow ∈ ps) (at_ : Nat → Tick) (set : BitVec 24) (s : State) :
    (State.restartAllFrom at_ set s).mask ps = s.mask ps := by
  simp [State.restartAllFrom, *]

@[simp] theorem State.mask_refreshKind (h0 : Part.harrow ∈ ps) (k : PathKind) (s : State) :
    (State.refreshKind k s).mask ps = s.mask ps := by
  unfold State.refreshKind
  lift_lets
  intro t u v w
  clear_value t u v w
  intro x
  have e1 : State.mask ps x = s.mask ps := by subst x; simp [*]
  clear_value x
  simp [*]

@[simp] theorem State.mask_refreshPaths (h0 : Part.harrow ∈ ps) (s : State) :
    (State.refreshPaths s).mask ps = s.mask ps := by
  simp [State.refreshPaths, *]

@[simp] theorem State.mask_oweTime (h0 : Part.buf ∈ ps) (g : Group) (since : Option Tick) (s : State) :
    (State.oweTime g since s).mask ps = s.mask ps := by
  unfold State.oweTime
  (repeat' split) <;> simp [*]

@[simp] theorem State.mask_oweStep (h0 : Part.buf ∈ ps) (s : State) :
    (State.oweStep s).mask ps = s.mask ps := by
  simp [State.oweStep, *]

@[simp] theorem State.mask_oweTimes (h0 : Part.buf ∈ ps) (since : Option Tick) (s : State) :
    (State.oweTimes since s).mask ps = s.mask ps := by
  simp [State.oweTimes, *]

@[simp] theorem State.mask_rephaseKind (h0 : Part.harrow ∈ ps) (h1 : Part.buf ∈ ps) (k : PathKind) (s : State) :
    (State.rephaseKind k s).mask ps = s.mask ps := by
  unfold State.rephaseKind
  lift_lets
  intro t
  have e1 : State.mask ps t = s.mask ps := by subst t; simp [*]
  clear_value t
  (repeat' split) <;> simp [*]

@[simp] theorem State.mask_rephase (h0 : Part.harrow ∈ ps) (h1 : Part.buf ∈ ps) (p : PathKind → Bool) (s : State) :
    (State.rephase p s).mask ps = s.mask ps := by
  unfold State.rephase
  rw [State.mask_foldl]
  intro t k
  simp [h0, h1]

/-! ### Machine/Scan.lean -/

@[simp] theorem State.mask_modConv (h0 : Part.aux ∈ ps) (c : Fin 4) (f : Conv → Conv) (s : State) :
    (State.modConv c f s).mask ps = s.mask ps := by
  simp [State.modConv, *]

@[simp] theorem State.mask_suppressSlots (h0 : Part.harrow ∈ ps) (h1 : Part.aux ∈ ps) (c : Fin 4) (p : Nat → Bool) (t : Tick)
    (s : State) :
    (State.suppressSlots c p t s).mask ps = s.mask ps := by
  simp [State.suppressSlots, *]

@[simp] theorem State.mask_suppressConv (h0 : Part.harrow ∈ ps) (h1 : Part.aux ∈ ps) (c : Fin 4) (t : Tick) (s : State) :
    (State.suppressConv c t s).mask ps = s.mask ps := by
  simp [State.suppressConv, *]

@[simp] theorem State.mask_unsettle (h0 : Part.harrow ∈ ps) (h1 : Part.aux ∈ ps) (c : Fin 4) (p : Nat → Bool) (t : Tick)
    (s : State) :
    (State.unsettle c p t s).mask ps = s.mask ps := by
  simp [State.unsettle, *]

/-! ### Machine/Capture.lean -/

@[simp] theorem State.mask_recordSample (h0 : Part.cap ∈ ps) (t : Tick) (grains : Vector Grain 24) (flags : BitVec 3)
    (s : State) :
    (State.recordSample t grains flags s).mask ps = s.mask ps := by
  unfold State.recordSample
  (repeat' split) <;> simp [*]

@[simp] theorem State.mask_missTrigger (h0 : Part.cap ∈ ps) (s : State) :
    (State.missTrigger s).mask ps = s.mask ps := by
  simp [State.missTrigger, *]

@[simp] theorem State.mask_trigger (h0 : Part.cap ∈ ps) (source : BitVec 8) (at_ : Tick) (came : Tick) (r8 r9 : Word)
    (s : State) :
    (State.trigger source at_ came r8 r9 s).mask ps = s.mask ps := by
  unfold State.trigger
  (repeat' split) <;> simp [h0]

@[simp] theorem State.mask_recogTrigger (h0 : Part.cap ∈ ps) (source : BitVec 8) (at_ : Tick) (came : Tick) (r8 r9 : Word)
    (s : State) :
    (State.recogTrigger source at_ came r8 r9 s).mask ps = s.mask ps := by
  simp [State.recogTrigger, *]

@[simp] theorem State.mask_completeCapture (h0 : Part.cap ∈ ps) (h1 : Part.fresh ∈ ps) (aborted : Bool) (s : State) :
    (State.completeCapture aborted s).mask ps = s.mask ps := by
  unfold State.completeCapture
  split
  · rfl
  · split
    · rfl
    · simp [State.mask, h0, h1]

@[simp] theorem State.mask_abortCapture (h0 : Part.cap ∈ ps) (h1 : Part.fresh ∈ ps) (s : State) :
    (State.abortCapture s).mask ps = s.mask ps := by
  unfold State.abortCapture
  (repeat' split) <;> simp [*]

@[simp] theorem State.mask_capRateChange (h0 : Part.cap ∈ ps) (h1 : Part.fresh ∈ ps) (s : State) :
    (State.capRateChange s).mask ps = s.mask ps := by
  unfold State.capRateChange
  (repeat' split) <;> simp [*]

@[simp] theorem State.mask_releaseSlot (h0 : Part.cap ∈ ps) (k : Nat) (s : State) :
    (State.releaseSlot k s).mask ps = s.mask ps := by
  unfold State.releaseSlot
  lift_lets
  intro t
  clear_value t
  simp [*]

@[simp] theorem State.mask_writeCapCtrl (h0 : Part.cap ∈ ps) (h1 : Part.fresh ∈ ps) (w : Word) (s : State) :
    (State.writeCapCtrl w s).mask ps = s.mask ps := by
  simp [State.writeCapCtrl, *]

/-! ### Machine/Spectral.lean -/

@[simp] theorem State.mask_specRun (h0 : Part.spec ∈ ps) (s : State) :
    (State.specRun s).mask ps = s.mask ps := by
  simp [State.specRun, *]

@[simp] theorem State.mask_specCapGo (h0 : Part.spec ∈ ps) (h1 : Part.pwr ∈ ps) (s : State) :
    (State.specCapGo s).mask ps = s.mask ps := by
  simp [State.specCapGo, *]

@[simp] theorem State.mask_writeSpecCtrl (h0 : Part.harrow ∈ ps) (h1 : Part.spec ∈ ps) (h2 : Part.pwr ∈ ps) (w : Word)
    (s : State) :
    (State.writeSpecCtrl w s).mask ps = s.mask ps := by
  simp [State.writeSpecCtrl, *]

@[simp] theorem State.mask_writeSpecStat (h0 : Part.spec ∈ ps) (w : Word) (s : State) :
    (State.writeSpecStat w s).mask ps = s.mask ps := by
  simp [State.writeSpecStat, *]

/-! ### Machine/Stream.lean -/

@[simp] theorem State.mask_threshEdge (h0 : Part.buf ∈ ps) (s t : State) :
    (State.threshEdge s t).mask ps = t.mask ps := by
  simp [State.threshEdge, *]

@[simp] theorem State.mask_publish (h0 : Part.buf ∈ ps) (ws : List BufWord) (s : State) :
    (State.publish ws s).mask ps = s.mask ps := by
  simp [State.publish, *]

@[simp] theorem State.mask_dropFrames (h0 : Part.buf ∈ ps) (off : Bool) (n : Nat) (s : State) :
    (State.dropFrames off n s).mask ps = s.mask ps := by
  simp [State.dropFrames, *]

@[simp] theorem State.mask_placeUnit (h0 : Part.buf ∈ ps) (h1 : Part.pwr ∈ ps) (own : List Frame) (lost : Nat) (s : State) :
    (State.placeUnit own lost s).1.mask ps = s.mask ps := by
  unfold State.placeUnit
  dsimp only
  (repeat' split) <;> simp [*]

@[simp] theorem State.mask_setOuts (h0 : Part.harrow ∈ ps) (g : Group) (l : List GroupOut) (s : State) :
    (State.setOuts g l s).mask ps = s.mask ps := by
  unfold State.setOuts
  (repeat' split) <;> simp [*]

@[simp] theorem State.mask_placeData (h0 : Part.harrow ∈ ps) (h1 : Part.buf ∈ ps) (h2 : Part.pwr ∈ ps) (g : Group) (s : State) :
    (State.placeData g s).mask ps = s.mask ps := by
  unfold State.placeData
  (repeat' split) <;> simp [*]

@[simp] theorem State.mask_placeEvent (h0 : Part.buf ∈ ps) (h1 : Part.pwr ∈ ps) (s : State) :
    (State.placeEvent s).mask ps = s.mask ps := by
  unfold State.placeEvent
  (repeat' split) <;> simp [*]

@[simp] theorem State.mask_placeFill (h0 : Part.buf ∈ ps) (h1 : Part.pwr ∈ ps) (s : State) :
    (State.placeFill s).mask ps = s.mask ps := by
  unfold State.placeFill
  (repeat' split) <;> simp [*]

@[simp] theorem State.mask_placeReady (h0 : Part.harrow ∈ ps) (h1 : Part.buf ∈ ps) (h2 : Part.pwr ∈ ps) (s : State) :
    (State.placeReady s).mask ps = s.mask ps := by
  unfold State.placeReady
  rw [State.mask_foldUpto]
  intro t k
  simp [h0, h1, h2]

@[simp] theorem State.mask_startWriter (h0 : Part.harrow ∈ ps) (h1 : Part.buf ∈ ps) (h2 : Part.pwr ∈ ps) (s : State) :
    (State.startWriter s).mask ps = s.mask ps := by
  simp [State.startWriter, *]

@[simp] theorem State.mask_stopWriter (h0 : Part.harrow ∈ ps) (h1 : Part.buf ∈ ps) (s : State) :
    (State.stopWriter s).mask ps = s.mask ps := by
  simp [State.stopWriter, *]

@[simp] theorem State.mask_refreshWriter (h0 : Part.harrow ∈ ps) (h1 : Part.buf ∈ ps) (h2 : Part.pwr ∈ ps) (s : State) :
    (State.refreshWriter s).mask ps = s.mask ps := by
  simp [State.refreshWriter, *]

@[simp] theorem State.mask_refresh (h0 : Part.harrow ∈ ps) (h1 : Part.buf ∈ ps) (h2 : Part.pwr ∈ ps) (s : State) :
    (State.refresh s).mask ps = s.mask ps := by
  simp [State.refresh, *]

@[simp] theorem State.mask_dropUnit (h0 : Part.harrow ∈ ps) (h1 : Part.buf ∈ ps) (u : FrameUnit) (s : State) :
    (State.dropUnit u s).mask ps = s.mask ps := by
  cases u <;> simp [State.dropUnit, *]

@[simp] theorem State.mask_gapsWritten (h0 : Part.buf ∈ ps) (n : Nat) (s : State) :
    (State.gapsWritten n s).mask ps = s.mask ps := by
  simp [State.gapsWritten, *]

@[simp] theorem State.mask_cutItem (h0 : Part.harrow ∈ ps) (h1 : Part.buf ∈ ps) (h2 : Part.fresh ∈ ps) (s : State) :
    (State.cutItem s).1.mask ps = s.mask ps := by
  unfold State.cutItem
  (repeat' split)
  · rfl
  · dsimp only
    (repeat' split) <;> simp [*]

@[simp] theorem State.mask_discardItem (h0 : Part.harrow ∈ ps) (h1 : Part.buf ∈ ps) (h2 : Part.fresh ∈ ps) (s : State) :
    (State.discardItem s).mask ps = s.mask ps := by
  simp [State.discardItem, *]

@[simp] theorem State.mask_holdItem (h0 : Part.harrow ∈ ps) (h1 : Part.buf ∈ ps) (h2 : Part.fresh ∈ ps) (s : State) :
    (State.holdItem s).mask ps = s.mask ps := by
  simp [State.holdItem, *]

@[simp] theorem State.mask_endItem (h0 : Part.buf ∈ ps) (s : State) :
    (State.endItem s).mask ps = s.mask ps := by
  unfold State.endItem
  split
  · simp [h0]
  · rfl

@[simp] theorem State.mask_rateChange (h0 : Part.harrow ∈ ps) (h1 : Part.cap ∈ ps) (h2 : Part.spec ∈ ps) (h3 : Part.buf ∈ ps)
    (h4 : Part.fresh ∈ ps) (g : Group) (s : State) :
    (State.rateChange g s).mask ps = s.mask ps := by
  unfold State.rateChange
  lift_lets
  intro t
  clear_value t
  intro u
  have e1 : State.mask ps u = s.mask ps := by subst u; simp [*]
  clear_value u
  intro v
  have e2 : State.mask ps v = s.mask ps := by subst v; simp [*]
  clear_value v
  (repeat' split) <;> simp [*]

@[simp] theorem State.mask_readd (h0 : Part.harrow ∈ ps) (g : Group) (set : BitVec 24) (s : State) :
    (State.readd g set s).mask ps = s.mask ps := by
  simp [State.readd, *]

@[simp] theorem State.mask_writeStreamGroup (h0 : Part.harrow ∈ ps) (h1 : Part.cap ∈ ps) (h2 : Part.spec ∈ ps)
    (h3 : Part.buf ∈ ps) (h4 : Part.pwr ∈ ps) (h5 : Part.fresh ∈ ps) (g : Group) (w : Word) (s : State) :
    (State.writeStreamGroup g w s).mask ps = s.mask ps := by
  unfold State.writeStreamGroup
  lift_lets
  intro t u v
  clear_value t u v
  intro x
  have e1 : State.mask ps x = s.mask ps := by subst x; simp [*]
  clear_value x
  intro y
  have e2 : State.mask ps y = s.mask ps := by subst y; simp [*]
  clear_value y
  simp [*]

@[simp] theorem State.mask_writeStreamCtrl (h0 : Part.harrow ∈ ps) (h1 : Part.spec ∈ ps) (h2 : Part.buf ∈ ps)
    (h3 : Part.pwr ∈ ps) (w : Word) (s : State) :
    (State.writeStreamCtrl w s).mask ps = s.mask ps := by
  unfold State.writeStreamCtrl
  lift_lets
  intro t
  clear_value t
  intro u
  have e1 : State.mask ps u = s.mask ps := by subst u; simp [*]
  clear_value u
  intro v
  clear_value v
  intro x
  have e2 : State.mask ps x = s.mask ps := by subst x; simp [*]
  clear_value x
  intro y
  have e3 : State.mask ps y = s.mask ps := by subst y; simp [*]
  clear_value y
  simp [*]

@[simp] theorem State.mask_flush (h0 : Part.harrow ∈ ps) (h1 : Part.buf ∈ ps) (h2 : Part.fresh ∈ ps) (s : State) :
    (State.flush s).mask ps = s.mask ps := by
  simp [State.flush, *]

@[simp] theorem State.mask_writeBufCtrl (h0 : Part.harrow ∈ ps) (h1 : Part.buf ∈ ps) (h2 : Part.pwr ∈ ps)
    (h3 : Part.fresh ∈ ps) (w : Word) (s : State) :
    (State.writeBufCtrl w s).mask ps = s.mask ps := by
  unfold State.writeBufCtrl
  lift_lets
  intro t
  clear_value t
  intro u
  have e1 : State.mask ps u = s.mask ps := by subst u; simp [*]
  clear_value u
  intro v
  have e2 : State.mask ps v = s.mask ps := by subst v; simp [*]
  clear_value v
  intro x
  have e3 : State.mask ps x = s.mask ps := by subst x; simp [*]
  clear_value x
  simp [*]

@[simp] theorem State.mask_writeBufThresh (h0 : Part.buf ∈ ps) (w : Word) (s : State) :
    (State.writeBufThresh w s).mask ps = s.mask ps := by
  simp [State.writeBufThresh, *]

@[simp] theorem State.mask_writeBufStat (h0 : Part.buf ∈ ps) (w : Word) (s : State) :
    (State.writeBufStat w s).mask ps = s.mask ps := by
  simp [State.writeBufStat, *]

@[simp] theorem State.mask_popWord (h0 : Part.buf ∈ ps) (s : State) :
    (State.popWord s).2.mask ps = s.mask ps := by
  unfold State.popWord
  (repeat' split) <;> simp [*]

@[simp] theorem State.mask_sbOff (h0 : Part.buf ∈ ps) (s : State) :
    (State.sbOff s).mask ps = s.mask ps := by
  simp [State.sbOff, *]

@[simp] theorem State.mask_bufEnLeaves (h0 : Part.harrow ∈ ps) (h1 : Part.buf ∈ ps) (h2 : Part.fresh ∈ ps) (s : State) :
    (State.bufEnLeaves s).mask ps = s.mask ps := by
  simp [State.bufEnLeaves, *]

@[simp] theorem State.mask_bufEnReturns (h0 : Part.buf ∈ ps) (s : State) :
    (State.bufEnReturns s).mask ps = s.mask ps := by
  simp [State.bufEnReturns, *]

/-! ### Machine/Dvfs.lean -/

@[simp] theorem State.mask_driveVid (h0 : Part.pwr ∈ ps) (op : BitVec 2) (s : State) :
    (State.driveVid op s).mask ps = s.mask ps := by
  simp [State.driveVid, *]

@[simp] theorem State.mask_relockPllE (h0 : Part.clk ∈ ps) (s : State) :
    (State.relockPllE s).mask ps = s.mask ps := by
  simp [State.relockPllE, *]

@[simp] theorem State.mask_stampPhase (h0 : Part.pwr ∈ ps) (s : State) :
    (State.stampPhase s).mask ps = s.mask ps := by
  simp [State.stampPhase, h0]

@[simp] theorem State.mask_startChange (h0 : Part.clk ∈ ps) (h1 : Part.pwr ∈ ps) (s : State) :
    (State.startChange s).mask ps = s.mask ps := by
  unfold State.startChange
  lift_lets
  intro t
  clear_value t
  simp [*]

@[simp] theorem State.mask_endChange (h0 : Part.clk ∈ ps) (h1 : Part.pwr ∈ ps) (s : State) :
    (State.endChange s).mask ps = s.mask ps := by
  unfold State.endChange
  lift_lets
  intro t
  clear_value t
  intro u
  have e1 : State.mask ps u = s.mask ps := by subst u; simp [*]
  clear_value u
  simp [*]

@[simp] theorem State.mask_leaveHold (h0 : Part.clk ∈ ps) (s : State) :
    (State.leaveHold s).mask ps = s.mask ps := by
  simp [State.leaveHold, *]

@[simp] theorem State.mask_reachGoal (h0 : Part.clk ∈ ps) (h1 : Part.pwr ∈ ps) (s : State) :
    (State.reachGoal s).mask ps = s.mask ps := by
  unfold State.reachGoal
  lift_lets
  intro t
  have e1 : State.mask ps t = s.mask ps := by subst t; simp [*]
  clear_value t
  simp [*]

@[simp] theorem State.mask_writeDvfs (h0 : Part.clk ∈ ps) (h1 : Part.pwr ∈ ps) (w : Word) (s : State) :
    (State.writeDvfs w s).mask ps = s.mask ps := by
  simp [State.writeDvfs, *]

@[simp] theorem State.mask_writeDvfsCfg (h0 : Part.pwr ∈ ps) (w : Word) (s : State) :
    (State.writeDvfsCfg w s).mask ps = s.mask ps := by
  simp [State.writeDvfsCfg, *]

/-! ### Machine/Clock.lean -/

@[simp] theorem State.mask_lockPllM (h0 : Part.clk ∈ ps) (h1 : Part.spec ∈ ps) (h2 : Part.buf ∈ ps) (h3 : Part.pwr ∈ ps)
    (h4 : Part.mgmt ∈ ps) (s : State) :
    (State.lockPllM s).mask ps = s.mask ps := by
  unfold State.lockPllM
  lift_lets
  intro t
  clear_value t
  intro u
  have e1 : State.mask ps u = s.mask ps := by subst u; simp [*]
  clear_value u
  intro v
  have e2 : State.mask ps v = s.mask ps := by subst v; simp [*]
  clear_value v
  intro w
  have e3 : State.mask ps w = s.mask ps := by subst w; simp [*]
  clear_value w
  intro x
  have e4 : State.mask ps x = s.mask ps := by subst x; simp [*]
  clear_value x
  intro y
  have e5 : State.mask ps y = s.mask ps := by subst y; simp [*]
  clear_value y
  intro z
  have e6 : State.mask ps z = s.mask ps := by subst z; simp [*]
  clear_value z
  simp [*]

@[simp] theorem State.mask_enterCoast (h0 : Part.clk ∈ ps) (h1 : Part.spec ∈ ps) (h2 : Part.buf ∈ ps) (h3 : Part.host ∈ ps)
    (h4 : Part.mgmt ∈ ps) (s : State) :
    (State.enterCoast s).mask ps = s.mask ps := by
  unfold State.enterCoast
  lift_lets
  intro t
  have e1 : State.mask ps t = s.mask ps := by subst t; simp [*]
  clear_value t
  intro u
  have e2 : State.mask ps u = s.mask ps := by subst u; simp [*]
  clear_value u
  intro v
  have e3 : State.mask ps v = s.mask ps := by subst v; simp [*]
  clear_value v
  simp [*]

@[simp] theorem State.mask_dropStall (h0 : Part.host ∈ ps) (s : State) :
    (State.dropStall s).mask ps = s.mask ps := by
  simp [State.dropStall, h0]

@[simp] theorem State.mask_shiftPaths (h0 : Part.clk ∈ ps) (h1 : Part.harrow ∈ ps) (h2 : Part.arr ∈ ps) (h3 : Part.buf ∈ ps)
    (d : Tick) (s : State) :
    (State.shiftPaths d s).mask ps = s.mask ps := by
  simp [State.shiftPaths, *]

@[simp] theorem State.mask_shiftScans (h0 : Part.aux ∈ ps) (d : Tick) (s : State) :
    (State.shiftScans d s).mask ps = s.mask ps := by
  simp [State.shiftScans, *]

@[simp] theorem State.mask_shiftTimers (h0 : Part.clk ∈ ps) (h1 : Part.recog ∈ ps) (h2 : Part.smc ∈ ps) (h3 : Part.int ∈ ps)
    (h4 : Part.pwr ∈ ps) (h5 : Part.host ∈ ps) (h6 : Part.mport ∈ ps) (h7 : Part.mgmt ∈ ps) (d : Tick) (s : State) :
    (State.shiftTimers d s).mask ps = s.mask ps := by
  unfold State.shiftTimers
  lift_lets
  intro t
  have e1 : State.mask ps t = s.mask ps := by subst t; simp [*]
  clear_value t
  intro u
  have e2 : State.mask ps u = s.mask ps := by subst u; simp [*]
  clear_value u
  intro v
  have e3 : State.mask ps v = s.mask ps := by subst v; simp [*]
  clear_value v
  intro w
  have e4 : State.mask ps w = s.mask ps := by subst w; simp [*]
  clear_value w
  simp [*]

@[simp] theorem State.mask_rebound (h0 : Part.aux ∈ ps) (s : State) :
    (State.rebound s).mask ps = s.mask ps := by
  simp [State.rebound, *]

@[simp] theorem State.mask_alignScans (h0 : Part.harrow ∈ ps) (h1 : Part.aux ∈ ps) (s : State) :
    (State.alignScans s).mask ps = s.mask ps := by
  unfold State.alignScans
  dsimp only
  rw [State.mask_restart h0, State.mask_restart h0, State.mask_restart h0, State.mask_foldUpto]
  · simp [*]
  · intro t k
    (repeat' split) <;> simp [*]

@[simp] theorem State.mask_takeEpoch (h0 : Part.clk ∈ ps) (h1 : Part.harrow ∈ ps) (h2 : Part.arr ∈ ps) (h3 : Part.aux ∈ ps)
    (h4 : Part.recog ∈ ps) (h5 : Part.smc ∈ ps) (h6 : Part.buf ∈ ps) (h7 : Part.int ∈ ps) (h8 : Part.pwr ∈ ps)
    (h9 : Part.host ∈ ps) (h10 : Part.mport ∈ ps) (h11 : Part.mgmt ∈ ps) (e : Tick) (s : State) :
    (State.takeEpoch e s).mask ps = s.mask ps := by
  simp [State.takeEpoch, *]

@[simp] theorem State.mask_loadEpoch (h0 : Part.clk ∈ ps) (h1 : Part.harrow ∈ ps) (h2 : Part.arr ∈ ps) (h3 : Part.aux ∈ ps)
    (h4 : Part.recog ∈ ps) (h5 : Part.smc ∈ ps) (h6 : Part.buf ∈ ps) (h7 : Part.int ∈ ps) (h8 : Part.pwr ∈ ps)
    (h9 : Part.host ∈ ps) (h10 : Part.mport ∈ ps) (h11 : Part.mgmt ∈ ps) (e : Tick)
    (s : State) :
    (State.loadEpoch e s).mask ps = s.mask ps := by
  simp [State.loadEpoch, *]

@[simp] theorem State.mask_writeTsync (h0 : Part.clk ∈ ps) (h1 : Part.harrow ∈ ps) (h2 : Part.aux ∈ ps) (h3 : Part.buf ∈ ps)
    (w : Word) (s : State) :
    (State.writeTsync w s).mask ps = s.mask ps := by
  unfold State.writeTsync
  lift_lets
  intro t
  have e1 : State.mask ps t = s.mask ps := by subst t; simp [*]
  clear_value t
  simp [*]

@[simp] theorem State.mask_writeClkStat (h0 : Part.clk ∈ ps) (w : Word) (s : State) :
    (State.writeClkStat w s).mask ps = s.mask ps := by
  simp [State.writeClkStat, *]

@[simp] theorem State.mask_parkFrame (h0 : Part.clk ∈ ps) (s : State) :
    (State.parkFrame s).mask ps = s.mask ps := by
  simp [State.parkFrame, *]

@[simp] theorem State.mask_enterPark (h0 : Part.clk ∈ ps) (h1 : Part.int ∈ ps) (h2 : Part.host ∈ ps) (s : State) :
    (State.enterPark s).mask ps = s.mask ps := by
  simp [State.enterPark, *]

@[simp] theorem State.mask_endPark (h0 : Part.clk ∈ ps) (h1 : Part.scar ∈ ps) (h2 : Part.pwr ∈ ps) (h3 : Part.link ∈ ps)
    (h4 : Part.mgmt ∈ ps) (s : State) :
    (State.endPark s).mask ps = s.mask ps := by
  unfold State.endPark
  lift_lets
  intro t
  have e1 : State.mask ps t = s.mask ps := by subst t; simp [*]
  clear_value t
  intro u
  have e2 : State.mask ps u = s.mask ps := by subst u; simp [*]
  clear_value u
  simp [*]

@[simp] theorem State.mask_settlePath (h0 : Part.harrow ∈ ps) (ch : Nat) (k : PathKind) (s : State) :
    (State.settlePath ch k s).mask ps = s.mask ps := by
  simp [State.settlePath, *]

/-! ### Machine/Recog.lean -/

@[simp] theorem State.mask_writeCadenceCount (h0 : Part.recog ∈ ps) (w : Word) (s : State) :
    (State.writeCadenceCount w s).mask ps = s.mask ps := by
  simp [State.writeCadenceCount, *]

@[simp] theorem State.mask_queueEvent (h0 : Part.buf ∈ ps) (source : BitVec 6) (ts : Tick) (r8 r9 : Word) (ready : Tick)
    (s : State) :
    (State.queueEvent source ts r8 r9 ready s).mask ps = s.mask ps := by
  simp [State.queueEvent, *]

@[simp] theorem State.mask_pulseMachines (h0 : Part.smc ∈ ps) (r : Nat) (s : State) :
    (State.pulseMachines r s).mask ps = s.mask ps := by
  simp [State.pulseMachines, *]

@[simp] theorem State.mask_report (h0 : Part.recog ∈ ps) (h1 : Part.cap ∈ ps) (h2 : Part.smc ∈ ps) (h3 : Part.buf ∈ ps)
    (r : Nat) (p : Report) (s : State) :
    (State.report r p s).mask ps = s.mask ps := by
  unfold State.report
  lift_lets
  intro t
  have e1 : State.mask ps t = s.mask ps := by subst t; simp [*]
  clear_value t
  intro u v w
  clear_value u v w
  intro x
  have e2 : State.mask ps x = s.mask ps := by subst x; simp [*]
  clear_value x
  intro y
  have e3 : State.mask ps y = s.mask ps := by subst y; simp [*]
  clear_value y
  intro z
  have e4 : State.mask ps z = s.mask ps := by subst z; simp [*]
  clear_value z
  simp [*]

@[simp] theorem State.mask_flushReports (h0 : Part.recog ∈ ps) (h1 : Part.cap ∈ ps) (h2 : Part.smc ∈ ps) (h3 : Part.buf ∈ ps)
    (s : State) :
    (State.flushReports s).mask ps = s.mask ps := by
  unfold State.flushReports
  simp only [apply_ite]
  (repeat' split) <;> simp [h0, h1, h2, h3]

@[simp] theorem State.mask_refreshRecog (h0 : Part.recog ∈ ps) (h1 : Part.cap ∈ ps) (h2 : Part.smc ∈ ps) (h3 : Part.buf ∈ ps)
    (s : State) :
    (State.refreshRecog s).mask ps = s.mask ps := by
  unfold State.refreshRecog
  lift_lets
  intro t u
  clear_value t u
  intro v
  have e1 : State.mask ps v = s.mask ps := by subst v; simp [*]
  clear_value v
  simp [*]

@[simp] theorem State.mask_writeEvtCtrl (h0 : Part.recog ∈ ps) (h1 : Part.cap ∈ ps) (h2 : Part.smc ∈ ps) (h3 : Part.buf ∈ ps)
    (w : Word) (s : State) :
    (State.writeEvtCtrl w s).mask ps = s.mask ps := by
  unfold State.writeEvtCtrl
  lift_lets
  intro t
  clear_value t
  simp [*]

@[simp] theorem State.mask_writeRecParam (h0 : Part.recog ∈ ps) (h1 : Part.cap ∈ ps) (h2 : Part.smc ∈ ps) (h3 : Part.buf ∈ ps)
    (r k : Nat) (w : Word) (s : State) :
    (State.writeRecParam r k w s).mask ps = s.mask ps := by
  simp [State.writeRecParam, *]

@[simp] theorem State.mask_recogEnReturns (h0 : Part.recog ∈ ps) (h1 : Part.cap ∈ ps) (h2 : Part.smc ∈ ps)
    (h3 : Part.buf ∈ ps) (s : State) :
    (State.recogEnReturns s).mask ps = s.mask ps := by
  simp [State.recogEnReturns, *]

@[simp] theorem State.mask_impactSample (h0 : Part.recog ∈ ps) (t : Tick) (gx gy gz : Grain) (s : State) :
    (State.impactSample t gx gy gz s).mask ps = s.mask ps := by
  unfold State.impactSample
  simp [*]

@[simp] theorem State.mask_cadenceSample (h0 : Part.recog ∈ ps) (t : Tick) (out : Vector Grain 24) (s : State) :
    (State.cadenceSample t out s).mask ps = s.mask ps := by
  simp [State.cadenceSample, *]

@[simp] theorem State.mask_fallSample (h0 : Part.recog ∈ ps) (t : Tick) (out : Vector Grain 24) (s : State) :
    (State.fallSample t out s).mask ps = s.mask ps := by
  simp [State.fallSample, *]

@[simp] theorem State.mask_transSample (h0 : Part.recog ∈ ps) (t : Tick) (out : Vector Grain 24) (s : State) :
    (State.transSample t out s).mask ps = s.mask ps := by
  simp [State.transSample, *]

@[simp] theorem State.mask_tiltSample (h0 : Part.recog ∈ ps) (t : Tick) (out : Vector Grain 24) (s : State) :
    (State.tiltSample t out s).mask ps = s.mask ps := by
  unfold State.tiltSample
  simp [*]

@[simp] theorem State.mask_recogSample (h0 : Part.recog ∈ ps) (h1 : Part.cap ∈ ps) (h2 : Part.smc ∈ ps) (h3 : Part.buf ∈ ps)
    (t : Tick) (out : Vector Grain 24) (s : State) :
    (State.recogSample t out s).mask ps = s.mask ps := by
  unfold State.recogSample
  lift_lets
  intro u
  have e1 : State.mask ps u = s.mask ps := by subst u; simp [*]
  clear_value u
  intro v
  clear_value v
  intro w
  have e2 : State.mask ps w = s.mask ps := by subst w; simp [*]
  clear_value w
  intro x
  have e3 : State.mask ps x = s.mask ps := by subst x; simp [*]
  clear_value x
  intro y
  have e4 : State.mask ps y = s.mask ps := by subst y; simp [*]
  clear_value y
  intro z
  have e5 : State.mask ps z = s.mask ps := by subst z; simp [*]
  clear_value z
  simp [*]

/-! ### Machine/Calib.lean -/

@[simp] theorem State.mask_calCheck (h0 : Part.mgmt ∈ ps) (s : State) :
    (State.calCheck s).mask ps = s.mask ps := by
  simp [State.calCheck, *]

@[simp] theorem State.mask_writeCal (h0 : Part.mgmt ∈ ps) (a : Nat) (w : Word) (s : State) :
    (State.writeCal a w s).mask ps = s.mask ps := by
  simp [State.writeCal, *]

/-! ### Machine/Flash.lean -/

@[simp] theorem State.mask_overwritten (h0 : Part.arr ∈ ps) (h1 : Part.mgmt ∈ ps) (erased : Bool) (a n : Nat) (s : State) :
    (State.overwritten erased a n s).mask ps = s.mask ps := by
  simp [State.overwritten, *]

@[simp] theorem State.mask_changedBy (h0 : Part.arr ∈ ps) (h1 : Part.mgmt ∈ ps) (q : PortSeq) (s : State) :
    (State.changedBy q s).mask ps = s.mask ps := by
  unfold State.changedBy
  split <;> simp [*]

@[simp] theorem State.mask_endSeq (h0 : Part.arr ∈ ps) (h1 : Part.mport ∈ ps) (h2 : Part.mgmt ∈ ps) (s : State) :
    (State.endSeq s).mask ps = s.mask ps := by
  unfold State.endSeq
  dsimp only
  split <;> simp [*]

@[simp] theorem State.mask_startSeq (h0 : Part.arr ∈ ps) (h1 : Part.mport ∈ ps) (h2 : Part.mgmt ∈ ps) (q : PortSeq)
    (s : State) :
    (State.startSeq q s).mask ps = s.mask ps := by
  simp [State.startSeq, *]

@[simp] theorem State.mask_runSeq (h0 : Part.arr ∈ ps) (h1 : Part.mport ∈ ps) (h2 : Part.mgmt ∈ ps) (q : PortSeq)
    (ends : Bool) (s : State) :
    (State.runSeq q ends s).mask ps = s.mask ps := by
  unfold State.runSeq
  lift_lets
  intro t
  have e1 : State.mask ps t = s.mask ps := by subst t; simp [*]
  clear_value t
  simp [*]

@[simp] theorem State.mask_flashWork (h0 : Part.arr ∈ ps) (h1 : Part.mport ∈ ps) (h2 : Part.mgmt ∈ ps) (qs : List PortSeq)
    (s : State) :
    (State.flashWork qs s).mask ps = s.mask ps := by
  simp [State.flashWork, *]

@[simp] theorem State.mask_storeWork (h0 : Part.arr ∈ ps) (h1 : Part.mport ∈ ps) (h2 : Part.mgmt ∈ ps) (s : State) :
    (State.storeWork s).mask ps = s.mask ps := by
  simp [State.storeWork, *]

@[simp] theorem State.mask_flashReads (h0 : Part.arr ∈ ps) (h1 : Part.mport ∈ ps) (h2 : Part.mgmt ∈ ps) (as_ : List Nat)
    (s : State) :
    (State.flashReads as_ s).mask ps = s.mask ps := by
  simp [State.flashReads, *]

@[simp] theorem State.mask_programControl (h0 : Part.arr ∈ ps) (h1 : Part.mport ∈ ps) (h2 : Part.mgmt ∈ ps) (b : Bool)
    (before after : Slot) (s : State) :
    (State.programControl b before after s).mask ps = s.mask ps := by
  simp [State.programControl, *]

/-! ### Machine/Array.lean -/

@[simp] theorem State.mask_modCluster (h0 : Part.arr ∈ ps) (i : Nat) (f : Cluster → Cluster) (s : State) :
    (State.modCluster i f s).mask ps = s.mask ps := by
  simp [State.modCluster, *]

@[simp] theorem State.mask_modRotation (h0 : Part.arr ∈ ps) (r : Nat) (f : Rotation → Rotation) (s : State) :
    (State.modRotation r f s).mask ps = s.mask ps := by
  simp [State.modRotation, *]

@[simp] theorem State.mask_setTrim (h0 : Part.arr ∈ ps) (i : Nat) (was : Vector Rat 2) (s : State) :
    (State.setTrim i was s).mask ps = s.mask ps := by
  simp [State.setTrim, *]

@[simp] theorem State.mask_trimsAfter (h0 : Part.arr ∈ ps) (s t : State) :
    (State.trimsAfter s t).mask ps = t.mask ps := by
  unfold State.trimsAfter
  apply State.mask_foldl
  intro u i
  dsimp only
  (repeat' split) <;> simp [*]

@[simp] theorem State.mask_startTrims (h0 : Part.arr ∈ ps) (s : State) :
    (State.startTrims s).mask ps = s.mask ps := by
  unfold State.startTrims
  rw [State.mask_foldl]
  intro t k
  simp [h0]

@[simp] theorem State.mask_writeArrayStat (h0 : Part.arr ∈ ps) (w : Word) (s : State) :
    (State.writeArrayStat w s).mask ps = s.mask ps := by
  simp [State.writeArrayStat, *]

@[simp] theorem State.mask_settleArray (h0 : Part.arr ∈ ps) (h1 : Part.mgmt ∈ ps) (s t : State) :
    (State.settleArray s t).mask ps = t.mask ps := by
  unfold State.settleArray
  dsimp only
  rw [State.mask_ite, State.mask_modArr h0, ite_self, State.mask_foldl _ (fun u i => by simp [*])]
  simp [*]

@[simp] theorem State.mask_mapChanged (h0 : Part.arr ∈ ps) (h1 : Part.pwr ∈ ps) (s : State) :
    (State.mapChanged s).mask ps = s.mask ps := by
  unfold State.mapChanged
  lift_lets
  intro t
  have e1 : State.mask ps t = s.mask ps := by subst t; simp [*]
  clear_value t
  simp [*]

@[simp] theorem State.mask_setUnit (h0 : Part.arr ∈ ps) (h1 : Part.pwr ∈ ps) (h2 : Part.mgmt ∈ ps) (u : Nat)
    (quiet commit : Bool) (f : UnitHealth → UnitHealth) (s : State) :
    (State.setUnit u quiet commit f s).mask ps = s.mask ps := by
  unfold State.setUnit
  lift_lets
  intro t v
  clear_value t v
  intro w
  have e1 : State.mask ps w = s.mask ps := by subst w; simp [*]
  clear_value w
  intro x
  have e2 : State.mask ps x = s.mask ps := by subst x; simp [*]
  clear_value x
  simp [*]

@[simp] theorem State.mask_fill (h0 : Part.arr ∈ ps) (h1 : Part.pwr ∈ ps) (h2 : Part.mgmt ∈ ps) (i : Nat) (x0 : Nat)
    (s : State) :
    (State.fill i x0 s).mask ps = s.mask ps := by
  induction x0 generalizing s with
  | zero => rfl
  | succ n ih =>
    unfold State.fill
    (repeat' split) <;> simp [*]

@[simp] theorem State.mask_fillCluster (h0 : Part.arr ∈ ps) (h1 : Part.pwr ∈ ps) (h2 : Part.mgmt ∈ ps) (i : Nat) (s : State) :
    (State.fillCluster i s).mask ps = s.mask ps := by
  simp [State.fillCluster, *]

@[simp] theorem State.mask_fillAll (h0 : Part.arr ∈ ps) (h1 : Part.pwr ∈ ps) (h2 : Part.mgmt ∈ ps) (s : State) :
    (State.fillAll s).mask ps = s.mask ps := by
  unfold State.fillAll
  rw [State.mask_foldl]
  intro t k
  simp [*]

@[simp] theorem State.mask_startRetrim (h0 : Part.arr ∈ ps) (i : Nat) (s : State) :
    (State.startRetrim i s).mask ps = s.mask ps := by
  simp [State.startRetrim, *]

@[simp] theorem State.mask_endRotation (h0 : Part.arr ∈ ps) (r : Nat) (s : State) :
    (State.endRotation r s).mask ps = s.mask ps := by
  simp [State.endRotation, *]

@[simp] theorem State.mask_releaseStandin (h0 : Part.arr ∈ ps) (h1 : Part.pwr ∈ ps) (h2 : Part.mgmt ∈ ps) (quiet : Bool)
    (a : Audit) (s : State) :
    (State.releaseStandin quiet a s).mask ps = s.mask ps := by
  unfold State.releaseStandin
  (repeat' split) <;> simp [*]

@[simp] theorem State.mask_returnUnit (h0 : Part.arr ∈ ps) (h1 : Part.pwr ∈ ps) (h2 : Part.mgmt ∈ ps) (quiet : Bool)
    (a : Audit) (s : State) :
    (State.returnUnit quiet a s).mask ps = s.mask ps := by
  simp [State.returnUnit, *]

@[simp] theorem State.mask_voidAudit (h2 : Part.arr ∈ ps) (h10 : Part.pwr ∈ ps) (h12 : Part.mgmt ∈ ps) (r : Nat)
    (first : Bool) (s : State) :
    (State.voidAudit r first s).mask ps = s.mask ps := by
  unfold State.voidAudit
  (repeat' split) <;> simp [*]

@[simp] theorem State.mask_voidAudits (h2 : Part.arr ∈ ps) (h10 : Part.pwr ∈ ps) (h12 : Part.mgmt ∈ ps) (p : Nat → Bool)
    (s : State) :
    (State.voidAudits p s).mask ps = s.mask ps := by
  unfold State.voidAudits
  rw [State.mask_foldl]
  intro t k
  simp [*]

@[simp] theorem State.mask_writeAuditCtrl (h2 : Part.arr ∈ ps) (h10 : Part.pwr ∈ ps) (h12 : Part.mgmt ∈ ps) (w : Word)
    (s : State) :
    (State.writeAuditCtrl w s).mask ps = s.mask ps := by
  unfold State.writeAuditCtrl
  lift_lets
  intro t
  have e1 : State.mask ps t = s.mask ps := by subst t; simp [*]
  clear_value t
  simp [*]

@[simp] theorem State.mask_beginAudit (h2 : Part.arr ∈ ps) (h10 : Part.pwr ∈ ps) (h12 : Part.mgmt ∈ ps) (u : Fin 660)
    (rotation : Bool) (s : State) :
    (State.beginAudit u rotation s).mask ps = s.mask ps := by
  unfold State.beginAudit
  lift_lets
  intro t v w x y
  clear_value t v w x y
  intro z
  have e1 : State.mask ps z = s.mask ps := by subst z; simp [*]
  clear_value z
  intro a
  have e2 : State.mask ps a = s.mask ps := by subst a; (repeat' split) <;> simp [*]
  clear_value a
  simp [*]

@[simp] theorem State.mask_endAudit (h0 : Part.arr ∈ ps) (r : Nat) (s : State) :
    (State.endAudit r s).mask ps = s.mask ps := by
  simp [State.endAudit, *]

@[simp] theorem State.mask_removeUnit (h0 : Part.arr ∈ ps) (h1 : Part.pwr ∈ ps) (h2 : Part.mgmt ∈ ps) (a : Audit) (s : State) :
    (State.removeUnit a s).mask ps = s.mask ps := by
  unfold State.removeUnit
  lift_lets
  intro t
  clear_value t
  intro u
  have e1 : State.mask ps u = s.mask ps := by subst u; (repeat' split) <;> simp [*]
  clear_value u
  simp [*]

@[simp] theorem State.mask_verdictSum (h0 : Part.arr ∈ ps) (h1 : Part.pwr ∈ ps) (h2 : Part.mgmt ∈ ps) (a : Audit)
    (cause : BitVec 3) (sens : BitVec 13) (s : State) :
    (State.verdictSum a cause sens s).mask ps = s.mask ps := by
  unfold State.verdictSum
  lift_lets
  intro t u
  clear_value t u
  intro v
  have e1 : State.mask ps v = s.mask ps := by subst v; simp [*]
  clear_value v
  intro w
  clear_value w
  simp [*]

@[simp] theorem State.mask_verdictFallow (h0 : Part.arr ∈ ps) (h1 : Part.pwr ∈ ps) (h2 : Part.mgmt ∈ ps) (a : Audit)
    (cause : BitVec 3) (sens : BitVec 13) (s : State) :
    (State.verdictFallow a cause sens s).mask ps = s.mask ps := by
  unfold State.verdictFallow
  lift_lets
  intro t u v w x
  clear_value t u v w x
  intro y
  have e1 : State.mask ps y = s.mask ps := by subst y; simp [*]
  clear_value y
  intro z
  clear_value z
  simp [*]

@[simp] theorem State.mask_verdictDead (h0 : Part.arr ∈ ps) (h1 : Part.pwr ∈ ps) (h2 : Part.mgmt ∈ ps) (a : Audit)
    (cause : BitVec 3) (sens : BitVec 13) (s : State) :
    (State.verdictDead a cause sens s).mask ps = s.mask ps := by
  unfold State.verdictDead
  lift_lets
  intro t
  clear_value t
  intro u
  have e1 : State.mask ps u = s.mask ps := by subst u; simp [*]
  clear_value u
  simp [*]

@[simp] theorem State.mask_auditDue (h0 : Part.arr ∈ ps) (u : Fin 660) (s : State) :
    (State.auditDue u s).mask ps = s.mask ps := by
  simp [State.auditDue, *]

@[simp] theorem State.mask_voidHeld (h0 : Part.arr ∈ ps) (r : Nat) (s : State) :
    (State.voidHeld r s).mask ps = s.mask ps := by
  simp [State.voidHeld, *]

@[simp] theorem State.mask_bringBack (h0 : Part.arr ∈ ps) (h1 : Part.pwr ∈ ps) (h2 : Part.mgmt ∈ ps) (i : Nat) (s : State) :
    (State.bringBack i s).mask ps = s.mask ps := by
  unfold State.bringBack
  rw [State.mask_foldl]
  intro t u
  dsimp only
  split <;> simp [*]

@[simp] theorem State.mask_endIsolation (h0 : Part.arr ∈ ps) (h1 : Part.pwr ∈ ps) (h2 : Part.mgmt ∈ ps) (i : Nat)
    (found : Bisection) (s : State) :
    (State.endIsolation i found s).mask ps = s.mask ps := by
  unfold State.endIsolation
  lift_lets
  intro t
  have e1 : State.mask ps t = s.mask ps := by subst t; simp [*]
  clear_value t
  intro u
  have e2 : State.mask ps u = s.mask ps := by subst u; (repeat' split) <;> simp [*]
  clear_value u
  simp [*]

@[simp] theorem State.mask_tickIsolation (h0 : Part.arr ∈ ps) (h1 : Part.pwr ∈ ps) (h2 : Part.mgmt ∈ ps) (i : Nat) (s : State) :
    (State.tickIsolation i s).mask ps = s.mask ps := by
  unfold State.tickIsolation
  (repeat' split) <;> simp [h0, h1, h2]

@[simp] theorem State.mask_tickIsolations (h0 : Part.arr ∈ ps) (h1 : Part.pwr ∈ ps) (h2 : Part.mgmt ∈ ps) (s : State) :
    (State.tickIsolations s).mask ps = s.mask ps := by
  unfold State.tickIsolations
  split
  · rfl
  · exact State.mask_foldl _ (fun t i => by simp [*]) _ _

@[simp] theorem State.mask_setDieFault (h0 : Part.arr ∈ ps) (die : Die) (check : DieCheck) (v : Bool) (s : State) :
    (State.setDieFault die check v s).mask ps = s.mask ps := by
  unfold State.setDieFault
  lift_lets
  intro t
  clear_value t
  simp [*]

@[simp] theorem State.mask_writeClusterPwr (h2 : Part.arr ∈ ps) (h10 : Part.pwr ∈ ps) (h12 : Part.mgmt ∈ ps) (v : BitVec 24)
    (s : State) :
    (State.writeClusterPwr v s).mask ps = s.mask ps := by
  unfold State.writeClusterPwr
  lift_lets
  intro t
  clear_value t
  intro u
  have e1 : State.mask ps u = s.mask ps := by subst u; simp [*]
  clear_value u
  intro w
  have e2 : State.mask ps w = s.mask ps := by
    subst w
    refine (State.mask_foldl _ ?_ _ _).trans ?_
    · intro t k; try (dsimp only); (repeat' split) <;> simp [*]
    · simp [*]
  clear_value w
  simp [*]

@[simp] theorem State.mask_writeRange (h1 : Part.harrow ∈ ps) (h2 : Part.arr ∈ ps) (h10 : Part.pwr ∈ ps)
    (h12 : Part.mgmt ∈ ps) (ch : Nat) (v : Bool) (s : State) :
    (State.writeRange ch v s).mask ps = s.mask ps := by
  simp [State.writeRange, *]

@[simp] theorem State.mask_frontStops (h2 : Part.arr ∈ ps) (h10 : Part.pwr ∈ ps) (h12 : Part.mgmt ∈ ps) (d : Dom) (s : State) :
    (State.frontStops d s).mask ps = s.mask ps := by
  unfold State.frontStops
  dsimp only
  refine (State.mask_foldl _ (fun u i => ?_) _ _).trans (by simp [*])
  split <;> simp [*]

@[simp] theorem State.mask_frontReturns (h0 : Part.arr ∈ ps) (h1 : Part.pwr ∈ ps) (h2 : Part.mgmt ∈ ps) (d : Dom) (s : State) :
    (State.frontReturns d s).mask ps = s.mask ps := by
  unfold State.frontReturns
  dsimp only
  simp only [State.mask_fillAll, *]
  exact State.mask_foldl _ (fun u i => by split <;> simp [*]) _ _

@[simp] theorem State.mask_loadMap (h0 : Part.arr ∈ ps) (h1 : Part.mgmt ∈ ps) (s : State) :
    (State.loadMap s).mask ps = s.mask ps := by
  unfold State.loadMap
  (repeat' split) <;> simp [*]

@[simp] theorem State.mask_commitMap (h0 : Part.arr ∈ ps) (s : State) :
    (State.commitMap s).mask ps = s.mask ps := by
  unfold State.commitMap
  simp [*]

@[simp] theorem State.mask_unschedule (h2 : Part.arr ∈ ps) (u : Nat) (s : State) :
    (State.unschedule u s).mask ps = s.mask ps := by
  simp [State.unschedule, *]

@[simp] theorem State.mask_admitUnit (h2 : Part.arr ∈ ps) (h10 : Part.pwr ∈ ps) (h12 : Part.mgmt ∈ ps) (u : Nat) (s : State) :
    (State.admitUnit u s).mask ps = s.mask ps := by
  unfold State.admitUnit
  lift_lets
  intro t
  have e1 : State.mask ps t = s.mask ps := by subst t; simp [*]
  clear_value t
  intro v
  have e2 : State.mask ps v = s.mask ps := by subst v; simp [*]
  clear_value v
  simp [*]

@[simp] theorem State.mask_retireUnit (h2 : Part.arr ∈ ps) (h10 : Part.pwr ∈ ps) (h12 : Part.mgmt ∈ ps) (u : Nat) (s : State) :
    (State.retireUnit u s).mask ps = s.mask ps := by
  unfold State.retireUnit
  lift_lets
  intro t v
  clear_value t v
  intro w
  have e1 (u : State) : State.mask ps (w u) = u.mask ps := by subst w; dsimp only; simp [*]
  clear_value w
  intro x
  have e2 : State.mask ps x = s.mask ps := by subst x; simp [*]
  clear_value x
  intro y
  clear_value y
  intro z
  have e3 : State.mask ps z = s.mask ps := by subst z; simp [*]
  clear_value z
  intro a
  have e4 : State.mask ps a = s.mask ps := by subst a; (repeat' split) <;> simp [*]
  clear_value a
  simp [*]

@[simp] theorem State.mask_factoryMap (h2 : Part.arr ∈ ps) (h10 : Part.pwr ∈ ps) (h12 : Part.mgmt ∈ ps) (s : State) :
    (State.factoryMap s).mask ps = s.mask ps := by
  unfold State.factoryMap
  lift_lets
  intro t
  have e1 : State.mask ps t = s.mask ps := by subst t; simp [*]
  clear_value t
  intro u
  have e2 : State.mask ps u = s.mask ps := by subst u; simp [*]
  clear_value u
  intro v
  clear_value v
  intro w
  have e3 : State.mask ps w = s.mask ps := by subst w; simp [*]
  clear_value w
  simp [*]

/-! ### Machine/Interrupts.lean -/

@[simp] theorem State.mask_serve (h0 : Part.int ∈ ps) (x : BitVec 2) (n : Nat) (s : State) :
    (State.serve x n s).mask ps = s.mask ps := by
  simp [State.serve, *]

@[simp] theorem State.mask_spurious (h0 : Part.int ∈ ps) (s : State) :
    (State.spurious s).2.mask ps = s.mask ps := by
  simp [State.spurious, *]

@[simp] theorem State.mask_lateClaim (h0 : Part.int ∈ ps) (h1 : Part.fresh ∈ ps) (x : HostTarget) (g : Gone) (s : State) :
    (State.lateClaim x g s).2.mask ps = s.mask ps := by
  unfold State.lateClaim
  dsimp only
  (repeat' split) <;> simp [*]

@[simp] theorem State.mask_claim (h0 : Part.int ∈ ps) (h1 : Part.fresh ∈ ps) (x : HostTarget) (s : State) :
    (State.claim x s).2.mask ps = s.mask ps := by
  unfold State.claim
  dsimp only
  (repeat' split) <;> simp [*]

@[simp] theorem State.mask_complete (h0 : Part.int ∈ ps) (x : HostTarget) (w : Word) (s : State) :
    (State.complete x w s).mask ps = s.mask ps := by
  unfold State.complete
  lift_lets
  intro t
  clear_value t
  (repeat' split) <;> simp [*]

@[simp] theorem State.mask_writeSource (h0 : Part.int ∈ ps) (n : Nat) (w : Word) (s : State) :
    (State.writeSource n w s).mask ps = s.mask ps := by
  simp [State.writeSource, *]

@[simp] theorem State.mask_writeIntCfg (h0 : Part.int ∈ ps) (w : Word) (s : State) :
    (State.writeIntCfg w s).mask ps = s.mask ps := by
  unfold State.writeIntCfg
  (repeat' split) <;> simp [*]

@[simp] theorem State.mask_writeIntThresh (h0 : Part.int ∈ ps) (w : Word) (s : State) :
    (State.writeIntThresh w s).mask ps = s.mask ps := by
  simp [State.writeIntThresh, *]

@[simp] theorem State.mask_clearStats (h0 : Part.int ∈ ps) (s : State) :
    (State.clearStats s).mask ps = s.mask ps := by
  simp [State.clearStats, *]

/-! ### Machine/Thermal.lean -/

@[simp] theorem State.mask_thermSettle (h0 : Part.therm ∈ ps) (s : State) :
    (State.thermSettle s).mask ps = s.mask ps := by
  simp [State.thermSettle, *]

@[simp] theorem State.mask_writeThermCtrl (h0 : Part.therm ∈ ps) (w : Word) (s : State) :
    (State.writeThermCtrl w s).mask ps = s.mask ps := by
  simp [State.writeThermCtrl, *]

@[simp] theorem State.mask_setThermLimits (h0 : Part.therm ∈ ps) (maxCode : BitVec 8) (power : BitVec 9) (s : State) :
    (State.setThermLimits maxCode power s).mask ps = s.mask ps := by
  simp [State.setThermLimits, *]

@[simp] theorem State.mask_writeThermStat (h0 : Part.therm ∈ ps) (w : Word) (s : State) :
    (State.writeThermStat w s).mask ps = s.mask ps := by
  simp [State.writeThermStat, *]

@[simp] theorem State.mask_thermEvent (h0 : Part.therm ∈ ps) (h1 : Part.mgmt ∈ ps) (ev : ThermEvent) (s : State) :
    (State.thermEvent ev s).mask ps = s.mask ps := by
  unfold State.thermEvent
  lift_lets
  intro t
  have e1 : State.mask ps t = s.mask ps := by subst t; simp [*]
  clear_value t
  intro u
  have e2 : State.mask ps u = s.mask ps := by subst u; simp [*]
  clear_value u
  simp [*]

@[simp] theorem State.mask_thermMeasured (h0 : Part.therm ∈ ps) (h1 : Part.mgmt ∈ ps) (gradient : BitVec 6)
    (tplat : BitVec 16) (s : State) :
    (State.thermMeasured gradient tplat s).mask ps = s.mask ps := by
  unfold State.thermMeasured
  lift_lets
  intro t
  have e1 : State.mask ps t = s.mask ps := by subst t; simp [*]
  clear_value t
  simp [*]

@[simp] theorem State.mask_tickTherm (h0 : Part.therm ∈ ps) (h1 : Part.mgmt ∈ ps) (h2 : Part.fresh ∈ ps) (s : State) :
    (State.tickTherm s).mask ps = s.mask ps := by
  simp [State.tickTherm, h0, h1, h2]

@[simp] theorem State.mask_thermOff (h0 : Part.therm ∈ ps) (s : State) :
    (State.thermOff s).mask ps = s.mask ps := by
  simp [State.thermOff, h0]

/-! ### Machine/AuxFront.lean -/

@[simp] theorem State.mask_commitConv (h0 : Part.aux ∈ ps) (c : Fin 4) (s : State) :
    (State.commitConv c s).mask ps = s.mask ps := by
  unfold State.commitConv
  dsimp only
  rw [State.mask_ite, State.mask_ite, State.mask_modConv h0, State.mask_modConv h0, ite_self, ite_self]

@[simp] theorem State.mask_startConvAt (h0 : Part.harrow ∈ ps) (h1 : Part.aux ∈ ps) (c : Fin 4) (t : Tick) (s : State) :
    (State.startConvAt c t s).mask ps = s.mask ps := by
  unfold State.startConvAt
  lift_lets
  intro u
  have e1 : State.mask ps u = s.mask ps := by subst u; simp [*]
  clear_value u
  simp [*]

@[simp] theorem State.mask_startConv (h0 : Part.harrow ∈ ps) (h1 : Part.aux ∈ ps) (c : Fin 4) (s : State) :
    (State.startConv c s).mask ps = s.mask ps := by
  simp [State.startConv, h0, h1]

@[simp] theorem State.mask_boundaryAt (h0 : Part.aux ∈ ps) (c : Fin 4) (t : Tick) (s : State) :
    (State.boundaryAt c t s).mask ps = s.mask ps := by
  simp [State.boundaryAt, *]

@[simp] theorem State.mask_startReset (h0 : Part.aux ∈ ps) (c : Fin 4) (s : State) :
    (State.startReset c s).mask ps = s.mask ps := by
  unfold State.startReset
  (repeat' split) <;> simp [*]

@[simp] theorem State.mask_settleExc (h0 : Part.aux ∈ ps) (new : Aux) (s : State) :
    (State.settleExc new s).mask ps = s.mask ps := by
  unfold State.settleExc
  lift_lets
  intro t
  clear_value t
  simp [*]

@[simp] theorem State.mask_writeExc (h0 : Part.aux ∈ ps) (n : Fin 4) (w : Word) (s : State) :
    (State.writeExc n w s).mask ps = s.mask ps := by
  simp [State.writeExc, *]

@[simp] theorem State.mask_excSuppress (h0 : Part.harrow ∈ ps) (h1 : Part.aux ∈ ps) (n : Nat) (at_ : Tick) (s : State) :
    (State.excSuppress n at_ s).mask ps = s.mask ps := by
  unfold State.excSuppress
  rw [State.mask_foldUpto]
  intro t k
  (repeat' split) <;> simp [*]

@[simp] theorem State.mask_writeAuxStat (h0 : Part.aux ∈ ps) (w : Word) (s : State) :
    (State.writeAuxStat w s).mask ps = s.mask ps := by
  simp [State.writeAuxStat, *]

@[simp] theorem State.mask_writeAuxCtrl (h0 : Part.aux ∈ ps) (w : Word) (s : State) :
    (State.writeAuxCtrl w s).mask ps = s.mask ps := by
  have h (f : Fin 4 → State → State) (hf : ∀ c u, (f c u).mask ps = u.mask ps) (lo : Nat) (u : State) :
      (foldUpto (fun t k => if h : k < 4 then (if bitAt w (lo + k) then f ⟨k, h⟩ t else t) else t) u 4).mask ps = u.mask ps := by
    refine State.mask_foldUpto _ (fun t k => ?_) _ _
    (repeat' split) <;> simp [hf]
  unfold State.writeAuxCtrl
  dsimp only
  rw [State.mask_modAux (by simp [*]), h _ (by intros; simp [*]), h _ (by intros; simp [*])]

@[simp] theorem State.mask_cutSuppress (h0 : Part.harrow ∈ ps) (h1 : Part.aux ∈ ps) (cut : BitVec 4) (s : State) :
    (State.cutSuppress cut s).mask ps = s.mask ps := by
  unfold State.cutSuppress
  rw [State.mask_foldUpto]
  intro t k
  (repeat' split) <;> simp [*]

@[simp] theorem State.mask_quietFault (h0 : Part.harrow ∈ ps) (old : State) (ch : Nat) (s : State) :
    (State.quietFault old ch s).mask ps = s.mask ps := by
  simp [State.quietFault, *]

@[simp] theorem State.mask_storeTeds (h0 : Part.aux ∈ ps) (h1 : Part.mgmt ∈ ps) (p : Nat) (found : TedsFound) (s : State) :
    (State.storeTeds p found s).mask ps = s.mask ps := by
  unfold State.storeTeds
  lift_lets
  intro t u
  clear_value t u
  intro v
  have e1 : State.mask ps v = s.mask ps := by subst v; simp [*]
  clear_value v
  simp [*]

@[simp] theorem State.mask_calAdd (h0 : Part.aux ∈ ps) (mask : BitVec 4) (s : State) :
    (State.calAdd mask s).mask ps = s.mask ps := by
  simp [State.calAdd, h0]

@[simp] theorem State.mask_calConvDone (h0 : Part.harrow ∈ ps) (h1 : Part.aux ∈ ps) (c : Fin 4) (s : State) :
    (State.calConvDone c s).mask ps = s.mask ps := by
  simp [State.calConvDone, *]

@[simp] theorem State.mask_auxStops (h0 : Part.aux ∈ ps) (s : State) :
    (State.auxStops s).mask ps = s.mask ps := by
  simp [State.auxStops, *]

@[simp] theorem State.mask_auxOff (h0 : Part.aux ∈ ps) (s : State) :
    (State.auxOff s).mask ps = s.mask ps := by
  simp [State.auxOff, *]

@[simp] theorem State.mask_releaseConv (h0 : Part.harrow ∈ ps) (h1 : Part.aux ∈ ps) (c : Fin 4) (s : State) :
    (State.releaseConv c s).mask ps = s.mask ps := by
  unfold State.releaseConv
  (repeat' split) <;> simp [*]

@[simp] theorem State.mask_auxReturns (h0 : Part.harrow ∈ ps) (h1 : Part.aux ∈ ps) (s : State) :
    (State.auxReturns s).mask ps = s.mask ps := by
  unfold State.auxReturns
  refine (State.mask_foldUpto _ (fun t k => ?_) _ _).trans (by simp [*])
  (repeat' split) <;> simp [*]

@[simp] theorem State.mask_writeAux (h0 : Part.aux ∈ ps) (o : Nat) (w : Word) (s : State) :
    (State.writeAux o w s).mask ps = s.mask ps := by
  simp [State.writeAux, *]

/-! ### Machine/Scarecrow.lean -/

@[simp] theorem State.mask_scarSample (h0 : Part.scar ∈ ps) (t : Tick) (x y z : Grain) (s : State) :
    (State.scarSample t x y z s).mask ps = s.mask ps := by
  unfold State.scarSample
  (repeat' split) <;> simp [*]

@[simp] theorem State.mask_scarWrite (h0 : Part.harrow ∈ ps) (h1 : Part.scar ∈ ps) (h2 : Part.buf ∈ ps) (cclass : BitVec 3)
    (axis : BitVec 2) (neg : Bool) (peak mean : Grain) (ts : Tick) (s : State) :
    (State.scarWrite cclass axis neg peak mean ts s).mask ps = s.mask ps := by
  unfold State.scarWrite
  lift_lets
  intro t
  have e1 : State.mask ps t = s.mask ps := by subst t; simp [*]
  clear_value t
  intro u
  have e2 : State.mask ps u = s.mask ps := by subst u; simp [*]
  clear_value u
  simp [*]

/-! ### Machine/Chain.lean -/

@[simp] theorem State.mask_chainOutput (h0 : Part.harrow ∈ ps) (k : PathKind) (t : Tick) (raw : Stage4) (s : State) :
    (State.chainOutput k t raw s).1.mask ps = s.mask ps := by
  unfold State.chainOutput
  lift_lets
  intro u v
  clear_value u v
  simp [*]

@[simp] theorem State.mask_refreshTheta (h0 : Part.harrow ∈ ps) (out : Vector Grain 24) (s : State) :
    (State.refreshTheta out s).mask ps = s.mask ps := by
  unfold State.refreshTheta
  simp [*]

@[simp] theorem State.mask_queueOutput (h0 : Part.harrow ∈ ps) (h1 : Part.buf ∈ ps) (g : Group) (k : PathKind) (t : Tick)
    (out : Vector Grain 24) (s : State) :
    (State.queueOutput g k t out s).mask ps = s.mask ps := by
  unfold State.queueOutput
  lift_lets
  intro u v
  clear_value u v
  intro w
  have e1 : State.mask ps w = s.mask ps := by subst w; simp [*]
  clear_value w
  intro x
  clear_value x
  simp [*]

@[simp] theorem State.mask_feedCapture (h0 : Part.cap ∈ ps) (k : PathKind) (t : Tick) (out : Vector Grain 24) (s : State) :
    (State.feedCapture k t out s).mask ps = s.mask ps := by
  unfold State.feedCapture
  (repeat' split) <;> simp [*]

@[simp] theorem State.mask_feedSpec (h0 : Part.spec ∈ ps) (k : PathKind) (t : Tick) (out : Vector Grain 24) (s : State) :
    (State.feedSpec k t out s).mask ps = s.mask ps := by
  simp [State.feedSpec, h0]

@[simp] theorem State.mask_pathOutput (h0 : Part.harrow ∈ ps) (h1 : Part.recog ∈ ps) (h2 : Part.cap ∈ ps)
    (h3 : Part.scar ∈ ps) (h4 : Part.spec ∈ ps) (h5 : Part.smc ∈ ps) (h6 : Part.buf ∈ ps) (k : PathKind) (t : Tick)
    (raw : Stage4) (s : State) :
    (State.pathOutput k t raw s).mask ps = s.mask ps := by
  unfold State.pathOutput
  dsimp only
  split
  · rw [State.mask_queueOutput, State.mask_feedSpec, State.mask_feedCapture, State.mask_chainOutput] <;> assumption
  · rw [State.mask_recogSample, State.mask_scarSample, State.mask_feedCapture, State.mask_refreshTheta, State.mask_modHarrow,
      State.mask_chainOutput] <;> assumption

@[simp] theorem State.mask_applyUser (h0 : Part.harrow ∈ ps) (ch : Nat) (s : State) :
    (State.applyUser ch s).mask ps = s.mask ps := by
  unfold State.applyUser
  lift_lets
  intro t u v w x y
  clear_value t u v w x y
  simp [*]

@[simp] theorem State.mask_writeHarrow (h0 : Part.harrow ∈ ps) (ch : Nat) (w : Word) (s : State) :
    (State.writeHarrow ch w s).mask ps = s.mask ps := by
  unfold State.writeHarrow
  lift_lets
  intro t u
  clear_value t u
  intro v
  have e1 : State.mask ps v = s.mask ps := by subst v; simp [*]
  clear_value v
  intro x
  have e2 : State.mask ps x = s.mask ps := by subst x; simp [*]
  clear_value x
  intro y
  have e3 : State.mask ps y = s.mask ps := by subst y; simp [*]
  clear_value y
  intro z
  clear_value z
  simp [*]

@[simp] theorem State.mask_writeChan (h1 : Part.harrow ∈ ps) (h2 : Part.arr ∈ ps) (h10 : Part.pwr ∈ ps) (h12 : Part.mgmt ∈ ps)
    (o : Nat) (w : Word) (s : State) :
    (State.writeChan o w s).mask ps = s.mask ps := by
  unfold State.writeChan
  lift_lets
  intro t
  clear_value t
  (repeat' split) <;> simp [*]

@[simp] theorem State.mask_writeUser (h0 : Part.harrow ∈ ps) (o : Nat) (w : Word) (s : State) :
    (State.writeUser o w s).mask ps = s.mask ps := by
  simp [State.writeUser, *]

@[simp] theorem State.mask_writeBiquad (h0 : Part.harrow ∈ ps) (o : Nat) (w : Word) (s : State) :
    (State.writeBiquad o w s).mask ps = s.mask ps := by
  unfold State.writeBiquad
  lift_lets
  intro t u
  clear_value t u
  simp [*]

@[simp] theorem State.mask_chainEnOff (h0 : Part.harrow ∈ ps) (s : State) :
    (State.chainEnOff s).mask ps = s.mask ps := by
  simp [State.chainEnOff, *]

/-! ### Machine/StateMachines.lean -/

@[simp] theorem State.mask_modMachine (h0 : Part.smc ∈ ps) (m : Nat) (f : Smc → Smc) (s : State) :
    (State.modMachine m f s).mask ps = s.mask ps := by
  simp [State.modMachine, *]

@[simp] theorem State.mask_smEvent (h0 : Part.smc ∈ ps) (m : Nat) (s : State) :
    (State.smEvent m s).mask ps = s.mask ps := by
  simp [State.smEvent, *]

@[simp] theorem State.mask_smEnter (h0 : Part.cap ∈ ps) (h1 : Part.smc ∈ ps) (h2 : Part.buf ∈ ps) (h3 : Part.host ∈ ps)
    (m : Nat) (st : BitVec 6) (cause : BitVec 2) (t due : Tick) (s : State) :
    (State.smEnter m st cause t due s).mask ps = s.mask ps := by
  simp [State.smEnter, *]

@[simp] theorem State.mask_smTimers (h0 : Part.smc ∈ ps) (m : Nat) (st : Option (BitVec 6)) (s : State) :
    (State.smTimers m st s).mask ps = s.mask ps := by
  unfold State.smTimers
  lift_lets
  intro t
  clear_value t
  simp [*]

@[simp] theorem State.mask_smTickOne (h0 : Part.cap ∈ ps) (h1 : Part.smc ∈ ps) (h2 : Part.buf ∈ ps) (h3 : Part.host ∈ ps)
    (s0 : State) (m : Nat) (t due : Tick) (s : State) :
    (State.smTickOne s0 m t due s).mask ps = s.mask ps := by
  unfold State.smTickOne
  dsimp only
  (repeat' split) <;> simp [*]

@[simp] theorem State.mask_smMoment (h0 : Part.cap ∈ ps) (h1 : Part.smc ∈ ps) (h2 : Part.buf ∈ ps) (h3 : Part.host ∈ ps)
    (rate : Nat) (t due : Tick) (s : State) :
    (State.smMoment rate t due s).mask ps = s.mask ps := by
  unfold State.smMoment
  rw [State.mask_foldUpto]
  intro u m
  split <;> simp [*]

@[simp] theorem State.mask_oweTick (h0 : Part.smc ∈ ps) (k : PathKind) (t : Tick) (s : State) :
    (State.oweTick k t s).mask ps = s.mask ps := by
  unfold State.oweTick
  lift_lets
  intro u
  clear_value u
  simp [*]

@[simp] theorem State.mask_smTick (h0 : Part.recog ∈ ps) (h1 : Part.cap ∈ ps) (h2 : Part.smc ∈ ps) (h3 : Part.buf ∈ ps)
    (h4 : Part.host ∈ ps) (rate : Fin 3) (s : State) :
    (State.smTick rate s).mask ps = s.mask ps := by
  unfold State.smTick
  (repeat' split) <;> simp [*]

@[simp] theorem State.mask_settleTicks (h0 : Part.recog ∈ ps) (h1 : Part.cap ∈ ps) (h2 : Part.smc ∈ ps) (h3 : Part.buf ∈ ps)
    (h4 : Part.host ∈ ps) (rate : Fin 3) (s : State) :
    (State.settleTicks rate s).mask ps = s.mask ps := by
  unfold State.settleTicks
  dsimp only
  split
  · rw [State.mask_foldUpto]
    intro u k
    (repeat' split) <;> simp [*]
  · rfl

@[simp] theorem State.mask_smStartOne (h0 : Part.smc ∈ ps) (m : Nat) (s : State) :
    (State.smStartOne m s).mask ps = s.mask ps := by
  unfold State.smStartOne
  (repeat' split) <;> simp [*]

@[simp] theorem State.mask_smStopOne (h0 : Part.smc ∈ ps) (m : Nat) (s : State) :
    (State.smStopOne m s).mask ps = s.mask ps := by
  simp [State.smStopOne, *]

@[simp] theorem State.mask_writeSmCtrl (h0 : Part.smc ∈ ps) (w : Word) (s : State) :
    (State.writeSmCtrl w s).mask ps = s.mask ps := by
  unfold State.writeSmCtrl
  rw [State.mask_foldUpto]
  intro t k
  simp [*]

@[simp] theorem State.mask_writeProgram (h0 : Part.smc ∈ ps) (o : Nat) (w : Word) (s : State) :
    (State.writeProgram o w s).mask ps = s.mask ps := by
  simp [State.writeProgram, *]

@[simp] theorem State.mask_runtimeReadEffect (h0 : Part.smc ∈ ps) (o : Nat) (s : State) :
    (State.runtimeReadEffect o s).mask ps = s.mask ps := by
  simp [State.runtimeReadEffect, *]

@[simp] theorem State.mask_writeRuntime (h0 : Part.smc ∈ ps) (o : Nat) (w : Word) (s : State) :
    (State.writeRuntime o w s).mask ps = s.mask ps := by
  unfold State.writeRuntime
  (repeat' split) <;> simp [*]

@[simp] theorem State.mask_smReturns (h0 : Part.smc ∈ ps) (s : State) :
    (State.smReturns s).mask ps = s.mask ps := by
  simp [State.smReturns, *]

@[simp] theorem State.mask_smEnOff (h0 : Part.smc ∈ ps) (s : State) :
    (State.smEnOff s).mask ps = s.mask ps := by
  simp [State.smEnOff, *]

/-! ### Machine/Power.lean -/

@[simp] theorem State.mask_writePwrStat (h0 : Part.pwr ∈ ps) (w : Word) (s : State) :
    (State.writePwrStat w s).mask ps = s.mask ps := by
  simp [State.writePwrStat, *]

@[simp] theorem State.mask_writePwrReq (h0 : Part.pwr ∈ ps) (w : Word) (s : State) :
    (State.writePwrReq w s).mask ps = s.mask ps := by
  simp [State.writePwrReq, *]

@[simp] theorem State.mask_endCommand (h0 : Part.host ∈ ps) (h1 : Part.mgmt ∈ ps) (result : BitVec 8) (s : State) :
    (State.endCommand result s).mask ps = s.mask ps := by
  unfold State.endCommand
  lift_lets
  intro t
  clear_value t
  intro u
  have e1 : State.mask ps u = s.mask ps := by subst u; simp [*]
  clear_value u
  intro v
  have e2 : State.mask ps v = s.mask ps := by subst v; simp [*]
  clear_value v
  simp [*]

@[simp] theorem State.mask_mcLeaves (h0 : Part.arr ∈ ps) (h1 : Part.pwr ∈ ps) (h2 : Part.host ∈ ps) (h3 : Part.mport ∈ ps)
    (h4 : Part.mgmt ∈ ps) (s : State) :
    (State.mcLeaves s).mask ps = s.mask ps := by
  unfold State.mcLeaves
  lift_lets
  intro t
  have e1 : State.mask ps t = s.mask ps := by subst t; simp [*]
  clear_value t
  intro u
  have e2 : State.mask ps u = s.mask ps := by subst u; simp [*]
  clear_value u
  simp [*]

@[simp] theorem State.mask_mcOff (h0 : Part.aux ∈ ps) (h1 : Part.pwr ∈ ps) (h2 : Part.mport ∈ ps) (h3 : Part.mgmt ∈ ps)
    (s : State) :
    (State.mcOff s).mask ps = s.mask ps := by
  unfold State.mcOff
  lift_lets
  intro t
  have e1 : State.mask ps t = s.mask ps := by subst t; simp [*]
  clear_value t
  intro u
  have e2 : State.mask ps u = s.mask ps := by subst u; simp [*]
  clear_value u
  simp [*]

@[simp] theorem State.mask_enOff (h0 : Part.clk ∈ ps) (h1 : Part.harrow ∈ ps) (h2 : Part.recog ∈ ps) (h3 : Part.cap ∈ ps)
    (h4 : Part.smc ∈ ps) (s : State) :
    (State.enOff s).mask ps = s.mask ps := by
  unfold State.enOff
  lift_lets
  intro t
  have e1 : State.mask ps t = s.mask ps := by subst t; simp [*]
  clear_value t
  simp [*]

@[simp] theorem State.mask_loses (h0 : Part.clk ∈ ps) (h1 : Part.harrow ∈ ps) (h2 : Part.therm ∈ ps) (h3 : Part.aux ∈ ps)
    (h4 : Part.recog ∈ ps) (h5 : Part.cap ∈ ps) (h6 : Part.spec ∈ ps) (h7 : Part.smc ∈ ps) (h8 : Part.buf ∈ ps)
    (h9 : Part.pwr ∈ ps) (h10 : Part.mport ∈ ps) (h11 : Part.mgmt ∈ ps) (d : Dom) (s : State) :
    (State.loses d s).mask ps = s.mask ps := by
  unfold State.loses
  (repeat' split) <;> simp [*]

@[simp] theorem State.mask_leaves (h0 : Part.harrow ∈ ps) (h1 : Part.arr ∈ ps) (h2 : Part.aux ∈ ps) (h3 : Part.cap ∈ ps)
    (h4 : Part.spec ∈ ps) (h5 : Part.buf ∈ ps) (h6 : Part.pwr ∈ ps) (h7 : Part.host ∈ ps) (h8 : Part.mport ∈ ps)
    (h9 : Part.mgmt ∈ ps) (h10 : Part.fresh ∈ ps) (d : Dom)
    (s : State) :
    (State.leaves d s).mask ps = s.mask ps := by
  unfold State.leaves
  (repeat' split) <;> simp [*]

@[simp] theorem State.mask_settleStopped (h0 : Part.harrow ∈ ps) (h1 : Part.therm ∈ ps) (h2 : Part.recog ∈ ps)
    (h3 : Part.cap ∈ ps) (h4 : Part.smc ∈ ps) (h5 : Part.buf ∈ ps) (h6 : Part.pwr ∈ ps) (d : Dom) (s : State) :
    (State.settleStopped d s).mask ps = s.mask ps := by
  unfold State.settleStopped
  (repeat' split) <;> simp [*]

@[simp] theorem State.mask_commitDemand (h0 : Part.pwr ∈ ps) (s : State) :
    (State.commitDemand s).mask ps = s.mask ps := by
  simp [State.commitDemand, h0]

@[simp] theorem State.mask_settleFront (h0 : Part.arr ∈ ps) (h1 : Part.mgmt ∈ ps) (d : Dom) (s t : State) :
    (State.settleFront d s t).mask ps = t.mask ps := by
  unfold State.settleFront
  split
  · apply State.mask_settleArray <;> assumption
  · apply State.mask_settleArray <;> assumption
  · rfl

@[simp] theorem State.mask_startStop (h0 : Part.harrow ∈ ps) (h1 : Part.arr ∈ ps) (h2 : Part.therm ∈ ps) (h3 : Part.aux ∈ ps)
    (h4 : Part.recog ∈ ps) (h5 : Part.cap ∈ ps) (h6 : Part.spec ∈ ps) (h7 : Part.smc ∈ ps) (h8 : Part.buf ∈ ps)
    (h9 : Part.pwr ∈ ps) (h10 : Part.host ∈ ps) (h11 : Part.mport ∈ ps) (h12 : Part.mgmt ∈ ps) (h13 : Part.fresh ∈ ps)
    (d : Dom) (goal : Rest)
    (s : State) :
    (State.startStop d goal s).mask ps = s.mask ps := by
  unfold State.startStop
  lift_lets
  intro t
  clear_value t
  intro u
  have e1 : State.mask ps u = s.mask ps := by subst u; simp [*]
  clear_value u
  intro v
  have e2 : State.mask ps v = s.mask ps := by subst v; simp [*]
  clear_value v
  intro w
  have e3 : State.mask ps w = s.mask ps := by subst w; simp [*]
  clear_value w
  intro x
  have e4 : State.mask ps x = s.mask ps := by subst x; simp [*]
  clear_value x
  simp [*]

@[simp] theorem State.mask_rearmCapture (h0 : Part.cap ∈ ps) (s : State) :
    (State.rearmCapture s).mask ps = s.mask ps := by
  simp [State.rearmCapture, *]

@[simp] theorem State.mask_arrives (h0 : Part.clk ∈ ps) (h1 : Part.harrow ∈ ps) (h2 : Part.arr ∈ ps) (h3 : Part.aux ∈ ps)
    (h4 : Part.recog ∈ ps) (h5 : Part.cap ∈ ps) (h6 : Part.spec ∈ ps) (h7 : Part.smc ∈ ps) (h8 : Part.buf ∈ ps)
    (h9 : Part.pwr ∈ ps) (h10 : Part.host ∈ ps) (h11 : Part.mgmt ∈ ps) (d : Dom) (fromRet : Bool) (s : State) :
    (State.arrives d fromRet s).mask ps = s.mask ps := by
  unfold State.arrives
  (repeat' split) <;> simp [*]

@[simp] theorem State.mask_startWake (h0 : Part.clk ∈ ps) (h1 : Part.pwr ∈ ps) (d : Dom) (goal : Rest) (demand : Bool)
    (s : State) :
    (State.startWake d goal demand s).mask ps = s.mask ps := by
  unfold State.startWake
  lift_lets
  intro t
  have e1 : State.mask ps t = s.mask ps := by subst t; simp [*]
  clear_value t
  simp [*]

@[simp] theorem State.mask_stampWakes (h0 : Part.pwr ∈ ps) (s : State) :
    (State.stampWakes s).mask ps = s.mask ps := by
  unfold State.stampWakes
  lift_lets
  intro t
  clear_value t
  simp [*]

@[simp] theorem State.mask_mapDemand (h0 : Part.pwr ∈ ps) (s : State) :
    (State.mapDemand s).mask ps = s.mask ps := by
  simp [State.mapDemand, *]

@[simp] theorem State.mask_endStall (h1 : Part.host ∈ ps) (d : Dom) (s : State) :
    (State.endStall d s).mask ps = s.mask ps := by
  unfold State.endStall
  (repeat' split) <;> simp [*]

@[simp] theorem State.mask_failOne (h0 : Part.clk ∈ ps) (h1 : Part.harrow ∈ ps) (h2 : Part.therm ∈ ps) (h3 : Part.aux ∈ ps)
    (h4 : Part.recog ∈ ps) (h5 : Part.cap ∈ ps) (h6 : Part.spec ∈ ps) (h7 : Part.smc ∈ ps) (h8 : Part.buf ∈ ps)
    (h9 : Part.pwr ∈ ps) (h10 : Part.host ∈ ps) (h11 : Part.mport ∈ ps) (h12 : Part.mgmt ∈ ps) (d : Dom) (s : State) :
    (State.failOne d s).mask ps = s.mask ps := by
  unfold State.failOne
  lift_lets
  intro t
  have e1 : State.mask ps t = s.mask ps := by subst t; simp [*]
  clear_value t
  intro u
  have e2 : State.mask ps u = s.mask ps := by subst u; simp [*]
  clear_value u
  intro v
  have e3 : State.mask ps v = s.mask ps := by subst v; simp [*]
  clear_value v
  simp [*]

@[simp] theorem State.mask_fail (h0 : Part.clk ∈ ps) (h1 : Part.harrow ∈ ps) (h2 : Part.therm ∈ ps) (h3 : Part.aux ∈ ps)
    (h4 : Part.recog ∈ ps) (h5 : Part.cap ∈ ps) (h6 : Part.spec ∈ ps) (h7 : Part.smc ∈ ps) (h8 : Part.buf ∈ ps)
    (h9 : Part.pwr ∈ ps) (h10 : Part.host ∈ ps) (h11 : Part.mport ∈ ps) (h12 : Part.mgmt ∈ ps) (d : Dom) (s : State) :
    (State.fail d s).mask ps = s.mask ps := by
  unfold State.fail
  lift_lets
  intro t
  have e1 : State.mask ps t = s.mask ps := by subst t; simp [*]
  clear_value t
  intro u
  have e2 : State.mask ps u = s.mask ps := by subst u; simp [*]
  clear_value u
  intro v
  have e3 : State.mask ps v = s.mask ps := by subst v; simp [*]
  clear_value v
  simp [*]

@[simp] theorem State.mask_tryStop (h0 : Part.harrow ∈ ps) (h1 : Part.arr ∈ ps) (h2 : Part.therm ∈ ps) (h3 : Part.aux ∈ ps)
    (h4 : Part.recog ∈ ps) (h5 : Part.cap ∈ ps) (h6 : Part.spec ∈ ps) (h7 : Part.smc ∈ ps) (h8 : Part.buf ∈ ps)
    (h9 : Part.pwr ∈ ps) (h10 : Part.host ∈ ps) (h11 : Part.mport ∈ ps) (h12 : Part.mgmt ∈ ps) (h13 : Part.fresh ∈ ps)
    (d : Dom) (goal : Rest)
    (s : State) :
    (State.tryStop d goal s).1.mask ps = s.mask ps := by
  unfold State.tryStop
  lift_lets
  intro t u
  clear_value t u
  (repeat' split) <;> simp [*]

@[simp] theorem State.mask_decideOne (h0 : Part.clk ∈ ps) (h1 : Part.harrow ∈ ps) (h2 : Part.arr ∈ ps) (h3 : Part.therm ∈ ps)
    (h4 : Part.aux ∈ ps) (h5 : Part.recog ∈ ps) (h6 : Part.cap ∈ ps) (h7 : Part.spec ∈ ps) (h8 : Part.smc ∈ ps)
    (h9 : Part.buf ∈ ps) (h10 : Part.pwr ∈ ps) (h11 : Part.host ∈ ps) (h12 : Part.mport ∈ ps) (h13 : Part.mgmt ∈ ps)
    (h14 : Part.fresh ∈ ps) (write idle : Bool) (d : Dom) (s : State) :
    (State.decideOne write idle d s).1.mask ps = s.mask ps := by
  unfold State.decideOne
  lift_lets
  intro t
  clear_value t
  (repeat' split) <;> simp [*]

@[simp] theorem State.mask_noteRefusal (h0 : Part.pwr ∈ ps) (h1 : Part.mgmt ∈ ps) (d : Dom) (s : State) :
    (State.noteRefusal d s).mask ps = s.mask ps := by
  unfold State.noteRefusal
  lift_lets
  intro t
  have e1 : State.mask ps t = s.mask ps := by subst t; simp [*]
  clear_value t
  simp [*]

@[simp] theorem State.mask_decideAll (h0 : Part.clk ∈ ps) (h1 : Part.harrow ∈ ps) (h2 : Part.arr ∈ ps) (h3 : Part.therm ∈ ps)
    (h4 : Part.aux ∈ ps) (h5 : Part.recog ∈ ps) (h6 : Part.cap ∈ ps) (h7 : Part.spec ∈ ps) (h8 : Part.smc ∈ ps)
    (h9 : Part.buf ∈ ps) (h10 : Part.pwr ∈ ps) (h11 : Part.host ∈ ps) (h12 : Part.mport ∈ ps) (h13 : Part.mgmt ∈ ps)
    (h14 : Part.fresh ∈ ps) (write : Bool) (x0 : List Dom) (s : State) :
    (State.decideAll write x0 s).1.mask ps = s.mask ps := by
  induction x0 generalizing s with
  | nil => rfl
  | cons d ds ih => simp [State.decideAll, *]

@[simp] theorem State.mask_process (h0 : Part.clk ∈ ps) (h1 : Part.harrow ∈ ps) (h2 : Part.arr ∈ ps) (h3 : Part.therm ∈ ps)
    (h4 : Part.aux ∈ ps) (h5 : Part.recog ∈ ps) (h6 : Part.cap ∈ ps) (h7 : Part.spec ∈ ps) (h8 : Part.smc ∈ ps)
    (h9 : Part.buf ∈ ps) (h10 : Part.pwr ∈ ps) (h11 : Part.host ∈ ps) (h12 : Part.mport ∈ ps) (h13 : Part.mgmt ∈ ps)
    (h14 : Part.fresh ∈ ps) (write : Bool) (start : Nat) (s : State) :
    (State.process write start s).mask ps = s.mask ps := by
  unfold State.process
  dsimp only
  (repeat' split) <;> simp [*]

@[simp] theorem State.mask_takeUp (h0 : Part.clk ∈ ps) (h1 : Part.harrow ∈ ps) (h2 : Part.arr ∈ ps) (h3 : Part.therm ∈ ps)
    (h4 : Part.aux ∈ ps) (h5 : Part.recog ∈ ps) (h6 : Part.cap ∈ ps) (h7 : Part.spec ∈ ps) (h8 : Part.smc ∈ ps)
    (h9 : Part.buf ∈ ps) (h10 : Part.pwr ∈ ps) (h11 : Part.host ∈ ps) (h12 : Part.mport ∈ ps) (h13 : Part.mgmt ∈ ps)
    (h14 : Part.fresh ∈ ps) (d : Dom)
    (s : State) :
    (State.takeUp d s).mask ps = s.mask ps := by
  simp [State.takeUp, *]

@[simp] theorem State.mask_resume (h0 : Part.clk ∈ ps) (h1 : Part.harrow ∈ ps) (h2 : Part.arr ∈ ps) (h3 : Part.therm ∈ ps)
    (h4 : Part.aux ∈ ps) (h5 : Part.recog ∈ ps) (h6 : Part.cap ∈ ps) (h7 : Part.spec ∈ ps) (h8 : Part.smc ∈ ps)
    (h9 : Part.buf ∈ ps) (h10 : Part.pwr ∈ ps) (h11 : Part.host ∈ ps) (h12 : Part.mport ∈ ps) (h13 : Part.mgmt ∈ ps)
    (h14 : Part.fresh ∈ ps) (s : State) :
    (State.resume s).mask ps = s.mask ps := by
  unfold State.resume
  dsimp only
  refine (State.mask_foldl _ (fun u d => by simp [*]) _ _).trans ?_
  (repeat' split) <;> simp [*]

@[simp] theorem State.mask_idleTick (h0 : Part.pwr ∈ ps) (d : Dom) (s : State) :
    (State.idleTick d s).mask ps = s.mask ps := by
  unfold State.idleTick
  lift_lets
  intro t
  clear_value t
  simp [*]

@[simp] theorem State.mask_tickIdle (h0 : Part.pwr ∈ ps) (s : State) :
    (State.tickIdle s).mask ps = s.mask ps := by
  unfold State.tickIdle
  rw [State.mask_foldl]
  intro t k
  simp [h0]

@[simp] theorem State.mask_closeBuffer (h0 : Part.arr ∈ ps) (h1 : Part.mport ∈ ps) (h2 : Part.mgmt ∈ ps) (s : State) :
    (State.closeBuffer s).mask ps = s.mask ps := by
  unfold State.closeBuffer
  split <;> simp [*]

@[simp] theorem State.mask_portDone (h0 : Part.arr ∈ ps) (h1 : Part.mport ∈ ps) (h2 : Part.mgmt ∈ ps) (s : State) :
    (State.portDone s).mask ps = s.mask ps := by
  simp [State.portDone, *]

/-! ### Machine/Gates.lean -/

@[simp] theorem State.mask_gateOff (h2 : Part.arr ∈ ps) (h4 : Part.aux ∈ ps) (h7 : Part.scar ∈ ps) (h8 : Part.spec ∈ ps)
    (h11 : Part.pwr ∈ ps) (h13 : Part.mgmt ∈ ps) (k : Nat) (s : State) :
    (State.gateOff k s).mask ps = s.mask ps := by
  unfold State.gateOff
  (repeat' split) <;> simp [*]

@[simp] theorem State.mask_gateOn (h0 : Part.harrow ∈ ps) (h1 : Part.arr ∈ ps) (h2 : Part.aux ∈ ps) (h3 : Part.smc ∈ ps)
    (h4 : Part.buf ∈ ps) (h5 : Part.pwr ∈ ps) (h6 : Part.mgmt ∈ ps) (k : Nat) (s : State) :
    (State.gateOn k s).mask ps = s.mask ps := by
  unfold State.gateOn
  (repeat' split) <;> simp [*]

@[simp] theorem State.mask_settleGates (h0 : Part.harrow ∈ ps) (h1 : Part.therm ∈ ps) (h2 : Part.recog ∈ ps)
    (h3 : Part.cap ∈ ps) (h4 : Part.smc ∈ ps) (h5 : Part.buf ∈ ps) (h6 : Part.pwr ∈ ps) (s : State) :
    (State.settleGates s).mask ps = s.mask ps := by
  simp [State.settleGates, *]

@[simp] theorem State.mask_writeClken (h0 : Part.clk ∈ ps) (h1 : Part.harrow ∈ ps) (h2 : Part.arr ∈ ps) (h3 : Part.therm ∈ ps)
    (h4 : Part.aux ∈ ps) (h5 : Part.recog ∈ ps) (h6 : Part.cap ∈ ps) (h7 : Part.scar ∈ ps) (h8 : Part.spec ∈ ps)
    (h9 : Part.smc ∈ ps) (h10 : Part.buf ∈ ps) (h11 : Part.pwr ∈ ps) (h13 : Part.mgmt ∈ ps) (w : Word) (busy : BitVec 12)
    (s : State) :
    (State.writeClken w busy s).mask ps = s.mask ps := by
  unfold State.writeClken
  dsimp only
  refine (State.mask_foldUpto _ (fun t k => by split <;> simp [*]) _ _).trans ?_
  simp only [State.mask_settleGates, *]
  refine (State.mask_foldUpto _ (fun t k => by split <;> simp [*]) _ _).trans ?_
  simp [*]

/-! ### Machine/Regs.lean -/

@[simp] theorem State.mask_writeSticky (h0 : Part.host ∈ ps) (w : Word) (s : State) :
    (State.writeSticky w s).mask ps = s.mask ps := by
  simp [State.writeSticky, *]

@[simp] theorem State.mask_writeCmdStat (h0 : Part.mgmt ∈ ps) (w : Word) (s : State) :
    (State.writeCmdStat w s).mask ps = s.mask ps := by
  simp [State.writeCmdStat, *]

@[simp] theorem State.mask_modCmd (h0 : Part.mgmt ∈ ps) (f : Mgmt → Mgmt) (s : State) :
    (State.modCmd f s).mask ps = s.mask ps := by
  simp [State.modCmd, *]

@[simp] theorem State.mask_writeCmdArg (h0 : Part.mgmt ∈ ps) (w : Word) (s : State) :
    (State.writeCmdArg w s).mask ps = s.mask ps := by
  simp [State.writeCmdArg, *]

@[simp] theorem State.mask_writeCmdGo (h0 : Part.pwr ∈ ps) (h1 : Part.host ∈ ps) (h2 : Part.mgmt ∈ ps) (w : Word) (s : State) :
    (State.writeCmdGo w s).mask ps = s.mask ps := by
  simp [State.writeCmdGo, *]

@[simp] theorem State.mask_writeMbxIn (h0 : Part.pwr ∈ ps) (h1 : Part.mgmt ∈ ps) (w : Word) (s : State) :
    (State.writeMbxIn w s).mask ps = s.mask ps := by
  simp [State.writeMbxIn, *]

@[simp] theorem State.mask_deliver (h0 : Part.mgmt ∈ ps) (s : State) :
    (State.deliver s).mask ps = s.mask ps := by
  simp [State.deliver, *]

@[simp] theorem State.mask_popMbx (h0 : Part.mgmt ∈ ps) (s : State) :
    (State.popMbx s).2.mask ps = s.mask ps := by
  unfold State.popMbx
  (repeat' split) <;> simp [*]

@[simp] theorem State.mask_flushMbx (h0 : Part.aux ∈ ps) (h1 : Part.mgmt ∈ ps) (s : State) :
    (State.flushMbx s).mask ps = s.mask ps := by
  simp [State.flushMbx, *]

@[simp] theorem State.mask_writeMbxStat (h0 : Part.aux ∈ ps) (h1 : Part.mgmt ∈ ps) (w : Word) (s : State) :
    (State.writeMbxStat w s).mask ps = s.mask ps := by
  unfold State.writeMbxStat
  lift_lets
  intro t
  have e1 : State.mask ps t = s.mask ps := by subst t; simp [*]
  clear_value t
  simp [*]

@[simp] theorem State.mask_writeLinkCfg (h0 : Part.link ∈ ps) (w : Word) (s : State) :
    (State.writeLinkCfg w s).mask ps = s.mask ps := by
  simp [State.writeLinkCfg, *]

@[simp] theorem State.mask_writeLinkStat (h0 : Part.link ∈ ps) (w : Word) (s : State) :
    (State.writeLinkStat w s).mask ps = s.mask ps := by
  simp [State.writeLinkStat, *]

@[simp] theorem State.mask_linkError (h0 : Part.link ∈ ps) (code : BitVec 4) (s : State) :
    (State.linkError code s).mask ps = s.mask ps := by
  simp [State.linkError, *]

@[simp] theorem State.mask_writeMportCtrl (h0 : Part.pwr ∈ ps) (h1 : Part.mport ∈ ps) (h2 : Part.mgmt ∈ ps) (w : Word)
    (s : State) :
    (State.writeMportCtrl w s).mask ps = s.mask ps := by
  simp [State.writeMportCtrl, *]

@[simp] theorem State.mask_writeMportStat (h0 : Part.mport ∈ ps) (w : Word) (s : State) :
    (State.writeMportStat w s).mask ps = s.mask ps := by
  simp [State.writeMportStat, *]

@[simp] theorem State.mask_writeMgmt (h0 : Part.mgmt ∈ ps) (o : Nat) (w : Word) (s : State) :
    (State.writeMgmt o w s).mask ps = s.mask ps := by
  simp [State.writeMgmt, *]

/-! ### Machine/Bus.lean -/

@[simp] theorem State.mask_writeRecog (h0 : Part.recog ∈ ps) (h1 : Part.cap ∈ ps) (h2 : Part.scar ∈ ps) (h3 : Part.smc ∈ ps)
    (h4 : Part.buf ∈ ps) (o : Nat) (w : Word) (s : State) :
    (State.writeRecog o w s).mask ps = s.mask ps := by
  unfold State.writeRecog
  lift_lets
  intro t u
  clear_value t u
  simp [*]

@[simp] theorem State.mask_writePower (h2 : Part.arr ∈ ps) (h10 : Part.pwr ∈ ps) (h12 : Part.mgmt ∈ ps) (o : Nat) (w : Word)
    (s : State) :
    (State.writePower o w s).mask ps = s.mask ps := by
  unfold State.writePower
  (repeat' split) <;> simp [*]

@[simp] theorem State.mask_tsReadEffect (h0 : Part.recog ∈ ps) (h1 : Part.smc ∈ ps) (a : Nat) (s : State) :
    (State.tsReadEffect a s).mask ps = s.mask ps := by
  unfold State.tsReadEffect
  (repeat' split) <;> simp [*]

@[simp] theorem State.mask_tsWrite (h1 : Part.harrow ∈ ps) (h2 : Part.arr ∈ ps) (h4 : Part.aux ∈ ps) (h5 : Part.recog ∈ ps)
    (h6 : Part.cap ∈ ps) (h7 : Part.scar ∈ ps) (h8 : Part.spec ∈ ps) (h9 : Part.smc ∈ ps) (h10 : Part.buf ∈ ps)
    (h11 : Part.pwr ∈ ps) (h13 : Part.mgmt ∈ ps) (a : Nat) (w : Word) (s : State) :
    (State.tsWrite a w s).mask ps = s.mask ps := by
  unfold State.tsWrite
  lift_lets
  intro t
  clear_value t
  (repeat' split) <;> simp [*]

@[simp] theorem State.mask_winNext (h0 : Part.host ∈ ps) (s : State) :
    (State.winNext s).mask ps = s.mask ps := by
  simp [State.winNext, *]

@[simp] theorem State.mask_setUnmapped (h0 : Part.host ∈ ps) (s : State) :
    (State.setUnmapped s).mask ps = s.mask ps := by
  simp [State.setUnmapped, *]

@[simp] theorem State.mask_winRead (h0 : Part.recog ∈ ps) (h1 : Part.smc ∈ ps) (h2 : Part.host ∈ ps) (s : State) :
    (State.winRead s).2.mask ps = s.mask ps := by
  unfold State.winRead
  lift_lets
  intro t u
  clear_value t u
  intro v
  have e1 : State.mask ps v = s.mask ps := by subst v; simp [*]
  clear_value v
  intro w
  have e2 : State.mask ps w = s.mask ps := by subst w; simp [*]
  clear_value w
  (repeat' split) <;> simp [*]

@[simp] theorem State.mask_winWrite (h1 : Part.harrow ∈ ps) (h2 : Part.arr ∈ ps) (h4 : Part.aux ∈ ps) (h5 : Part.recog ∈ ps)
    (h6 : Part.cap ∈ ps) (h7 : Part.scar ∈ ps) (h8 : Part.spec ∈ ps) (h9 : Part.smc ∈ ps) (h10 : Part.buf ∈ ps)
    (h11 : Part.pwr ∈ ps) (h12 : Part.host ∈ ps) (h13 : Part.mgmt ∈ ps) (w : Word) (s : State) :
    (State.winWrite w s).mask ps = s.mask ps := by
  simp [State.winWrite, *]

@[simp] theorem State.mask_writeWinAddr (h0 : Part.host ∈ ps) (w : Word) (s : State) :
    (State.writeWinAddr w s).mask ps = s.mask ps := by
  simp [State.writeWinAddr, *]

@[simp] theorem State.mask_readReg (h0 : Part.recog ∈ ps) (h1 : Part.smc ∈ ps) (h2 : Part.buf ∈ ps) (h3 : Part.int ∈ ps)
    (h4 : Part.host ∈ ps) (h5 : Part.mgmt ∈ ps) (h6 : Part.fresh ∈ ps) (i : Nat) (claims : Bool) (s : State) :
    (State.readReg i claims s).2.mask ps = s.mask ps := by
  unfold State.readReg
  (repeat' split) <;> simp [*]

@[simp] theorem State.mask_writeEvtStat (h0 : Part.recog ∈ ps) (h1 : Part.cap ∈ ps) (h2 : Part.scar ∈ ps) (w : Word)
    (s : State) :
    (State.writeEvtStat w s).mask ps = s.mask ps := by
  unfold State.writeEvtStat
  lift_lets
  intro t
  have e1 : State.mask ps t = s.mask ps := by subst t; simp [*]
  clear_value t
  intro u
  have e2 : State.mask ps u = s.mask ps := by subst u; simp [*]
  clear_value u
  simp [*]

@[simp] theorem State.mask_reportsFirst (h0 : Part.recog ∈ ps) (h1 : Part.cap ∈ ps) (h2 : Part.smc ∈ ps) (h3 : Part.buf ∈ ps)
    (stops : Bool) (s : State) :
    (State.reportsFirst stops s).mask ps = s.mask ps := by
  simp [State.reportsFirst, *]

@[simp] theorem State.mask_clkenFlies (h0 : Part.clk ∈ ps) (h1 : Part.harrow ∈ ps) (h2 : Part.arr ∈ ps) (h3 : Part.therm ∈ ps)
    (h4 : Part.aux ∈ ps) (h5 : Part.recog ∈ ps) (h6 : Part.cap ∈ ps) (h7 : Part.scar ∈ ps) (h8 : Part.spec ∈ ps)
    (h9 : Part.smc ∈ ps) (h10 : Part.buf ∈ ps) (h11 : Part.pwr ∈ ps) (h12 : Part.mgmt ∈ ps) (w : Word) (busy : BitVec 12)
    (s : State) :
    (State.clkenFlies w busy s).mask ps = s.mask ps := by
  simp [State.clkenFlies, *]

@[simp] theorem State.mask_writeReg (h0 : Part.clk ∈ ps) (h1 : Part.harrow ∈ ps) (h2 : Part.arr ∈ ps) (h3 : Part.therm ∈ ps)
    (h4 : Part.aux ∈ ps) (h5 : Part.recog ∈ ps) (h6 : Part.cap ∈ ps) (h7 : Part.scar ∈ ps) (h8 : Part.spec ∈ ps)
    (h9 : Part.smc ∈ ps) (h10 : Part.buf ∈ ps) (h11 : Part.int ∈ ps) (h12 : Part.pwr ∈ ps) (h13 : Part.host ∈ ps)
    (h14 : Part.link ∈ ps) (h15 : Part.mport ∈ ps) (h16 : Part.mgmt ∈ ps) (h17 : Part.fresh ∈ ps) (i : Nat) (w : Word)
    (busy : BitVec 12) (s : State) :
    (State.writeReg i w busy s).mask ps = s.mask ps := by
  unfold State.writeReg
  (repeat' split) <;> simp [*]

@[simp] theorem State.mask_skipped (h0 : Part.host ∈ ps) (i : Nat) (p : Path462) (s : State) :
    (State.skipped i p s).mask ps = s.mask ps := by
  unfold State.skipped
  (repeat' split) <;> simp [*]

@[simp] theorem State.mask_touchReg (h0 : Part.pwr ∈ ps) (i : Nat) (s : State) :
    (State.touchReg i s).mask ps = s.mask ps := by
  unfold State.touchReg
  (repeat' split) <;> simp [h0]

@[simp] theorem State.mask_readAs (h0 : Part.recog ∈ ps) (h1 : Part.smc ∈ ps) (h2 : Part.buf ∈ ps) (h3 : Part.int ∈ ps)
    (h4 : Part.pwr ∈ ps) (h5 : Part.host ∈ ps) (h6 : Part.mgmt ∈ ps) (h7 : Part.fresh ∈ ps) (p : Path462) (i : Nat)
    (claims : Bool) (s : State) :
    (State.readAs p i claims s).2.mask ps = s.mask ps := by
  unfold State.readAs
  (repeat' split) <;> simp [h0, h1, h2, h3, h4, h5, h6, h7]

@[simp] theorem State.mask_writeAs (h0 : Part.clk ∈ ps) (h1 : Part.harrow ∈ ps) (h2 : Part.arr ∈ ps) (h3 : Part.therm ∈ ps)
    (h4 : Part.aux ∈ ps) (h5 : Part.recog ∈ ps) (h6 : Part.cap ∈ ps) (h7 : Part.scar ∈ ps) (h8 : Part.spec ∈ ps)
    (h9 : Part.smc ∈ ps) (h10 : Part.buf ∈ ps) (h11 : Part.int ∈ ps) (h12 : Part.pwr ∈ ps) (h13 : Part.host ∈ ps)
    (h14 : Part.link ∈ ps) (h15 : Part.mport ∈ ps) (h16 : Part.mgmt ∈ ps) (h17 : Part.fresh ∈ ps) (p : Path462) (i : Nat)
    (w : Word) (busy : BitVec 12) (s : State) :
    (State.writeAs p i w busy s).mask ps = s.mask ps := by
  unfold State.writeAs
  (repeat' split) <;> simp [h0, h1, h2, h3, h4, h5, h6, h7, h8, h9, h10, h11, h12, h13, h14, h15, h16, h17]

@[simp] theorem State.mask_readNow (h0 : Part.recog ∈ ps) (h1 : Part.smc ∈ ps) (h2 : Part.buf ∈ ps) (h3 : Part.int ∈ ps)
    (h4 : Part.pwr ∈ ps) (h5 : Part.host ∈ ps) (h6 : Part.mgmt ∈ ps) (h7 : Part.fresh ∈ ps) (i : Nat) (claims : Bool)
    (s : State) :
    (State.readNow i claims s).2.mask ps = s.mask ps := by
  unfold State.readNow
  simp [*]

@[simp] theorem State.mask_writeNow (h0 : Part.clk ∈ ps) (h1 : Part.harrow ∈ ps) (h2 : Part.arr ∈ ps) (h3 : Part.therm ∈ ps)
    (h4 : Part.aux ∈ ps) (h5 : Part.recog ∈ ps) (h6 : Part.cap ∈ ps) (h7 : Part.scar ∈ ps) (h8 : Part.spec ∈ ps)
    (h9 : Part.smc ∈ ps) (h10 : Part.buf ∈ ps) (h11 : Part.int ∈ ps) (h12 : Part.pwr ∈ ps) (h13 : Part.host ∈ ps)
    (h14 : Part.link ∈ ps) (h15 : Part.mport ∈ ps) (h16 : Part.mgmt ∈ ps) (h17 : Part.fresh ∈ ps) (i : Nat) (w : Word)
    (busy : BitVec 12) (s : State) :
    (State.writeNow i w busy s).mask ps = s.mask ps := by
  unfold State.writeNow
  simp [*]

@[simp] theorem State.mask_withdraw (h1 : Part.host ∈ ps) (s : State) :
    (State.withdraw s).mask ps = s.mask ps := by
  simp [State.withdraw, h1]

@[simp] theorem State.mask_stall (h0 : Part.pwr ∈ ps) (h1 : Part.host ∈ ps) (d : Dom) (write : Bool) (i : Fin 64) (w : Word)
    (s : State) :
    (State.stall d write i w s).mask ps = s.mask ps := by
  simp [State.stall, *]

@[simp] theorem State.mask_finishRead (h0 : Part.host ∈ ps) (r : Word × State) :
    (State.finishRead r).mask ps = r.2.mask ps := by
  simp [State.finishRead, *]

@[simp] theorem State.mask_finishWrite (h0 : Part.host ∈ ps) (s : State) :
    (State.finishWrite s).mask ps = s.mask ps := by
  simp [State.finishWrite, *]

@[simp] theorem State.mask_noAccess (h0 : Part.host ∈ ps) (s : State) :
    (State.noAccess s).mask ps = s.mask ps := by
  simp [State.noAccess, *]

@[simp] theorem State.mask_busRead (h0 : Part.recog ∈ ps) (h1 : Part.smc ∈ ps) (h2 : Part.buf ∈ ps) (h3 : Part.int ∈ ps)
    (h4 : Part.pwr ∈ ps) (h5 : Part.host ∈ ps) (h6 : Part.mgmt ∈ ps) (h7 : Part.fresh ∈ ps) (i : Fin 64) (s : State) :
    (State.busRead i s).mask ps = s.mask ps := by
  unfold State.busRead
  split <;> simp [h0, h1, h2, h3, h4, h5, h6, h7]

@[simp] theorem State.mask_busWrite (h0 : Part.clk ∈ ps) (h1 : Part.harrow ∈ ps) (h2 : Part.arr ∈ ps) (h3 : Part.therm ∈ ps)
    (h4 : Part.aux ∈ ps) (h5 : Part.recog ∈ ps) (h6 : Part.cap ∈ ps) (h7 : Part.scar ∈ ps) (h8 : Part.spec ∈ ps)
    (h9 : Part.smc ∈ ps) (h10 : Part.buf ∈ ps) (h11 : Part.int ∈ ps) (h12 : Part.pwr ∈ ps) (h13 : Part.host ∈ ps)
    (h14 : Part.link ∈ ps) (h15 : Part.mport ∈ ps) (h16 : Part.mgmt ∈ ps) (h17 : Part.fresh ∈ ps) (i : Fin 64) (w : Word)
    (busy : BitVec 12) (s : State) :
    (State.busWrite i w busy s).mask ps = s.mask ps := by
  unfold State.busWrite
  (repeat' split) <;> simp [h0, h1, h2, h3, h4, h5, h6, h7, h8, h9, h10, h11, h12, h13, h14, h15, h16, h17]

@[simp] theorem State.mask_hostRead (h0 : Part.recog ∈ ps) (h1 : Part.smc ∈ ps) (h2 : Part.buf ∈ ps) (h3 : Part.int ∈ ps)
    (h4 : Part.pwr ∈ ps) (h5 : Part.host ∈ ps) (h6 : Part.mgmt ∈ ps) (h7 : Part.fresh ∈ ps) (i : Fin 64) (s : State) :
    (State.hostRead i s).mask ps = s.mask ps := by
  unfold State.hostRead
  (repeat' split) <;> simp [*]

@[simp] theorem State.mask_hostWriteBusy (h0 : Part.clk ∈ ps) (h1 : Part.harrow ∈ ps) (h2 : Part.arr ∈ ps)
    (h3 : Part.therm ∈ ps) (h4 : Part.aux ∈ ps) (h5 : Part.recog ∈ ps) (h6 : Part.cap ∈ ps) (h7 : Part.scar ∈ ps)
    (h8 : Part.spec ∈ ps) (h9 : Part.smc ∈ ps) (h10 : Part.buf ∈ ps) (h11 : Part.int ∈ ps) (h12 : Part.pwr ∈ ps)
    (h13 : Part.host ∈ ps) (h14 : Part.link ∈ ps) (h15 : Part.mport ∈ ps) (h16 : Part.mgmt ∈ ps) (h17 : Part.fresh ∈ ps)
    (i : Fin 64) (w : Word) (busy : BitVec 12) (s : State) :
    (State.hostWriteBusy i w busy s).mask ps = s.mask ps := by
  unfold State.hostWriteBusy
  (repeat' split) <;> simp [*]

@[simp] theorem State.mask_hostWrite (h0 : Part.clk ∈ ps) (h1 : Part.harrow ∈ ps) (h2 : Part.arr ∈ ps) (h3 : Part.therm ∈ ps)
    (h4 : Part.aux ∈ ps) (h5 : Part.recog ∈ ps) (h6 : Part.cap ∈ ps) (h7 : Part.scar ∈ ps) (h8 : Part.spec ∈ ps)
    (h9 : Part.smc ∈ ps) (h10 : Part.buf ∈ ps) (h11 : Part.int ∈ ps) (h12 : Part.pwr ∈ ps) (h13 : Part.host ∈ ps)
    (h14 : Part.link ∈ ps) (h15 : Part.mport ∈ ps) (h16 : Part.mgmt ∈ ps) (h17 : Part.fresh ∈ ps) (i : Fin 64) (w : Word)
    (s : State) :
    (State.hostWrite i w s).mask ps = s.mask ps := by
  simp [State.hostWrite, *]

@[simp] theorem State.mask_endFlight (h0 : Part.clk ∈ ps) (gates : List Nat) (s : State) :
    (State.endFlight gates s).mask ps = s.mask ps := by
  simp [State.endFlight, h0]

@[simp] theorem State.mask_forceGates (h0 : Part.clk ∈ ps) (gates : List Nat) (s : State) :
    (State.forceGates gates s).mask ps = s.mask ps := by
  simp [State.forceGates, *]

@[simp] theorem State.mask_tickItem (h0 : Part.clk ∈ ps) (h1 : Part.buf ∈ ps) (s : State) :
    (State.tickItem s).mask ps = s.mask ps := by
  unfold State.tickItem
  dsimp only
  (repeat' split) <;> simp [*]

@[simp] theorem State.mask_endStalled (h0 : Part.clk ∈ ps) (h1 : Part.harrow ∈ ps) (h2 : Part.arr ∈ ps) (h3 : Part.therm ∈ ps)
    (h4 : Part.aux ∈ ps) (h5 : Part.recog ∈ ps) (h6 : Part.cap ∈ ps) (h7 : Part.scar ∈ ps) (h8 : Part.spec ∈ ps)
    (h9 : Part.smc ∈ ps) (h10 : Part.buf ∈ ps) (h11 : Part.int ∈ ps) (h12 : Part.pwr ∈ ps) (h13 : Part.host ∈ ps)
    (h14 : Part.link ∈ ps) (h15 : Part.mport ∈ ps) (h16 : Part.mgmt ∈ ps) (h17 : Part.fresh ∈ ps) (d : Dom) (s : State) :
    (State.endStalled d s).mask ps = s.mask ps := by
  unfold State.endStalled
  dsimp only
  (repeat' split) <;> simp [*]

/-! ### Machine/Stores.lean -/

@[simp] theorem State.mask_flashError (h0 : Part.mport ∈ ps) (h1 : Part.mgmt ∈ ps) (h2 : Part.fresh ∈ ps) (s : State) :
    (State.flashError s).mask ps = s.mask ps := by
  unfold State.flashError
  lift_lets
  intro t
  have e1 : State.mask ps t = s.mask ps := by subst t; simp [*]
  clear_value t
  simp [*]

@[simp] theorem State.mask_putRec (h0 : Part.arr ∈ ps) (h1 : Part.mport ∈ ps) (h2 : Part.mgmt ∈ ps) (r : LogRec) (s : State) :
    (State.putRec r s).mask ps = s.mask ps := by
  simp [State.putRec, *]

@[simp] theorem State.mask_writeLog (h0 : Part.arr ∈ ps) (h1 : Part.mport ∈ ps) (h2 : Part.mgmt ∈ ps) (s : State) :
    (State.writeLog s).mask ps = s.mask ps := by
  unfold State.writeLog
  (repeat' split) <;> simp [*]

@[simp] theorem State.mask_drainLog (h0 : Part.arr ∈ ps) (h1 : Part.mport ∈ ps) (h2 : Part.mgmt ∈ ps) (x0 : Nat) (s : State) :
    (State.drainLog x0 s).mask ps = s.mask ps := by
  induction x0 generalizing s with
  | zero => rfl
  | succ n ih => simp [State.drainLog, *]

@[simp] theorem State.mask_coreReach (h0 : Part.pwr ∈ ps) (k : Nat) (s : State) :
    (State.coreReach k s).mask ps = s.mask ps := by
  unfold State.coreReach
  (repeat' split) <;> simp [h0]

@[simp] theorem State.mask_stageNow (h0 : Part.pwr ∈ ps) (h1 : Part.mgmt ∈ ps) (flies : Bool) (s : State) :
    (State.stageNow flies s).2.mask ps = s.mask ps := by
  unfold State.stageNow
  rw [State.mask_foldl]
  intro t k
  split <;> simp [*]

@[simp] theorem State.mask_afterBlock (h0 : Part.harrow ∈ ps) (h1 : Part.aux ∈ ps) (h2 : Part.mgmt ∈ ps) (k : Nat) (s : State) :
    (State.afterBlock k s).mask ps = s.mask ps := by
  simp [State.afterBlock, *]

@[simp] theorem State.mask_restoreOne (h0 : Part.clk ∈ ps) (h1 : Part.harrow ∈ ps) (h2 : Part.arr ∈ ps) (h3 : Part.therm ∈ ps)
    (h4 : Part.aux ∈ ps) (h5 : Part.recog ∈ ps) (h6 : Part.cap ∈ ps) (h7 : Part.scar ∈ ps) (h8 : Part.spec ∈ ps)
    (h9 : Part.smc ∈ ps) (h10 : Part.buf ∈ ps) (h11 : Part.int ∈ ps) (h12 : Part.pwr ∈ ps) (h13 : Part.host ∈ ps)
    (h14 : Part.link ∈ ps) (h15 : Part.mport ∈ ps) (h16 : Part.mgmt ∈ ps) (h17 : Part.fresh ∈ ps) (k : Nat) (w : Word)
    (s : State) :
    (State.restoreOne k w s).mask ps = s.mask ps := by
  unfold State.restoreOne
  (repeat' split) <;> simp [*]

@[simp] theorem State.mask_restoreRun (h0 : Part.clk ∈ ps) (h1 : Part.harrow ∈ ps) (h2 : Part.arr ∈ ps) (h3 : Part.therm ∈ ps)
    (h4 : Part.aux ∈ ps) (h5 : Part.recog ∈ ps) (h6 : Part.cap ∈ ps) (h7 : Part.scar ∈ ps) (h8 : Part.spec ∈ ps)
    (h9 : Part.smc ∈ ps) (h10 : Part.buf ∈ ps) (h11 : Part.int ∈ ps) (h12 : Part.pwr ∈ ps) (h13 : Part.host ∈ ps)
    (h14 : Part.link ∈ ps) (h15 : Part.mport ∈ ps) (h16 : Part.mgmt ∈ ps) (h17 : Part.fresh ∈ ps) (flies : Bool) (x0 : List
    (Nat × Word)) (s : State) :
    (State.restoreRun flies x0 s).mask ps = s.mask ps := by
  induction x0 generalizing flies s with
  | nil => unfold State.restoreRun; exact State.mask_modMgmt h16 ..
  | cons kw r ih =>
    obtain ⟨k, w⟩ := kw
    unfold State.restoreRun
    dsimp only
    split
    · rw [ih]; exact State.mask_coreError h16 ..
    · split
      · rw [State.mask_coreReach h12]; exact State.mask_modMgmt h16 ..
      · split
        · rw [ih]; exact State.mask_coreError h16 ..
        · rw [ih]
          split
          · rw [State.mask_endFlight (by assumption)]; apply State.mask_restoreOne <;> assumption
          · apply State.mask_restoreOne <;> assumption

@[simp] theorem State.mask_reply (h0 : Part.mgmt ∈ ps) (status : BitVec 8) (payload : List Word) (s : State) :
    (State.reply status payload s).mask ps = s.mask ps := by
  unfold State.reply
  (repeat' split) <;> simp [*]

@[simp] theorem State.mask_restoreFrom (h0 : Part.clk ∈ ps) (h1 : Part.harrow ∈ ps) (h2 : Part.arr ∈ ps)
    (h3 : Part.therm ∈ ps) (h4 : Part.aux ∈ ps) (h5 : Part.recog ∈ ps) (h6 : Part.cap ∈ ps) (h7 : Part.scar ∈ ps)
    (h8 : Part.spec ∈ ps) (h9 : Part.smc ∈ ps) (h10 : Part.buf ∈ ps) (h11 : Part.int ∈ ps) (h12 : Part.pwr ∈ ps)
    (h13 : Part.host ∈ ps) (h14 : Part.link ∈ ps) (h15 : Part.mport ∈ ps) (h16 : Part.mgmt ∈ ps) (h17 : Part.fresh ∈ ps)
    (flies : Bool) (s : State) :
    (State.restoreFrom flies s).mask ps = s.mask ps := by
  unfold State.restoreFrom
  lift_lets
  intro t
  have e1 : State.mask ps t = s.mask ps := by subst t; simp [*]
  clear_value t
  simp [*]

@[simp] theorem State.mask_restoreOn (h0 : Part.clk ∈ ps) (h1 : Part.harrow ∈ ps) (h2 : Part.arr ∈ ps) (h3 : Part.therm ∈ ps)
    (h4 : Part.aux ∈ ps) (h5 : Part.recog ∈ ps) (h6 : Part.cap ∈ ps) (h7 : Part.scar ∈ ps) (h8 : Part.spec ∈ ps)
    (h9 : Part.smc ∈ ps) (h10 : Part.buf ∈ ps) (h11 : Part.int ∈ ps) (h12 : Part.pwr ∈ ps) (h13 : Part.host ∈ ps)
    (h14 : Part.link ∈ ps) (h15 : Part.mport ∈ ps) (h16 : Part.mgmt ∈ ps) (h17 : Part.fresh ∈ ps) (s : State) :
    (State.restoreOn s).mask ps = s.mask ps := by
  simp [State.restoreOn, *]

@[simp] theorem State.mask_restoreStart (h0 : Part.clk ∈ ps) (h1 : Part.harrow ∈ ps) (h2 : Part.arr ∈ ps)
    (h3 : Part.therm ∈ ps) (h4 : Part.aux ∈ ps) (h5 : Part.recog ∈ ps) (h6 : Part.cap ∈ ps) (h7 : Part.scar ∈ ps)
    (h8 : Part.spec ∈ ps) (h9 : Part.smc ∈ ps) (h10 : Part.buf ∈ ps) (h11 : Part.int ∈ ps) (h12 : Part.pwr ∈ ps)
    (h13 : Part.host ∈ ps) (h14 : Part.link ∈ ps) (h15 : Part.mport ∈ ps) (h16 : Part.mgmt ∈ ps) (h17 : Part.fresh ∈ ps)
    (l : List (Nat × Word)) (s : State) :
    (State.restoreStart l s).mask ps = s.mask ps := by
  simp [State.restoreStart, h0, h1, h2, h3, h4, h5, h6, h7, h8, h9, h10, h11, h12, h13, h14, h15, h16, h17]

@[simp] theorem State.mask_stageFrom (h0 : Part.clk ∈ ps) (h1 : Part.pwr ∈ ps) (h2 : Part.mgmt ∈ ps) (flies : Bool)
    (s : State) :
    (State.stageFrom flies s).mask ps = s.mask ps := by
  unfold State.stageFrom
  dsimp only
  split
  · rfl
  · split
    · rw [State.mask_foldl]
      intro t k
      simp [*]
    · split <;> simp [*]

@[simp] theorem State.mask_stageOn (h0 : Part.clk ∈ ps) (h1 : Part.pwr ∈ ps) (h2 : Part.mgmt ∈ ps) (s : State) :
    (State.stageOn s).mask ps = s.mask ps := by
  simp [State.stageOn, *]

@[simp] theorem State.mask_spillStops (h0 : Part.clk ∈ ps) (h1 : Part.mgmt ∈ ps) (addr : Word) (s : State) :
    (State.spillStops addr s).mask ps = s.mask ps := by
  simp [State.spillStops, *]

@[simp] theorem State.mask_autoStops (h0 : Part.clk ∈ ps) (h1 : Part.mgmt ∈ ps) (addr : Word) (s : State) :
    (State.autoStops addr s).mask ps = s.mask ps := by
  simp [State.autoStops, *]

@[simp] theorem State.mask_spillEnds (h0 : Part.clk ∈ ps) (h1 : Part.mgmt ∈ ps) (s : State) :
    (State.spillEnds s).mask ps = s.mask ps := by
  unfold State.spillEnds
  dsimp only
  (repeat' split) <;> simp [*]

@[simp] theorem State.mask_gateStall (h1 : Part.host ∈ ps) (k : Nat) (s : State) :
    (State.gateStall k s).mask ps = s.mask ps := by
  unfold State.gateStall
  (repeat' split) <;> simp [*]

@[simp] theorem State.mask_learn (h0 : Part.mport ∈ ps) (h1 : Part.mgmt ∈ ps) (b : Bool) (f : ImageFound) (s : State) :
    (State.learn b f s).mask ps = s.mask ps := by
  simp [State.learn, *]

@[simp] theorem State.mask_noteImage (h0 : Part.mgmt ∈ ps) (b ok : Bool) (s : State) :
    (State.noteImage b ok s).mask ps = s.mask ps := by
  simp [State.noteImage, *]

@[simp] theorem State.mask_setUpd (h0 : Part.mgmt ∈ ps) (u : UpdState) (s : State) :
    (State.setUpd u s).mask ps = s.mask ps := by
  simp [State.setUpd, *]

/-! ### Machine/Auth.lean -/

@[simp] theorem State.mask_commitConfig (h0 : Part.mgmt ∈ ps) (s : State) :
    (State.commitConfig s).1.mask ps = s.mask ps := by
  unfold State.commitConfig
  lift_lets
  intro t u v
  clear_value t u v
  (repeat' split) <;> simp [*]

@[simp] theorem State.mask_eraseConfig (h0 : Part.mgmt ∈ ps) (s : State) :
    (State.eraseConfig s).mask ps = s.mask ps := by
  simp [State.eraseConfig, *]

@[simp] theorem State.mask_trimsOfRegion (h0 : Part.arr ∈ ps) (s t : State) :
    (State.trimsOfRegion s t).mask ps = t.mask ps := by
  unfold State.trimsOfRegion
  rw [State.mask_foldl]
  intro u k
  split <;> simp [h0]

@[simp] theorem State.mask_calSession (h0 : Part.arr ∈ ps) (h1 : Part.mgmt ∈ ps) (s : State) :
    (State.calSession s).1.mask ps = s.mask ps := by
  unfold State.calSession
  lift_lets
  intro t
  clear_value t
  intro u
  have e1 : State.mask ps u = s.mask ps := by subst u; simp [*]
  clear_value u
  (repeat' split) <;> simp [*]

@[simp] theorem State.mask_cmdAdmit (h2 : Part.arr ∈ ps) (h10 : Part.pwr ∈ ps) (h12 : Part.mgmt ∈ ps) (s : State) :
    (State.cmdAdmit s).1.mask ps = s.mask ps := by
  unfold State.cmdAdmit
  lift_lets
  intro t
  clear_value t
  (repeat' split) <;> simp [*]

@[simp] theorem State.mask_cmdRetire (h2 : Part.arr ∈ ps) (h10 : Part.pwr ∈ ps) (h12 : Part.mgmt ∈ ps) (s : State) :
    (State.cmdRetire s).1.mask ps = s.mask ps := by
  unfold State.cmdRetire
  lift_lets
  intro t
  clear_value t
  (repeat' split) <;> simp [*]

@[simp] theorem State.mask_cmdArm (h0 : Part.mport ∈ ps) (h1 : Part.mgmt ∈ ps) (found : ImageFound) (s : State) :
    (State.cmdArm found s).1.mask ps = s.mask ps := by
  unfold State.cmdArm
  dsimp only
  split <;> simp [*]

@[simp] theorem State.mask_restartMc (h0 : Part.clk ∈ ps) (h1 : Part.harrow ∈ ps) (h2 : Part.arr ∈ ps) (h3 : Part.therm ∈ ps)
    (h4 : Part.aux ∈ ps) (h5 : Part.recog ∈ ps) (h6 : Part.cap ∈ ps) (h7 : Part.spec ∈ ps) (h8 : Part.smc ∈ ps)
    (h9 : Part.buf ∈ ps) (h10 : Part.pwr ∈ ps) (h11 : Part.host ∈ ps) (h12 : Part.mport ∈ ps) (h13 : Part.mgmt ∈ ps)
    (h14 : Part.fresh ∈ ps) (s : State) :
    (State.restartMc s).mask ps = s.mask ps := by
  unfold State.restartMc
  lift_lets
  intro t
  clear_value t
  intro u
  have e1 : State.mask ps u = s.mask ps := by subst u; simp [*]
  clear_value u
  simp [*]

@[simp] theorem State.mask_commitUpdate (h0 : Part.clk ∈ ps) (h1 : Part.harrow ∈ ps) (h2 : Part.arr ∈ ps)
    (h3 : Part.therm ∈ ps) (h4 : Part.aux ∈ ps) (h5 : Part.recog ∈ ps) (h6 : Part.cap ∈ ps) (h7 : Part.spec ∈ ps)
    (h8 : Part.smc ∈ ps) (h9 : Part.buf ∈ ps) (h10 : Part.pwr ∈ ps) (h11 : Part.host ∈ ps) (h12 : Part.mport ∈ ps)
    (h13 : Part.mgmt ∈ ps) (h14 : Part.fresh ∈ ps) (s : State) :
    (State.commitUpdate s).mask ps = s.mask ps := by
  unfold State.commitUpdate
  lift_lets
  intro t
  have e1 : State.mask ps t = s.mask ps := by subst t; simp [*]
  clear_value t
  simp [*]

@[simp] theorem State.mask_cmdLock (h0 : Part.link ∈ ps) (s : State) :
    (State.cmdLock s).1.mask ps = s.mask ps := by
  unfold State.cmdLock
  lift_lets
  intro t
  clear_value t
  (repeat' split) <;> simp [*]

@[simp] theorem State.mask_cmdTherm (h0 : Part.therm ∈ ps) (s : State) :
    (State.cmdTherm s).1.mask ps = s.mask ps := by
  unfold State.cmdTherm
  lift_lets
  intro t u
  clear_value t u
  (repeat' split) <;> simp [*]

@[simp] theorem State.mask_rollKey (h0 : Part.mgmt ∈ ps) (s : State) :
    (State.rollKey s).mask ps = s.mask ps := by
  simp [State.rollKey, *]

/-! ### Machine/Port.lean -/

@[simp] theorem State.mask_gather (h0 : Part.arr ∈ ps) (h1 : Part.mport ∈ ps) (h2 : Part.mgmt ∈ ps) (a : Nat) (b : BitVec 8)
    (s : State) :
    (State.gather a b s).mask ps = s.mask ps := by
  simp [State.gather, *]

@[simp] theorem State.mask_gatherAll (h0 : Part.arr ∈ ps) (h1 : Part.mport ∈ ps) (h2 : Part.mgmt ∈ ps) (x0 : Nat)
    (x1 : List (BitVec 8)) (s : State) :
    (State.gatherAll x0 x1 s).mask ps = s.mask ps := by
  induction x1 generalizing s x0 with
  | nil => rfl
  | cons b bs ih => rw [State.gatherAll, ih, State.mask_gather h0 h1 h2]

@[simp] theorem State.mask_bufferEnd (h0 : Part.arr ∈ ps) (h1 : Part.mport ∈ ps) (h2 : Part.mgmt ∈ ps) (e : BufferEnd)
    (s : State) :
    (State.bufferEnd e s).mask ps = s.mask ps := by
  simp [State.bufferEnd, *]

@[simp] theorem State.mask_coreProgram (h0 : Part.arr ∈ ps) (h1 : Part.mport ∈ ps) (h2 : Part.mgmt ∈ ps) (addr : Nat)
    (bytes : List (BitVec 8)) (e : BufferEnd) (s : State) :
    (State.coreProgram addr bytes e s).mask ps = s.mask ps := by
  simp [State.coreProgram, *]

/-! ### Machine/Boot.lean -/

@[simp] theorem State.mask_checkSlots (h0 : Part.mport ∈ ps) (h1 : Part.mgmt ∈ ps) (a b : ImageFound) (s : State) :
    (State.checkSlots a b s).mask ps = s.mask ps := by
  simp [State.checkSlots, *]

@[simp] theorem State.mask_rescued (h0 : Part.arr ∈ ps) (h1 : Part.host ∈ ps) (h2 : Part.mport ∈ ps) (h3 : Part.mgmt ∈ ps)
    (s : State) :
    (State.rescued s).mask ps = s.mask ps := by
  unfold State.rescued
  lift_lets
  intro n t
  have e1 : State.mask ps t = s.mask ps := by subst t; split <;> simp [*]
  clear_value n t
  intro u
  have e2 : State.mask ps u = s.mask ps := by
    subst u
    rw [State.mask_modMgmt (by assumption), State.mask_foldl _ fun u r => by simp [*]]
    exact e1
  clear_value u
  split <;> simp [*]

@[simp] theorem State.mask_checkStores (h0 : Part.mgmt ∈ ps) (found : CopiesFound) (s : State) :
    (State.checkStores found s).mask ps = s.mask ps := by
  unfold State.checkStores
  lift_lets
  intro t
  have e1 : State.mask ps t = s.mask ps := by subst t; simp [*]
  clear_value t
  simp [*]

@[simp] theorem State.mask_bootMap (h0 : Part.arr ∈ ps) (h1 : Part.pwr ∈ ps) (h2 : Part.mgmt ∈ ps) (found : CopiesFound)
    (s : State) :
    (State.bootMap found s).mask ps = s.mask ps := by
  simp [State.bootMap, h0, h1, h2]

@[simp] theorem State.mask_startCore (h0 : Part.clk ∈ ps) (h1 : Part.harrow ∈ ps) (h2 : Part.arr ∈ ps) (h3 : Part.therm ∈ ps)
    (h4 : Part.aux ∈ ps) (h5 : Part.recog ∈ ps) (h6 : Part.cap ∈ ps) (h7 : Part.scar ∈ ps) (h8 : Part.spec ∈ ps)
    (h9 : Part.smc ∈ ps) (h10 : Part.buf ∈ ps) (h11 : Part.int ∈ ps) (h12 : Part.pwr ∈ ps) (h13 : Part.host ∈ ps)
    (h14 : Part.link ∈ ps) (h15 : Part.mport ∈ ps) (h16 : Part.mgmt ∈ ps) (h17 : Part.fresh ∈ ps) (slot : Bool)
    (flash1 : FlashFound) (copies : CopiesFound) (s : State) :
    (State.startCore slot flash1 copies s).mask ps = s.mask ps := by
  unfold State.startCore
  lift_lets
  intro t
  have e1 : State.mask ps t = s.mask ps := by subst t; simp [*]
  clear_value t
  intro u
  have e2 : State.mask ps u = s.mask ps := by subst u; simp [*]
  clear_value u
  intro v
  have e3 : State.mask ps v = s.mask ps := by subst v; split <;> simp [*]
  clear_value v
  intro w
  have e4 : State.mask ps w = s.mask ps := by subst w; simp [*]
  clear_value w
  intro x
  have e5 : State.mask ps x = s.mask ps := by subst x; simp [*]
  clear_value x
  (repeat' split) <;> simp [*]

@[simp] theorem State.mask_chooseImage (h0 : Part.arr ∈ ps) (h1 : Part.mport ∈ ps) (h2 : Part.mgmt ∈ ps) (a b : ImageFound)
    (s : State) :
    (State.chooseImage a b s).1.mask ps = s.mask ps := by
  simp [State.chooseImage, *]

/-! ### Machine/HostCmds.lean -/

@[simp] theorem State.mask_hostTs (h0 : Part.clk ∈ ps) (h1 : Part.harrow ∈ ps) (h2 : Part.arr ∈ ps) (h3 : Part.therm ∈ ps)
    (h4 : Part.aux ∈ ps) (h5 : Part.recog ∈ ps) (h6 : Part.cap ∈ ps) (h7 : Part.scar ∈ ps) (h8 : Part.spec ∈ ps)
    (h9 : Part.smc ∈ ps) (h10 : Part.buf ∈ ps) (h11 : Part.int ∈ ps) (h12 : Part.pwr ∈ ps) (h13 : Part.host ∈ ps)
    (h14 : Part.link ∈ ps) (h15 : Part.mport ∈ ps) (h16 : Part.mgmt ∈ ps) (h17 : Part.fresh ∈ ps) (a : Nat) (w : Word)
    (s : State) :
    (State.hostTs a w s).mask ps = s.mask ps := by
  simp [State.hostTs, *]

@[simp] theorem State.mask_hostTsRead (h0 : Part.clk ∈ ps) (h1 : Part.harrow ∈ ps) (h2 : Part.arr ∈ ps) (h3 : Part.therm ∈ ps)
    (h4 : Part.aux ∈ ps) (h5 : Part.recog ∈ ps) (h6 : Part.cap ∈ ps) (h7 : Part.scar ∈ ps) (h8 : Part.spec ∈ ps)
    (h9 : Part.smc ∈ ps) (h10 : Part.buf ∈ ps) (h11 : Part.int ∈ ps) (h12 : Part.pwr ∈ ps) (h13 : Part.host ∈ ps)
    (h14 : Part.link ∈ ps) (h15 : Part.mport ∈ ps) (h16 : Part.mgmt ∈ ps) (h17 : Part.fresh ∈ ps) (a : Nat) (s : State) :
    (State.hostTsRead a s).mask ps = s.mask ps := by
  simp [State.hostTsRead, *]

/-! ### Machine/Idle.lean -/

@[simp] theorem State.mask_tickRails (h0 : Part.pwr ∈ ps) (h1 : Part.fresh ∈ ps) (s : State) :
    (State.tickRails s).mask ps = s.mask ps := by
  simp [State.tickRails, *]

@[simp] theorem State.mask_tickHost (h0 : Part.host ∈ ps) (s : State) :
    (State.tickHost s).mask ps = s.mask ps := by
  simp [State.tickHost, *]

@[simp] theorem State.mask_tickHt (h0 : Part.clk ∈ ps) (h1 : Part.host ∈ ps) (h2 : Part.fresh ∈ ps) (s : State) :
    (State.tickHt s).mask ps = s.mask ps := by
  unfold State.tickHt
  lift_lets
  intro t
  have e1 : State.mask ps t = s.mask ps := by subst t; simp [*]
  clear_value t
  simp [*]

@[simp] theorem State.mask_tickMss (h0 : Part.mport ∈ ps) (n : Nat) (s : State) :
    (State.tickMss n s).mask ps = s.mask ps := by
  simp [State.tickMss, *]

@[simp] theorem State.mask_readLine (h0 : Part.arr ∈ ps) (h1 : Part.mport ∈ ps) (h2 : Part.mgmt ∈ ps) (a : Nat) (s : State) :
    (State.readLine a s).mask ps = s.mask ps := by
  simp [State.readLine, *]

@[simp] theorem State.mask_tickPort (h0 : Part.arr ∈ ps) (h1 : Part.mport ∈ ps) (h2 : Part.mgmt ∈ ps) (h3 : Part.fresh ∈ ps)
    (s : State) :
    (State.tickPort s).mask ps = s.mask ps := by
  unfold State.tickPort
  lift_lets
  intro n t
  have e1 : State.mask ps t = s.mask ps := by subst t; simp [*]
  clear_value n t
  intro u
  have e2 : State.mask ps u = s.mask ps := by subst u; split <;> simp [*]
  clear_value u
  intro v
  have e3 : State.mask ps v = s.mask ps := by subst v; (repeat' split) <;> simp [*]
  clear_value v
  intro w
  have e4 : State.mask ps w = s.mask ps := by subst w; split <;> simp [*]
  clear_value w
  (repeat' split) <;> simp [*]

@[simp] theorem State.mask_tickClock (h0 : Part.clk ∈ ps) (h1 : Part.arr ∈ ps) (h2 : Part.pwr ∈ ps) (h3 : Part.host ∈ ps)
    (h4 : Part.mport ∈ ps) (h5 : Part.mgmt ∈ ps) (h6 : Part.fresh ∈ ps) (s : State) :
    (State.tickClock s).mask ps = s.mask ps := by
  unfold State.tickClock
  lift_lets
  intro t
  have e1 : State.mask ps t = s.mask ps := by subst t; simp [*]
  clear_value t
  simp [*]

@[simp] theorem State.mask_idle (h0 : Part.clk ∈ ps) (h1 : Part.arr ∈ ps) (h2 : Part.therm ∈ ps) (h3 : Part.buf ∈ ps)
    (h4 : Part.int ∈ ps) (h5 : Part.pwr ∈ ps) (h6 : Part.host ∈ ps) (h7 : Part.mport ∈ ps) (h8 : Part.mgmt ∈ ps)
    (h9 : Part.fresh ∈ ps) (s : State) :
    (State.idle s).mask ps = s.mask ps := by
  simp [State.idle, *]

/-! ### Machine/Mailbox.lean -/

@[simp] theorem State.mask_takeUpMessage (h0 : Part.mgmt ∈ ps) (r : Request) (s : State) :
    (State.takeUpMessage r s).mask ps = s.mask ps := by
  simp [State.takeUpMessage, *]

@[simp] theorem State.mask_logRead (h0 : Part.arr ∈ ps) (h1 : Part.mport ∈ ps) (h2 : Part.mgmt ∈ ps) (r : Request) (s : State) :
    (State.logRead r s).mask ps = s.mask ps := by
  unfold State.logRead
  lift_lets
  intro t u v
  clear_value t u v
  intro w
  have e1 : State.mask ps w = s.mask ps := by subst w; simp [*]
  clear_value w
  simp [*]

@[simp] theorem State.mask_calRun (h0 : Part.aux ∈ ps) (h1 : Part.mgmt ∈ ps) (r : Request) (s : State) :
    (State.calRun r s).mask ps = s.mask ps := by
  unfold State.calRun
  lift_lets
  intro t
  clear_value t
  simp [*]

@[simp] theorem State.mask_configRestore (h0 : Part.clk ∈ ps) (h1 : Part.harrow ∈ ps) (h2 : Part.arr ∈ ps)
    (h3 : Part.therm ∈ ps) (h4 : Part.aux ∈ ps) (h5 : Part.recog ∈ ps) (h6 : Part.cap ∈ ps) (h7 : Part.scar ∈ ps)
    (h8 : Part.spec ∈ ps) (h9 : Part.smc ∈ ps) (h10 : Part.buf ∈ ps) (h11 : Part.int ∈ ps) (h12 : Part.pwr ∈ ps)
    (h13 : Part.host ∈ ps) (h14 : Part.link ∈ ps) (h15 : Part.mport ∈ ps) (h16 : Part.mgmt ∈ ps) (h17 : Part.fresh ∈ ps)
    (s : State) :
    (State.configRestore s).mask ps = s.mask ps := by
  unfold State.configRestore
  (repeat' split) <;> simp [*]

@[simp] theorem State.mask_updateStage (h0 : Part.arr ∈ ps) (h1 : Part.mport ∈ ps) (h2 : Part.mgmt ∈ ps)
    (h3 : Part.fresh ∈ ps) (flashOk : Bool) (r : Request) (s : State) :
    (State.updateStage flashOk r s).mask ps = s.mask ps := by
  simp [State.updateStage, *]

@[simp] theorem State.mask_spill (h0 : Part.cap ∈ ps) (h1 : Part.mgmt ∈ ps) (k : Nat) (s : State) :
    (State.spill k s).mask ps = s.mask ps := by
  unfold State.spill
  lift_lets
  intro t
  clear_value t
  intro u
  have e1 : State.mask ps u = s.mask ps := by subst u; simp [*]
  clear_value u
  simp [*]

@[simp] theorem State.mask_captureSpill (h0 : Part.clk ∈ ps) (h1 : Part.arr ∈ ps) (h2 : Part.cap ∈ ps) (h3 : Part.pwr ∈ ps)
    (h4 : Part.mport ∈ ps) (h5 : Part.mgmt ∈ ps) (h6 : Part.fresh ∈ ps) (flies flashOk : Bool) (k : Nat) (s : State) :
    (State.captureSpill flies flashOk k s).mask ps = s.mask ps := by
  simp [State.captureSpill, *]

@[simp] theorem State.mask_takeSpill (h0 : Part.clk ∈ ps) (h1 : Part.arr ∈ ps) (h2 : Part.cap ∈ ps) (h3 : Part.pwr ∈ ps)
    (h4 : Part.mport ∈ ps) (h5 : Part.mgmt ∈ ps) (h6 : Part.fresh ∈ ps) (flashOk : Bool) (r : Request) (s : State) :
    (State.takeSpill flashOk r s).mask ps = s.mask ps := by
  simp [State.takeSpill, *]

@[simp] theorem State.mask_spillAuto (h0 : Part.clk ∈ ps) (h1 : Part.arr ∈ ps) (h2 : Part.cap ∈ ps) (h3 : Part.pwr ∈ ps)
    (h4 : Part.mport ∈ ps) (h5 : Part.mgmt ∈ ps) (h6 : Part.fresh ∈ ps) (flies flashOk : Bool) (k : Nat) (s : State) :
    (State.spillAuto flies flashOk k s).mask ps = s.mask ps := by
  simp [State.spillAuto, *]

@[simp] theorem State.mask_spillRead (h0 : Part.mgmt ∈ ps) (r : Request) (s : State) :
    (State.spillRead r s).mask ps = s.mask ps := by
  unfold State.spillRead
  lift_lets
  intro t u
  clear_value t u
  (repeat' split) <;> simp [*]

@[simp] theorem State.mask_clearSource (h0 : Part.clk ∈ ps) (h1 : Part.harrow ∈ ps) (h2 : Part.arr ∈ ps)
    (h3 : Part.therm ∈ ps) (h4 : Part.aux ∈ ps) (h5 : Part.recog ∈ ps) (h6 : Part.cap ∈ ps) (h7 : Part.scar ∈ ps)
    (h8 : Part.spec ∈ ps) (h9 : Part.smc ∈ ps) (h10 : Part.buf ∈ ps) (h11 : Part.int ∈ ps) (h12 : Part.pwr ∈ ps)
    (h13 : Part.host ∈ ps) (h14 : Part.link ∈ ps) (h15 : Part.mport ∈ ps) (h16 : Part.mgmt ∈ ps) (h17 : Part.fresh ∈ ps)
    (n : Nat) (s : State) :
    (State.clearSource n s).mask ps = s.mask ps := by
  unfold State.clearSource
  lift_lets
  intro t u
  clear_value t u
  simp [*]

@[simp] theorem State.mask_serveT2 (h0 : Part.clk ∈ ps) (h1 : Part.harrow ∈ ps) (h2 : Part.arr ∈ ps) (h3 : Part.therm ∈ ps)
    (h4 : Part.aux ∈ ps) (h5 : Part.recog ∈ ps) (h6 : Part.cap ∈ ps) (h7 : Part.scar ∈ ps) (h8 : Part.spec ∈ ps)
    (h9 : Part.smc ∈ ps) (h10 : Part.buf ∈ ps) (h11 : Part.int ∈ ps) (h12 : Part.pwr ∈ ps) (h13 : Part.host ∈ ps)
    (h14 : Part.link ∈ ps) (h15 : Part.mport ∈ ps) (h16 : Part.mgmt ∈ ps) (h17 : Part.fresh ∈ ps) (n : Nat) (s : State) :
    (State.serveT2 n s).mask ps = s.mask ps := by
  unfold State.serveT2
  lift_lets
  intro t
  have e1 : State.mask ps t = s.mask ps := by subst t; simp [*]
  clear_value t
  intro u
  have e2 : State.mask ps u = s.mask ps := by subst u; simp [*]
  clear_value u
  simp [*]

/-! ### Machine/TimingLink.lean -/

@[simp] theorem State.mask_drive (h0 : Part.link ∈ ps) (l : List Word) (s : State) :
    (State.drive l s).mask ps = s.mask ps := by
  simp [State.drive, *]

@[simp] theorem State.mask_newFrame (h0 : Part.link ∈ ps) (s : State) :
    (State.newFrame s).mask ps = s.mask ps := by
  simp [State.newFrame, h0]

@[simp] theorem State.mask_conflict (h0 : Part.host ∈ ps) (h1 : Part.link ∈ ps) (s : State) :
    (State.conflict s).mask ps = s.mask ps := by
  unfold State.conflict
  lift_lets
  intro t
  have e1 : State.mask ps t = s.mask ps := by subst t; simp [*]
  clear_value t
  simp [*]

@[simp] theorem State.mask_busyBefore (h0 : Part.fresh ∈ ps) (s : State) (busy : Bool) :
    (State.busyBefore s busy).2.mask ps = s.mask ps := by
  unfold State.busyBefore
  split <;> simp [*]

@[simp] theorem State.mask_wakeAll (h0 : Part.pwr ∈ ps) (l : List (Dom × Bool)) (s : State) :
    (State.wakeAll l s).mask ps = s.mask ps := by
  unfold State.wakeAll
  rw [State.mask_foldl]
  intro t k
  simp [*]

@[simp] theorem State.mask_overrun (h0 : Part.host ∈ ps) (h1 : Part.link ∈ ps) (s : State) :
    (State.overrun s).mask ps = s.mask ps := by
  simp [State.overrun, *]

@[simp] theorem State.mask_readBlock (h0 : Part.recog ∈ ps) (h1 : Part.smc ∈ ps) (h2 : Part.buf ∈ ps) (h3 : Part.int ∈ ps)
    (h4 : Part.pwr ∈ ps) (h5 : Part.host ∈ ps) (h6 : Part.link ∈ ps) (h7 : Part.mgmt ∈ ps) (h8 : Part.fresh ∈ ps)
    (flies : Bool) (index : BitVec 6) (single : Bool) (k : Nat) (x0 : Nat) (s : State) :
    (State.readBlock flies index single k x0 s).2.mask ps = s.mask ps := by
  induction x0 generalizing s k with
  | zero => rfl
  | succ n ih =>
    unfold State.readBlock
    dsimp only
    rw [ih]
    split <;> simp [*]

@[simp] theorem State.mask_sendAfter (h0 : Part.host ∈ ps) (h1 : Part.link ∈ ps) (before : List Word) (n : Nat)
    (l : List Word) (bus : List Word) (s : State) :
    (State.sendAfter before n l bus s).mask ps = s.mask ps := by
  unfold State.sendAfter
  dsimp only
  split <;> simp [*]

@[simp] theorem State.mask_readReady (h0 : Part.recog ∈ ps) (h1 : Part.smc ∈ ps) (h2 : Part.buf ∈ ps) (h3 : Part.int ∈ ps)
    (h4 : Part.pwr ∈ ps) (h5 : Part.host ∈ ps) (h6 : Part.link ∈ ps) (h7 : Part.mgmt ∈ ps) (h8 : Part.fresh ∈ ps)
    (flies woke : Bool) (before : List Word) (busy : Nat) (index : BitVec 6) (count n : Nat) (bus : List Word) (s : State) :
    (State.readReady flies woke before busy index count n bus s).mask ps = s.mask ps := by
  simp [State.readReady, *]

@[simp] theorem State.mask_linkRead (h0 : Part.recog ∈ ps) (h1 : Part.smc ∈ ps) (h2 : Part.buf ∈ ps) (h3 : Part.int ∈ ps)
    (h4 : Part.pwr ∈ ps) (h5 : Part.host ∈ ps) (h6 : Part.link ∈ ps) (h7 : Part.mgmt ∈ ps) (h8 : Part.fresh ∈ ps)
    (index : BitVec 6) (count : Nat) (words : Nat) (bus : List Word) (s : State) :
    (State.linkRead index count words bus s).mask ps = s.mask ps := by
  unfold State.linkRead
  dsimp only
  (repeat' split) <;> simp [*]

@[simp] theorem State.mask_endWait (h0 : Part.clk ∈ ps) (h1 : Part.recog ∈ ps) (h2 : Part.smc ∈ ps) (h3 : Part.buf ∈ ps)
    (h4 : Part.int ∈ ps) (h5 : Part.pwr ∈ ps) (h6 : Part.host ∈ ps) (h7 : Part.link ∈ ps) (h8 : Part.mgmt ∈ ps)
    (h9 : Part.fresh ∈ ps) (s : State) :
    (State.endWait s).mask ps = s.mask ps := by
  unfold State.endWait
  dsimp only
  (repeat' split) <;> simp [*]

@[simp] theorem State.mask_applyWord (h0 : Part.clk ∈ ps) (h1 : Part.harrow ∈ ps) (h2 : Part.arr ∈ ps) (h3 : Part.therm ∈ ps)
    (h4 : Part.aux ∈ ps) (h5 : Part.recog ∈ ps) (h6 : Part.cap ∈ ps) (h7 : Part.scar ∈ ps) (h8 : Part.spec ∈ ps)
    (h9 : Part.smc ∈ ps) (h10 : Part.buf ∈ ps) (h11 : Part.int ∈ ps) (h12 : Part.pwr ∈ ps) (h13 : Part.host ∈ ps)
    (h14 : Part.link ∈ ps) (h15 : Part.mport ∈ ps) (h16 : Part.mgmt ∈ ps) (h17 : Part.fresh ∈ ps) (flies : Bool)
    (index : BitVec 6) (k : Nat) (w : Word) (s : State) :
    (State.applyWord flies index k w s).mask ps = s.mask ps := by
  simp [State.applyWord, *]

@[simp] theorem State.mask_applyWords (h0 : Part.clk ∈ ps) (h1 : Part.harrow ∈ ps) (h2 : Part.arr ∈ ps) (h3 : Part.therm ∈ ps)
    (h4 : Part.aux ∈ ps) (h5 : Part.recog ∈ ps) (h6 : Part.cap ∈ ps) (h7 : Part.scar ∈ ps) (h8 : Part.spec ∈ ps)
    (h9 : Part.smc ∈ ps) (h10 : Part.buf ∈ ps) (h11 : Part.int ∈ ps) (h12 : Part.pwr ∈ ps) (h13 : Part.host ∈ ps)
    (h14 : Part.link ∈ ps) (h15 : Part.mport ∈ ps) (h16 : Part.mgmt ∈ ps) (h17 : Part.fresh ∈ ps) (flies : Bool)
    (index : BitVec 6) (k : Nat) (x0 : List Word) (s : State) :
    (State.applyWords flies index k x0 s).mask ps = s.mask ps := by
  induction x0 generalizing s k with
  | nil => rfl
  | cons w ws ih =>
    rw [State.applyWords, ih]
    simp [*]

@[simp] theorem State.mask_writeStatus (h0 : Part.host ∈ ps) (h1 : Part.link ∈ ps) (own : Bool) (n : Nat) (l : List Word)
    (bus : List Word) (s : State) :
    (State.writeStatus own n l bus s).mask ps = s.mask ps := by
  simp [State.writeStatus, *]

@[simp] theorem State.mask_linkWrite (h0 : Part.clk ∈ ps) (h1 : Part.harrow ∈ ps) (h2 : Part.arr ∈ ps) (h3 : Part.therm ∈ ps)
    (h4 : Part.aux ∈ ps) (h5 : Part.recog ∈ ps) (h6 : Part.cap ∈ ps) (h7 : Part.scar ∈ ps) (h8 : Part.spec ∈ ps)
    (h9 : Part.smc ∈ ps) (h10 : Part.buf ∈ ps) (h11 : Part.int ∈ ps) (h12 : Part.pwr ∈ ps) (h13 : Part.host ∈ ps)
    (h14 : Part.link ∈ ps) (h15 : Part.mport ∈ ps) (h16 : Part.mgmt ∈ ps) (h17 : Part.fresh ∈ ps) (own : Bool)
    (index : BitVec 6) (count : Nat) (words : List Word) (s : State) :
    (State.linkWrite own index count words s).mask ps = s.mask ps := by
  unfold State.linkWrite
  dsimp only
  (repeat' split) <;> simp [*]

@[simp] theorem State.mask_endStatus (h0 : Part.host ∈ ps) (h1 : Part.link ∈ ps) (f : Option Wait) (before : List Word)
    (w : Word) (s : State) :
    (State.endStatus f before w s).mask ps = s.mask ps := by
  unfold State.endStatus
  (repeat' split) <;> simp [h0, h1]

@[simp] theorem State.mask_endPosted (h0 : Part.clk ∈ ps) (h1 : Part.harrow ∈ ps) (h2 : Part.arr ∈ ps) (h3 : Part.therm ∈ ps)
    (h4 : Part.aux ∈ ps) (h5 : Part.recog ∈ ps) (h6 : Part.cap ∈ ps) (h7 : Part.scar ∈ ps) (h8 : Part.spec ∈ ps)
    (h9 : Part.smc ∈ ps) (h10 : Part.buf ∈ ps) (h11 : Part.int ∈ ps) (h12 : Part.pwr ∈ ps) (h13 : Part.host ∈ ps)
    (h14 : Part.link ∈ ps) (h15 : Part.mport ∈ ps) (h16 : Part.mgmt ∈ ps) (h17 : Part.fresh ∈ ps) (p : Posted) (s : State) :
    (State.endPosted p s).mask ps = s.mask ps := by
  unfold State.endPosted
  dsimp only
  (repeat' split) <;> simp [*]

@[simp] theorem State.mask_discovered (h0 : Part.link ∈ ps) (len : Nat) (words : List Word) (s : State) :
    (State.discovered len words s).mask ps = s.mask ps := by
  unfold State.discovered
  (repeat' split) <;> simp [*]

@[simp] theorem State.mask_assigned (h0 : Part.link ∈ ps) (words : List Word) (s : State) :
    (State.assigned words s).mask ps = s.mask ps := by
  unfold State.assigned
  (repeat' split) <;> simp [*]

@[simp] theorem State.mask_cutWait (h0 : Part.link ∈ ps) (s : State) :
    (State.cutWait s).mask ps = s.mask ps := by
  simp [State.cutWait, *]

@[simp] theorem State.mask_cutFrame (h0 : Part.clk ∈ ps) (h1 : Part.harrow ∈ ps) (h2 : Part.arr ∈ ps) (h3 : Part.therm ∈ ps)
    (h4 : Part.aux ∈ ps) (h5 : Part.recog ∈ ps) (h6 : Part.cap ∈ ps) (h7 : Part.scar ∈ ps) (h8 : Part.spec ∈ ps)
    (h9 : Part.smc ∈ ps) (h10 : Part.buf ∈ ps) (h11 : Part.int ∈ ps) (h12 : Part.pwr ∈ ps) (h13 : Part.host ∈ ps)
    (h14 : Part.link ∈ ps) (h15 : Part.mport ∈ ps) (h16 : Part.mgmt ∈ ps) (h17 : Part.fresh ∈ ps) (h : LinkHead)
    (words bus : List Word) (s : State) :
    (State.cutFrame h words bus s).mask ps = s.mask ps := by
  unfold State.cutFrame
  dsimp only
  (repeat' split)
  · simp [*]
  · rfl
  · have e : ∀ u : State, State.mask ps { u with link := { u.link with wait := none, posted := none } } = u.mask ps := fun u =>
      State.mask_modLink (by assumption) (fun x => { x with wait := none, posted := none }) u
    rw [e]
    simp [*]
  · simp [*]
  · rfl

@[simp] theorem State.mask_noteAbort (h0 : Part.host ∈ ps) (h1 : Part.link ∈ ps) (s : State) :
    (State.noteAbort s).mask ps = s.mask ps := by
  simp [State.noteAbort, *]

/-! ### Machine/Wake.lean -/

@[simp] theorem State.mask_becomesOn (h0 : Part.clk ∈ ps) (h1 : Part.harrow ∈ ps) (h2 : Part.arr ∈ ps) (h3 : Part.therm ∈ ps)
    (h4 : Part.aux ∈ ps) (h5 : Part.recog ∈ ps) (h6 : Part.cap ∈ ps) (h7 : Part.scar ∈ ps) (h8 : Part.spec ∈ ps)
    (h9 : Part.smc ∈ ps) (h10 : Part.buf ∈ ps) (h11 : Part.int ∈ ps) (h12 : Part.pwr ∈ ps) (h13 : Part.host ∈ ps)
    (h14 : Part.link ∈ ps) (h15 : Part.mport ∈ ps) (h16 : Part.mgmt ∈ ps) (h17 : Part.fresh ∈ ps) (d : Dom) (s : State) :
    (State.becomesOn d s).mask ps = s.mask ps := by
  unfold State.becomesOn
  lift_lets
  intro t
  have e1 : State.mask ps t = s.mask ps := by subst t; simp [*]
  clear_value t
  intro u
  have e2 : State.mask ps u = s.mask ps := by subst u; simp [*]
  clear_value u
  intro v
  have e3 : State.mask ps v = s.mask ps := by subst v; simp [*]
  clear_value v
  intro w
  have e4 : State.mask ps w = s.mask ps := by subst w; simp [*]
  clear_value w
  simp [*]

@[simp] theorem State.mask_becomesRetained (h0 : Part.clk ∈ ps) (h1 : Part.harrow ∈ ps) (h2 : Part.arr ∈ ps)
    (h3 : Part.therm ∈ ps) (h4 : Part.aux ∈ ps) (h5 : Part.recog ∈ ps) (h6 : Part.cap ∈ ps) (h7 : Part.spec ∈ ps)
    (h8 : Part.smc ∈ ps) (h9 : Part.buf ∈ ps) (h10 : Part.pwr ∈ ps) (h11 : Part.host ∈ ps) (h12 : Part.mport ∈ ps)
    (h13 : Part.mgmt ∈ ps) (h14 : Part.fresh ∈ ps) (d : Dom) (s : State) :
    (State.becomesRetained d s).mask ps = s.mask ps := by
  simp [State.becomesRetained, *]

@[simp] theorem State.mask_linkNeeds (h0 : Part.link ∈ ps) (s : State) :
    (State.linkNeeds s).mask ps = s.mask ps := by
  simp [State.linkNeeds, *]

end Sys2Proof.Machine
end

