-- ==== Sys2Proof/Laws/Host.lean ====
section
/-!
SUPPORT. What an executed host access, a reply of the mailbox and an authenticated command come down to.
-/

namespace Sys2Proof.Machine

open Sys2Proof

/-- While the bus is open no access is withdrawn. -/
theorem State.withdraw_open {s : State} (h : s.busOpen = true) : s.hasLk = true ∧ s.withdraw = s := by
  simp only [State.busOpen, Bool.and_eq_true] at h
  exact ⟨h.1, by simp [State.withdraw, h.2]⟩

/-- A host write of a register that it reaches is the register's write, and reaches its domain. -/
theorem State.hostWriteBusy_reaches {i : Fin 64} {s : State} (h : s.Reaches i.val) (w : Word) (b : BitVec 12) :
    s.hostWriteBusy i w b = ((s.touchReg i.val).writeReg i.val w b).finishWrite := by
  obtain ⟨h1, h2⟩ := State.withdraw_open h.1
  simp [State.hostWriteBusy, h1, h2, State.busWrite, State.writeNow, State.writeAs, h.2]

/-- A host write of a register that it reaches is the register's write, and reaches its domain. -/
theorem State.hostWrite_reaches {i : Fin 64} {s : State} (h : s.Reaches i.val) (w : Word) :
    s.hostWrite i w = ((s.touchReg i.val).writeReg i.val w 0#12).finishWrite := State.hostWriteBusy_reaches h w _

/-- A host read of a register that it reaches is the register's read, and reaches its domain. -/
theorem State.hostRead_reaches {i : Fin 64} {s : State} (h : s.Reaches i.val) :
    s.hostRead i = State.finishRead ((s.touchReg i.val).readReg i.val true) := by
  obtain ⟨h1, h2⟩ := State.withdraw_open h.1
  simp [State.hostRead, h1, h2, State.busRead, State.readNow, State.readAs, h.2]

/-- WIN_ADDR is reached whenever the bus is open. -/
theorem State.reaches_winAddr {s : State} (h : s.busOpen = true) : s.Reaches 56 := by
  refine ⟨h, ?_⟩
  simp [State.resolve, State.resolveOpen, State.regGated, regGate, State.regDom, winData]

/-- The state in which WIN_DATA addresses the table-space word a. -/
def State.atWord (a : Nat) (s : State) : State :=
  s.modHost fun h => { h with winAddr := BitVec.ofNat 24 a, atEnd := false, latched := false, done := true, valid := false }

@[simp] theorem State.atWord_host (a : Nat) (s : State) : (s.atWord a).host =
    { s.host with winAddr := BitVec.ofNat 24 a, atEnd := false, latched := false, done := true, valid := false } := rfl

@[simp] theorem State.atWord_pending (a : Nat) (s : State) : (s.atWord a).pending = s.pending := rfl
@[simp] theorem State.atWord_clk (a : Nat) (s : State) : (s.atWord a).clk = s.clk := rfl
@[simp] theorem State.atWord_harrow (a : Nat) (s : State) : (s.atWord a).harrow = s.harrow := rfl
@[simp] theorem State.atWord_arr (a : Nat) (s : State) : (s.atWord a).arr = s.arr := rfl
@[simp] theorem State.atWord_therm (a : Nat) (s : State) : (s.atWord a).therm = s.therm := rfl
@[simp] theorem State.atWord_aux (a : Nat) (s : State) : (s.atWord a).aux = s.aux := rfl
@[simp] theorem State.atWord_recog (a : Nat) (s : State) : (s.atWord a).recog = s.recog := rfl
@[simp] theorem State.atWord_cap (a : Nat) (s : State) : (s.atWord a).cap = s.cap := rfl
@[simp] theorem State.atWord_scar (a : Nat) (s : State) : (s.atWord a).scar = s.scar := rfl
@[simp] theorem State.atWord_spec (a : Nat) (s : State) : (s.atWord a).spec = s.spec := rfl
@[simp] theorem State.atWord_smc (a : Nat) (s : State) : (s.atWord a).smc = s.smc := rfl
@[simp] theorem State.atWord_buf (a : Nat) (s : State) : (s.atWord a).buf = s.buf := rfl
@[simp] theorem State.atWord_int (a : Nat) (s : State) : (s.atWord a).int = s.int := rfl
@[simp] theorem State.atWord_pwr (a : Nat) (s : State) : (s.atWord a).pwr = s.pwr := rfl
@[simp] theorem State.atWord_link (a : Nat) (s : State) : (s.atWord a).link = s.link := rfl
@[simp] theorem State.atWord_mport (a : Nat) (s : State) : (s.atWord a).mport = s.mport := rfl
@[simp] theorem State.atWord_mgmt (a : Nat) (s : State) : (s.atWord a).mgmt = s.mgmt := rfl
@[simp] theorem State.atWord_fresh (a : Nat) (s : State) : (s.atWord a).fresh = s.fresh := rfl

@[simp] theorem State.mask_atWord {ps : List Part} (h : Part.host ∈ ps) (a : Nat) (s : State) :
    (s.atWord a).mask ps = s.mask ps := by
  simp [State.atWord, h]

@[simp] theorem State.finishWrite_host (s : State) : s.finishWrite.host = { s.host with done := true, valid := false } := rfl

@[simp] theorem State.finishRead_host (r : Word × State) :
    (State.finishRead r).host =
    { r.2.host with rdata := r.1, done := true, valid := Config.strobeHeld r.2.clk.tsc } := rfl

/-- Writing WIN_ADDR addresses the word. -/
theorem State.hostWrite_winAddr {s : State} {a : Nat} (h : s.busOpen = true) :
    s.hostWrite 56 (BitVec.ofNat 32 a) = s.atWord a := by
  rw [State.hostWrite_reaches (State.reaches_winAddr h)]
  have e : bits (BitVec.ofNat 32 a) 0 24 = BitVec.ofNat 24 a := by
    apply BitVec.eq_of_toNat_eq
    simp [bits]
  simp [State.touchReg, State.regDom, winData, State.writeReg, State.writeWinAddr, State.finishWrite, State.atWord, State.modHost, e]

theorem State.winAt_atWord {s : State} {a : Nat} (ha : a < 0x1000000) : (s.atWord a).winAt = a := by
  simp [State.winAt]
  omega

/-- A word of table space does not depend on the host registers (R470). -/
theorem State.tsWord_atWord (s : State) (a b : Nat) : (s.atWord a).tsWord b = s.tsWord b := rfl

/-- The window then reaches the word. -/
theorem State.reaches_atWord {s : State} {a : Nat} (h : s.ReachesTs a) : (s.atWord a).Reaches 57 := by
  obtain ⟨hb, ha, hm, hl, hg, hd⟩ := h
  have e := State.winAt_atWord (s := s) ha
  refine ⟨hb, ?_⟩
  have hm' : (s.atWord a).tsMapped a = true := hm
  have hl' : (s.atWord a).capLent a = false := hl
  have hg' : (s.atWord a).tsGated a = false := hg
  have hd' : ∀ d, (s.atWord a).isOn d = s.isOn d := fun _ => rfl
  simp only [State.resolve, State.resolveOpen, State.regGated, State.regDom, e, hm', hl', hg', State.atWord_host, winData]
  cases ht : tsDom a with
  | none => simp
  | some d => simp [hd', hd d ht]

/-- An access to the table-space word a reaches its domain, where it has one (R429). -/
def State.touchTs (a : Nat) (s : State) : State :=
  match tsDom a with
  | some d => s.touch d
  | none => s

theorem State.touchReg_atWord {s : State} {a : Nat} (ha : a < 0x1000000) :
    (s.atWord a).touchReg (57 : Fin 64).val = (s.atWord a).touchTs a := by
  cases h : tsDom a <;> simp [State.touchReg, State.touchTs, State.regDom, winData, State.winAt_atWord ha, h]

@[simp] theorem State.touchTs_host (a : Nat) (s : State) : (s.touchTs a).host = s.host := by
  unfold State.touchTs; split <;> rfl

theorem State.winAt_touchTs {s : State} {a : Nat} (ha : a < 0x1000000) : ((s.atWord a).touchTs a).winAt = a := by
  rw [← State.winAt_atWord (s := s) ha]
  simp [State.winAt]

/-- A host write of a table-space word that it reaches is the word's write, with ADDR moved on. -/
theorem State.hostTs_reaches {s : State} {a : Nat} (h : s.ReachesTs a) (w : Word) :
    s.hostTs a w = ((((s.atWord a).touchTs a).tsWrite a w).winNext).finishWrite := by
  unfold State.hostTs
  rw [State.hostWrite_winAddr h.1, State.hostWrite_reaches (State.reaches_atWord h), State.touchReg_atWord h.2.1]
  simp [State.writeReg, State.winWrite, State.winAt_touchTs h.2.1]

/-- A host read of a table-space word that it reaches is the window's read. -/
theorem State.hostTsRead_reaches {s : State} {a : Nat} (h : s.ReachesTs a) :
    s.hostTsRead a = State.finishRead (((s.atWord a).touchTs a).winRead) := by
  unfold State.hostTsRead
  rw [State.hostWrite_winAddr h.1, State.hostRead_reaches (State.reaches_atWord h), State.touchReg_atWord h.2.1]
  simp [State.readReg]

/-- A reply that fits is delivered at once. -/
theorem State.reply_fits {s : State} {r : Request} (hr : s.mgmt.req = some r) (hm : s.isOn .mc = true) (st : BitVec 8)
    (p : List Word) (hl : s.mgmt.outQ.length + (p.length + 1) ≤ 64) :
    s.reply st p = s.modMgmt fun m =>
      { m with outQ := m.outQ ++ replyWords r.hdr st p, reply := none, req := none, replyEvt := true } := by
  have hl' : s.mgmt.outQ.length + (replyWords r.hdr st p).length ≤ 64 := by simpa [replyWords] using hl
  have hm' : ∀ f, (s.modMgmt f).isOn .mc = true := fun _ => hm
  simp only [State.reply, hr, State.deliver, hm', if_true]
  simp only [State.modMgmt, Mgmt.deliver, hl', if_true]

/-- A service row on a request that waits for it. -/
theorem State.serveMessage_serves {s : State} {r : Request} {code : BitVec 8} (h : s.Serves r code)
    (f : Request → State → State) : s.serveMessage code f = answer s (f r (s.takeUpMessage r)) := by
  obtain ⟨h1, h2, h3, h4⟩ := h
  simp [State.serveMessage, h1, h2, h3, h4]

/-- A command that is ready is carried out: its own step 9 runs with the counter stored, and its end follows. -/
theorem State.command_ready {s : State} {code : BitVec 8} (h : s.CmdReady code) (f : State → State × BitVec 8)
    (after : State → State) :
    s.command code true f after =
      (let r := f ((s.storeWork.modMgmt Mgmt.passed).modMgmt fun m => { m with authCtr := m.ctr })
       let u := r.1.endCommand r.2
       answer s (if r.2 = 0#8 then after u else u)) := by
  obtain ⟨h1, h2, h3, h4, h5⟩ := h
  simp [State.command, h1, h2, h3, h4, h5]

end Sys2Proof.Machine
end

