-- ==== Sys2Proof/Laws/Mem.lean ====
section
/-!
SUPPORT. Sparse stores and flash 0: every operation keeps the canonical form, a read after a write gives the value written, and
a write leaves every other address alone.
-/

namespace Sys2Proof.Machine

open Sys2Proof

/-! ### Words -/

theorem Mem.above_mono {lo hi : Nat} (h : lo ≤ hi) : ∀ {m : Mem}, Mem.above hi m = true → Mem.above lo m = true
  | [], _ => rfl
  | (a, w) :: m, hm => by
    simp only [Mem.above, Bool.and_eq_true, decide_eq_true_eq] at hm ⊢
    exact ⟨by omega, Mem.above_mono h hm.2⟩

theorem Mem.above_put {d : Word} {lo b : Nat} {v : Word} (hb : lo < b) :
    ∀ {m : Mem}, Mem.above lo m = true → Mem.above lo (Mem.put d m b v) = true
  | [], _ => by
    simp only [Mem.put]
    split <;> simp [Mem.above, hb]
  | (a, w) :: m, hm => by
    simp only [Mem.above, Bool.and_eq_true, decide_eq_true_eq] at hm
    simp only [Mem.put]
    repeat' split
    · exact hm.2
    · simp [Mem.above, hm.1, hm.2]
    · simp [Mem.above, hm.1, hm.2]
    · simp [Mem.above, hm.1, hm.2, hb]
    · simp [Mem.above, hm.1, Mem.above_put hb hm.2]

/-- A write keeps the canonical form. -/
theorem Mem.wf_put {d : Word} (b : Nat) (v : Word) : ∀ {m : Mem}, Mem.wf d m = true → Mem.wf d (Mem.put d m b v) = true
  | [], _ => by
    simp only [Mem.put]
    split <;> simp_all [Mem.wf, Mem.above]
  | (a, w) :: m, hm => by
    simp only [Mem.wf, Bool.and_eq_true, decide_eq_true_eq] at hm
    obtain ⟨⟨hw, ha⟩, hm⟩ := hm
    simp only [Mem.put]
    repeat' split
    · exact hm
    · simp_all [Mem.wf]
    · simp [Mem.wf, hw, ha, hm]
    · rename_i h1 h2 h3
      simp [Mem.wf, Mem.above, h2, h3, hw, ha, hm, Mem.above_mono (Nat.le_of_lt h2) ha]
    · rename_i h1 h2
      simp [Mem.wf, hw, Mem.wf_put b v hm, Mem.above_put (d := d) (v := v) (show a < b by omega) ha]

theorem Mem.above_drop {lo l h : Nat} : ∀ {m : Mem}, Mem.above lo m = true → Mem.above lo (Mem.drop l h m) = true
  | [], _ => rfl
  | (a, w) :: m, hm => by
    simp only [Mem.above, Bool.and_eq_true, decide_eq_true_eq] at hm
    have ih := Mem.above_drop (l := l) (h := h) hm.2
    simp only [Mem.drop, List.filter_cons] at ih ⊢
    split
    · simp [Mem.above, hm.1, ih]
    · exact ih

/-- Dropping a range keeps the canonical form. -/
theorem Mem.wf_drop {d : Word} {l h : Nat} : ∀ {m : Mem}, Mem.wf d m = true → Mem.wf d (Mem.drop l h m) = true
  | [], _ => rfl
  | (a, w) :: m, hm => by
    simp only [Mem.wf, Bool.and_eq_true, decide_eq_true_eq] at hm
    have ih := Mem.wf_drop (l := l) (h := h) hm.2
    have ab := Mem.above_drop (l := l) (h := h) hm.1.2
    simp only [Mem.drop, List.filter_cons] at ih ab ⊢
    split
    · simp [Mem.wf, hm.1.1, ih, ab]
    · exact ih

/-- Words written one after another keep the canonical form. -/
theorem Mem.wf_putList {d : Word} : ∀ (ws : List Word) (a : Nat) {m : Mem}, Mem.wf d m = true →
    Mem.wf d (Mem.putList d m a ws) = true
  | [], _, _, h => h
  | _ :: ws, a, _, h => Mem.wf_putList ws (a + 1) (Mem.wf_put a _ h)

theorem Mem.get_above {d : Word} {lo b : Nat} (hb : b ≤ lo) : ∀ {m : Mem}, Mem.above lo m = true → Mem.get d m b = d
  | [], _ => rfl
  | (a, w) :: m, hm => by
    simp only [Mem.above, Bool.and_eq_true, decide_eq_true_eq] at hm
    have h1 : a ≠ b := by omega
    have h2 : b < a := by omega
    simp [Mem.get, h1, h2]

/-- A read after a write: the value at the address written, any other address as before. -/
theorem Mem.get_put {d : Word} (b : Nat) (v : Word) (c : Nat) :
    ∀ {m : Mem}, Mem.wf d m = true → Mem.get d (Mem.put d m b v) c = if c = b then v else Mem.get d m c
  | [], _ => by
    by_cases hv : v = d
    · simp [Mem.put, hv, Mem.get]
    · by_cases hc : c = b
      · simp [Mem.put, hv, Mem.get, hc]
      · have : ¬ b = c := fun h => hc h.symm
        simp [Mem.put, hv, Mem.get, hc, this]
  | (a, w) :: m, hm => by
    simp only [Mem.wf, Bool.and_eq_true, decide_eq_true_eq] at hm
    obtain ⟨⟨_, ha⟩, hm⟩ := hm
    have ih := Mem.get_put b v c hm
    have ga : c ≤ a → Mem.get d m c = d := fun h => Mem.get_above h ha
    simp only [Mem.put]
    repeat' split
    all_goals try simp only [Mem.get]
    all_goals repeat' split
    all_goals first
      | omega
      | (subst_vars; simp_all; done)
      | (subst_vars; rw [ga (by omega)])

/-- The words outside a dropped range read as before, those inside as unlisted. -/
theorem Mem.get_drop {d : Word} {l h : Nat} (c : Nat) : ∀ {m : Mem}, Mem.wf d m = true →
    Mem.get d (Mem.drop l h m) c = if l ≤ c ∧ c ≤ h then d else Mem.get d m c
  | [], _ => by simp [Mem.drop, Mem.get]
  | (a, w) :: m, hm => by
    simp only [Mem.wf, Bool.and_eq_true, decide_eq_true_eq] at hm
    obtain ⟨⟨_, ha⟩, hm⟩ := hm
    have ih := Mem.get_drop (l := l) (h := h) c hm
    have ga : c ≤ a → Mem.get d m c = d := fun h => Mem.get_above h ha
    simp only [Mem.drop, List.filter_cons] at ih ⊢
    split
    · rename_i k
      simp only [Bool.or_eq_true, decide_eq_true_eq] at k
      simp only [Mem.get]
      repeat' split
      all_goals first | omega | rfl | (rw [ih]; split <;> first | rfl | omega)
    · rename_i k
      simp only [Bool.or_eq_true, decide_eq_true_eq, not_or] at k
      rw [ih]
      simp only [Mem.get]
      repeat' split
      all_goals first | rfl | omega | exact ga (by omega)

/-- The words of a list stand from its address on, every other address reads as before. -/
theorem Mem.get_putList {d : Word} : ∀ (ws : List Word) (a c : Nat) {m : Mem}, Mem.wf d m = true →
    Mem.get d (Mem.putList d m a ws) c =
      if a ≤ c ∧ c < a + ws.length then ws.getD (c - a) 0#32 else Mem.get d m c
  | [], a, c, m, _ => by
    simp only [Mem.putList, List.length_nil]
    rw [if_neg (by omega)]
  | w :: ws, a, c, m, h => by
    simp only [Mem.putList, List.length_cons]
    rw [Mem.get_putList ws (a + 1) c (Mem.wf_put a w h), Mem.get_put a w c h]
    by_cases h1 : c = a
    · subst h1
      rw [if_neg (by omega), if_pos rfl, if_pos (by omega)]
      simp
    · by_cases h2 : a + 1 ≤ c ∧ c < a + 1 + ws.length
      · rw [if_pos h2, if_pos (by omega)]
        obtain ⟨k, hk⟩ : ∃ k, c - a = k + 1 := ⟨c - a - 1, by omega⟩
        rw [hk, show c - (a + 1) = k by omega]
        simp
      · rw [if_neg h2, if_neg h1, if_neg (by omega)]

/-! ### Words with a default of their own at each address -/

/-- A write keeps the canonical form of the calibration store. -/
theorem Mem.wfBy_put {d : Nat → Word} (b : Nat) (v : Word) :
    ∀ {m : Mem}, Mem.wfBy d m = true → Mem.wfBy d (Mem.put (d b) m b v) = true
  | [], _ => by
    simp only [Mem.put]
    split <;> simp_all [Mem.wfBy, Mem.above]
  | (a, w) :: m, hm => by
    simp only [Mem.wfBy, Bool.and_eq_true, decide_eq_true_eq] at hm
    obtain ⟨⟨hw, ha⟩, hm⟩ := hm
    simp only [Mem.put]
    repeat' split
    · exact hm
    · simp_all [Mem.wfBy]
    · simp [Mem.wfBy, hw, ha, hm]
    · rename_i h1 h2 h3
      simp [Mem.wfBy, Mem.above, h2, h3, hw, ha, hm, Mem.above_mono (Nat.le_of_lt h2) ha]
    · rename_i h1 h2
      simp [Mem.wfBy, hw, Mem.wfBy_put b v hm, Mem.above_put (d := d b) (v := v) (show a < b by omega) ha]

/-! ### Bytes of flash 0 -/

theorem flashAbove_mono {lo hi : Nat} (h : lo ≤ hi) : ∀ {m : List Host.Cell}, flashAbove hi m = true → flashAbove lo m = true
  | [], _ => rfl
  | (a, w) :: m, hm => by
    simp only [flashAbove, Bool.and_eq_true, decide_eq_true_eq] at hm ⊢
    exact ⟨by omega, flashAbove_mono h hm.2⟩

theorem flashAbove_put {lo b : Nat} {v : BitVec 8} (hb : lo < b) :
    ∀ {m : List Host.Cell}, flashAbove lo m = true → flashAbove lo (flashPut m b v) = true
  | [], _ => by
    simp only [flashPut]
    split <;> simp [flashAbove, hb]
  | (a, w) :: m, hm => by
    simp only [flashAbove, Bool.and_eq_true, decide_eq_true_eq] at hm
    simp only [flashPut]
    repeat' split
    · exact hm.2
    · simp [flashAbove, hm.1, hm.2]
    · simp [flashAbove, hm.1, hm.2]
    · simp [flashAbove, hm.1, hm.2, hb]
    · simp [flashAbove, hm.1, flashAbove_put hb hm.2]

/-- A write of a byte keeps the canonical form. -/
theorem flashWf_put (b : Nat) (v : BitVec 8) : ∀ {m : List Host.Cell}, flashWf m = true → flashWf (flashPut m b v) = true
  | [], _ => by
    simp only [flashPut]
    split <;> simp_all [flashWf, flashAbove]
  | (a, w) :: m, hm => by
    simp only [flashWf, Bool.and_eq_true, decide_eq_true_eq] at hm
    obtain ⟨⟨hw, ha⟩, hm⟩ := hm
    simp only [flashPut]
    repeat' split
    · exact hm
    · simp_all [flashWf]
    · simp [flashWf, hw, ha, hm]
    · rename_i h1 h2 h3
      simp [flashWf, flashAbove, h2, h3, hw, ha, hm, flashAbove_mono (Nat.le_of_lt h2) ha]
    · rename_i h1 h2
      simp [flashWf, hw, flashWf_put b v hm, flashAbove_put (v := v) (show a < b by omega) ha]

/-- A program sequence keeps the canonical form. -/
theorem flashWf_program : ∀ (bs : List (BitVec 8)) (a : Nat) {m : List Host.Cell}, flashWf m = true →
    flashWf (flashProgram m a bs) = true
  | [], _, _, h => h
  | _ :: bs, a, _, h => flashWf_program bs (a + 1) (flashWf_put a _ h)

theorem flashAbove_erase {lo a n : Nat} : ∀ {m : List Host.Cell}, flashAbove lo m = true → flashAbove lo (flashErase a n m) = true
  | [], _ => rfl
  | (b, w) :: m, hm => by
    simp only [flashAbove, Bool.and_eq_true, decide_eq_true_eq] at hm
    have ih := flashAbove_erase (a := a) (n := n) hm.2
    simp only [flashErase, List.filter_cons] at ih ⊢
    split
    · simp [flashAbove, hm.1, ih]
    · exact ih

/-- An erase keeps the canonical form. -/
theorem flashWf_erase {a n : Nat} : ∀ {m : List Host.Cell}, flashWf m = true → flashWf (flashErase a n m) = true
  | [], _ => rfl
  | (b, w) :: m, hm => by
    simp only [flashWf, Bool.and_eq_true, decide_eq_true_eq] at hm
    have ih := flashWf_erase (a := a) (n := n) hm.2
    have ab := flashAbove_erase (a := a) (n := n) hm.1.2
    simp only [flashErase, List.filter_cons] at ih ab ⊢
    split
    · simp [flashWf, hm.1.1, ih, ab]
    · exact ih

theorem flashGet_above {lo b : Nat} (hb : b ≤ lo) : ∀ {m : List Host.Cell}, flashAbove lo m = true → flashGet m b = 0xFF#8
  | [], _ => rfl
  | (a, w) :: m, hm => by
    simp only [flashAbove, Bool.and_eq_true, decide_eq_true_eq] at hm
    have h1 : a ≠ b := by omega
    have h2 : b < a := by omega
    simp [flashGet, h1, h2]

/-- A read after a write of a byte. -/
theorem flashGet_put (b : Nat) (v : BitVec 8) (c : Nat) :
    ∀ {m : List Host.Cell}, flashWf m = true → flashGet (flashPut m b v) c = if c = b then v else flashGet m c
  | [], _ => by
    by_cases hv : v = 0xFF#8
    · simp [flashPut, hv, flashGet]
    · by_cases hc : c = b
      · simp [flashPut, hv, flashGet, hc]
      · have : ¬ b = c := fun h => hc h.symm
        simp [flashPut, hv, flashGet, hc, this]
  | (a, w) :: m, hm => by
    simp only [flashWf, Bool.and_eq_true, decide_eq_true_eq] at hm
    obtain ⟨⟨_, ha⟩, hm⟩ := hm
    have ih := flashGet_put b v c hm
    have ga : c ≤ a → flashGet m c = 0xFF#8 := fun h => flashGet_above h ha
    simp only [flashPut]
    repeat' split
    all_goals try simp only [flashGet]
    all_goals repeat' split
    all_goals first
      | omega
      | (subst_vars; simp_all; done)
      | (subst_vars; rw [ga (by omega)])

/-- Bytes programmed: each keeps at 0 what was 0, every other byte reads as before. -/
theorem flashGet_program : ∀ (bs : List (BitVec 8)) (a c : Nat) {m : List Host.Cell}, flashWf m = true →
    flashGet (flashProgram m a bs) c =
      if a ≤ c ∧ c < a + bs.length then flashGet m c &&& bs.getD (c - a) 0xFF#8 else flashGet m c
  | [], a, c, m, _ => by
    simp only [flashProgram, List.length_nil]
    rw [if_neg (by omega)]
  | w :: ws, a, c, m, h => by
    simp only [flashProgram, List.length_cons]
    rw [flashGet_program ws (a + 1) c (flashWf_put a _ h), flashGet_put a _ c h]
    by_cases h1 : c = a
    · subst h1
      rw [if_neg (by omega), if_pos rfl, if_pos (by omega)]
      simp
    · by_cases h2 : a + 1 ≤ c ∧ c < a + 1 + ws.length
      · rw [if_pos h2, if_neg h1, if_pos (by omega)]
        obtain ⟨k, hk⟩ : ∃ k, c - a = k + 1 := ⟨c - a - 1, by omega⟩
        rw [hk, show c - (a + 1) = k by omega]
        simp
      · rw [if_neg h2, if_neg h1, if_neg (by omega)]

/-- An erase: its bytes read 0xFF, every other byte reads as before. -/
theorem flashGet_erase {a n : Nat} (c : Nat) : ∀ {m : List Host.Cell}, flashWf m = true →
    flashGet (flashErase a n m) c = if a ≤ c ∧ c < a + n then 0xFF#8 else flashGet m c
  | [], _ => by simp [flashErase, flashGet]
  | (b, w) :: m, hm => by
    simp only [flashWf, Bool.and_eq_true, decide_eq_true_eq] at hm
    obtain ⟨⟨_, hb⟩, hm⟩ := hm
    have ih := flashGet_erase (a := a) (n := n) c hm
    have ga : c ≤ b → flashGet m c = 0xFF#8 := fun h => flashGet_above h hb
    simp only [flashErase, List.filter_cons] at ih ⊢
    split
    · rename_i k
      simp only [Bool.or_eq_true, decide_eq_true_eq] at k
      simp only [flashGet]
      repeat' split
      all_goals first | omega | rfl | (rw [ih]; split <;> first | rfl | omega)
    · rename_i k
      simp only [Bool.or_eq_true, decide_eq_true_eq, not_or] at k
      rw [ih]
      simp only [flashGet]
      repeat' split
      all_goals first | rfl | omega | exact ga (by omega)

end Sys2Proof.Machine
end

