-- ==== Sys2Proof/Tests/Slice0.lean ====
section
/-!
SUPPORT. Tests: a state that meets the hypotheses of each statement, the checks of WellFormed, the worked examples of the manual.
Every expected value stands in the manual.
-/

open Sys2Proof Sys2Proof.Machine

namespace Sys2Proof.Tests

set_option Elab.async false

/-- Every domain On, both PLLs locked, every clock enable 1, Zoruimen running, the map loaded with every unit Active, the module at link address 0. -/
def up : State :=
  { State.reset with
    clk := { pllm := .locked, plle := .locked, lclkPresent := true, clken := 0xFFF#12 }
    pwr := { dom := domains0.map fun d => { d with st := .on }, reqDue := false, booted := true }
    arr := { mapLoaded := true, units := Vector.replicate 660 {} }
    link := { addr := 0#5, assigned := true }
    mgmt := { zor := true } }

/-- The module with one domain in another state. -/
def domIs (d : Dom) (st : DomState) (s : State) : State := s.modDom d fun x => { x with st := st }

/-- The module with a word of the window address space selected. -/
def winAtIs (a : BitVec 24) (s : State) : State := s.modHost fun h => { h with winAddr := a }

/-- The module with one health word changed. -/
def unitIs (u : Nat) (f : UnitHealth → UnitHealth) (s : State) : State :=
  s.modArr fun a => { a with units := a.units.setIfInBounds u (f (s.unit u)) }

/-- A command waits in CMD_CODE with its arguments, the counter next after the stored one, and its tag. -/
def cmdIs (code : BitVec 8) (args : List Word) (s : State) : State :=
  let m := { s.mgmt with busy := true, code := code, args := args, ctr := if code = 0x0B#8 then 0xFFFFFFFF#32 else 1#32 }
  { s with mgmt := { m with tagHi := m.tag.getD 0 0#32, tagLo := m.tag.getD 1 0#32 } }

/-- A mailbox request with header h waits. -/
def mailIs (q : List Word) (s : State) : State := s.modMgmt fun m => { m with inQ := q }

/-- The flash with an image of VERSION 9 and SEC_VER 3 in slot A, with a body of one word (R575), signed under a key made for this
test. -/
def signedFlash : List Host.Cell :=
  [(0x1000, 0x57), (0x1001, 0x4F), (0x1002, 0x54), (0x1003, 0x48), (0x1004, 0x1), (0x1005, 0x0), (0x1006, 0x0), (0x1007, 0x0),
     (0x1008, 0x9), (0x1009, 0x0), (0x100A, 0x0), (0x100B, 0x0), (0x100C, 0x3), (0x100D, 0x0), (0x100E, 0x0), (0x100F, 0x0),
     (0x1010, 0x4), (0x1011, 0x0), (0x1012, 0x0), (0x1013, 0x0), (0x1014, 0x0), (0x1015, 0x1), (0x1016, 0x0), (0x1017, 0x0),
     (0x1018, 0x0), (0x1019, 0x0), (0x101A, 0x0), (0x101B, 0x0), (0x101C, 0x0), (0x101D, 0x0), (0x101E, 0x0), (0x101F, 0x0),
     (0x1020, 0xFE), (0x1021, 0xB2), (0x1022, 0x83), (0x1023, 0x82), (0x1024, 0xA1), (0x1025, 0xF4), (0x1026, 0x50), (0x1027, 0xA),
     (0x1028, 0xF9), (0x1029, 0x2), (0x102A, 0xD4), (0x102B, 0x68), (0x102C, 0x12), (0x102D, 0x72), (0x102E, 0x20), (0x102F, 0x2C),
     (0x1030, 0xB0), (0x1031, 0xEF), (0x1032, 0x58), (0x1033, 0x3A), (0x1034, 0xA4), (0x1035, 0x7D), (0x1036, 0xEC), (0x1037, 0x98),
     (0x1038, 0x23), (0x1039, 0x5), (0x103A, 0xD8), (0x103B, 0x2), (0x103C, 0xF3), (0x103D, 0xDF), (0x103E, 0x11), (0x103F, 0x51),
     (0x1040, 0xAB), (0x1041, 0xA2)] ++
    [(0x1042, 0x9B), (0x1043, 0x4E), (0x1044, 0x64), (0x1045, 0x5A), (0x1046, 0xCB), (0x1047, 0xA9), (0x1048, 0x73), (0x1049, 0xB4),
     (0x104A, 0xED), (0x104B, 0x11), (0x104C, 0x85), (0x104D, 0xE5), (0x104E, 0x69), (0x104F, 0x9A), (0x1050, 0xDE), (0x1051, 0x38),
     (0x1052, 0xCB), (0x1053, 0x66), (0x1054, 0x32), (0x1055, 0xC0), (0x1056, 0x86), (0x1057, 0x7F), (0x1058, 0xBB), (0x1059, 0x5D),
     (0x105A, 0x51), (0x105B, 0x2C), (0x105C, 0xC4), (0x105D, 0x6C), (0x105E, 0x68), (0x105F, 0x26), (0x1060, 0x9B), (0x1061, 0x6B),
     (0x1062, 0xDA), (0x1063, 0x19), (0x1064, 0x6), (0x1065, 0xCD), (0x1066, 0xB9), (0x1067, 0x8D), (0x1068, 0x94), (0x1069, 0xB9),
     (0x106A, 0x4B), (0x106C, 0xF9), (0x106D, 0x71), (0x106E, 0xB6), (0x106F, 0x22), (0x1070, 0x40), (0x1071, 0x6B), (0x1072, 0xDB),
     (0x1073, 0x4C), (0x1074, 0x15), (0x1075, 0x9A), (0x1076, 0xD9), (0x1077, 0xD), (0x1078, 0xF4), (0x1079, 0xEA), (0x107A, 0x22),
     (0x107B, 0x29), (0x107C, 0x6E), (0x107D, 0x5C), (0x107E, 0x2A), (0x107F, 0x6B), (0x1080, 0xF9), (0x1081, 0xEB), (0x1082, 0xE4),
     (0x1083, 0x64), (0x1084, 0x14)] ++
    [(0x1085, 0x7C), (0x1086, 0xC1), (0x1087, 0x2), (0x1088, 0xD9), (0x1089, 0x23), (0x108A, 0x24), (0x108B, 0xD0), (0x108C, 0x99),
     (0x108D, 0xD9), (0x108E, 0x27), (0x108F, 0xC1), (0x1090, 0xA5), (0x1091, 0xE), (0x1092, 0x42), (0x1093, 0xD5), (0x1094, 0x7A),
     (0x1095, 0x8), (0x1096, 0xA1), (0x1097, 0x16), (0x1099, 0xEC), (0x109A, 0xA), (0x109B, 0x29), (0x109C, 0x81), (0x109D, 0x9D),
     (0x109E, 0x8C), (0x109F, 0x65), (0x10A0, 0x70), (0x10A1, 0xBA), (0x10A2, 0xF7), (0x10A3, 0xD1), (0x10A4, 0x28), (0x10A5, 0x88),
     (0x10A6, 0x90), (0x10A7, 0x2A), (0x10A8, 0x6A), (0x10A9, 0xC), (0x10AA, 0x1D), (0x10AB, 0x67), (0x10AC, 0xAD), (0x10AD, 0xD1),
     (0x10AE, 0x3), (0x10AF, 0x12), (0x10B0, 0x3C), (0x10B1, 0x85), (0x10B2, 0x9A), (0x10B3, 0xB6), (0x10B4, 0x9B), (0x10B5, 0xF8),
     (0x10B6, 0xE9), (0x10B7, 0x43), (0x10B8, 0x1C), (0x10B9, 0x93), (0x10BA, 0x84), (0x10BB, 0x93), (0x10BC, 0xD), (0x10BD, 0x4B),
     (0x10BE, 0x7E), (0x10BF, 0xEE), (0x10C0, 0x0), (0x10C1, 0x0), (0x10C2, 0x0), (0x10C3, 0x0), (0x10C4, 0x0), (0x10C5, 0x0),
     (0x10C6, 0x0), (0x10C7, 0x0)] ++
    [(0x10C8, 0x0), (0x10C9, 0x0), (0x10CA, 0x0), (0x10CB, 0x0), (0x10CC, 0x0), (0x10CD, 0x0), (0x10CE, 0x0), (0x10CF, 0x0),
     (0x10D0, 0x0), (0x10D1, 0x0), (0x10D2, 0x0), (0x10D3, 0x0), (0x10D4, 0x0), (0x10D5, 0x0), (0x10D6, 0x0), (0x10D7, 0x0),
     (0x10D8, 0x0), (0x10D9, 0x0), (0x10DA, 0x0), (0x10DB, 0x0), (0x10DC, 0x0), (0x10DD, 0x0), (0x10DE, 0x0), (0x10DF, 0x0),
     (0x10E0, 0x0), (0x10E1, 0x0), (0x10E2, 0x0), (0x10E3, 0x0), (0x10E4, 0x0), (0x10E5, 0x0), (0x10E6, 0x0), (0x10E7, 0x0),
     (0x10E8, 0x0), (0x10E9, 0x0), (0x10EA, 0x0), (0x10EB, 0x0), (0x10EC, 0x0), (0x10ED, 0x0), (0x10EE, 0x0), (0x10EF, 0x0),
     (0x10F0, 0x0), (0x10F1, 0x0), (0x10F2, 0x0), (0x10F3, 0x0), (0x10F4, 0x0), (0x10F5, 0x0), (0x10F6, 0x0), (0x10F7, 0x0),
     (0x10F8, 0x0), (0x10F9, 0x0), (0x10FA, 0x0), (0x10FB, 0x0), (0x10FC, 0x0), (0x10FD, 0x0), (0x10FE, 0x0), (0x10FF, 0x0),
     (0x1100, 0xDE), (0x1101, 0xC0), (0x1102, 0xD), (0x1103, 0x60)]

/-- The hash of that key. -/
def testKeyHash : List (BitVec 8) :=
  [0xB4#8, 0xA5#8, 0x54#8, 0xA1#8, 0x24#8, 0xA3#8, 0x6E#8, 0xF1#8, 0x56#8, 0x4C#8, 0x56#8, 0x56#8, 0x70#8, 0xDF#8, 0xFE#8, 0xDA#8,
    0x3D#8, 0x8A#8, 0xD2#8, 0x92#8, 0xC4#8, 0x33#8, 0x94#8, 0xA1#8, 0x8D#8, 0xC9#8, 0x1B#8, 0xB#8, 0xBC#8, 0xDA#8, 0x81#8, 0x11#8]

/-- The module with that hash in OTP, MIN_VER 0, that image in slot A and nothing in slot B, which runs. -/
def keyed (s : State) : State :=
  (s.modMgmt fun m =>
    { m with
      keyHash := some testKeyHash, minVer := some 0#8, runSlot := true, slotA := { found := false, confirm := false, commit := true },
      slotB := { found := false } }).modMport fun x => { x with flash := signedFlash }

/-- The module with MC waking. -/
def waking : State :=
  ((keyed up).modMgmt fun m => { m with zor := false }).modDom .mc fun x => { x with st := .waking, target := .on }

/-- The same with a slot A whose contents are not known. -/
def wakingBlank : State := waking.modMgmt fun m => { m with slotA := { m.slotA with found := true } }

/-- A flash of 8 MiB with SFDP, the three erase types and pages of 256 bytes. -/
def flashTable : FlashTable := ⟨23#5, .three, none, some ⟨0x20#8, some 400000⟩, some ⟨0x52#8, none⟩, some ⟨0xD8#8, none⟩, 8#4⟩
/-- cmdIs makes a command that steps 5 to 7 of R582 pass. -/
theorem cmdIs_late (code : BitVec 8) (args : List Word) (s : State) (h : s.mgmt.authCtr = 0#32) :
    (cmdIs code args s).mgmt.late = 0#8 := by
  have ht : (cmdIs code args s).mgmt.tagOk = true := Mgmt.tagOk_self _
  have ha : (cmdIs code args s).mgmt.authCtr = s.mgmt.authCtr := rfl
  have hc : (cmdIs code args s).mgmt.code = code := rfl
  have hx : (cmdIs code args s).mgmt.ctr = if code = 0x0B#8 then 0xFFFFFFFF#32 else 1#32 := rfl
  simp only [Mgmt.late, ht, ha, hc, hx, h]
  by_cases hb : code = 0x0B#8 <;> simp [hb]

/-- A counter that is not above the stored one stops a command at step 7. -/
theorem cmdIs_late_stale (code : BitVec 8) (args : List Word) (s : State) (h : code ≠ 0x0B#8 ∧ 1 ≤ s.mgmt.authCtr.toNat) :
    (cmdIs code args s).mgmt.late ≠ 0#8 := by
  have ht : (cmdIs code args s).mgmt.tagOk = true := Mgmt.tagOk_self _
  have ha : (cmdIs code args s).mgmt.authCtr = s.mgmt.authCtr := rfl
  have hc : (cmdIs code args s).mgmt.code = code := rfl
  have hx : (cmdIs code args s).mgmt.ctr = if code = 0x0B#8 then 0xFFFFFFFF#32 else 1#32 := rfl
  simp only [Mgmt.late, ht, ha, hc, hx]
  simp [h.1, h.2]

/-- A command made by cmdIs is ready where the state lets it wait and steps 2 to 4 pass. -/
theorem cmdIs_ready (code : BitVec 8) (args : List Word) (s : State) (hw : (cmdIs code args s).cmdWaits = true)
    (he : (cmdIs code args s).mgmt.early = 0#8) (ha : s.mgmt.authCtr = 0#32)
    (hf : (cmdIs code args s).flashFree = true) : (cmdIs code args s).CmdReady code :=
  ⟨hw, rfl, he, cmdIs_late code args s ha, hf⟩

/-- A word that is not the UID. -/
theorem not_uid : ~~~Config.uid ≠ Config.uid := by
  intro h
  have h2 := congrArg (fun x => x.getLsbD 0) h
  simp at h2

/-- An output of a group and an EVENT frame that wait. -/
def oneOut : GroupOut := ⟨64#64, 1#24, false, Vector.replicate 24 3#24, false, false, false, false, 0#8, 70#64, false⟩

/-- See oneOut. -/
def oneEvent : EventFrame := ⟨1#6, 5#64, 1#32, 2#32, true, 6#64⟩

/-- A sample buffer without room for a word, the writer running, an EVENT frame or a data unit waiting. -/
def fullUp (ev : Bool) : State :=
  { up with
    buf := { up.buf with writing := true, events := if ev then [oneEvent] else [], words := List.replicate bufWords ⟨0#32, 0#2⟩ }
    harrow := { up.harrow with fastOut := if ev then [] else [oneOut] } }

/-- The buffer of fullUp is full. -/
theorem fullUp_level (ev : Bool) : (fullUp ev).level = bufWords := by simp [fullUp, State.level]

/-- Bit 0 of a READY word is 1 (R522), so a bus that reads 0 conflicts with it. -/
theorem ready_conflicts (s : State) (i : BitVec 6) : conflicts (s.readyWord i) 0#32 = true := by
  have h : (s.readyWord i).getLsbD 0 = true := by simp [State.readyWord, fld, flg]
  simp only [conflicts, bne_iff_ne, ne_eq]
  intro h2
  have h3 := congrArg (fun w => w.getLsbD 0) h2
  simp only [BitVec.getLsbD_and, h] at h3
  simp at h3

/-- No cluster but i is Isolating where none of the 39 is. -/
theorem iso_none (s : State) (i : Nat) (h : ∀ j : Fin 39, j.val ≠ i → (s.cluster j.val).iso = none) :
    ∀ j, j ≠ i → (s.cluster j).iso = none := by
  intro j hj
  by_cases hlt : j < 39
  · exact h ⟨j, hlt⟩ hj
  · simp [State.cluster, hlt]

/-- At the set point of reset the hold can be reached from 0 °C with 1.8 V (R123). -/
theorem reachable_up (x : Therm) (hp : x.point = 20480) (hm : x.power = 290#9) : x.reachable 0#16 1800 = true := by
  simp only [Therm.reachable, Therm.available, hp, hm]
  norm_num

/-- The hypotheses of IdleStepIsOneTick are met. -/
theorem witness_IdleStepIsOneTick :
    ∃ s : State, s.pending = [] :=
  ⟨State.reset, by decide +kernel⟩

/-- The hypotheses of ResetsComplete are met. -/
theorem witness_ResetsComplete :
    ∃ s : State, s.isOn .mc = true ∧ s.coreWaits = false :=
  ⟨up, by decide +kernel⟩

/-- The hypotheses of PllEventsComplete, clause by clause, are met. -/
theorem witness_PllEventsComplete :
    (∃ s : State, s.clk.pllm = .rising ∧ s.hasSm = true) ∧
    (∃ s : State, s.clk.pllm = .floor ∧ s.hasSm = true ∧ s.clk.lclkPresent = true ∧ s.clk.relockDue = false) ∧
    (∃ s : State, s.clk.pllm = .floor ∧ s.hasSm = true ∧ s.clk.lclkPresent = true ∧ s.clk.relockDue = true) ∧
    (∃ s : State, (s.clk.pllm = .rising ∨ s.clk.pllm = .floor) ∧ s.hasSm = true ∧ s.clk.lclkPresent = true ∧ s.failDue = true ∧ s.mgmt.logQ.length < 16) ∧
    (∃ s : State, s.clk.plle = .locking ∧ s.clk.pllm = .locked) :=
  ⟨⟨(up.modClk fun x => { x with pllm := .rising }), by decide +kernel⟩,
   ⟨(up.modClk fun x => { x with pllm := .floor }), by decide +kernel⟩,
   ⟨(up.modClk fun x => { x with pllm := .floor, relockDue := true, coast := true }), by decide +kernel⟩,
   ⟨(up.modClk fun x => { x with pllm := .floor, failHt := some 3, ht := 68 }), by decide +kernel⟩,
   ⟨(up.modClk fun x => { x with plle := .locking }), by decide +kernel⟩⟩

/-- The hypotheses of CoastEventsComplete, clause by clause, are met. -/
theorem witness_CoastEventsComplete :
    (∃ s : State, s.clk.monitorArmed = true ∧ s.clk.lclkPresent = true ∧ s.clk.park = .running ∧ s.clk.inReset = false ∧ s.clk.pllm = .locked) ∧
    (∃ s : State, s.clk.monitorArmed = true ∧ s.clk.lclkPresent = true ∧ s.clk.park = .running ∧ s.clk.inReset = false ∧ s.clk.pllm = .floor) ∧
    (∃ s : State, s.clk.monitorArmed = true ∧ s.clk.lclkPresent = true ∧ s.clk.park = .running ∧ s.clk.inReset = false ∧ (s.clk.pllm = .rising ∨ s.clk.pllm = .off)) ∧
    (∃ s : State, s.clk.lclkPresent = false ∧ s.clk.park = .running ∧ s.clk.inReset = false ∧ s.clk.seqHeld = false) ∧
    (∃ s : State, s.clk.lclkPresent = false ∧ s.clk.park = .running ∧ s.clk.inReset = false ∧ s.clk.seqHeld = true) :=
  ⟨⟨up, by decide +kernel⟩,
   ⟨(up.modClk fun x => { x with pllm := .floor }), by decide +kernel⟩,
   ⟨(up.modClk fun x => { x with pllm := .rising }), by decide +kernel⟩,
   ⟨(up.modClk fun x => { x with lclkPresent := false }), by decide +kernel⟩,
   ⟨(up.modClk fun x => { x with lclkPresent := false, seqHeld := true, pllm := .off }), by decide +kernel⟩⟩

/-- The hypotheses of EpochLoads, clause by clause, are met. -/
theorem witness_EpochLoads :
    (∃ s : State, ∃ addr : BitVec 5, ∃ lo : Word, ∃ hi : Word, ∃ crc : Word, s.linkUp = true ∧ s.named addr = true ∧ crcOk [lo, hi] crc = true ∧ s.clk.pllm = .locked) ∧
    (∃ s : State, ∃ addr : BitVec 5, ∃ lo : Word, ∃ hi : Word, ∃ crc : Word, s.linkUp = true ∧ s.named addr = true ∧ crcOk [lo, hi] crc = true ∧ s.clk.pllm ≠ .locked) ∧
    (∃ s : State, ∃ addr : BitVec 5, ∃ lo : Word, ∃ hi : Word, ∃ crc : Word, s.linkUp = true ∧ s.named addr = true ∧ crcOk [lo, hi] crc = false) :=
  ⟨⟨up, 0#5, 5#32, 7#32, (fld (crc16 [5#32, 7#32]) 0), by decide +kernel⟩,
   ⟨(up.modClk fun x => { x with pllm := .floor }), 31#5, 5#32, 7#32, (fld (crc16 [5#32, 7#32]) 0), by decide +kernel⟩,
   ⟨up, 0#5, 5#32, 7#32, (~~~(fld (crc16 [5#32, 7#32]) 0)), by decide +kernel⟩⟩

/-- The hypotheses of ClockWritesComplete, clause by clause, are met. -/
theorem witness_ClockWritesComplete :
    (∃ s : State, s.Reaches 15) ∧
    (∃ s : State, s.Reaches 12) ∧
    (∃ s : State, s.Reaches 7) ∧
    (∃ s : State, ∃ b : Fin 12, s.forceDue b.val = true ∧ s.hasLk = true ∧ s.quietFlights = true ∧ s.mgmt.logQ.length < 16) ∧
    (∃ s : State, ∃ b : Fin 12, s.forceDue b.val = true ∧ s.hasLk = true ∧ s.quietFlights = true) :=
  ⟨⟨up, by unfold State.Reaches; decide +kernel⟩,
   ⟨(up.modClk fun x => { x with relocks := 9#8 }), by unfold State.Reaches; decide +kernel⟩,
   ⟨up, by unfold State.Reaches; decide +kernel⟩,
   ⟨(up.modClk fun x => { x with closing := x.closing.set 0 (some 0), tsc := 64#64 }), 0, by decide +kernel⟩,
   ⟨(up.modClk fun x => { x with closing := (Vector.replicate 12 none).set 11 (some 0), tsc := 390000#64 }), 11, by decide +kernel⟩⟩

/-- The hypotheses of ParkCompletes, clause by clause, are met. -/
theorem witness_ParkCompletes :
    (∃ s : State, ∃ addr, s.linkUp = true ∧ s.named addr = true ∧ s.parkReady = true) ∧
    (∃ s : State, ∃ addr, s.linkUp = true ∧ s.named addr = true ∧ s.parkReady = false) ∧
    (∃ s : State, s.linkUp = true) ∧
    (∃ s : State, s.clk.park = .entering) ∧
    (∃ s : State, ∃ addr, s.clk.park = .parked ∧ s.clk.inReset = false ∧ (addr = s.link.addr ∨ addr = 31#5) ∧ s.scar.wakeOwed = false) :=
  ⟨⟨(up.modPwr fun p => { p with dom := domains0 }), 0#5, by decide +kernel⟩,
   ⟨up, 31#5, by decide +kernel⟩,
   ⟨up, by decide +kernel⟩,
   ⟨(up.modClk fun x => { x with park := .entering }), by decide +kernel⟩,
   ⟨(up.modClk fun x => { x with park := .parked }), 31#5, by decide +kernel⟩⟩

/-- The hypotheses of WindowAndDieEventsComplete, clause by clause, are met. -/
theorem witness_WindowAndDieEventsComplete :
    (∃ s : State, ∃ g : Fin 12, s.isOn .gf = true ∧ (s.cluster (24 + g.val)).driveExcl = false ∧ (s.cluster (24 + g.val)).iso = none) ∧
    (∃ s : State, ∃ g : Fin 12, s.isOn .gf = true ∧ (s.cluster (24 + g.val)).driveExcl = true) ∧
    (∃ s : State, ∃ die, ∃ check, dieCheckExists die check = true ∧ s.isOn (dieDom die) = true ∧ (s.dieFault die).get check = false) ∧
    (∃ s : State, ∃ die, ∃ check, dieCheckExists die check = true ∧ s.isOn (dieDom die) = true ∧ (s.dieFault die).get check = true) :=
  ⟨⟨up, 11, by decide +kernel⟩,
   ⟨(up.modCluster 24 fun c => { c with driveExcl := true }), 0, by decide +kernel⟩,
   ⟨up, .g, .drive, by decide +kernel⟩,
   ⟨(up.modArr fun x => { x with dieA := { temp := true } }), .a, .temperature, by decide +kernel⟩⟩

/-- The hypotheses of ThermalHoldCompletes, clause by clause, are met. -/
theorem witness_ThermalHoldCompletes :
    (∃ s : State, s.Reaches 54) ∧
    (∃ s : State, ∃ g : BitVec 6, ∃ m : PlatformMeas, s.regulating = true ∧ s.therm.ready = false ∧ s.thermQualified = true ∧ g.toNat ≤ 10 ∧ s.therm.near m.tplat 5 = true ∧ s.therm.reachable m.ambient m.vhtr = true) ∧
    (∃ s : State, ∃ g : BitVec 6, ∃ p : BitVec 16, s.regulating = true ∧ s.therm.ready = true ∧ g.toNat ≤ 10 ∧ s.therm.near p 10 = false ∧ s.therm.tooHot p = false) ∧
    (∃ s : State, ∃ g : BitVec 6, ∃ p : BitVec 16, s.regulating = true ∧ s.therm.ready = true ∧ 10 < g.toNat ∧ s.therm.tooHot p = false) ∧
    (∃ s : State, ∃ p : BitVec 16, s.regulating = true ∧ s.therm.ready = true ∧ s.therm.near p 10 = false ∧ s.therm.tooHot p = true) ∧
    (∃ s : State, ∃ ev : ThermEvent, s.isOn .th = true ∧ s.clken 9 = true ∧ s.mgmt.logQ.length < 16 ∧ ev ≠ .gradient) ∧
    (∃ s : State, ∃ g : BitVec 6, s.isOn .th = true ∧ s.clken 9 = true ∧ s.mgmt.logQ.length < 16 ∧ s.therm.ready = true ∧ 10 < g.toNat) ∧
    (∃ s : State, s.regulating = true ∧ s.therm.saturated = false) ∧
    (∃ s : State, s.pending = [] ∧ s.clk.pllm = .locked ∧ s.hasSm = true ∧ s.isOn .th = true ∧ 196608 ≤ s.therm.sub + 1) :=
  ⟨⟨up, by unfold State.Reaches; decide +kernel⟩,
   ⟨up.modTherm fun x => { x with enable := true, good := 60000 }, 10#6, ⟨0x5000#16, 0#16, 1800⟩, by decide +kernel, by decide +kernel,
    by decide +kernel, by decide, by decide +kernel, reachable_up _ (by decide +kernel) rfl⟩,
   ⟨(up.modTherm fun x => { x with enable := true, ready := true }), 10#6, 0#16, by decide +kernel⟩,
   ⟨(up.modTherm fun x => { x with enable := true, ready := true }), 11#6, 0#16, by decide +kernel⟩,
   ⟨(up.modTherm fun x => { x with enable := true, ready := true }), 0x7000#16, by decide +kernel⟩,
   ⟨up, .heater, by decide +kernel⟩,
   ⟨(up.modTherm fun x => { x with ready := true }), 11#6, by decide +kernel⟩,
   ⟨(up.modTherm fun x => { x with enable := true }), by decide +kernel⟩,
   ⟨(up.modTherm fun x => { x with sub := 196607 }), by decide +kernel⟩⟩

/-- The hypotheses of AuditsStart, clause by clause, are met. -/
theorem witness_AuditsStart :
    (∃ s : State, ∃ r : Fin 6, s.auditsMay r.val = true ∧ (s.rotation r.val).active = false ∧ (s.rotation r.val).audit = none ∧ s.gapOver r.val = true) ∧
    (∃ s : State, ∃ u : Fin 660, ∃ b, s.nextAudit (unitRegion u.val) = some (u.val, b) ∧ s.auditsMay (unitRegion u.val) = true ∧ (s.rotation (unitRegion u.val)).audit = none) ∧
    (∃ s : State, ∃ u : Fin 660, (s.unit u.val).state = .dead ∧ (s.unit u.val).lasting = false ∧ s.hasLk = true) ∧
    (∃ s : State, ∃ u : Fin 660, (s.unit u.val).state = .fallow ∧ s.hasLk = true) :=
  ⟨⟨up, 5, by decide +kernel⟩,
   ⟨(up.modRotation 0 fun q => { q with active := true }), 0, true, by decide +kernel⟩,
   ⟨(unitIs 659 (fun h => { h with state := .dead }) up), 659, by decide +kernel⟩,
   ⟨(unitIs 0 (fun h => { h with state := .fallow }) up), 0, by decide +kernel⟩⟩

/-- The hypotheses of LeakChecksComplete, clause by clause, are met. -/
theorem witness_LeakChecksComplete :
    (∃ s : State, ∃ r : Fin 6, ∃ a : Audit, (s.rotation r.val).audit = some a ∧ a.phase = .leak ∧ s.auditsMay r.val = true ∧ unitRegion a.unit.val = r.val ∧ a.standin ≠ some a.unit ∧ (s.unit a.unit.val).state = .active ∧ a.ret = .active) ∧
    (∃ s : State, ∃ r : Fin 6, ∃ a : Audit, (s.rotation r.val).audit = some a ∧ a.phase = .leak ∧ s.auditsMay r.val = true ∧ unitRegion a.unit.val = r.val ∧ a.standin ≠ some a.unit ∧ (s.unit a.unit.val).state = .active ∧ a.ret = .active) ∧
    (∃ s : State, ∃ r : Fin 6, ∃ a : Audit, (s.rotation r.val).audit = some a ∧ a.phase = .leak ∧ s.auditsMay r.val = true ∧ unitRegion a.unit.val = r.val ∧ a.standin ≠ some a.unit ∧ (s.unit a.unit.val).state = .active ∧ a.ret = .active) :=
  ⟨⟨(up.modRotation 0 fun q => { q with audit := some ⟨2, .active, some 16, .leak, true⟩ }), 0, ⟨2, .active, some 16, .leak, true⟩, by decide +kernel⟩,
   ⟨(up.modRotation 0 fun q => { q with audit := some ⟨2, .active, some 16, .leak, true⟩ }), 0, ⟨2, .active, some 16, .leak, true⟩, by decide +kernel⟩,
   ⟨(up.modRotation 0 fun q => { q with audit := some ⟨2, .active, some 16, .leak, true⟩ }), 0, ⟨2, .active, some 16, .leak, true⟩, by decide +kernel⟩⟩

/-- The hypotheses of AuditVerdictsComplete, clause by clause, are met. -/
theorem witness_AuditVerdictsComplete :
    (∃ s : State, ∃ r : Fin 6, ∃ a : Audit, (s.rotation r.val).audit = some a ∧ a.phase = .pilot ∧ s.auditsMay r.val = true ∧ unitRegion a.unit.val = r.val ∧ a.standin ≠ some a.unit ∧ (a.ret ≠ .active → a.standin = none) ∧ (s.unit a.unit.val).state = .audit) ∧
    (∃ s : State, ∃ r : Fin 6, ∃ a : Audit, ∃ m, (s.rotation r.val).audit = some a ∧ a.phase = .pilot ∧ s.auditsMay r.val = true ∧ unitRegion a.unit.val = r.val ∧ a.standin ≠ some a.unit ∧ (a.ret ≠ .active → a.standin = none) ∧ (s.unit a.unit.val).state = .audit ∧ (a.ret = .active ∨ a.ret = .spare) ∧ auditCause (3 ≤ r.val) m = 0#3) ∧
    (∃ s : State, ∃ r : Fin 6, ∃ a : Audit, ∃ m, (s.rotation r.val).audit = some a ∧ a.phase = .pilot ∧ s.auditsMay r.val = true ∧ unitRegion a.unit.val = r.val ∧ a.standin ≠ some a.unit ∧ (a.ret ≠ .active → a.standin = none) ∧ (s.unit a.unit.val).state = .audit ∧ (a.ret = .active ∨ a.ret = .spare) ∧ auditCause (3 ≤ r.val) m ≠ 0#3 ∧ (s.unit a.unit.val).fails.toNat < 2) ∧
    (∃ s : State, ∃ r : Fin 6, ∃ a : Audit, ∃ m, (s.rotation r.val).audit = some a ∧ a.phase = .pilot ∧ s.auditsMay r.val = true ∧ unitRegion a.unit.val = r.val ∧ a.standin ≠ some a.unit ∧ (a.ret ≠ .active → a.standin = none) ∧ (s.unit a.unit.val).state = .audit ∧ (a.ret = .active ∨ a.ret = .spare) ∧ auditCause (3 ≤ r.val) m ≠ 0#3 ∧ 2 ≤ (s.unit a.unit.val).fails.toNat) ∧
    (∃ s : State, ∃ r : Fin 6, ∃ a : Audit, ∃ m, (s.rotation r.val).audit = some a ∧ a.phase = .pilot ∧ s.auditsMay r.val = true ∧ unitRegion a.unit.val = r.val ∧ a.standin ≠ some a.unit ∧ (a.ret ≠ .active → a.standin = none) ∧ (s.unit a.unit.val).state = .audit ∧ a.ret = .dead ∧ auditCause (3 ≤ r.val) m = 0#3) ∧
    (∃ s : State, ∃ r : Fin 6, ∃ a : Audit, ∃ m, (s.rotation r.val).audit = some a ∧ a.phase = .pilot ∧ s.auditsMay r.val = true ∧ unitRegion a.unit.val = r.val ∧ a.standin ≠ some a.unit ∧ (a.ret ≠ .active → a.standin = none) ∧ (s.unit a.unit.val).state = .audit ∧ a.ret = .dead ∧ auditCause (3 ≤ r.val) m ≠ 0#3) ∧
    (∃ s : State, ∃ r : Fin 6, ∃ a : Audit, ∃ m, (s.rotation r.val).audit = some a ∧ a.phase = .pilot ∧ s.auditsMay r.val = true ∧ unitRegion a.unit.val = r.val ∧ a.standin ≠ some a.unit ∧ (a.ret ≠ .active → a.standin = none) ∧ (s.unit a.unit.val).state = .audit ∧ a.ret = .fallow ∧ auditCause (3 ≤ r.val) m = 0#3) ∧
    (∃ s : State, ∃ r : Fin 6, ∃ a : Audit, ∃ m, (s.rotation r.val).audit = some a ∧ a.phase = .pilot ∧ s.auditsMay r.val = true ∧ unitRegion a.unit.val = r.val ∧ a.standin ≠ some a.unit ∧ (a.ret ≠ .active → a.standin = none) ∧ (s.unit a.unit.val).state = .audit ∧ a.ret = .fallow ∧ auditCause (3 ≤ r.val) m ≠ 0#3) :=
  ⟨⟨(unitIs 2 (fun h => { h with state := .audit }) (up.modRotation 0 fun q => { q with audit := some ⟨2, .active, some 16, .pilot, true⟩ })), 0, ⟨2, .active, some 16, .pilot, true⟩, by decide +kernel⟩,
   ⟨(unitIs 2 (fun h => { h with state := .audit }) (up.modRotation 0 fun q => { q with audit := some ⟨2, .active, some 16, .pilot, true⟩ })), 0, ⟨2, .active, some 16, .pilot, true⟩, ⟨0, 0, 0, 0⟩, by decide +kernel⟩,
   ⟨(unitIs 2 (fun h => { h with state := .audit, fails := 1 }) (up.modRotation 0 fun q => { q with audit := some ⟨2, .active, some 16, .pilot, true⟩ })), 0, ⟨2, .active, some 16, .pilot, true⟩, ⟨1000000, 0, 0, 0⟩, by decide +kernel⟩,
   ⟨(unitIs 2 (fun h => { h with state := .audit, fails := 2 }) (up.modRotation 0 fun q => { q with audit := some ⟨2, .active, some 16, .pilot, true⟩ })), 0, ⟨2, .active, some 16, .pilot, true⟩, ⟨1000000, 0, 0, 0⟩, by decide +kernel⟩,
   ⟨(unitIs 17 (fun h => { h with state := .audit, ret := .dead }) (up.modRotation 0 fun q => { q with audit := some ⟨17, .dead, none, .pilot, true⟩ })), 0, ⟨17, .dead, none, .pilot, true⟩, ⟨0, 0, 0, 0⟩, by decide +kernel⟩,
   ⟨(unitIs 17 (fun h => { h with state := .audit, ret := .dead }) (up.modRotation 0 fun q => { q with audit := some ⟨17, .dead, none, .pilot, true⟩ })), 0, ⟨17, .dead, none, .pilot, true⟩, ⟨1000000, 0, 0, 0⟩, by decide +kernel⟩,
   ⟨(unitIs 16 (fun h => { h with state := .audit, ret := .fallow, passes := 22 }) (up.modRotation 0 fun q => { q with audit := some ⟨16, .fallow, none, .pilot, true⟩ })), 0, ⟨16, .fallow, none, .pilot, true⟩, ⟨0, 0, 0, 0⟩, by decide +kernel⟩,
   ⟨(unitIs 16 (fun h => { h with state := .audit, ret := .fallow, flaps := 2 }) (up.modRotation 0 fun q => { q with audit := some ⟨16, .fallow, none, .pilot, true⟩ })), 0, ⟨16, .fallow, none, .pilot, true⟩, ⟨1000000, 0, 0, 0⟩, by decide +kernel⟩⟩

/-- The hypotheses of ClusterEventsComplete, clause by clause, are met. -/
theorem witness_ClusterEventsComplete :
    (∃ s : State, ∃ i : Fin 36, ∃ f, s.frontRuns (regionOf i.val) = true ∧ s.clusterOn i.val = true ∧ (s.cluster i.val).nodeFault = false ∧ (s.cluster i.val).iso = none ∧ (s.rotation (regionOf i.val)).audit = none ∧ s.bisects i.val f = true) ∧
    (∃ s : State, ∃ i : Fin 36, s.pending = [] ∧ s.hasSm = true ∧ s.frontRuns (regionOf i.val) = true ∧ (∀ j, j ≠ i.val → (s.cluster j).iso = none) ∧ (s.cluster i.val).iso = some (.nodeFault, 1)) ∧
    (∃ s : State, ∃ i : Fin 36, ∃ u : Fin 660, s.pending = [] ∧ s.hasSm = true ∧ s.frontRuns (regionOf i.val) = true ∧ (∀ j, j ≠ i.val → (s.cluster j).iso = none) ∧ (s.cluster i.val).iso = some (.unit u, 1) ∧ s.bisects i.val (.unit u) = true) ∧
    (∃ s : State, ∃ i : Fin 36, (s.cluster i.val).retrim = true ∧ s.frontRuns (regionOf i.val) = true) ∧
    (∃ s : State, s.arr.dirtySince.isSome = true ∧ s.arr.mapLoaded = true ∧ s.isOn .mc = true ∧ s.flashFree = true ∧ s.mport.seq = none) ∧
    (∃ s : State, ∃ r : Fin 6, s.isOn (frontDom r.val) = true ∧ s.isOn .mc = true) ∧
    (∃ s : State, ∃ i : Fin 36, (s.cluster i.val).residExcl = true ∧ s.isOn .mc = true ∧ s.isOn (frontDom (regionOf i.val)) = true) ∧
    (∃ s : State, s.ReachesTs 0x7023) ∧
    (∃ s : State, ∃ i : Fin 24, (s.cluster i.val).rejoin = true ∧ s.isOn .af = true ∧ s.usSince (s.cluster i.val).rejoinAt 2000 = true) :=
  ⟨⟨up, 35, .nodeFault, by decide +kernel⟩,
   ⟨(up.modCluster 23 fun c => { c with iso := some (.nodeFault, 1) }), 23, by decide +kernel, by decide +kernel, by decide +kernel, iso_none _ _ (by decide +kernel), by decide +kernel⟩,
   ⟨(up.modCluster 0 fun c => { c with iso := some (.unit 3, 1) }), 0, 3, by decide +kernel, by decide +kernel, by decide +kernel, iso_none _ _ (by decide +kernel), by decide +kernel,
    by decide +kernel⟩,
   ⟨(up.modCluster 23 fun c => { c with retrim := true }), 23, by decide +kernel⟩,
   ⟨(up.modArr fun x => { x with dirtySince := some 4 }), by decide +kernel⟩,
   ⟨up, 0, by decide +kernel⟩,
   ⟨(up.modCluster 8 fun c => { c with residExcl := true }), 8, by decide +kernel⟩,
   ⟨(winAtIs 0x7023#24 up), by unfold State.ReachesTs; decide +kernel⟩,
   ⟨((up.modCluster 0 fun c => { c with rejoin := true }).modClk fun c => { c with tsc := 393216 }), 0, by decide +kernel⟩⟩

/-- The hypotheses of ConverterEventsComplete, clause by clause, are met. -/
theorem witness_ConverterEventsComplete :
    (∃ s : State, ∃ c : Fin 4, s.Reaches 36 ∧ s.isOn .xf = true ∧ s.aux.conv[c].stage.check = 0#3 ∧ s.aux.conv[c].pend = none) ∧
    (∃ s : State, ∃ c : Fin 4, s.Reaches 36 ∧ s.isOn .xf = true ∧ s.aux.conv[c].stage.check = 0#3) ∧
    (∃ s : State, ∃ c : Fin 4, s.Reaches 36 ∧ s.isOn .xf = true ∧ s.aux.conv[c].stage.check ≠ 0#3) ∧
    (∃ s : State, ∃ c : Fin 4, ∃ b, s.aux.conv[c].pend = some b ∧ s.isOn .xf = true ∧ s.clken 2 = true ∧ s.hasSm = true ∧ 0 ≤ (s.clk.tsc - s.aux.conv[c].startAt).toInt) ∧
    (∃ s : State, ∃ c : Fin 4, s.Reaches 36 ∧ s.mayReset c = true) ∧
    (∃ s : State, ∃ c : Fin 4, s.convRuns c = true) ∧
    (∃ s : State, ∃ c : Fin 4, s.mayReset c = true ∧ bits s.aux.conv[c].act.rst 0 4 ≠ 0#4 ∧ s.timerOver c = true) ∧
    (∃ s : State, ∃ c : Fin 4, s.aux.conv[c].resetting = true ∧ s.convRuns c = true ∧ s.aux.conv[c].resetOver s.clk.tsc = true) :=
  ⟨⟨up, 3, by unfold State.Reaches; decide +kernel⟩,
   ⟨(up.modConv 1 fun q => { q with pend := some { q.stage with conv := 0x201#32 }, stopAt := some 64#64 }), 1, by unfold State.Reaches; decide +kernel⟩,
   ⟨(up.modConv 0 fun q => { q with stage := { q.stage with conv := 0xFFF#32 } }), 0, by unfold State.Reaches; decide +kernel⟩,
   ⟨(up.modConv 2 fun q => { q with pend := some { q.stage with conv := 0x201#32 } }), 2, ({ up.aux.conv[2].stage with conv := 0x201#32 }), by decide +kernel⟩,
   ⟨(up.modConv 3 fun q => { q with act := { q.act with conv := 0x203#32, rst := 0x11#32 } }), 3, by unfold State.Reaches; decide +kernel⟩,
   ⟨(up.modConv 3 fun q => { q with act := { q.act with conv := 0x203#32, rst := 0x11#32 } }), 3, by decide +kernel⟩,
   ⟨(up.modConv 3 fun q => { q with act := { q.act with conv := 0x203#32, rst := 0x11#32 } }).modClk fun c => { c with ht := 66 }, 3, by decide +kernel⟩,
   ⟨(up.modConv 0 fun q => { q with act := { q.act with conv := 0x203#32, rst := 0x11#32 }, resetting := true }), 0, by decide +kernel⟩⟩

/-- The hypotheses of ExcitationEventsComplete, clause by clause, are met. -/
theorem witness_ExcitationEventsComplete :
    (∃ s : State, ∃ n : Fin 4, s.ReachesTs (0x1050 + n.val)) ∧
    (∃ s : State, ∃ n : Fin 4, s.aux.exc[n].pend = true ∧ s.isOn .xf = true ∧ s.clken 2 = true ∧ 0 ≤ (s.clk.tsc - s.aux.exc[n].due).toInt) ∧
    (∃ s : State, s.Reaches 35) ∧
    (∃ s : State, ∃ c : Fin 4, ∃ k : Fin 4, ∃ neg, s.compares c k.val neg = true ∧ s.mgmt.logQ.length < 16) ∧
    (∃ s : State, ∃ c : Fin 4, ∃ k : Fin 4, s.compares c k.val false = true ∧ s.aux.conv[c].fault.getLsbD k.val = true) :=
  ⟨⟨(winAtIs 0x1053#24 up), 3, by unfold State.ReachesTs; decide +kernel⟩,
   ⟨(up.modAux fun a => { a with exc := a.exc.set 0 { word := 5#32, pend := true } }), 0, by decide +kernel⟩,
   ⟨(up.modAux fun x => { x with excCut := 0xF#4 }), by unfold State.Reaches; decide +kernel⟩,
   ⟨(up.modConv 0 fun q => { q with act := { q.act with conv := 0x205#32, a := Vector.replicate 4 0x03C08421#32 } }), 0, 0, false, by decide +kernel⟩,
   ⟨(up.modConv 1 fun q => { q with act := { q.act with conv := 0x205#32 }, fault := 0x1#4 }), 1, 0, by decide +kernel⟩⟩

/-- The hypotheses of IdentificationCompletes, clause by clause, are met. -/
theorem witness_IdentificationCompletes :
    (∃ s : State, ∃ p : Fin 4, ∃ v, s.aux.probeEn.getLsbD p.val = true ∧ s.hasLk = true ∧ s.aux.attach.getLsbD p.val ≠ v ∧ s.mgmt.logQ.length < 16) ∧
    (∃ s : State, ∃ p : Fin 4, s.aux.tedsDue.getLsbD p.val = true ∧ s.aux.attach.getLsbD p.val = true ∧ s.tedsTime p = true ∧ s.hasLk = true ∧ s.demandStarts .mc = false) ∧
    (∃ s : State, ∃ p : Fin 4, s.aux.tedsDue.getLsbD p.val = true ∧ s.aux.attach.getLsbD p.val = true ∧ s.tedsTime p = true ∧ s.hasLk = true ∧ s.demandStarts .mc = true) ∧
    (∃ s : State, ∃ p : Fin 4, ∃ found, memoryFits found = true ∧ s.coreUp = true ∧ s.aux.tedsBusy.getLsbD p.val = true ∧ s.discovers p.val = false ∧ Mem.wf 0#32 s.aux.teds = true) ∧
    (∃ s : State, ∃ c : Fin 4, s.calibrating c = true ∧ s.aux.calTag = none) ∧
    (∃ s : State, ∃ c : Fin 4, ∃ r, s.calibrating c = true ∧ s.aux.calTag.isSome = true ∧ putBit s.aux.calQueue c.val false = 0#4 ∧ s.mgmt.req = some r ∧ s.isOn .mc = true ∧ s.mgmt.outQ.length + 2 ≤ 64) :=
  ⟨⟨up, 0, true, by decide +kernel⟩,
   ⟨(up.modAux fun x => { x with attach := 0x8#4, tedsDue := 0x8#4 }).modClk fun c => { c with ht := 3277 }, 3, by decide +kernel⟩,
   ⟨((domIs .mc .retain up).modAux fun x => { x with attach := 0x8#4, tedsDue := 0x8#4 }).modClk fun c => { c with ht := 3277 }, 3, by decide +kernel⟩,
   ⟨(up.modAux fun x => { x with tedsBusy := 0x8#4, teds := [(0xF2FF, 5#32), (0xF3FF, 9#32)] }), 3, (.memory (List.replicate 40 7#8)), by decide +kernel⟩,
   ⟨(up.modAux fun x => { x with calQueue := 0xC#4, calNow := some 2 }), 2, by decide +kernel⟩,
   ⟨((up.modMgmt fun m => { m with req := some ⟨5#32, [4#32]⟩ }).modAux fun x => { x with calQueue := 0x4#4, calNow := some 2, calTag := some 5#32, calDone := 3#4 }), 2, ⟨5#32, [4#32]⟩, by decide +kernel⟩⟩

/-- The hypotheses of HarrowWritesComplete, clause by clause, are met. -/
theorem witness_HarrowWritesComplete :
    (∃ s : State, ∃ ch : Fin 6, s.ReachesTs (64 * ch.val + 1)) ∧
    (∃ s : State, ∃ ch : Fin 24, s.ReachesTs (64 * ch.val + 2) ∧ (∀ k, k < 16 → fNonFinite ((s.chan ch.val).userStage.getD k 0#32) = false)) ∧
    (∃ s : State, ∃ ch : Fin 24, s.ReachesTs (64 * ch.val + 2) ∧ (∃ k, k < 16 ∧ fNonFinite ((s.chan ch.val).userStage.getD k 0#32) = true)) ∧
    (∃ s : State, ∃ ch : Fin 24, ∃ g, s.ReachesTs (bqCtrl ch.val g) ∧ (∀ k, k < 4 → ((s.chan ch.val).biquads g).stageEn.getLsbD k = true → badBiquad ((s.chan ch.val).biquads g).stage k = false)) ∧
    (∃ s : State, ∃ ch : Fin 24, ∃ g, s.ReachesTs (bqCtrl ch.val g) ∧ (∃ k, k < 4 ∧ ((s.chan ch.val).biquads g).stageEn.getLsbD k = true ∧ badBiquad ((s.chan ch.val).biquads g).stage k = true)) ∧
    (∃ s : State, s.ReachesTs (64 * 23 + 2)) ∧
    (∃ s : State, ∃ ch : Fin 24, ∃ k, ((s.chan ch.val).path k).sup = true ∧ s.isOn .en = true ∧ s.hasSm = true ∧ s.latencyOver ch.val k = true) :=
  ⟨⟨(winAtIs 0x141#24 up), 5, by unfold State.ReachesTs; decide +kernel⟩,
   ⟨(winAtIs 0x5C2#24 up), 23, by unfold State.ReachesTs; decide +kernel⟩,
   ⟨((winAtIs 0x2#24 up).modChan 0 fun c => { c with userStage := c.userStage.set 15 0x7F800000#32 }), 0, by unfold State.ReachesTs; decide +kernel⟩,
   ⟨(winAtIs (BitVec.ofNat 24 (bqCtrl 23 .slow)) up), 23, .slow, by unfold State.ReachesTs; decide +kernel⟩,
   ⟨((winAtIs (BitVec.ofNat 24 (bqCtrl 0 .fast)) up).modChan 0 fun c => { c with bqFast := { c.bqFast with stageEn := 8#4, stage := c.bqFast.stage.set 19 0x7FC00000#32 } }), 0, .fast, by unfold State.ReachesTs; decide +kernel⟩,
   ⟨(winAtIs 0x5C2#24 up), by unfold State.ReachesTs; decide +kernel⟩,
   ⟨((up.modChan 7 fun c => { c with fast := { running := true, sup := true, rephasing := true } }).modClk fun c => { c with tsc := 0x4000000#64 }), 7, .fast, by decide +kernel⟩⟩

/-- The hypotheses of PathOutputsComplete, clause by clause, are met. -/
theorem witness_PathOutputsComplete :
    (∃ s : State, s.outputsCome .recog = true ∧ s.outputDue .recog = true ∧ s.nextRate = none) ∧
    (∃ s : State, s.outputsCome .fast = true ∧ s.outputDue .fast = true ∧ s.nextRate = none ∧ s.buf.writing = true ∧ s.buf.fast.mask ≠ 0#24 ∧ s.buf.fast.olds = [] ∧ 0 < (s.harrow.fastNext - s.buf.fast.startAt).toInt) ∧
    (∃ s : State, s.outputsCome .slow = true ∧ s.outputDue .slow = true ∧ s.nextRate = none ∧ s.buf.writing = true ∧ s.buf.slow.mask ≠ 0#24 ∧ s.buf.slow.olds = [] ∧ 0 < (s.harrow.slowNext - s.buf.slow.startAt).toInt) :=
  ⟨⟨((up.modChan 7 fun c => { c with recog := { running := true, sup := true } }).modRecog fun x => { x with live := 0x3F#6 }).modClk fun c => { c with tsc := 0x4000000#64 }, by decide +kernel⟩,
   ⟨((up.modBuf fun b => { b with writing := true, run := true, enable := true, fast := { b.fast with mask := 0x81#24, startAt := 0 - 9 }, slow := { b.slow with mask := 1#24, startAt := 0 - 9 } }).modChan 7 fun c => { c with fast := { running := true, sup := true } }).modClk fun c => { c with tsc := 0x4000000#64 }, by decide +kernel⟩,
   ⟨((up.modBuf fun b => { b with writing := true, run := true, enable := true, fast := { b.fast with mask := 0x81#24, startAt := 0 - 9 }, slow := { b.slow with mask := 1#24, startAt := 0 - 9 } }).modChan 7 fun c => { c with slow := { running := true, sup := false } }).modClk fun c => { c with tsc := 0x4000000#64 }, by decide +kernel⟩⟩

/-- The hypotheses of RecogniserWritesComplete, clause by clause, are met. -/
theorem witness_RecogniserWritesComplete :
    (∃ s : State, s.Reaches 33) ∧
    (∃ s : State, ∃ r : Fin 6, ∃ k : Fin 8, s.ReachesTs (0x4000 + 16 * r.val + k.val) ∧ paramMask r.val k.val ≠ 0#32 ∧ s.recog.noReports = true) ∧
    (∃ s : State, ∃ r : Fin 6, ∃ k : Fin 8, s.ReachesTs (0x4000 + 16 * r.val + k.val) ∧ paramMask r.val k.val = 0#32) ∧
    (∃ s : State, s.ReachesTs 0x4040) ∧
    (∃ s : State, ∃ r : Fin 6, s.ReachesTs (0x4008 + 16 * r.val)) :=
  ⟨⟨up, by unfold State.Reaches; decide +kernel⟩,
   ⟨(winAtIs 16384#24 up), 0, 0, by unfold State.ReachesTs; decide +kernel⟩,
   ⟨(winAtIs 0x4057#24 up), 5, 7, by unfold State.ReachesTs; decide +kernel⟩,
   ⟨(winAtIs 0x4040#24 up), by unfold State.ReachesTs; decide +kernel⟩,
   ⟨(winAtIs 0x4058#24 up), 5, by unfold State.ReachesTs; decide +kernel⟩⟩

/-- The hypotheses of RecogniserReportsComplete, clause by clause, are met. -/
theorem witness_RecogniserReportsComplete :
    (∃ s : State, ∃ p : Report, s.hasSm = true ∧ s.isOn .en = true ∧ s.recog.frame = 0#6 ∧ s.recog.capt = 0#6 ∧ p.evt = true ∧ s.recog.impact.due = some p) ∧
    (∃ s : State, ∃ p : Report, s.hasSm = true ∧ s.isOn .en = true ∧ s.recog.frame = 0#6 ∧ s.recog.capt = 0#6 ∧ p.evt = true ∧ s.recog.impact.winDue = some p) ∧
    (∃ s : State, ∃ p : Report, s.hasSm = true ∧ s.isOn .en = true ∧ s.recog.frame = 0#6 ∧ s.recog.capt = 0#6 ∧ p.evt = true ∧ s.recog.cadence.due = some p) ∧
    (∃ s : State, ∃ p : Report, s.hasSm = true ∧ s.isOn .en = true ∧ s.recog.frame = 0#6 ∧ s.recog.capt = 0#6 ∧ p.evt = true ∧ s.recog.cadence.endDue = some p) ∧
    (∃ s : State, ∃ p : Report, s.hasSm = true ∧ s.isOn .en = true ∧ s.recog.frame = 0#6 ∧ s.recog.capt = 0#6 ∧ p.evt = true ∧ s.recog.fall.due = some p) ∧
    (∃ s : State, ∃ p : Report, s.hasSm = true ∧ s.isOn .en = true ∧ s.recog.frame = 0#6 ∧ s.recog.capt = 0#6 ∧ p.evt = true ∧ s.recog.trans.due = some p) ∧
    (∃ s : State, ∃ p : Report, s.hasSm = true ∧ s.isOn .en = true ∧ s.recog.frame = 0#6 ∧ s.recog.capt = 0#6 ∧ p.evt = true ∧ s.recog.tilt.due = some p) ∧
    (∃ s : State, ∃ p : Report, s.hasSm = true ∧ s.isOn .en = true ∧ p.evt = false ∧ s.recog.cadence.due = some p) ∧
    (∃ s : State, ∃ p : Report, s.hasSm = true ∧ s.isOn .en = true ∧ p.evt = false ∧ s.recog.tilt.due = some p) ∧
    (∃ s : State, ∃ p : Report, s.hasSm = true ∧ s.isOn .en = true ∧ p.evt = true ∧ s.recog.frame.getLsbD 0 = true ∧ s.recog.capt = 0#6 ∧ s.buf.writing = true ∧ s.recog.impact.due = some p) ∧
    (∃ s : State, s.recog.trans.rearm = true ∧ s.hasSm = true ∧ s.isOn .en = true) :=
  ⟨⟨(up.modRecog fun x => { x with impact := { x.impact with due := some (⟨[(0, 0xFF#32, 3#32), (7, 0xFFFFFFFF#32, 9#32)], 77#64, 70#64, true, 0⟩ : Report) }, evt := 0x1#6 }), (⟨[(0, 0xFF#32, 3#32), (7, 0xFFFFFFFF#32, 9#32)], 77#64, 70#64, true, 0⟩ : Report), by decide +kernel⟩,
   ⟨(up.modRecog fun x => { x with impact := { x.impact with winDue := some (⟨[(0, 0xFF#32, 3#32), (7, 0xFFFFFFFF#32, 9#32)], 77#64, 70#64, true, 0⟩ : Report) }, evt := 0x1#6 }), (⟨[(0, 0xFF#32, 3#32), (7, 0xFFFFFFFF#32, 9#32)], 77#64, 70#64, true, 0⟩ : Report), by decide +kernel⟩,
   ⟨(up.modRecog fun x => { x with cadence := { x.cadence with due := some (⟨[(0, 0xFF#32, 3#32), (7, 0xFFFFFFFF#32, 9#32)], 77#64, 70#64, true, 0⟩ : Report) }, evt := 0x2#6 }), (⟨[(0, 0xFF#32, 3#32), (7, 0xFFFFFFFF#32, 9#32)], 77#64, 70#64, true, 0⟩ : Report), by decide +kernel⟩,
   ⟨(up.modRecog fun x => { x with cadence := { x.cadence with endDue := some (⟨[(0, 0xFF#32, 3#32), (7, 0xFFFFFFFF#32, 9#32)], 77#64, 70#64, true, 0⟩ : Report) }, evt := 0x2#6 }), (⟨[(0, 0xFF#32, 3#32), (7, 0xFFFFFFFF#32, 9#32)], 77#64, 70#64, true, 0⟩ : Report), by decide +kernel⟩,
   ⟨(up.modRecog fun x => { x with fall := { x.fall with due := some (⟨[(0, 0xFF#32, 3#32), (7, 0xFFFFFFFF#32, 9#32)], 77#64, 70#64, true, 0⟩ : Report) }, evt := 0x4#6 }), (⟨[(0, 0xFF#32, 3#32), (7, 0xFFFFFFFF#32, 9#32)], 77#64, 70#64, true, 0⟩ : Report), by decide +kernel⟩,
   ⟨(up.modRecog fun x => { x with trans := { x.trans with due := some (⟨[(0, 0xFF#32, 3#32), (7, 0xFFFFFFFF#32, 9#32)], 77#64, 70#64, true, 0⟩ : Report) }, evt := 0x0#6 }), (⟨[(0, 0xFF#32, 3#32), (7, 0xFFFFFFFF#32, 9#32)], 77#64, 70#64, true, 0⟩ : Report), by decide +kernel⟩,
   ⟨(up.modRecog fun x => { x with tilt := { x.tilt with due := some (⟨[(0, 0xFF#32, 3#32), (7, 0xFFFFFFFF#32, 9#32)], 77#64, 70#64, true, 0⟩ : Report) }, evt := 0x10#6 }), (⟨[(0, 0xFF#32, 3#32), (7, 0xFFFFFFFF#32, 9#32)], 77#64, 70#64, true, 0⟩ : Report), by decide +kernel⟩,
   ⟨(up.modRecog fun x => { x with cadence := { x.cadence with due := some (⟨[(0, 0xFF#32, 3#32), (7, 0xFFFFFFFF#32, 9#32)], 77#64, 70#64, false, 0⟩ : Report) } }), (⟨[(0, 0xFF#32, 3#32), (7, 0xFFFFFFFF#32, 9#32)], 77#64, 70#64, false, 0⟩ : Report), by decide +kernel⟩,
   ⟨(up.modRecog fun x => { x with tilt := { x.tilt with due := some (⟨[(0, 0xFF#32, 3#32), (7, 0xFFFFFFFF#32, 9#32)], 77#64, 70#64, false, 0⟩ : Report) } }), (⟨[(0, 0xFF#32, 3#32), (7, 0xFFFFFFFF#32, 9#32)], 77#64, 70#64, false, 0⟩ : Report), by decide +kernel⟩,
   ⟨((up.modBuf fun b => { b with writing := true, run := true, enable := true }).modRecog fun x => { x with impact := { x.impact with due := some (⟨[(0, 0xFF#32, 3#32), (7, 0xFFFFFFFF#32, 9#32)], 77#64, 70#64, true, 0⟩ : Report) }, frame := 1#6 }), (⟨[(0, 0xFF#32, 3#32), (7, 0xFFFFFFFF#32, 9#32)], 77#64, 70#64, true, 0⟩ : Report), by decide +kernel⟩,
   ⟨(up.modRecog fun x => { x with trans := { x.trans with rearm := true }, results := x.results.set 3 (Vector.replicate 8 3#32) }), by decide +kernel⟩⟩

/-- The hypotheses of CapturesComplete, clause by clause, are met. -/
theorem witness_CapturesComplete :
    (∃ s : State, ∃ k, s.Reaches 39 ∧ s.cap.arm = false ∧ s.cap.capturing = false ∧ s.cap.armOk = true ∧ s.cap.recording = none ∧ s.capPorts = true ∧ s.cap.lowestFree = some k) ∧
    (∃ s : State, s.Reaches 39 ∧ s.cap.arm = false ∧ s.cap.capturing = false ∧ s.cap.armOk = true ∧ s.cap.recording = none ∧ s.capPorts = true ∧ s.cap.lowestFree = none) ∧
    (∃ s : State, s.Reaches 39 ∧ s.cap.arm = false ∧ s.cap.capturing = false ∧ s.cap.armOk = true ∧ s.cap.recording = none ∧ s.capPorts = false) ∧
    (∃ s : State, s.Reaches 39 ∧ s.cap.arm = false ∧ s.cap.capturing = false ∧ s.cap.armOk = false) ∧
    (∃ s : State, ∃ r, s.Reaches 39 ∧ s.cap.arm = true ∧ s.isOn .en = true ∧ s.cap.full = false ∧ s.cap.recording = some r ∧ r.trig = none ∧ s.cap.capturing = false) ∧
    (∃ s : State, s.Reaches 39 ∧ s.cap.arm = true ∧ s.isOn .en = false) ∧
    (∃ s : State, ∃ r, s.Reaches 39 ∧ s.cap.recording = some r ∧ r.trig = none ∧ s.cap.capturing = false) ∧
    (∃ s : State, ∃ r, ∃ g, s.Reaches 39 ∧ s.cap.recording = some r ∧ r.trig = some g ∧ s.cap.capturing = true ∧ Mem.wf 0#32 s.cap.store = true) ∧
    (∃ s : State, ∃ k : Fin 16, s.ReachesTs (0x4080 + k.val) ∧ s.cap.recording = none ∧ s.spec.mode ≠ .capture ∧ s.cap.full = false) ∧
    (∃ s : State, s.Reaches 39 ∧ s.cap.capturing = false ∧ s.spec.mode ≠ .capture ∧ s.cap.arm = false) ∧
    (∃ s : State, s.Reaches 39 ∧ s.cap.capturing = true) ∧
    (∃ s : State, ∃ v, s.Reaches 39 ∧ s.cap.capturing = false ∧ s.spec.mode ≠ .capture ∧ s.cap.arm = false ∧ v ≠ s.cap.slots) ∧
    (∃ s : State, ∃ r, ∃ g, s.cap.recording = some r ∧ r.trig = some g ∧ r.post ≤ g.post ∧ s.cap.arm = false ∧ s.hasSm = true) :=
  ⟨⟨(up.modCap fun x => { x with mask := 1#24 }), 0, by unfold State.Reaches; decide +kernel⟩,
   ⟨(up.modCap fun x => { x with mask := 1#24, dir := Vector.replicate 16 { used := true } }), by unfold State.Reaches; decide +kernel⟩,
   ⟨(domIs .cs .retain (up.modCap fun x => { x with mask := 1#24 })), by unfold State.Reaches; decide +kernel⟩,
   ⟨up, by unfold State.Reaches; decide +kernel⟩,
   ⟨(up.modCap fun x => { x with arm := true, recording := some ({ mask := 1#24, src := true, pre := 0, post := 1 } : Recording) }), ({ mask := 1#24, src := true, pre := 0, post := 1 } : Recording), by unfold State.Reaches; decide +kernel⟩,
   ⟨(domIs .en .retain (up.modCap fun x => { x with arm := true })), by unfold State.Reaches; decide +kernel⟩,
   ⟨(up.modCap fun x => { x with arm := true, recording := some ({ mask := 1#24, src := true, pre := 0, post := 1 } : Recording), full := false }), ({ mask := 1#24, src := true, pre := 0, post := 1 } : Recording), by unfold State.Reaches; decide +kernel⟩,
   ⟨(up.modCap fun x => { x with arm := true, capturing := true, recording := some ({ mask := 1#24, src := true, pre := 0, post := 1, next := 2, held := 2, trig := some (⟨4#64, 4#64, 1#8, 0#32, 0#32, some 4#64, 1, 1, 0⟩ : Trigger) } : Recording) }), ({ mask := 1#24, src := true, pre := 0, post := 1, next := 2, held := 2, trig := some (⟨4#64, 4#64, 1#8, 0#32, 0#32, some 4#64, 1, 1, 0⟩ : Trigger) } : Recording), (⟨4#64, 4#64, 1#8, 0#32, 0#32, some 4#64, 1, 1, 0⟩ : Trigger), by unfold State.Reaches; decide +kernel⟩,
   ⟨(winAtIs 0x408F#24 (up.modCap fun x => { x with dir := x.dir.set 15 { used := true, spilled := true } })), 15, by unfold State.ReachesTs; decide +kernel⟩,
   ⟨up, by unfold State.Reaches; decide +kernel⟩,
   ⟨(up.modCap fun x => { x with capturing := true, arm := true }), by unfold State.Reaches; decide +kernel⟩,
   ⟨(up.modCap fun x => { x with dir := x.dir.set 0 { used := true }, store := [(0x100000, 9#32)] }), 4#3, by unfold State.Reaches; decide +kernel⟩,
   ⟨(up.modCap fun x => { x with capturing := true, recording := some ({ mask := 1#24, src := true, pre := 0, post := 1, next := 2, held := 2, trig := some (⟨4#64, 4#64, 1#8, 0#32, 0#32, some 4#64, 1, 1, 0⟩ : Trigger) } : Recording), cur := 15#4, slots := 4#3 }), ({ mask := 1#24, src := true, pre := 0, post := 1, next := 2, held := 2, trig := some (⟨4#64, 4#64, 1#8, 0#32, 0#32, some 4#64, 1, 1, 0⟩ : Trigger) } : Recording), (⟨4#64, 4#64, 1#8, 0#32, 0#32, some 4#64, 1, 1, 0⟩ : Trigger), by decide +kernel⟩⟩

/-- The hypotheses of ScarecrowCompletes, clause by clause, are met. -/
theorem witness_ScarecrowCompletes :
    (∃ s : State, ∃ high, s.scarMay high = true ∧ s.scar.autowake = false) ∧
    (∃ s : State, ∃ high, s.scarMay high = true ∧ s.scar.autowake = true ∧ s.clk.park = .running ∧ s.demandStarts .af = false ∧ s.demandStarts .en = false) ∧
    (∃ s : State, ∃ high, s.scarMay high = true ∧ s.scar.autowake = true ∧ s.clk.park = .running ∧ s.demandStarts .af = true) ∧
    (∃ s : State, ∃ high, s.scarMay high = true ∧ s.scar.autowake = true ∧ s.clk.park = .running ∧ s.demandStarts .en = true) ∧
    (∃ s : State, ∃ high, s.scarMay high = true ∧ s.scar.autowake = true ∧ s.clk.park ≠ .running) ∧
    (∃ s : State, s.clken 11 = true ∧ s.scar.armed = false ∧ s.clk.inReset = false) ∧
    (∃ s : State, s.Reaches 32 ∧ s.scar.trip = true) ∧
    (∃ s : State, ∃ mean, s.scar.pend = true ∧ s.scar.window ≤ s.scar.winCount ∧ s.isOn .en = true ∧ s.hasSm = true ∧ s.recog.scarFr = false ∧ mean = intGrain (quotient (s.scar.winSum : Int) s.scar.winCount)) ∧
    (∃ s : State, s.scar.pend = true ∧ s.scar.winCount < s.scar.window ∧ s.clk.park = .running ∧ s.scarLate = true ∧ s.recog.scarFr = false) :=
  ⟨⟨(up.modScar fun x => { x with armed := true, autowake := false }), true, by decide +kernel⟩,
   ⟨(up.modScar fun x => { x with armed := true }), true, by decide +kernel⟩,
   ⟨((domIs .af .retain up).modScar fun x => { x with armed := true }), true, by decide +kernel⟩,
   ⟨((domIs .en .off up).modScar fun x => { x with armed := true }), false, by decide +kernel⟩,
   ⟨(up.modScar fun x => { x with armed := true }).modClk fun c => { c with park := .parked }, true, by decide +kernel⟩,
   ⟨up, by decide +kernel⟩,
   ⟨(up.modScar fun x => { x with trip := true, armed := true }), by unfold State.Reaches; decide +kernel⟩,
   ⟨(up.modScar fun x => { x with pend := true, winCount := 12, winSum := 25 }), intGrain (quotient 25 12), by decide +kernel, by decide +kernel, by decide +kernel,
    by decide +kernel, by decide +kernel, rfl⟩,
   ⟨(up.modScar fun x => { x with pend := true, winCount := 11 }).modClk fun c => { c with ht := 700 }, by decide +kernel⟩⟩

/-- The hypotheses of SpectralControlsComplete, clause by clause, are met. -/
theorem witness_SpectralControlsComplete :
    (∃ s : State, s.Reaches 37 ∧ s.spec.mode = .idle ∧ s.spec.stage.check = 0#3) ∧
    (∃ s : State, s.Reaches 37 ∧ s.spec.mode = .idle ∧ s.spec.stage.check ≠ 0#3) ∧
    (∃ s : State, s.Reaches 37 ∧ s.spec.mode = .stream ∧ s.spec.stage.check ≠ 0#3) ∧
    (∃ s : State, s.Reaches 37 ∧ s.spec.mode = .stream) ∧
    (∃ s : State, ∃ k : Fin 16, s.Reaches 37 ∧ s.spec.mode = .idle ∧ s.capGoCheck k.val = 0#3 ∧ s.isOn .cs = true) ∧
    (∃ s : State, ∃ k : Fin 16, s.Reaches 37 ∧ s.spec.mode = .idle ∧ s.capGoCheck k.val = 0#3 ∧ s.isOn .cs = false) ∧
    (∃ s : State, ∃ k : Fin 16, s.Reaches 37 ∧ s.spec.mode = .idle ∧ s.capGoCheck k.val ≠ 0#3) ∧
    (∃ s : State, s.Reaches 37 ∧ s.spec.mode = .capture) ∧
    (∃ s : State, s.Reaches 37 ∧ (s.spec.mode = .stream → s.spec.stage.check = 0#3)) ∧
    (∃ s : State, s.ReachesTs 0xB010) ∧
    (∃ s : State, s.ReachesTs 0xB00C) :=
  ⟨⟨(up.modSpec fun x => { x with stage := { x.stage with inputs := (Vector.replicate 8 0x400#32).set 0 0x420#32 } }), by unfold State.Reaches; decide +kernel⟩,
   ⟨up, by unfold State.Reaches; decide +kernel⟩,
   ⟨(up.modSpec fun x => { x with mode := .stream, segs := 3 }), by unfold State.Reaches; decide +kernel⟩,
   ⟨(up.modSpec fun x => { x with mode := .stream, segs := 3 }), by unfold State.Reaches; decide +kernel⟩,
   ⟨((up.modSpec fun x => { x with stage := { x.stage with inputs := (Vector.replicate 8 0x400#32).set 0 0x420#32 } }).modCap fun x => { x with dir := x.dir.set 0 { used := true }, store := [(0x100001, 1#32), (0x100003, 5000#32)] }), 0, by unfold State.Reaches; decide +kernel⟩,
   ⟨(domIs .cs .retain ((up.modSpec fun x => { x with stage := { x.stage with inputs := (Vector.replicate 8 0x400#32).set 0 0x420#32 } }).modCap fun x => { x with dir := x.dir.set 0 { used := true }, store := [(0x100001, 1#32), (0x100003, 5000#32)] })), 0, by unfold State.Reaches; decide +kernel⟩,
   ⟨(up.modSpec fun x => { x with stage := { x.stage with inputs := (Vector.replicate 8 0x400#32).set 0 0x420#32 } }), 15, by unfold State.Reaches; decide +kernel⟩,
   ⟨(up.modSpec fun x => { x with mode := .capture }), by unfold State.Reaches; decide +kernel⟩,
   ⟨(up.modSpec fun x => { x with shown := { id := 1 } }), by unfold State.Reaches; decide +kernel⟩,
   ⟨(winAtIs 0xB010#24 up), by unfold State.ReachesTs; decide +kernel⟩,
   ⟨(winAtIs 0xB00C#24 up), by unfold State.ReachesTs; decide +kernel⟩⟩

/-- The hypotheses of SpectralResultsComplete, clause by clause, are met. -/
theorem witness_SpectralResultsComplete :
    (∃ s : State, ∃ g, s.specClocked = true ∧ s.spec.mode = .stream ∧ s.spec.seg = some g ∧ s.spec.due = false ∧ (∀ f ∈ g.frames, ∀ i : Fin 8, s.spec.act.enabled i.val = true → f[i] ≠ none)) ∧
    (∃ s : State, ∃ g, s.specClocked = true ∧ s.spec.mode = .stream ∧ s.spec.seg = some g ∧ s.spec.due = false ∧ (∃ f ∈ g.frames, ∃ i : Fin 8, s.spec.act.enabled i.val = true ∧ f[i] = none)) ∧
    (∃ s : State, ∃ g, s.specClocked = true ∧ s.spec.mode = .capture ∧ s.isOn .cs = true ∧ s.spec.capWait = false ∧ s.spec.capSeen < s.spec.capTotal ∧ s.capSegment = g) ∧
    (∃ s : State, s.spec.due = true ∧ s.specClocked = true) :=
  ⟨⟨(up.modSpec fun x => { x with mode := .stream, seg := some (⟨5#64, 9#64, [Vector.replicate 8 (some 1), Vector.replicate 8 (some 0)], 7#3⟩ : Segment), act := { x.act with cfg := 0#32, span := 0x00010000#32, inputs := (Vector.replicate 8 0x400#32).set 0 0x420#32 } }), (⟨5#64, 9#64, [Vector.replicate 8 (some 1), Vector.replicate 8 (some 0)], 7#3⟩ : Segment), by decide +kernel⟩,
   ⟨(up.modSpec fun x => { x with mode := .stream, seg := some (⟨5#64, 9#64, [Vector.replicate 8 (some 1), Vector.replicate 8 none], 7#3⟩ : Segment), act := { x.act with cfg := 0#32, span := 0x00010000#32, inputs := (Vector.replicate 8 0x400#32).set 0 0x420#32 } }), (⟨5#64, 9#64, [Vector.replicate 8 (some 1), Vector.replicate 8 none], 7#3⟩ : Segment), by decide +kernel⟩,
   ⟨(up.modSpec fun x => { x with mode := .capture, capTotal := 1 }), _, by decide +kernel, by decide +kernel, by decide +kernel,
    by decide +kernel, by decide +kernel, rfl⟩,
   ⟨(up.modSpec fun x => { x with mode := .stream, segs := 16, act := { x.act with avg := 16#16 } }), by decide +kernel⟩⟩

/-- The hypotheses of MachinesStartAndStop, clause by clause, are met. -/
theorem witness_MachinesStartAndStop :
    (∃ s : State, s.ReachesTs 0x6080) ∧
    (∃ s : State, s.ReachesTs 0x6080) :=
  ⟨⟨(winAtIs 0x6080#24 up), by unfold State.ReachesTs; decide +kernel⟩,
   ⟨(winAtIs 0x6080#24 (up.modSmc fun x => { x with m := x.m.set 0 { running := true } })), by unfold State.ReachesTs; decide +kernel⟩⟩

/-- The hypotheses of MachineTicksComplete, clause by clause, are met. -/
theorem witness_MachineTicksComplete :
    (∃ s : State, ∃ rate : Fin 3, ∃ t, ∃ due, s.smRuns = true ∧ s.nextRate = some rate ∧ s.smc.ticks[rate] = some (t, due) ∧ s.recog.noReports = true) ∧
    (∃ s : State, ∃ m : Fin 8, ∃ rate : Fin 3, ∃ t, ∃ due, ∃ st, s.smRuns = true ∧ (s.machine m.val).running = true ∧ (s.machine m.val).startReq = false ∧ (s.smEvaluate m.val).2 = some (st, 2#2) ∧ (s.machine m.val).rate = rate.val ∧ s.nextRate = some rate ∧ s.smc.ticks[rate] = some (t, due) ∧ s.recog.noReports = true) :=
  ⟨⟨(up.modSmc fun x => { x with m := (x.m.set 0 { running := true }).set 7 { running := true, startReq := true }, prog := [(0, 0#32), (2, 0x3#32), (3, 0x01010101#32)], ticks := x.ticks.set 0 (some (2048#64, 2050#64)) }), 0, 2048#64, 2050#64, by decide +kernel⟩,
   ⟨(up.modSmc fun x => { x with m := x.m.set 0 { running := true, age := 9#24 }, prog := [(3, 0x00000285#32)], ticks := x.ticks.set 0 (some (2048#64, 2050#64)) }), 0, 0, 2048#64, 2050#64, 5#6, by decide +kernel⟩⟩

/-- The hypotheses of StreamControlsComplete, clause by clause, are met. -/
theorem witness_StreamControlsComplete :
    (∃ s : State, s.Reaches 30 ∧ s.isOn .en = true ∧ s.buf.writing = false ∧ s.buf.armedGate = false ∧ s.gateOpen = true) ∧
    (∃ s : State, s.Reaches 30 ∧ s.isOn .en = true ∧ s.buf.writing = false ∧ s.buf.armedGate = false ∧ s.gateOpen = false) ∧
    (∃ s : State, s.buf.armedGate = true ∧ s.writerMay = true ∧ s.gateOpen = true ∧ s.hasSm = true) ∧
    (∃ s : State, s.Reaches 30 ∧ s.buf.writing = true ∧ s.buf.enable = true) ∧
    (∃ s : State, s.Reaches 26 ∧ s.buf.writing = true ∧ s.buf.run = true) ∧
    (∃ s : State, ∃ g, ∃ w, s.Reaches (groupReg g).val ∧ rateCode (bits w 24 4) = rateCode (s.group g).rate) ∧
    (∃ s : State, ∃ g, ∃ w, s.Reaches (groupReg g).val ∧ rateCode (bits w 24 4) ≠ rateCode (s.group g).rate) ∧
    (∃ s : State, s.Reaches 26) :=
  ⟨⟨(up.modBuf fun b => { b with fast := { b.fast with mask := 0x81#24 } }), by unfold State.Reaches; decide +kernel⟩,
   ⟨(up.modBuf fun b => { b with alignEp := true, fast := { b.fast with mask := 0x81#24 } }), by unfold State.Reaches; decide +kernel⟩,
   ⟨(up.modBuf fun b => { b with run := true, enable := true, fast := { b.fast with mask := 0x81#24 }, slow := { b.slow with mask := 1#24 }, armedGate := true }), by decide +kernel⟩,
   ⟨(up.modBuf fun b => { b with run := true, enable := true, fast := { b.fast with mask := 0x81#24 }, slow := { b.slow with mask := 1#24 }, writing := true }), by unfold State.Reaches; decide +kernel⟩,
   ⟨(up.modBuf fun b => { b with run := true, enable := true, fast := { b.fast with mask := 0x81#24 }, slow := { b.slow with mask := 1#24 }, writing := true }), by unfold State.Reaches; decide +kernel⟩,
   ⟨(up.modBuf fun b => { b with run := true, enable := true, fast := { b.fast with mask := 0x81#24 }, slow := { b.slow with mask := 1#24 }, writing := true }), .fast, 0x00000003#32, by unfold State.Reaches; decide +kernel⟩,
   ⟨(up.modBuf fun b => { b with run := true, enable := true, fast := { b.fast with mask := 0x81#24 }, slow := { b.slow with mask := 1#24 }, writing := true }), .slow, 0x05000001#32, by unfold State.Reaches; decide +kernel⟩,
   ⟨(up.modBuf fun b => { b with run := true, enable := true, fast := { b.fast with mask := 0x81#24 }, slow := { b.slow with mask := 1#24 }, writing := true }), by unfold State.Reaches; decide +kernel⟩⟩

/-- The hypotheses of UnitsArePlaced, clause by clause, are met. -/
theorem witness_UnitsArePlaced :
    (∃ s : State, ∃ g, ∃ o, ∃ rest, s.buf.writing = true ∧ s.hasSm = true ∧ s.isNext (.data g) = true ∧ s.outs g = o :: rest ∧ s.isOn .sb = true ∧ s.level + 3 * s.buf.flushGap.length + 31 ≤ bufWords) ∧
    (∃ s : State, ∃ e, ∃ rest, s.buf.writing = true ∧ s.hasSm = true ∧ s.isNext .event = true ∧ s.buf.events = e :: rest ∧ s.isOn .sb = true ∧ s.level + 3 * s.buf.flushGap.length + 12 ≤ bufWords) ∧
    (∃ s : State, ∃ c, s.buf.fillOwed = some c ∧ s.clken 6 = true ∧ s.isOn .en = true ∧ s.hasSm = true ∧ s.isOn .sb = true ∧ s.level + 3 * s.buf.flushGap.length + 8 ≤ bufWords) ∧
    (∃ s : State, ∃ g, ∃ o, ∃ rest, s.buf.writing = true ∧ s.hasSm = true ∧ s.isNext (.data g) = true ∧ s.outs g = o :: rest ∧ s.isOn .sb = true ∧ s.level = bufWords) :=
  ⟨⟨((up.modBuf fun b => { b with run := true, enable := true, fast := { b.fast with mask := 0x81#24 }, slow := { b.slow with mask := 1#24 }, writing := true }).modHarrow fun h => { h with fastOut := [(⟨64#64, 0x81#24, false, Vector.replicate 24 3#24, false, true, false, false, 9#8, 70#64, false⟩ : GroupOut)] }), .fast, (⟨64#64, 0x81#24, false, Vector.replicate 24 3#24, false, true, false, false, 9#8, 70#64, false⟩ : GroupOut), [], by decide +kernel⟩,
   ⟨(up.modBuf fun b => { b with run := true, enable := true, fast := { b.fast with mask := 0x81#24 }, slow := { b.slow with mask := 1#24 }, writing := true, events := [(⟨9#6, 5#64, 1#32, 2#32, true, 6#64⟩ : EventFrame)], full := 4#24 }), (⟨9#6, 5#64, 1#32, 2#32, true, 6#64⟩ : EventFrame), [], by decide +kernel⟩,
   ⟨(up.modBuf fun b => { b with fillOwed := some 2#4, thresh := 4#22, full := 1#24 }), 2#4, by decide +kernel⟩,
   ⟨fullUp false, .fast, oneOut, [], by decide +kernel, by decide +kernel, by decide +kernel, rfl, by decide +kernel, fullUp_level _⟩⟩

/-- The hypotheses of BufferAccessesComplete, clause by clause, are met. -/
theorem witness_BufferAccessesComplete :
    (∃ s : State, ∃ w, ∃ ws, s.Reaches 27 ∧ s.buf.words = w :: ws) ∧
    (∃ s : State, s.Reaches 27 ∧ s.buf.words = []) ∧
    (∃ s : State, s.Reaches 29) ∧
    (∃ s : State, s.Reaches 30) ∧
    (∃ s : State, s.Reaches 30 ∧ s.writerSettled = true) ∧
    (∃ s : State, s.Reaches 31) ∧
    (∃ s : State, ∃ e, ∃ rest, s.buf.writing = true ∧ s.hasSm = true ∧ s.isNext .event = true ∧ s.buf.events = e :: rest ∧ s.isOn .sb = true ∧ s.level = bufWords) :=
  ⟨⟨(up.modBuf fun b => { b with words := [⟨5#32, 1#2⟩, ⟨6#32, 3#2⟩], wp := 2#22 }), ⟨5#32, 1#2⟩, [⟨6#32, 3#2⟩], by unfold State.Reaches; decide +kernel⟩,
   ⟨(up.modBuf fun b => { b with last := ⟨5#32, 1#2⟩ }), by unfold State.Reaches; decide +kernel⟩,
   ⟨(up.modBuf fun b => { b with words := [⟨5#32, 1#2⟩], wp := 1#22 }), by unfold State.Reaches; decide +kernel⟩,
   ⟨(up.modBuf fun b => { b with words := [⟨5#32, 1#2⟩], wp := 1#22, enable := true }), by unfold State.Reaches; decide +kernel⟩,
   ⟨(up.modBuf fun b => { b with dropped := 0xFFFF#16 }), by unfold State.Reaches; decide +kernel⟩,
   ⟨(up.modBuf fun b => { b with overflow := true, dropped := 3#16 }), by unfold State.Reaches; decide +kernel⟩,
   ⟨fullUp true, oneEvent, [], by decide +kernel, by decide +kernel, by decide +kernel, rfl, by decide +kernel, fullUp_level _⟩⟩

/-- The hypotheses of ClaimsAndCompletionsComplete, clause by clause, are met. -/
theorem witness_ClaimsAndCompletionsComplete :
    (∃ s : State, ∃ x, ∃ n, s.Reaches (claimReg x).val ∧ s.int.line x = true ∧ s.presented (lineTarget x) = some n) ∧
    (∃ s : State, ∃ x, s.Reaches (claimReg x).val ∧ s.int.line x = true ∧ s.presented (lineTarget x) = none) ∧
    (∃ s : State, ∃ x, s.Reaches (claimReg x).val ∧ s.int.line x = false ∧ (∀ g, s.int.gone x = some g → s.withinLk g.at_ 2 = false)) ∧
    (∃ s : State, ∃ x, ∃ g, s.Reaches (claimReg x).val ∧ s.int.line x = false ∧ s.int.gone x = some g ∧ s.withinLk g.at_ 2 = true ∧ g.masked = true) ∧
    (∃ s : State, ∃ x, ∃ g, s.Reaches (claimReg x).val ∧ s.int.line x = false ∧ s.int.gone x = some g ∧ s.withinLk g.at_ 2 = true ∧ g.masked = false) ∧
    (∃ s : State, ∃ x, ∃ w, ∃ p, s.Reaches (claimReg x).val ∧ bits w 0 6 ≠ 0#6 ∧ bits w 0 6 ≠ 63#6 ∧ (s.int.cfg (bits w 0 6 : BitVec 6).toNat).serv = some (lineTarget x, p)) ∧
    (∃ s : State, ∃ x, ∃ w, s.Reaches (claimReg x).val ∧ bits w 0 6 ≠ 0#6 ∧ bits w 0 6 ≠ 63#6 ∧ (∀ q, (s.int.cfg (bits w 0 6 : BitVec 6).toNat).serv ≠ some (lineTarget x, q))) ∧
    (∃ s : State, ∃ x, ∃ w, s.Reaches (claimReg x).val ∧ (bits w 0 6 = 0#6 ∨ bits w 0 6 = 63#6)) ∧
    (∃ s : State, s.Reaches 23) :=
  ⟨⟨(((up.modClk fun x => { x with syncEvt := true, epochValid := true, syncReject := true, stepped := true, lostEvt := true }).modInt fun c => { c with src := Vector.replicate 48 { en := true, prio := 4#3, target := 0#2 }, line0 := true }).modBuf fun b => {b with threshHit := true, overflow := true, flushDone := true}), .t0, 16, by unfold State.Reaches; decide +kernel⟩,
   ⟨(up.modInt fun x => { x with line1 := true }), .t1, by unfold State.Reaches; decide +kernel⟩,
   ⟨up, .t0, by unfold State.Reaches; decide +kernel, by decide +kernel, by intro g h; simp [up, State.reset, Intc.gone] at h⟩,
   ⟨(up.modInt fun x => { x with gone0 := some ⟨47#6, 4#3, true, 0#64⟩ }), .t0, ⟨47#6, 4#3, true, 0#64⟩, by unfold State.Reaches; decide +kernel⟩,
   ⟨(up.modInt fun x => { x with gone1 := some ⟨47#6, 4#3, false, 0#64⟩ }).modClk fun c => { c with tsc := 40 }, .t1, ⟨47#6, 4#3, false, 0#64⟩, by unfold State.Reaches; decide +kernel⟩,
   ⟨(up.modInt fun x => { x with src := x.src.set 47 { en := true, prio := 4#3, serv := some (1#2, 4#3) } }), .t1, 0xFFFFFFEF#32, 4#3, by unfold State.Reaches; decide +kernel⟩,
   ⟨(up.modInt fun x => { x with src := x.src.set 47 { en := true, prio := 4#3, serv := some (0#2, 4#3) } }), .t1, 47#32, by unfold State.Reaches; decide +kernel⟩,
   ⟨up, .t0, 63#32, by unfold State.Reaches; decide +kernel⟩,
   ⟨(up.modInt fun x => { x with badcomp := 3#16, spurious := 4#16 }), by unfold State.Reaches; decide +kernel⟩⟩

/-- The hypotheses of ClaimsRaiseTheRunningPriority are met. -/
theorem witness_ClaimsRaiseTheRunningPriority :
    ∃ s : State, ∃ x, ∃ n, s.Reaches (claimReg x).val ∧ s.int.line x = true ∧ s.presented (lineTarget x) = some n :=
  ⟨(((up.modClk fun x => { x with syncEvt := true, epochValid := true, syncReject := true, stepped := true, lostEvt := true }).modInt fun c => { c with src := Vector.replicate 48 { en := true, prio := 4#3, target := 0#2 }, line0 := true }).modBuf fun b => {b with threshHit := true, overflow := true, flushDone := true}), .t0, 16, by unfold State.Reaches; decide +kernel⟩

/-- The hypotheses of CoreServiceCompletes, clause by clause, are met. -/
theorem witness_CoreServiceCompletes :
    (∃ s : State, ∃ n, s.presented 2#2 = some n ∧ s.coreUp = true ∧ s.mgmt.logQ.length < 16) ∧
    (∃ s : State, ∃ n, s.presented 2#2 = some n ∧ s.coreUp = false ∧ s.hasLk = true ∧ ((s.dom .mc).st = .off ∨ (s.dom .mc).st = .retain)) :=
  ⟨⟨(((up).modInt fun c => { c with src := c.src.set 30 { en := true, prio := 4#3, target := 2#2 } }).modClk fun c => { c with lostEvt := true, syncEvt := true, syncReject := true, stepped := true }), 30, by decide +kernel⟩,
   ⟨(((domIs .mc .retain up).modInt fun c => { c with src := c.src.set 30 { en := true, prio := 4#3, target := 2#2 } }).modClk fun c => { c with lostEvt := true, syncEvt := true, syncReject := true, stepped := true }), 30, by decide +kernel⟩⟩

/-- The hypotheses of LowWordReadsHoldTheHighWord, clause by clause, are met. -/
theorem witness_LowWordReadsHoldTheHighWord :
    (∃ s : State, s.Reaches 13) ∧
    (∃ s : State, s.Reaches 2) ∧
    (∃ s : State, s.Reaches 19) :=
  ⟨⟨(up.modClk fun x => { x with tsc := 0x1234567890ABCDEF#64 }), by unfold State.Reaches; decide +kernel⟩,
   ⟨up, by unfold State.Reaches; decide +kernel⟩,
   ⟨up, by unfold State.Reaches; decide +kernel⟩⟩

/-- The hypotheses of PowerRequestsComplete, clause by clause, are met. -/
theorem witness_PowerRequestsComplete :
    (∃ s : State, s.Reaches 8) ∧
    (∃ s : State, s.pwr.reqDue = true ∧ s.hasLk = true) ∧
    (∃ s : State, ∃ d, (s.dom d).demandDue = true ∧ ((s.dom d).st = .off ∨ (s.dom d).st = .retain) ∧ s.hasLk = true) :=
  ⟨⟨up, by unfold State.Reaches; decide +kernel⟩,
   ⟨(up.modPwr fun p => { p with reqDue := true, req := 0x2AAAA#18, dom := domains0 }), by decide +kernel⟩,
   ⟨(up.modDom .en fun x => { x with st := .retain, demandDue := true }), .en, by decide +kernel⟩⟩

/-- The hypotheses of WakesComplete, clause by clause, are met. -/
theorem witness_WakesComplete :
    (∃ s : State, ∃ d, (s.dom d).st = .waking ∧ s.canReport d = true ∧ s.hasLk = true ∧ s.wakeOver d = false ∧ s.quietFlights = true ∧ (s.dom d).target = .on ∧ (s.resting d = .on ∨ (s.dom d).demand = true)) ∧
    (∃ s : State, ∃ d, (s.dom d).st = .waking ∧ s.canReport d = true ∧ s.hasLk = true ∧ s.wakeOver d = false ∧ s.quietFlights = true ∧ (s.dom d).target = .retain ∧ s.resting d = .retain) ∧
    (∃ s : State, ∃ d, (s.dom d).st = .waking ∧ s.waitsMap d = false ∧ s.hasLk = true ∧ s.wakeOver d = true ∧ s.quietFlights = true) :=
  ⟨⟨((up.modPwr fun p => { p with req := 0x2AAAA#18 }).modDom .af fun x => { x with st := .waking, target := .on }), .af, by decide +kernel⟩,
   ⟨((up.modPwr fun p => { p with req := 0x15555#18 }).modDom .af fun x => { x with st := .waking, target := .retain }), .af, by decide +kernel⟩,
   ⟨(((up.modPwr fun p => { p with req := 0x2AAAA#18 }).modDom .af fun x => { x with st := .waking, target := .on }).modClk fun c => { c with ht := 100000 }), .af, by decide +kernel⟩⟩

/-- The hypotheses of StallsEnd, clause by clause, are met. -/
theorem witness_StallsEnd :
    (∃ s : State, ∃ a, ∃ w, ∃ ws, (s.dom .sb).st = .waking ∧ (s.dom .sb).target = .on ∧ s.hasLk = true ∧ s.wakeOver .sb = false ∧ s.mgmt.restore = [] ∧ s.link.wait = none ∧ s.clken 6 = true ∧ s.host.stall = some a ∧ a.dom = .sb ∧ a.write = false ∧ a.index = 27 ∧ s.buf.words = w :: ws) ∧
    (∃ s : State, ∃ a, s.host.stall = some a ∧ s.hasLk = true ∧ s.stallOver a = true ∧ a.index ≠ 57) :=
  ⟨⟨(((up.modHost fun h => { h with stall := some ⟨.sb, false, 27, 0#32, 9#64⟩ }).modDom .sb fun x => { x with st := .waking, target := .on, fromRet := true }).modBuf fun b => { b with words := [⟨5#32, 1#2⟩, ⟨6#32, 2#2⟩] }), ⟨.sb, false, 27, 0#32, 9#64⟩, ⟨5#32, 1#2⟩, [⟨6#32, 2#2⟩], by decide +kernel⟩,
   ⟨(((up.modHost fun h => { h with stall := some ⟨.sp, true, 37, 9#32, 0#64⟩ }).modDom .sp fun x => { x with st := .waking }).modClk fun c => { c with tsc := 20000000 }), ⟨.sp, true, 37, 9#32, 0#64⟩, by decide +kernel⟩⟩

/-- The hypotheses of StopsComplete, clause by clause, are met. -/
theorem witness_StopsComplete :
    (∃ s : State, ∃ d, (s.dom d).st = .stopping ∧ s.hasLk = true ∧ s.pwr.reqDue = true) ∧
    (∃ s : State, ∃ d, s.idleDue d = true ∧ s.hasLk = true ∧ d ≠ .mc ∧ s.ownReason d (s.resting d) = 0#4 ∧ s.held d = false) ∧
    (∃ s : State, ∃ d, s.idleDue d = true ∧ s.hasLk = true ∧ d ≠ .mc ∧ s.ownReason d (s.resting d) ≠ 0#4) ∧
    (∃ s : State, ∃ d, s.pwr.resumeAt = some (reqPlace d) ∧ s.hasLk = true ∧ (s.dom .mc).reason ≠ 3#4 ∧ ((s.dom d).st = .onRefused ∨ (s.dom d).st = .onHeld) ∧ (s.dom d).demand = false ∧ s.resting d ≠ .on ∧ s.ownReason d (s.resting d) = 0#4 ∧ s.held d = false ∧ (∀ e, s.stillRefuses e = false)) :=
  ⟨⟨((up.modPwr fun p => { p with reqDue := true }).modDom .af fun x => { x with st := .stopping, target := .off }), .af, by decide +kernel⟩,
   ⟨((up.modPwr fun p => { p with req := 0#18 }).modDom .af fun x => { x with demand := true, touched := false }), .af, by decide +kernel⟩,
   ⟨(((up.modPwr fun p => { p with req := 0#18 }).modBuf fun b => { b with keep := true, words := [⟨0#32, 0#2⟩] }).modDom .sb fun x => { x with demand := true, touched := false }), .sb, by decide +kernel⟩,
   ⟨(up.modPwr fun p => { p with req := 0x20000#18, resumeAt := some (reqPlace .sb) }).modDom .sb fun x => { x with st := .onRefused },
    .sb, by decide +kernel, by decide +kernel, by decide +kernel, by decide +kernel, by decide +kernel, by decide +kernel, by decide +kernel, by decide +kernel,
    by intro e; cases e <;> decide +kernel⟩⟩

/-- The hypotheses of OperatingPointsComplete, clause by clause, are met. -/
theorem witness_OperatingPointsComplete :
    (∃ s : State, ∃ v : BitVec 2, s.Reaches 11 ∧ s.pwr.phase = .idle ∧ s.clk.coast = false ∧ s.pwr.opCur.toNat < v.toNat) ∧
    (∃ s : State, ∃ v : BitVec 2, s.Reaches 11 ∧ s.pwr.phase = .idle ∧ s.clk.coast = false ∧ v.toNat < s.pwr.opCur.toNat) ∧
    (∃ s : State, s.pwr.phase = .settling ∧ s.hasLk = true ∧ s.clk.coast = false ∧ s.settleOver = true ∧ s.isOn .en = true) ∧
    (∃ s : State, s.pwr.phase = .settling ∧ s.hasLk = true ∧ s.clk.coast = false ∧ s.settleOver = true ∧ s.isOn .en = false ∧ s.pwr.opReq = s.pwr.goal) ∧
    (∃ s : State, s.pwr.phase = .settling ∧ s.hasLk = true ∧ s.clk.coast = false ∧ s.settleLate = true ∧ s.pwr.opReq = s.pwr.goal ∧ s.mgmt.logQ.length < 16) ∧
    (∃ s : State, (s.pwr.phase = .relocking ∨ s.pwr.phase = .lowering) ∧ s.hasLk = true ∧ s.clk.coast = false ∧ s.clk.plle = .locked ∧ s.pwr.opReq = s.pwr.goal) :=
  ⟨⟨up, 2#2, by unfold State.Reaches; decide +kernel⟩,
   ⟨(up.modPwr fun p => { p with opCur := 1#2, opReq := 1#2 }), 0#2, by unfold State.Reaches; decide +kernel⟩,
   ⟨((up.modPwr fun p => { p with phase := .settling, goal := 2#2, opReq := 2#2, busy := true }).modClk fun c => { c with tsc := 40000 }), by decide +kernel⟩,
   ⟨(domIs .en .retain ((up.modPwr fun p => { p with phase := .settling, goal := 2#2, opReq := 2#2, busy := true }).modClk fun c => { c with tsc := 40000 })), by decide +kernel⟩,
   ⟨((up.modPwr fun p => { p with phase := .settling, goal := 2#2, opReq := 2#2, busy := true }).modClk fun c => { c with tsc := 400000 }), by decide +kernel⟩,
   ⟨(up.modPwr fun p => { p with phase := .relocking, goal := 2#2, opReq := 2#2, busy := true }), by decide +kernel⟩⟩

/-- The hypotheses of SupplyEventsComplete, clause by clause, are met. -/
theorem witness_SupplyEventsComplete :
    (∃ s : State, s.pwr.phase ≠ .dip) ∧
    (∃ s : State, s.pwr.phase = .dip ∧ s.hasLk = true ∧ s.railsStable = true ∧ s.mgmt.logQ.length < 16 ∧ s.pwr.opReq = 0#2) ∧
    (∃ s : State, s.pwr.phase = .dip ∧ s.hasLk = true ∧ s.railsStable = true ∧ s.mgmt.logQ.length < 16 ∧ s.pwr.opReq ≠ 0#2) ∧
    (∃ s : State, s.isOn .mc = true ∧ s.mgmt.logQ ≠ []) ∧
    (∃ s : State, s.isOn .mc = true ∧ s.mgmt.logQ ≠ []) :=
  ⟨⟨up, by decide +kernel⟩,
   ⟨(up.modPwr fun p => { p with phase := .dip, dipRails := 3#2 }).modClk fun c => { c with ht := 33 }, by decide +kernel⟩,
   ⟨(up.modPwr fun p => { p with phase := .dip, dipRails := 3#2, opReq := 2#2 }).modClk fun c => { c with ht := 33 }, by decide +kernel⟩,
   ⟨(up.modMgmt fun x => { x with logQ := [(⟨0#32, 0#64, 1#8, 1#8, false, 0#32, 0#32, 0#32⟩ : LogRec)] }), by decide +kernel⟩,
   ⟨(up.modMgmt fun x => { x with logQ := [(⟨0#32, 0#64, 1#8, 1#8, false, 0#32, 0#32, 0#32⟩ : LogRec)] }), by decide +kernel⟩⟩

/-- The hypotheses of WindowAccessesComplete, clause by clause, are met. -/
theorem witness_WindowAccessesComplete :
    (∃ s : State, s.Reaches 56) ∧
    (∃ s : State, s.Reaches 57 ∧ s.host.latched = false) ∧
    (∃ s : State, s.Reaches 57 ∧ s.host.latched = true ∧ s.host.latchAt = s.winAt) ∧
    (∃ s : State, s.Reaches 57 ∧ 0x5000 ≤ s.winAt ∧ s.winAt < 0x5800 ∧ (s.machine ((s.winAt - 0x5000) / 256)).running = false ∧ Mem.wf 0#32 s.smc.prog = true) ∧
    (∃ s : State, s.busOpen = true ∧ s.host.atEnd = false ∧ (∀ d, s.resolve 57 ≠ .resting d)) ∧
    (∃ s : State, s.busOpen = true ∧ s.host.atEnd = false ∧ s.tsMapped s.winAt = false ∧ s.tsGated s.winAt = false) ∧
    (∃ s : State, s.busOpen = true ∧ s.host.atEnd = false ∧ s.tsMapped s.winAt = false ∧ s.tsGated s.winAt = false) :=
  ⟨⟨up, by unfold State.Reaches; decide +kernel⟩,
   ⟨(winAtIs 0x57FF#24 up), by unfold State.Reaches; decide +kernel⟩,
   ⟨(up.modHost fun h => { h with winAddr := 0x6006#24, latched := true, latchAt := 0x6006, winLatch := 7#32 }), by unfold State.Reaches; decide +kernel⟩,
   ⟨(winAtIs 0x57FF#24 up), by unfold State.Reaches; decide +kernel⟩,
   ⟨winAtIs 0x57FF#24 up, by decide +kernel, by decide +kernel, by intro d; cases d <;> decide +kernel⟩,
   ⟨(winAtIs 0xFFFFFF#24 up), by decide +kernel⟩,
   ⟨(winAtIs 0xFFFFFF#24 up), by decide +kernel⟩⟩

/-- The hypotheses of GatedAccessesDoNothing, clause by clause, are met. -/
theorem witness_GatedAccessesDoNothing :
    (∃ s : State, ∃ i : Fin 64, s.busOpen = true ∧ s.regGated i.val = true ∧ i ≠ 57) ∧
    (∃ s : State, ∃ i : Fin 64, s.busOpen = true ∧ s.regGated i.val = true ∧ i ≠ 57) :=
  ⟨⟨(up.modClk fun x => { x with clken := 0#12 }), 27, by decide +kernel⟩,
   ⟨(up.modClk fun x => { x with clken := 0#12 }), 27, by decide +kernel⟩⟩

/-- The hypotheses of CommandRegistersComplete, clause by clause, are met. -/
theorem witness_CommandRegistersComplete :
    (∃ s : State, s.Reaches 41 ∧ s.mgmt.busy = false ∧ s.mgmt.args.length < 16) ∧
    (∃ s : State, s.Reaches 41 ∧ s.mgmt.busy = false ∧ 16 ≤ s.mgmt.args.length) ∧
    (∃ s : State, s.Reaches 45 ∧ s.mgmt.busy = false) ∧
    (∃ s : State, ∃ i : Fin 64, s.mgmt.busy = true ∧ 40 ≤ i.val ∧ i.val ≤ 45 ∧ s.Reaches i.val) :=
  ⟨⟨up, by unfold State.Reaches; decide +kernel⟩,
   ⟨(up.modMgmt fun x => { x with args := List.replicate 16 1#32 }), by unfold State.Reaches; decide +kernel⟩,
   ⟨(up.modMgmt fun x => { x with args := [1#32], code := 4#8 }), by unfold State.Reaches; decide +kernel⟩,
   ⟨(up.modMgmt fun x => { x with busy := true }), 40, by unfold State.Reaches; decide +kernel⟩⟩

/-- The hypotheses of StoreCommandsComplete, clause by clause, are met. -/
theorem witness_StoreCommandsComplete :
    (∃ s : State, ∃ l, s.CmdReady 0x01#8 ∧ s.mgmt.staged = some l) ∧
    (∃ s : State, s.CmdReady 0x01#8 ∧ s.mgmt.staged = none) ∧
    (∃ s : State, s.CmdReady 0x02#8) ∧
    (∃ s : State, s.CmdReady 0x03#8 ∧ bitAt (s.mgmt.arg 0) 0 ≠ s.mgmt.calOpen ∧ s.mgmt.calOpen = false) ∧
    (∃ s : State, s.CmdReady 0x03#8 ∧ bitAt (s.mgmt.arg 0) 0 ≠ s.mgmt.calOpen ∧ s.mgmt.calOpen = true) ∧
    (∃ s : State, s.CmdReady 0x04#8 ∧ s.mgmt.unitArg < 648 ∧ (s.unit s.mgmt.unitArg).lasting = false ∧ s.auditOf s.mgmt.unitArg = none ∧ ((s.unit s.mgmt.unitArg).state = .fallow ∨ (s.unit s.mgmt.unitArg).state = .dead)) ∧
    (∃ s : State, s.CmdReady 0x05#8 ∧ s.mgmt.unitArg < 660 ∧ (s.unit s.mgmt.unitArg).lasting = false ∧ (∀ a, s.auditOf s.mgmt.unitArg = some a → a.standin.map Fin.val ≠ some s.mgmt.unitArg)) ∧
    (∃ s : State, s.CmdReady 0x06#8) :=
  ⟨⟨(cmdIs 1 [1#32] (up.modMgmt fun m => { m with staged := some [(0x7000, 5#32)] })), [(0x7000, 5#32)], cmdIs_ready _ _ _ (by decide +kernel) (by decide +kernel) rfl (by decide +kernel), by decide +kernel⟩,
   ⟨(cmdIs 1 [1#32] up), cmdIs_ready _ _ _ (by decide +kernel) (by decide +kernel) rfl (by decide +kernel), by decide +kernel⟩,
   ⟨(cmdIs 2 [] (up.modMgmt fun m => { m with cfgA := some ⟨1#32, true, [], true⟩ })), cmdIs_ready _ _ _ (by decide +kernel) (by decide +kernel) rfl (by decide +kernel)⟩,
   ⟨(cmdIs 3 [1#32] up), cmdIs_ready _ _ _ (by decide +kernel) (by decide +kernel) rfl (by decide +kernel), by decide +kernel⟩,
   ⟨(cmdIs 3 [0#32] (up.modMgmt fun m => { m with calOpen := true, calStage := [(0x9000, 7#32)] })), cmdIs_ready _ _ _ (by decide +kernel) (by decide +kernel) rfl (by decide +kernel), by decide +kernel⟩,
   ⟨(cmdIs 4 [647#32] (unitIs 647 (fun h => { h with state := .fallow }) up)), cmdIs_ready _ _ _ (by decide +kernel) (by decide +kernel) rfl (by decide +kernel), by decide +kernel⟩,
   ⟨(cmdIs 5 [659#32] up), cmdIs_ready _ _ _ (by decide +kernel) (by decide +kernel) rfl (by decide +kernel), by decide +kernel⟩,
   ⟨(cmdIs 6 [] up), cmdIs_ready _ _ _ (by decide +kernel) (by decide +kernel) rfl (by decide +kernel)⟩⟩

/-- The hypotheses of UpdateAndKeyCommandsComplete, clause by clause, are met. -/
theorem witness_UpdateAndKeyCommandsComplete :
    (∃ s : State, ∃ f, ∃ q, s.CmdReady 0x07#8 ∧ q = s.endSeq.learn (!s.mgmt.runSlot) f ∧ q.armOk = true) ∧
    (∃ s : State, ∃ f, ∃ q, s.CmdReady 0x07#8 ∧ q = s.endSeq.learn (!s.mgmt.runSlot) f ∧ q.armOk = false) ∧
    (∃ s : State, s.CmdReady 0x08#8 ∧ s.mgmt.upd = .armed) ∧
    (∃ s : State, s.CmdReady 0x09#8 ∧ (bitAt (s.mgmt.arg 0) 0 = true → s.link.assigned = true)) ∧
    (∃ s : State, s.CmdReady 0x0A#8 ∧ (bits (s.mgmt.arg 0) 0 8 : BitVec 8).toNat ≤ 110 ∧ 20 ≤ (bits (s.mgmt.arg 0) 16 9 : BitVec 9).toNat ∧ (bits (s.mgmt.arg 0) 16 9 : BitVec 9).toNat ≤ 290) ∧
    (∃ s : State, s.CmdReady 0x0B#8) ∧
    (∃ s : State, s.CmdReady 0x0C#8) :=
  ⟨⟨(cmdIs 7 [9#32] (keyed up)), ⟨[]⟩, _, cmdIs_ready _ _ _ (by decide +kernel) (by decide +kernel) rfl (by decide +kernel), rfl, by decide +kernel⟩,
   ⟨(cmdIs 7 [9#32] up), ⟨[0x48544F57#32]⟩, _, cmdIs_ready _ _ _ (by decide +kernel) (by decide +kernel) rfl (by decide +kernel), rfl, by decide +kernel⟩,
   ⟨(cmdIs 8 [] (up.modMgmt fun m => { m with upd := .armed })), cmdIs_ready _ _ _ (by decide +kernel) (by decide +kernel) rfl (by decide +kernel), by decide +kernel⟩,
   ⟨(cmdIs 9 [1#32] up), cmdIs_ready _ _ _ (by decide +kernel) (by decide +kernel) rfl (by decide +kernel), by decide +kernel⟩,
   ⟨(cmdIs 10 [0x0122006E#32] up), cmdIs_ready _ _ _ (by decide +kernel) (by decide +kernel) rfl (by decide +kernel), by decide +kernel⟩,
   ⟨(cmdIs 11 (List.replicate 8 3#32) up), cmdIs_ready _ _ _ (by decide +kernel) (by decide +kernel) rfl (by decide +kernel)⟩,
   ⟨(cmdIs 12 [] up), cmdIs_ready _ _ _ (by decide +kernel) (by decide +kernel) rfl (by decide +kernel)⟩⟩

/-- The hypotheses of CommandsAreTurnedAway, clause by clause, are met. -/
theorem witness_CommandsAreTurnedAway :
    (∃ s : State, s.cmdWaits = true ∧ s.mgmt.early ≠ 0#8) ∧
    (∃ s : State, s.cmdWaits = true ∧ s.mgmt.code = 0x0A#8 ∧ s.mgmt.early = 0#8 ∧ s.mgmt.late ≠ 0#8) ∧
    (∃ s : State, s.mgmt.lockout = true ∧ s.hasLk = true ∧ lockSeconds s.mgmt.lockStep * 32768 ≤ s.clk.ht - s.mgmt.lockAt) :=
  ⟨⟨(cmdIs 13 [] up), by decide +kernel⟩,
   ⟨cmdIs 10 [1#32] (up.modMgmt fun m => { m with authCtr := 5#32 }), by decide +kernel, by decide +kernel,
    by decide +kernel, cmdIs_late_stale _ _ _ (by decide +kernel)⟩,
   ⟨(up.modMgmt fun x => { x with lockout := true }).modClk fun c => { c with ht := 100000000 }, by decide +kernel⟩⟩

/-- The hypotheses of MailboxQueuesComplete, clause by clause, are met. -/
theorem witness_MailboxQueuesComplete :
    (∃ s : State, s.Reaches 47 ∧ s.isOn .mc = true ∧ s.mgmt.inQ.length < 64) ∧
    (∃ s : State, s.Reaches 47 ∧ s.isOn .mc = true ∧ 64 ≤ s.mgmt.inQ.length) ∧
    (∃ s : State, s.Reaches 47 ∧ (s.dom .mc).st = .retain) ∧
    (∃ s : State, ∃ w, ∃ ws, s.Reaches 48 ∧ s.mgmt.outQ = w :: ws ∧ s.mgmt.reply = none) ∧
    (∃ s : State, s.Reaches 48 ∧ s.mgmt.outQ = []) ∧
    (∃ s : State, s.Reaches 49) ∧
    (∃ s : State, ∃ h, ∃ rest, s.coreUp = true ∧ s.mgmt.req = none ∧ s.mgmt.inQ = h :: rest ∧ s.mgmt.message = none ∧ s.headerOld = true ∧ s.mgmt.outQ.length < 64) ∧
    (∃ s : State, ∃ r, s.coreUp = true ∧ s.mgmt.req = none ∧ s.mgmt.message = some r ∧ knownService r.service = false ∧ s.mgmt.outQ.length < 64) :=
  ⟨⟨up, by unfold State.Reaches; decide +kernel⟩,
   ⟨(mailIs (List.replicate 64 1#32) up), by unfold State.Reaches; decide +kernel⟩,
   ⟨(domIs .mc .retain up), by unfold State.Reaches; decide +kernel⟩,
   ⟨(up.modMgmt fun x => { x with outQ := [1#32, 2#32] }), 1#32, [2#32], by unfold State.Reaches; decide +kernel⟩,
   ⟨up, by unfold State.Reaches; decide +kernel⟩,
   ⟨(up.modMgmt fun x => { x with outQ := [1#32, 2#32], inQ := [4#32], req := some ⟨4#32, []⟩ }), by unfold State.Reaches; decide +kernel⟩,
   ⟨((mailIs [0x00030002#32, 1#32] up).modClk fun c => { c with tsc := 2000000 }), 0x00030002#32, [1#32], by decide +kernel⟩,
   ⟨(mailIs [0x0000110B#32, 7#32] up), ⟨0x0000110B#32, []⟩, by decide +kernel⟩⟩

/-- The hypotheses of ReadServicesComplete, clause by clause, are met. -/
theorem witness_ReadServicesComplete :
    (∃ s : State, ∃ r, s.Serves r 1#8 ∧ s.flashFree = true ∧ s.mgmt.outQ.length + 58 ≤ 64 ∧ r.payload.length = 2 ∧ (bits (r.arg 1) 0 3 : BitVec 3) ≠ 0#3 ∧ bitAt (r.arg 1) 8 = false) ∧
    (∃ s : State, ∃ r, s.Serves r 1#8 ∧ s.flashFree = true ∧ s.mgmt.outQ.length + 58 ≤ 64 ∧ r.payload.length ≠ 2) ∧
    (∃ s : State, ∃ r, s.Serves r 2#8 ∧ r.payload = [] ∧ s.mgmt.outQ.length + 11 ≤ 64) ∧
    (∃ s : State, ∃ r, s.Serves r 3#8 ∧ r.payload.length = 1 ∧ s.mgmt.outQ.length + 17 ≤ 64) ∧
    (∃ s : State, s.coreUp = true ∧ s.sensDue = true) ∧
    (∃ s : State, ∃ r, s.Serves r 4#8 ∧ r.payload.length = 1) ∧
    (∃ s : State, ∃ r, s.Serves r 5#8 ∧ r.payload.length = 1 ∧ bits (r.arg 0) 0 4 ≠ 0#4 ∧ s.isOn .xf = true ∧ s.clken 2 = true) ∧
    (∃ s : State, ∃ r, s.Serves r 5#8 ∧ r.payload.length = 1 ∧ bits (r.arg 0) 0 4 ≠ 0#4 ∧ s.isOn .xf = false ∧ s.mgmt.outQ.length < 64) ∧
    (∃ s : State, ∃ r, s.mgmt.outQ.length < 64 ∧ s.Serves r 2#8 ∧ r.payload ≠ []) ∧
    (∃ s : State, ∃ r, s.mgmt.outQ.length < 64 ∧ s.Serves r 3#8 ∧ r.payload.length ≠ 1) ∧
    (∃ s : State, ∃ r, s.mgmt.outQ.length < 64 ∧ s.Serves r 4#8 ∧ r.payload.length ≠ 1) ∧
    (∃ s : State, ∃ r, s.mgmt.outQ.length < 64 ∧ s.Serves r 5#8 ∧ r.payload.length ≠ 1) :=
  ⟨⟨(mailIs [0x00020001#32, 0#32, 7#32] up), ⟨0x00020001#32, [0#32, 7#32]⟩, by unfold State.Serves; decide +kernel⟩,
   ⟨(mailIs [0x00010001#32, 0#32, 7#32] up), ⟨0x00010001#32, [0#32]⟩, by unfold State.Serves; decide +kernel⟩,
   ⟨(mailIs [0x00000002#32] up), ⟨2#32, []⟩, by unfold State.Serves; decide +kernel⟩,
   ⟨(mailIs [0x00010003#32, 0x8001#32] up), ⟨0x00010003#32, [0x8001#32]⟩, by unfold State.Serves; decide +kernel⟩,
   ⟨up, by decide +kernel⟩,
   ⟨(mailIs [0x00010004#32, 3#32] up), ⟨0x00010004#32, [3#32]⟩, by unfold State.Serves; decide +kernel⟩,
   ⟨(mailIs [0x00010005#32, 8#32] up), ⟨0x00010005#32, [8#32]⟩, by unfold State.Serves; decide +kernel⟩,
   ⟨(mailIs [0x00010005#32, 8#32] (domIs .xf .off up)), ⟨0x00010005#32, [8#32]⟩, by unfold State.Serves; decide +kernel⟩,
   ⟨(mailIs [0x00010002#32, 9#32] up), ⟨0x00010002#32, [9#32]⟩, by unfold State.Serves; decide +kernel⟩,
   ⟨(mailIs [3#32] up), ⟨3#32, []⟩, by unfold State.Serves; decide +kernel⟩,
   ⟨(mailIs [4#32] up), ⟨4#32, []⟩, by unfold State.Serves; decide +kernel⟩,
   ⟨(mailIs [5#32] up), ⟨5#32, []⟩, by unfold State.Serves; decide +kernel⟩⟩

/-- The hypotheses of WorkServicesComplete, clause by clause, are met. -/
theorem witness_WorkServicesComplete :
    (∃ s : State, ∃ r, s.Serves r 6#8 ∧ r.payload = [] ∧ s.stageWaits false = [] ∧ s.mgmt.outQ.length + 3 ≤ 64) ∧
    (∃ s : State, ∃ r, s.Serves r 6#8 ∧ r.payload = [] ∧ s.mgmt.reply = none ∧ s.stageWaits false ≠ []) ∧
    (∃ s : State, ∃ r, s.Serves r 7#8 ∧ s.flashFree = true ∧ r.payload = [] ∧ s.mgmt.restore = [] ∧ s.mgmt.outQ.length < 64 ∧ s.endSeq.mgmt.newerCfg = none) ∧
    (∃ s : State, ∃ r, ∃ w, s.Serves r 7#8 ∧ s.flashFree = true ∧ r.payload = [] ∧ s.mgmt.restore = [] ∧ s.mgmt.reply = none ∧ s.mgmt.outQ.length < 64 ∧ (∃ c, s.endSeq.mgmt.newerCfg = some c ∧ c.list = [(regKey 6, w)])) ∧
    (∃ s : State, ∃ r, s.Serves r 8#8 ∧ s.flashFree = true ∧ 0 < r.payload.length ∧ r.payload.length ≤ 61 ∧ s.mgmt.upd ≠ .trial ∧ (r.arg 0).toNat = s.mgmt.updPos ∧ 0 < s.mgmt.updPos ∧ s.mgmt.updPos + 4 * (r.payload.length - 1) ≤ slotBytes ∧ s.mgmt.outQ.length < 64) ∧
    (∃ s : State, ∃ r, s.Serves r 9#8 ∧ s.flashFree = true ∧ r.payload.length = 1 ∧ s.isOn .cs = true ∧ s.clken 7 = true ∧ s.clken 3 = true ∧ s.autoSpill = none ∧ s.mgmt.autoWait = none ∧ s.spec.mode ≠ .capture ∧ s.cap.owner = true ∧ (s.cap.entry (bits (r.arg 0) 0 4 : BitVec 4).toNat).used = true ∧ s.mgmt.outQ.length + 3 ≤ 64) ∧
    (∃ s : State, ∃ r, ∃ p, s.Serves r 10#8 ∧ s.flashFree = true ∧ r.payload.length = 3 ∧ s.endSeq.mgmt.spills.find? (fun q => q.index == (bits (r.arg 0) 0 16 : BitVec 16)) = some p ∧ 0 < (r.arg 2).toNat ∧ (r.arg 2).toNat ≤ 60 ∧ (r.arg 1).toNat + (r.arg 2).toNat ≤ p.words.length ∧ s.mgmt.outQ.length + 61 ≤ 64) :=
  ⟨⟨(mailIs [0x00000006#32] up), ⟨6#32, []⟩, by unfold State.Serves; decide +kernel⟩,
   ⟨(mailIs [0x00000006#32] (domIs .sp .retain up)), ⟨6#32, []⟩, by unfold State.Serves; decide +kernel⟩,
   ⟨(mailIs [0x00000007#32] up), ⟨7#32, []⟩, by unfold State.Serves; decide +kernel⟩,
   ⟨(mailIs [0x00000007#32] (up.modMgmt fun m => { m with cfgB := some ⟨3#32, true, [(regKey 6, 5#32)], true⟩ })), ⟨7#32, []⟩, 5#32, by unfold State.Serves; decide +kernel⟩,
   ⟨(mailIs [0x00020008#32, 8#32, 5#32] (up.modMgmt fun m => { m with updPos := 8, upd := .staging })), ⟨0x00020008#32, [8#32, 5#32]⟩, by unfold State.Serves; decide +kernel⟩,
   ⟨(mailIs [0x00010009#32, 0#32] (up.modCap fun x => { x with owner := true, dir := x.dir.set 0 { used := true }, store := [(0x100001, 1#32), (0x100003, 3#32)] })), ⟨0x00010009#32, [0#32]⟩, by unfold State.Serves; decide +kernel⟩,
   ⟨(mailIs [0x0003000A#32, 2#32, 1#32, 2#32] (up.modMgmt fun m => { m with spills := [⟨2#16, [1#32,2#32,3#32]⟩] })), ⟨0x0003000A#32, [2#32, 1#32, 2#32]⟩, ⟨2#16, [1#32,2#32,3#32]⟩, by unfold State.Serves; decide +kernel⟩⟩

/-- The hypotheses of CoreWorkCompletes, clause by clause, are met. -/
theorem witness_CoreWorkCompletes :
    (∃ s : State, ∃ r, ∃ rs, s.coreUp = true ∧ s.flashFree = true ∧ s.mgmt.logOvf = 0 ∧ s.mgmt.logQ = r :: rs) ∧
    (∃ s : State, s.coreUp = true ∧ s.flashFree = true ∧ s.mgmt.logOvf ≠ 0) ∧
    (∃ s : State, s.coreUp = true ∧ s.flashFree = true ∧ s.mgmt.upd = .trial ∧ 600 * 32768 ≤ s.clk.ht - s.mgmt.zorHt) ∧
    (∃ s : State, ∃ f, ∃ a, ∃ b, ∃ r, ∃ sl, (s.dom .mc).st = .waking ∧ (s.dom .mc).fromRet = false ∧ s.mgmt.zor = false ∧ s.hasLk = true ∧ s.flashFree = true ∧ f.answers = true ∧ r = (s.modMport fun x => x.discovered f).chooseImage a b ∧ flashUsable f = true ∧ r.2 = some sl ∧ s.mgmt.restore = [] ∧ (∀ x, (s.mgmt.cfgA = some x ∨ s.mgmt.cfgB = some x) → x.auto = false)) ∧
    (∃ s : State, ∃ f, ∃ a, ∃ b, ∃ r, (s.dom .mc).st = .waking ∧ (s.dom .mc).fromRet = false ∧ s.mgmt.zor = false ∧ s.hasLk = true ∧ s.flashFree = true ∧ f.answers = true ∧ r = (s.modMport fun x => x.discovered f).chooseImage a b ∧ flashUsable f = true ∧ r.2 = none) ∧
    (∃ s : State, ∃ f, ∃ a, ∃ b, ∃ r, (s.dom .mc).st = .waking ∧ (s.dom .mc).fromRet = false ∧ s.mgmt.zor = false ∧ s.hasLk = true ∧ s.flashFree = true ∧ f.answers = true ∧ r = (s.modMport fun x => x.discovered f).chooseImage a b ∧ flashUsable f = false) :=
  ⟨⟨(up.modMgmt fun x => { x with logQ := [⟨0#32, 0#64, 1#8, 1#8, false, 0#32, 0#32, 0#32⟩] }), ⟨0#32, 0#64, 1#8, 1#8, false, 0#32, 0#32, 0#32⟩, [], by decide +kernel⟩,
   ⟨(up.modMgmt fun x => { x with logOvf := 3 }), by decide +kernel⟩,
   ⟨(up.modMgmt fun x => { x with upd := .trial }).modClk fun c => { c with ht := 20000000 }, by decide +kernel⟩,
   ⟨waking, ⟨true, none⟩, ⟨[]⟩, ⟨[]⟩, (waking.modMport fun x => x.discovered ⟨true, none⟩).chooseImage ⟨[]⟩ ⟨[]⟩, false,
    by decide +kernel, by decide +kernel, by decide +kernel, by decide +kernel, by decide +kernel, by decide +kernel, rfl,
    by decide +kernel, by decide +kernel, by decide +kernel,
    by
      have ha : waking.mgmt.cfgA = none := by decide +kernel
      have hb : waking.mgmt.cfgB = none := by decide +kernel
      simp [ha, hb]⟩,
   ⟨wakingBlank, ⟨true, none⟩, ⟨[]⟩, ⟨[]⟩, (wakingBlank.modMport fun x => x.discovered ⟨true, none⟩).chooseImage ⟨[]⟩ ⟨[]⟩,
    by decide +kernel, by decide +kernel, by decide +kernel, by decide +kernel, by decide +kernel, by decide +kernel, rfl,
    by decide +kernel, by decide +kernel⟩,
   ⟨waking, ⟨true, some { flashTable with log2 := 22#5 }⟩, ⟨[]⟩, ⟨[]⟩,
    (waking.modMport fun x => x.discovered ⟨true, some { flashTable with log2 := 22#5 }⟩).chooseImage ⟨[]⟩ ⟨[]⟩, by decide +kernel,
    by decide +kernel, by decide +kernel, by decide +kernel, by decide +kernel, by decide +kernel, rfl, by decide +kernel⟩⟩

/-- The hypotheses of LinkFramesComplete, clause by clause, are met. -/
theorem witness_LinkFramesComplete :
    (∃ s : State, ∃ addr, s.linkUp = true ∧ s.own addr = true ∧ s.link.posted = none) ∧
    (∃ s : State, ∃ addr, s.linkUp = true ∧ s.own addr = true ∧ s.link.posted = none ∧ s.clken 6 = true ∧ 0 < s.level ∧ (s.dom .sb).st = .retain) ∧
    (∃ s : State, ∃ w, ∃ ws, ∃ k, (s.dom .sb).st = .waking ∧ (s.dom .sb).target = .on ∧ s.linkUp = true ∧ s.link.assigned = true ∧ s.wakeOver .sb = false ∧ s.host.stall = none ∧ s.mgmt.restore = [] ∧ s.mgmt.req = none ∧ s.clken 6 = true ∧ s.link.wait = some ⟨false, 27, 1, 3, [], [.sb], k⟩ ∧ s.buf.words = w :: ws) ∧
    (∃ s : State, ∃ n, ∃ k, (s.dom .sb).st = .waking ∧ s.linkUp = true ∧ s.link.assigned = true ∧ s.wakeOver .sb = true ∧ s.mgmt.restore = [] ∧ s.mgmt.req = none ∧ s.clken 6 = true ∧ 0 < s.level ∧ s.link.wait = some ⟨false, 27, 1, n + 1, [], [.sb], k⟩) ∧
    (∃ s : State, ∃ addr, ∃ w, ∃ crc, s.linkUp = true ∧ s.named addr = true ∧ s.link.posted = none ∧ crcOk [w] crc = true) ∧
    (∃ s : State, ∃ addr, ∃ w, ∃ crc, s.linkUp = true ∧ s.named addr = true ∧ s.link.posted = none ∧ crcOk [w] crc = false) ∧
    (∃ s : State, ∃ addr, ∃ w, ∃ crc, s.linkUp = true ∧ s.named addr = true ∧ s.link.posted = none ∧ crcOk [w] crc = true ∧ s.clken 5 = true ∧ (s.dom .sp).st = .retain) ∧
    (∃ s : State, ∃ p, s.link.posted = some p ∧ s.hasLk = true ∧ s.link.wait = none ∧ (∀ d ∈ p.doms, s.isOn d = true) ∧ p.index = 38 ∧ (∃ w, p.words = [w]) ∧ s.Reaches 38) ∧
    (∃ s : State, ∃ p, s.link.posted = some p ∧ s.hasLk = true ∧ s.link.wait = none ∧ (∃ d ∈ p.doms, (s.dom d).st = .failed)) ∧
    (∃ s : State, ∃ w, ∃ n, ∃ k, s.link.posted = some ⟨38, [w], [.sp], k⟩ ∧ s.linkUp = true ∧ s.link.assigned = true ∧ s.link.wait = some ⟨true, 38, 1, n + 1, [], [.sp], k⟩ ∧ s.isOn .sp = true ∧ s.Reaches 38) ∧
    (∃ s : State, ∃ w, ∃ n, ∃ k, s.link.posted = some ⟨38, [w], [.sp], k⟩ ∧ s.linkUp = true ∧ s.link.assigned = true ∧ s.link.wait = some ⟨true, 38, 1, n + 1, [], [.sp], k⟩ ∧ (s.dom .sp).st = .failed) :=
  ⟨⟨up, 0#5, by decide +kernel⟩,
   ⟨((domIs .sb .retain up).modBuf fun b => { b with words := [⟨0#32, 0#2⟩] }), 0#5, by decide +kernel⟩,
   ⟨(((up.modDom .sb fun x => { x with st := .waking, target := .on, fromRet := true }).modBuf fun b => { b with words := [⟨5#32, 1#2⟩, ⟨6#32, 2#2⟩] }).modLink fun x => { x with ldo := [busyWord], wait := some ⟨false, 27#6, 1, 3, [], [.sb], false⟩ }), ⟨5#32, 1#2⟩, [⟨6#32, 2#2⟩], false, by decide +kernel⟩,
   ⟨(((up.modDom .sb fun x => { x with st := .waking, target := .on, fromRet := true }).modBuf fun b => { b with words := [⟨5#32, 1#2⟩, ⟨6#32, 2#2⟩] }).modLink fun x => { x with ldo := [busyWord], wait := some ⟨false, 27#6, 1, 3, [], [.sb], true⟩ }).modClk fun c => { c with ht := 1000 }, 2, true, by decide +kernel⟩,
   ⟨up, 0#5, 5#32, (fld (crc16 [5#32]) 0), by decide +kernel⟩,
   ⟨up, 31#5, 5#32, (~~~(fld (crc16 [5#32]) 0)), by decide +kernel⟩,
   ⟨(domIs .sp .retain up), 0#5, 5#32, (fld (crc16 [5#32]) 0), by decide +kernel⟩,
   ⟨up.modLink fun x => { x with posted := some ⟨38#6, [0xC#32], [.sp], true⟩ }, ⟨38#6, [0xC#32], [.sp], true⟩, rfl, by decide +kernel, rfl,
    by decide +kernel, rfl, ⟨_, rfl⟩, by unfold State.Reaches; decide +kernel⟩,
   ⟨((domIs .sp .failed up).modLink fun x => { x with posted := some ⟨38#6, [0xC#32], [.sp], true⟩ }), ⟨38#6, [0xC#32], [.sp], true⟩, by decide +kernel⟩,
   ⟨(up.modLink fun x => { x with posted := some ⟨38#6, [0xC#32], [.sp], true⟩, ldo := [busyWord], wait := some ⟨true, 38#6, 1, 1, [], [.sp], true⟩ }), 0xC#32, 0, true, by unfold State.Reaches; decide +kernel⟩,
   ⟨((domIs .sp .failed up).modLink fun x => { x with posted := some ⟨38#6, [0xC#32], [.sp], true⟩, ldo := [busyWord], wait := some ⟨true, 38#6, 1, 1, [], [.sp], true⟩ }), 0xC#32, 0, true, by decide +kernel⟩⟩

/-- The hypotheses of LinkAddressesComplete, clause by clause, are met. -/
theorem witness_LinkAddressesComplete :
    (∃ s : State, ∃ len, ∃ lo, ∃ hi, ∃ crc, s.linkUp = true ∧ s.link.assigned = false ∧ crcOk [lo, hi] crc = true ∧ (len : BitVec 8).toNat ≤ 64 ∧ uidMatches len.toNat (joinWords lo hi) = true) ∧
    (∃ s : State, ∃ len, ∃ lo, ∃ hi, ∃ crc, s.linkUp = true ∧ s.link.assigned = false ∧ crcOk [lo, hi] crc = true ∧ (len : BitVec 8).toNat ≤ 64 ∧ uidMatches len.toNat (joinWords lo hi) = false) ∧
    (∃ s : State, ∃ lo, ∃ hi, ∃ a, ∃ crc, s.linkUp = true ∧ crcOk [lo, hi, a] crc = true ∧ joinWords lo hi = Config.uid ∧ s.link.locked = false) ∧
    (∃ s : State, ∃ lo, ∃ hi, ∃ a, ∃ crc, s.linkUp = true ∧ crcOk [lo, hi, a] crc = true ∧ (joinWords lo hi ≠ Config.uid ∨ s.link.locked = true)) ∧
    (∃ s : State, s.Reaches 50 ∧ s.link.locked = false) ∧
    (∃ s : State, s.Reaches 50 ∧ s.link.locked = true) ∧
    (∃ s : State, ∃ addr, ∃ b, s.linkUp = true ∧ s.own addr = true ∧ s.link.posted = none ∧ conflicts (s.readyWord 61) b = true) ∧
    (∃ s : State, s.linkUp = true) ∧
    (∃ s : State, ∃ h, s.linkUp = true ∧ s.isTarget h = true ∧ h.op = 2#3 ∧ s.own h.addr = true) ∧
    (∃ s : State, ∃ h, s.linkUp = true ∧ s.isTarget h = true ∧ h.op = 7#3) ∧
    (∃ s : State, ∃ f, s.linkUp = true ∧ s.link.wait = some f) ∧
    (∃ s : State, s.Reaches 51) ∧
    (∃ s : State, ∃ h, s.linkUp = true ∧ crc8 h ≠ bits h 0 8) ∧
    (∃ s : State, s.attnDue = true) :=
  ⟨⟨(up.modLink fun x => { x with assigned := false, addr := 31#5 }), 64#8, lowWord Config.uid, highWord Config.uid, _, by decide +kernel, rfl, crcOk_self _,
    by decide, by simp [uidMatches]⟩,
   ⟨(up.modLink fun x => { x with assigned := false, addr := 31#5 }), 64#8, lowWord (~~~Config.uid), highWord (~~~Config.uid), _, by decide +kernel, rfl, crcOk_self _,
    by decide, by simp [uidMatches, not_uid.symm]⟩,
   ⟨(up.modLink fun x => { x with assigned := false, addr := 31#5 }), lowWord Config.uid, highWord Config.uid, 7#32, _, by decide +kernel, crcOk_self _, by simp, rfl⟩,
   ⟨(up.modLink fun x => { x with assigned := false, addr := 31#5 }), lowWord (~~~Config.uid), highWord (~~~Config.uid), 7#32, _, by decide +kernel, crcOk_self _,
    Or.inl (by simp)⟩,
   ⟨up, by unfold State.Reaches; decide +kernel⟩,
   ⟨(up.modLink fun x => { x with locked := true }), by unfold State.Reaches; decide +kernel⟩,
   ⟨up, 0#5, 0#32, by decide +kernel, by decide +kernel, rfl, ready_conflicts _ _⟩,
   ⟨up, by decide +kernel⟩,
   ⟨up, ⟨0#5, 2#3, 61#6, 0#8⟩, by decide +kernel⟩,
   ⟨up, ⟨31#5, 7#3, 0#6, 0#8⟩, by decide +kernel⟩,
   ⟨(up.modLink fun x => { x with wait := some ⟨true, 38#6, 1, 1, [], [.sp], true⟩ }), ⟨true, 38#6, 1, 1, [], [.sp], true⟩, by decide +kernel⟩,
   ⟨up, by unfold State.Reaches; decide +kernel⟩,
   ⟨up, 0x19000097#32, by decide +kernel⟩,
   ⟨(up.modLink fun x => { x with assigned := false, addr := 31#5 }), by decide +kernel⟩⟩

/-- The hypotheses of PortGrantsComplete, clause by clause, are met. -/
theorem witness_PortGrantsComplete :
    (∃ s : State, s.Reaches 52) ∧
    (∃ s : State, s.Reaches 52 ∧ s.mport.granted = true) ∧
    (∃ s : State, s.Reaches 52 ∧ s.mport.granted = false) ∧
    (∃ s : State, s.mport.take = true ∧ s.mport.granted = false ∧ s.hasLk = true ∧ s.mport.seq = none) ∧
    (∃ s : State, ∃ a, ∃ bs, s.mport.take = true ∧ s.mport.granted = false ∧ s.hasLk = true ∧ s.mport.waiting = false ∧ s.mport.mssLow = false ∧ s.mport.seq = some (.program false a bs)) ∧
    (∃ s : State, s.mport.single.isSome = true ∧ s.mport.granted = false ∧ s.mport.waiting = false ∧ s.mport.mssLow = false ∧ s.hasLk = true ∧ s.mgmt.logQ.length < 16) ∧
    (∃ s : State, s.mport.seq.isSome = true ∧ s.mport.granted = false ∧ s.mport.waiting = false ∧ s.mport.mssLow = false ∧ s.hasLk = true ∧ s.mgmt.logQ.length < 16) ∧
    (∃ s : State, s.mport.waiting = true ∧ s.mport.mssLow = false ∧ s.usSince s.mport.mssAt 1000 = true ∧ s.hasLk = true) :=
  ⟨⟨up, by unfold State.Reaches; decide +kernel⟩,
   ⟨(up.modMport fun x => { x with take := true, granted := true }), by unfold State.Reaches; decide +kernel⟩,
   ⟨(up.modMport fun x => { x with take := true }), by unfold State.Reaches; decide +kernel⟩,
   ⟨(up.modMport fun x => { x with take := true }), by decide +kernel⟩,
   ⟨(up.modMport fun x => { x with take := true, seq := some (.program false 0x100 [5#8]) }), 0x100, [5#8], by decide +kernel⟩,
   ⟨(up.modMport fun x => { x with single := some (.line 0x40) }), by decide +kernel⟩,
   ⟨(up.modMport fun x => { x with seq := some (.program true 0x1FE [1#8]) }), by decide +kernel⟩,
   ⟨(up.modMport fun x => { x with waiting := true, seq := some (.program false 0x1FE [1#8]) }).modClk fun c => { c with tsc := 196608 }, by decide +kernel⟩⟩

/-- The flash port of a module whose discovery has found flashTable, two bytes of the flash programmed. -/
def flashUp : State :=
  up.modMport fun x =>
    { x with sfdp := true, size := 23#5, table := some flashTable, flash1 := true, flash := [(0x1FE, 0x5A#8), (0x1FF, 0x5A#8)] }

/-- The hypotheses of FlashSequencesComplete, clause by clause, are met. -/
theorem witness_FlashSequencesComplete :
    (∃ s : State, ∃ addr : BitVec 32, ∃ bs : List (BitVec 8), bs ≠ [] ∧ s.portFree = true ∧ s.mport.seq = none ∧ s.mport.buffer = none ∧ flashWf s.mport.flash = true ∧ addr.toNat + bs.length ≤ s.mport.window) ∧
    (∃ s : State, ∃ addr : BitVec 32, ∃ bs : List (BitVec 8), bs ≠ [] ∧ s.portFree = true ∧ s.mport.seq = none ∧ s.mport.buffer = none ∧ flashWf s.mport.flash = true ∧ addr.toNat + bs.length ≤ s.mport.window ∧ addr.toNat % s.mport.page + bs.length < s.mport.page) ∧
    (∃ s : State, ∃ addr : BitVec 32, ∃ bs : List (BitVec 8), bs ≠ [] ∧ s.portFree = true ∧ s.mport.seq = none ∧ s.mport.buffer = none ∧ flashWf s.mport.flash = true ∧ s.mport.window < addr.toNat + bs.length ∧ s.mgmt.logQ.length < 16) ∧
    (∃ s : State, ∃ p : FlashPlace, ∃ bs : List (BitVec 8), s.portFree = true ∧ s.mport.seq = none ∧ pageFits s.mport.page p.addr bs = true ∧ s.mport.reaches p bs.length = true ∧ s.mport.buffer = none ∧ p.flash1 = false) ∧
    (∃ s : State, ∃ p : FlashPlace, ∃ bs : List (BitVec 8), s.portFree = true ∧ s.mport.seq = none ∧ pageFits s.mport.page p.addr bs = true ∧ s.mport.reaches p bs.length = true ∧ s.mport.buffer = none ∧ p.flash1 = true) ∧
    (∃ s : State, ∃ p : FlashPlace, ∃ bs : List (BitVec 8), ∃ a, ∃ ds, s.portFree = true ∧ s.mport.seq = none ∧ pageFits s.mport.page p.addr bs = true ∧ s.mport.reaches p bs.length = true ∧ s.mport.buffer = some (a, ds)) ∧
    (∃ s : State, ∃ k : EraseKind, ∃ p : FlashPlace, ∃ e, eraseAligned k p.addr = true ∧ s.portFree = true ∧ s.mport.seq = none ∧ s.mport.buffer = none ∧ flashWf s.mport.flash = true ∧ s.mport.eraseType (eraseSize k) = some e ∧ s.mport.reaches p (eraseSize k) = true ∧ p.flash1 = false) ∧
    (∃ s : State, ∃ a : Nat, ∃ bs : List (BitVec 8), s.mport.seq = some (.program false a bs) ∧ s.seqOver = true ∧ s.mport.waiting = false ∧ s.hasLk = true ∧ flashWf s.mport.flash = true ∧ s.mgmt.logQ.length < 16) :=
  ⟨⟨flashUp, 0x1F0#32, List.replicate 20 0xF#8, by decide +kernel⟩,
   ⟨flashUp, 0x1F0#32, List.replicate 15 0xF#8, by decide +kernel⟩,
   ⟨flashUp, 0x7FFFFF#32, [0xF#8, 0#8], by decide +kernel⟩,
   ⟨flashUp, ⟨false, 0x1F0#32⟩, List.replicate 16 0xF#8, by decide +kernel⟩,
   ⟨flashUp, ⟨true, 0x7FFFFF#32⟩, [5#8], by decide +kernel⟩,
   ⟨(flashUp.modMport fun x => { x with buffer := some (0x10, [1#8]) }), ⟨false, 0x1F0#32⟩, List.replicate 16 0xF#8, 0x10, [1#8], by decide +kernel⟩,
   ⟨flashUp, .k64, ⟨false, 0x7F0000#32⟩, ⟨0xD8#8, none⟩, by decide +kernel⟩,
   ⟨(flashUp.modMport fun x => { x with seq := some (.program false 0x1FE [0xF#8, 0xF0#8]) }).modClk fun c => { c with tsc := 0x100000000 }, 0x1FE, [0xF#8, 0xF0#8], by decide +kernel⟩⟩

/-- The hypotheses of RegisterWritesComplete, clause by clause, are met. -/
theorem witness_RegisterWritesComplete :
    (∃ s : State, s.Reaches 61) ∧
    (∃ s : State, s.Reaches 6) ∧
    (∃ s : State, s.Reaches 5) ∧
    (∃ s : State, s.Reaches 59) ∧
    (∃ s : State, s.Reaches 60) ∧
    (∃ s : State, s.Reaches 18) ∧
    (∃ s : State, ∃ n, s.Reaches 22 ∧ s.int.shown = some n) ∧
    (∃ s : State, ∃ i : Fin 64, i.val ∈ [0, 1, 2, 3, 4, 10, 13, 14, 19, 20, 28, 48, 62, 63] ∧ s.Reaches i.val) :=
  ⟨⟨up, by unfold State.Reaches; decide +kernel⟩,
   ⟨up, by unfold State.Reaches; decide +kernel⟩,
   ⟨up, by unfold State.Reaches; decide +kernel⟩,
   ⟨up, by unfold State.Reaches; decide +kernel⟩,
   ⟨up, by unfold State.Reaches; decide +kernel⟩,
   ⟨up, by unfold State.Reaches; decide +kernel⟩,
   ⟨(up.modInt fun x => { x with sel := 47#6 }), 47, by unfold State.Reaches; decide +kernel⟩,
   ⟨up, 0, by unfold State.Reaches; decide +kernel⟩⟩

/-- The hypotheses of StepKeepsPortsOk are met. -/
theorem witness_StepKeepsPortsOk : ∃ s t : State, s.PortsOk ∧ step s = .next t :=
  ⟨up, up.idle, ⟨by decide +kernel, by decide, by decide, by decide⟩, rfl⟩

/-- The hypotheses of StepKeepsStoresOk are met. -/
theorem witness_StepKeepsStoresOk : ∃ s t : State, s.StoresOk ∧ step s = .next t :=
  ⟨up, up.idle, ⟨by decide, by decide, by decide, rfl, rfl, by decide, by decide, by decide, by decide, by decide,
    by decide⟩, rfl⟩

/-! ### Well-formedness -/

/-- A memory of 4096 bytes or more does not fit the byte count of an image (R211). -/
theorem test_memory_bound :
    (Instr.tedsDone 0 (.memory (List.replicate 4096 0#8))).wellFormed = false ∧
      (Instr.tedsDone 0 (.memory (List.replicate 4095 0#8))).wellFormed = true := by decide +kernel

/-- No bytes to program are refused; bytes over a page boundary are not (R545). -/
theorem test_program_bytes :
    (Instr.pageProgram (.window 0#32) [] ⟨true, true⟩).wellFormed = false ∧
      (Instr.pageProgram (.window 0x1FF#32) [1#8, 2#8] ⟨true, true⟩).wellFormed = true := by
  decide

/-- An erase off its size is refused (R547). -/
theorem test_erase_alignment :
    (Instr.erase .k64 ⟨false, 0x8000#32⟩ true).wellFormed = false ∧ (Instr.erase .k32 ⟨true, 0x8000#32⟩ true).wellFormed = true := by decide

/-- No row of the table gives bits, so no word spells a command. -/
theorem test_no_word : decodeTableWord 32 0 = none ∧ State.reset.withFetchWord 32 0 = State.reset := ⟨rfl, rfl⟩

/-! ### Worked examples of the manual -/

/-- The state after one command; the state itself where it stops. -/
def next (c : Instr) (s : State) : State :=
  match exec c s with
  | .next t => t
  | _ => s

/-- R515, R516: the two example headers carry the CRC-8 they should, and spell a READ of index 0 of module 3 and a SYNC to all. -/
theorem test_header_crc :
    crc8 0x19000098#32 = 0x98#8 ∧ crc8 0xFB000080#32 = 0x80#8 ∧
      linkFrame 0x19000098#32 [] [1#32, 2#32, 3#32] false = .read 3#5 0#6 0#8 3 [1#32, 2#32, 3#32] ∧
      linkFrame 0xFB000080#32 [1#32, 2#32, 3#32] [] false = .sync 31#5 [1#32, 2#32, 3#32] := by decide +kernel

/-- Chapter 01: gyro region Z, cluster 3, position 17 is unit 647, the last unit of cluster 35 of region 5. -/
theorem test_unit_number : clusterOf 647 = 35 ∧ regionOf 35 = 5 ∧ clusterOf 646 = 35 ∧ clusterOf 648 = 36 := by decide

/-- Chapter 05, the pressure bridge on AC0: offset(1) is 222 periods, 7104 ticks (R188). -/
theorem test_scan_offset :
    ({ ConvBlock.atReset 0 with
        conv := 0x311#32
        b := #v[0x00180078#32, 0x0010003C#32, 0#32, 0#32] } : ConvBlock).offset 1 = 222#24 := by decide +kernel

/-- Chapter 06, the pressure channel: at x = 0.077 and θ = 0 the user set gives 0.3, the grain 0x26_6666, but for the last
step of the 24-bit input (R232, R245). -/
theorem test_pressure_channel :
    (toGrain (poly (fun k => (#v[0xBC03126F#32, 0#32, 0#32, 0#32, 0x40800000#32] : Vector Word 5).getD k 0#32)
      0x3D9DB22D#32 0#32)).1 = 0x266666#24 := by decide +kernel

/-- The sources of chapter 11's example on T0: 12 REC_TRANSIENT at priority 5 and 16 BUF_LEVEL at 3, with 1 SM0 at 6 where
its event is set. -/
def nested (sm : Bool) : State :=
  let on (p : BitVec 3) : IntSrc := { en := true, prio := p, target := 0#2 }
  { up with
    int := { src := ((Vector.replicate 48 {}).set 12 (on 5#3)).set 16 (on 3#3) |>.set 1 (on 6#3), th0 := 1#3, line0 := true }
    buf := { up.buf with threshHit := true }
    recog := { up.recog with evt := 8#6 }
    smc := { up.smc with evt := if sm then 1#8 else 0#8 } }

/-- Step 4 of the example: the claim returns 0x50C and puts source 12 in service, and HIRQ_N goes high. -/
theorem test_claim_transient :
    (next (.intClaim .t0) (nested false)).host.rdata = 0x50C#32 ∧ (next (.intClaim .t0) (nested false)).int.line0 = false ∧
      (next (.intClaim .t0) (nested false)).int.running 0#2 = 5 := by decide +kernel

/-- Step 7 of the example: the claim returns 0x601. -/
theorem test_claim_machine : (next (.intClaim .t0) (nested true)).host.rdata = 0x601#32 := by decide +kernel

/-- Chapter 12, the end of going to sleep: with SB and MC in Retain, the others Off and REFUSED_EVT 1, PWR_STAT reads
0x1020_8000. -/
theorem test_asleep :
    ((domIs .mc .retain (domIs .sb .retain State.reset)).modPwr fun p => { p with refused := true }).pwrStat = 0x10208000#32 := by
  decide +kernel

/-- Chapter 13, running off the TEDS region: an unmapped word reads 0 and wakes nothing, and the second access ends at the
region's end with AT_END. -/
theorem test_teds_region :
    let s := next (.winDataAccess false 0#32) (winAtIs 0xFFFE#24 (domIs .mc .retain up))
    let t := next (.winDataAccess false 0#32) (winAtIs 0xFFFF#24 (domIs .mc .retain up))
    s.host.rdata = 0#32 ∧ s.host.unmapped = true ∧ s.host.winAddr = 0xFFFF#24 ∧ (s.dom .mc).demandDue = false ∧
      t.host.winAddr = 0x10000#24 ∧ t.host.atEnd = true := by decide +kernel

/-- The same: while the window is stopped an access sets WIN_OVERRUN, leaves ADDR and wakes nothing. -/
theorem test_window_stopped :
    let s := next (.winDataAccess false 0#32) ((domIs .sp .retain up).modHost fun h => { h with winAddr := 0x10000#24, atEnd := true })
    s.host.winAddr = 0x10000#24 ∧ s.host.sticky.getLsbD 11 = true ∧ (s.dom .sp).demandDue = false := by decide +kernel

/-- Chapter 14, after a brown-out reset: STICKY 0x8, WAKE_REC 0x6, PWR_STAT 0x0060_0000, DVFS 0x1000. -/
theorem test_brown_out :
    let s := next (.brownRecover 1#2) up
    s.stickyWord = 0x8#32 ∧ s.wakeWord = 0x6#32 ∧ s.pwrStat = 0x600000#32 ∧ s.dvfs = 0x1000#32 := by
  decide +kernel

/-- Chapter 15, the first epoch: TSYNC reads 0x8000_0026. -/
theorem test_first_epoch :
    let s := next (.sync 31#5 [0x5E000000#32, 0x0000B2D0#32, fld (crc16 [0x5E000000#32, 0x0000B2D0#32]) 0]) up
    s.clk.tsc = 0x0000B2D05E000000#64 ∧ (s.readReg 15 true).1 = 0x80000026#32 := by decide +kernel

/-! ### One step of each kind of command that the examples leave out -/

/-- A step on an empty queue counts one SM tick; on a queue it runs the command at the front. -/
theorem test_step :
    (match step up with | .next t => t.clk.tsc | _ => 0#64) = 1#64 ∧
      (match step { up with pending := [.relocksClr, .park ⟨0#5, 0⟩] } with | .next t => t.pending | _ => []) = [.park ⟨0#5, 0⟩] := by
  decide +kernel

/-- A write of SB's registers while SB is in Retain stalls and demands the wake (R427, R428). -/
theorem test_stall :
    let s := next .bufDataRead ((domIs .sb .retain up).modBuf fun b => { b with words := [⟨7#32, 1#2⟩], wp := 1#22 })
    s.host.stall.isSome = true ∧ (s.dom .sb).demandDue = true ∧ s.host.rdata = 0#32 := by decide +kernel

/-- Programming clears bits only, and reads 0xFF beside what was written (R546). -/
theorem test_page_program :
    let s := next (.pageProgram (.window 0x10#32) [0x0F#8] ⟨true, true⟩) (up.modMport fun x => { x with size := 23#5, flash := [(0x10, 0x3C#8)] })
    flashGet s.mport.flash 0x10 = 0x0C#8 ∧ flashGet s.mport.flash 0x11 = 0xFF#8 := by decide +kernel

/-- An erase off its size is no event (R547). -/
theorem test_unaligned_erase (s : State) : exec (.erase .k64 ⟨false, 0x8000#32⟩ true) s = .next s := by
  have h : eraseAligned .k64 0x8000#32 = false := by decide
  simp [exec, execErase, h, event]

end Sys2Proof.Tests
end

section
/-!
PROOFS. The epoch of the timing link (R56, R57, R61, R62): what a SYNC frame does to the clock part, and what it leaves alone.
-/

namespace Sys2Proof.Machine

open Sys2Proof

/-! ### The clock part while the counter steps -/

@[simp] theorem State.modNext_clk (k : PathKind) (f : Tick → Tick) (s : State) : (s.modNext k f).clk = s.clk :=
  State.clk_of_mask (State.mask_modNext (ps := [.harrow]) (by decide) k f s) (by decide)

@[simp] theorem State.mapChans_clk (f : Nat → Chan → Chan) (s : State) : (s.mapChans f).clk = s.clk :=
  State.clk_of_mask (State.mask_mapChans (ps := [.harrow]) (by decide) f s) (by decide)

@[simp] theorem State.oweStep_clk (s : State) : s.oweStep.clk = s.clk :=
  State.clk_of_mask (State.mask_oweStep (ps := [.buf]) (by decide) s) (by decide)

@[simp] theorem State.shiftScans_clk (d : Tick) (s : State) : (s.shiftScans d).clk = s.clk :=
  State.clk_of_mask (State.mask_shiftScans (ps := [.aux]) (by decide) d s) (by decide)

@[simp] theorem State.alignScans_clk (s : State) : s.alignScans.clk = s.clk :=
  State.clk_of_mask (State.mask_alignScans (ps := [.harrow, .aux]) (by decide) (by decide) s) (by decide)

@[simp] theorem State.rephase_clk (p : PathKind → Bool) (s : State) : (s.rephase p).clk = s.clk :=
  State.clk_of_mask (State.mask_rephase (ps := [.harrow, .buf]) (by decide) (by decide) p s) (by decide)

/-- The clock part with everything blanked that moves with the counter: the instants it holds of the clock quality and of the
gates, and the phase of the modulator (R619). -/
def Clk.still (c : Clk) : Clk :=
  { c with quals := [], htLog := [], closing := Vector.replicate 12 none, modPhase := 0#5 }

@[simp] theorem State.shiftPaths_clk_still (d : Tick) (s : State) : (s.shiftPaths d).clk.still = s.clk.still := by
  simp [State.shiftPaths, Clk.still]

@[simp] theorem State.shiftTimers_clk_still (d : Tick) (s : State) : (s.shiftTimers d).clk.still = s.clk.still := by
  simp [State.shiftTimers, Clk.still]

@[simp] theorem State.markQuality_clk_still (s t : State) : (State.markQuality s t).clk.still = t.clk.still := by
  unfold State.markQuality; split <;> rfl

/-! ### Taking an epoch -/

/-- The clock part right after a load of epoch e, before what it holds of earlier instants moves (R56, R61, R71). -/
def Clk.loaded (e : Tick) (c : Clk) : Clk :=
  { c with tsc := e, epochValid := true, syncEvt := true, stepped := e - c.tsc != 0#64, step := stepField (e - c.tsc).toInt }

/-- Without the lock an epoch is refused, and nothing but two bits of TSYNC changes (R57). -/
theorem State.takeEpoch_of_not_locked {s : State} (h : s.locked = false) (e : Tick) :
    s.takeEpoch e = s.modClk fun c => { c with syncReject := true, epochValid := false } := by
  simp [State.takeEpoch, h]

/-- An epoch that the counter agrees with changes the clock part alone (R61). -/
theorem State.takeEpoch_of_agrees {s : State} (h : s.locked = true) {e : Tick} (he : e = s.clk.tsc) :
    s.takeEpoch e = s.modClk (Clk.loaded e) := by
  have hd : e - s.clk.tsc = 0#64 := by simp [he]
  unfold State.takeEpoch
  rw [if_neg (by simp [h])]
  exact if_pos hd

/-- A load of an epoch writes the clock part as Clk.loaded says and moves what it holds of earlier instants (R56, R61, R619). -/
theorem State.takeEpoch_clk_still {s : State} (h : s.locked = true) (e : Tick) :
    (s.takeEpoch e).clk.still = (s.clk.loaded e).still := by
  by_cases he : e = s.clk.tsc
  case pos => rw [State.takeEpoch_of_agrees h he, State.modClk_clk]
  case neg =>
    have hd : e - s.clk.tsc ≠ 0#64 := by bv_omega
    unfold State.takeEpoch
    rw [if_neg (by simp [h])]
    lift_lets
    intro d t owed timed moved
    have hmoved : moved.clk.still = (s.clk.loaded e).still := calc
      moved.clk.still = owed.clk.still := by simp [moved, timed]
      _ = t.clk.still := by simp only [owed]; split <;> simp
      _ = (s.clk.loaded e).still := rfl
    rw [if_neg hd, ← hmoved]
    split
    · rfl
    · simp

/-- What a load of an epoch leaves in the clock part, with the history of the clock quality kept beside it (R56, R73). -/
theorem State.loadEpoch_clk_still {s : State} (h : s.locked = true) (e : Tick) :
    (s.loadEpoch e).clk.still = (s.clk.loaded e).still := by
  rw [State.loadEpoch, State.markQuality_clk_still, State.takeEpoch_clk_still h]

@[simp] theorem State.loadEpoch_link (e : Tick) (s : State) : (s.loadEpoch e).link = s.link :=
  State.link_of_mask (ps := [.clk, .harrow, .arr, .aux, .recog, .smc, .buf, .int, .pwr, .host, .mport, .mgmt])
    (by simp) (by decide)

/-- The epoch that a counter holds already changes the clock part alone (R61). -/
theorem State.mask_loadEpoch_of_agrees {ps : List Part} (hp : Part.clk ∈ ps) {s : State} (h : s.locked = true) {e : Tick}
    (he : e = s.clk.tsc) : (s.loadEpoch e).mask ps = s.mask ps := by
  rw [State.loadEpoch, State.mask_markQuality hp, State.takeEpoch_of_agrees h he, State.mask_modClk hp]

/-- A refused epoch changes the two bits of TSYNC and the history of the clock quality (R57, R73). -/
theorem State.loadEpoch_of_not_locked {s : State} (h : s.locked = false) (e : Tick) :
    s.loadEpoch e = State.markQuality s (s.modClk fun c => { c with syncReject := true, epochValid := false }) := by
  rw [State.loadEpoch, State.takeEpoch_of_not_locked h]

/-! ### The SYNC frame -/

@[simp] theorem State.newFrame_clk (s : State) : s.newFrame.clk = s.clk := rfl

@[simp] theorem State.newFrame_link (s : State) : s.newFrame.link = { s.link with wait := none, ldo := [] } := rfl

section
variable {s : State} {addr : BitVec 5} {lo hi crc : Word}

/-- A SYNC frame to the module whose CRC checks offers its epoch (R56, R516). -/
theorem exec_sync_of_crcOk (hup : s.linkUp = true) (hnamed : s.named addr = true) (hcrc : crcOk [lo, hi] crc = true) :
    exec (.sync addr [lo, hi, crc]) s = .next (State.arbitrate s.newFrame (s.newFrame.loadEpoch (joinWords lo hi))) := by
  simp [exec, execSync, hup, hnamed, hcrc]

/-- A SYNC frame to the module whose CRC fails is a link error of code 2 (R515). -/
theorem exec_sync_of_not_crcOk (hup : s.linkUp = true) (hnamed : s.named addr = true) (hcrc : crcOk [lo, hi] crc = false) :
    exec (.sync addr [lo, hi, crc]) s = .next (State.arbitrate s.newFrame (s.newFrame.linkError 2#4)) := by
  simp [exec, execSync, hup, hnamed, hcrc]

end

/-- Settles O7: a checked SYNC is a load of its epoch, whose clock part State.loadEpoch_clk_still gives and whose frame
State.mask_loadEpoch; an agreeing, a refused or a failing one changes less. That the frame is one command, and that it ends what
the link held of the frame before, are the model's own readings (log entries 15, 77, 78). -/
theorem epochLoads : Obligations.EpochLoads := by
  unfold Obligations.EpochLoads
  intro s addr lo hi crc hup hnamed
  refine ⟨fun hcrc hlock => ?loaded, fun hcrc hlock => ?refused, fun hcrc => ?failed⟩
  case loaded =>
    have hlocked : s.newFrame.locked = true := by simp [State.locked, hlock]
    have hclk := State.loadEpoch_clk_still hlocked (joinWords lo hi)
    refine ⟨_, exec_sync_of_crcOk hup hnamed hcrc, ?_⟩
    simp only [State.arbitrate_clk, State.arbitrate_harrow, State.arbitrate_aux, State.arbitrate_arr, State.arbitrate_link,
      State.loadEpoch_link, State.newFrame_link]
    refine ⟨congrArg Clk.tsc hclk, congrArg Clk.epochValid hclk, congrArg Clk.syncEvt hclk, congrArg Clk.stepped hclk,
      congrArg Clk.step hclk, (congrArg Clk.syncReject hclk :), fun he => ?agrees, True.intro, ?frame⟩
    case agrees =>
      have hm : (s.newFrame.loadEpoch (joinWords lo hi)).mask [.clk, .link] = s.mask [.clk, .link] := by
        rw [State.mask_loadEpoch_of_agrees (by decide) hlocked he, State.mask_newFrame (by decide)]
      exact ⟨State.harrow_of_mask hm (by decide), State.aux_of_mask hm (by decide), State.arr_of_mask hm (by decide)⟩
    case frame => simp [Same]
  case refused =>
    have hlocked : s.newFrame.locked = false := by simp [State.locked, hlock]
    refine ⟨_, exec_sync_of_crcOk hup hnamed hcrc, ?_⟩
    simp [Same, State.loadEpoch_of_not_locked hlocked]
  case failed =>
    exact ⟨_, exec_sync_of_not_crcOk hup hnamed hcrc, by simp [State.linkError], by simp [Same]⟩

end Sys2Proof.Machine
end

section
/-!
PROOFS. The sample buffer as the host reaches it (R375 to R377, R381, R382): reads of BUF_DATA, the threshold, a flush, the
drop count, and what a full buffer does to a unit.
-/

namespace Sys2Proof.Machine

open Sys2Proof

/-! ### Bits of BUF_CTRL -/

theorem bitAt_or (v w : Word) (k : Nat) : bitAt (v ||| w) k = (bitAt v k || bitAt w k) := by simp [bitAt]

/-- A flag stands at its own bit and at no other. -/
theorem bitAt_flg (b : Bool) (j k : Nat) : bitAt (flg b j) k = (b && decide (k = j) && decide (k < 32)) := by
  cases b
  case false => simp [flg, bitAt]
  case true =>
    simp only [flg, bitAt, if_true, BitVec.getLsbD_shiftLeft, BitVec.getLsbD_one]
    by_cases h : k = j
    · simp [h]
    · by_cases hlt : k < j
      · simp [h, hlt]
      · simp [h, Nat.sub_ne_zero_of_lt (Nat.lt_of_le_of_ne (Nat.le_of_not_lt hlt) (Ne.symm h))]

/-- The fields of BUF_CTRL; its action bits read 0 (R391). -/
theorem Buf.bitAt_ctrl (b : Buf) (k : Nat) :
    bitAt b.ctrl k = ((b.enable && decide (k = 0) || b.keep && decide (k = 3)) && decide (k < 32)) := by
  simp only [Buf.ctrl, bitAt_or, bitAt_flg, Bool.and_or_distrib_right]

/-! ### The threshold and publication -/

/-- THRESH_HIT is set where the condition A of R377 becomes true; the rest of the buffer stands. -/
theorem State.threshEdge_buf (s t : State) :
    (State.threshEdge s t).buf = { t.buf with threshHit := t.buf.threshHit || (t.bufAbove && !s.bufAbove) } := by
  unfold State.threshEdge
  split
  case isTrue h => simp [h]
  case isFalse h => simp [h]

/-- The buffer after a write of BUF_THRESH: THRESH_HIT is set where the level meets the new threshold and not the old one (R377). -/
theorem State.writeBufThresh_buf (w : Word) (s : State) :
    (s.writeBufThresh w).buf =
      { s.buf with
        thresh := bits w 0 22
        threshHit := s.buf.threshHit ||
          ((bits w 0 22 != 0#22 && decide ((bits w 0 22 : BitVec 22).toNat ≤ s.level)) && !s.bufAbove) } :=
  State.threshEdge_buf _ _

/-! ### What the writer keeps of BUF_CTRL and of the drop count -/

@[simp] theorem State.demand_buf (d : Dom) (s : State) : (s.demand d).buf = s.buf :=
  State.buf_of_mask (State.mask_demand (ps := [.pwr]) (by decide) d s) (by decide)

@[simp] theorem State.refreshPaths_buf (s : State) : s.refreshPaths.buf = s.buf :=
  State.buf_of_mask (State.mask_refreshPaths (ps := [.harrow]) (by decide) s) (by decide)

@[simp] theorem State.setOuts_buf (g : Group) (l : List GroupOut) (s : State) : (s.setOuts g l).buf = s.buf :=
  State.buf_of_mask (State.mask_setOuts (ps := [.harrow]) (by decide) g l s) (by decide)

@[simp] theorem State.publish_buf_enable (ws : List BufWord) (s : State) : (s.publish ws).buf.enable = s.buf.enable := by
  simp [State.publish, State.threshEdge_buf]

@[simp] theorem State.publish_buf_dropped (ws : List BufWord) (s : State) : (s.publish ws).buf.dropped = s.buf.dropped := by
  simp [State.publish, State.threshEdge_buf]

@[simp] theorem State.oweTimes_buf_enable (t : Option Tick) (s : State) : (s.oweTimes t).buf.enable = s.buf.enable := rfl

@[simp] theorem State.placeUnit_buf_enable (own : List Frame) (lost : Nat) (s : State) :
    (s.placeUnit own lost).1.buf.enable = s.buf.enable := by
  unfold State.placeUnit
  split
  · simp [State.dropFrames]
  · dsimp only
    split
    · rfl
    · split <;> simp

@[simp] theorem State.placeFill_buf_enable (s : State) : s.placeFill.buf.enable = s.buf.enable := by
  unfold State.placeFill
  split
  · rfl
  · dsimp only
    split <;> simp

@[simp] theorem State.startWriter_buf_enable (s : State) : s.startWriter.buf.enable = s.buf.enable := by
  simp [State.startWriter]

@[simp] theorem State.stopWriter_buf_enable (s : State) : s.stopWriter.buf.enable = s.buf.enable := rfl

@[simp] theorem State.refreshWriter_buf_enable (s : State) : s.refreshWriter.buf.enable = s.buf.enable := by
  unfold State.refreshWriter
  (repeat' split) <;> simp

@[simp] theorem State.dropUnit_buf_enable (u : FrameUnit) (s : State) : (s.dropUnit u).buf.enable = s.buf.enable := by
  cases u <;> simp [State.dropUnit]

@[simp] theorem State.dropUnit_buf_dropped (u : FrameUnit) (s : State) : (s.dropUnit u).buf.dropped = s.buf.dropped := by
  cases u <;> simp [State.dropUnit]

/-- An interrupted item is not a dropped frame (R379, R382), and leaves ENABLE as it is. -/
theorem State.cutItem_buf (s : State) :
    s.cutItem.1.buf.enable = s.buf.enable ∧ s.cutItem.1.buf.dropped = s.buf.dropped := by
  unfold State.cutItem
  split
  · exact ⟨rfl, rfl⟩
  · dsimp only
    split
    · exact ⟨rfl, rfl⟩
    · split <;> simp [State.gapsWritten]

/-- With no unit in hand no item is part-way (R374). -/
theorem State.cutItem_of_idle {s : State} (h : s.unitInHand = none) : s.cutItem = (s, none) := by
  unfold State.cutItem
  rw [h]

/-! ### Flush -/

theorem State.flush_buf_words (s : State) : s.flush.buf.words = [] := rfl

theorem State.flush_buf_rp (s : State) : s.flush.buf.rp = s.flush.buf.wp := rfl

theorem State.flush_buf_flushDone (s : State) : s.flush.buf.flushDone = true := rfl

@[simp] theorem State.flush_buf_enable (s : State) : s.flush.buf.enable = s.buf.enable := s.cutItem_buf.1

@[simp] theorem State.flush_buf_dropped (s : State) : s.flush.buf.dropped = s.buf.dropped := s.cutItem_buf.2

/-- A flush between items leaves WP and the sequence counter as they are (R374, R382). -/
theorem State.flush_buf_of_idle {s : State} (h : s.unitInHand = none) :
    s.flush.buf.wp = s.buf.wp ∧ s.flush.buf.seq = s.buf.seq := by
  simp [State.flush, State.cutItem_of_idle h]

/-! ### A settled writer -/

/-- A settled writer runs only while ENABLE is 1 (R354). -/
theorem State.enable_of_settled {s : State} (h : s.writerSettled = true) (hw : s.buf.writing = true) : s.buf.enable = true := by
  have hmay : s.writerMay = true := by
    unfold State.writerSettled at h
    cases harmed : s.buf.armedGate with
    | true => simp [harmed, hw] at h
    | false => simpa [harmed, hw] using h
  simp only [State.writerMay, Bool.and_eq_true] at hmay
  obtain ⟨⟨⟨-, henable⟩, -⟩, -⟩ := hmay
  exact henable

/-- A settled writer is as its conditions ask, and stays so (R354, R355). -/
theorem State.refreshWriter_of_settled {s : State} (h : s.writerSettled = true) : s.refreshWriter = s := by
  unfold State.writerSettled at h
  unfold State.refreshWriter
  cases harmed : s.buf.armedGate with
  | true =>
    obtain ⟨⟨hmay, hep⟩, hw⟩ : (s.writerMay = true ∧ s.buf.alignEp = true) ∧ s.buf.writing = false := by
      simpa [harmed] using h
    simp [hmay, hep, hw]
  | false =>
    have hw : s.buf.writing = s.writerMay := by simpa [harmed] using h
    cases hmay : s.writerMay <;> simp [hw, hmay]

/-- No report is made early where the writer does not stop (R258, R369). -/
theorem State.reportsFirst_of_settled {s : State} (h : s.writerSettled = true) : s.reportsFirst (!s.buf.enable) = s := by
  unfold State.reportsFirst
  cases hw : s.buf.writing with
  | false => simp
  | true => simp [State.enable_of_settled h hw]

/-- The state with DROPPED cleared. -/
def State.clearDropped (s : State) : State := s.modBuf fun b => { b with dropped := 0#16 }

/-- A write of BUF_CTRL that sets FLUSH as well flushes after what it else does (R382, R391). -/
theorem State.writeBufCtrl_or_flush {w : Word} (h1 : bitAt w 1 = false) (s : State) :
    s.writeBufCtrl (w ||| flg true 1) = (s.writeBufCtrl w).flush := by
  simp [State.writeBufCtrl, bitAt_or, bitAt_flg, h1]

/-- A write of BUF_CTRL that sets DROP_CLR as well clears DROPPED before what it else does (R381, R477). -/
theorem State.writeBufCtrl_or_dropClr {w : Word} (h2 : bitAt w 2 = false) (s : State) :
    s.writeBufCtrl (w ||| flg true 2) = s.clearDropped.writeBufCtrl w := by
  simp [State.writeBufCtrl, bitAt_or, bitAt_flg, h2, State.clearDropped]

@[simp] theorem State.writeBufCtrl_buf_enable (w : Word) (s : State) : (s.writeBufCtrl w).buf.enable = bitAt w 0 := by
  unfold State.writeBufCtrl
  dsimp only
  split <;> simp

/-- At a settled writer BUF_CTRL written as it stands changes nothing. -/
theorem State.writeBufCtrl_ctrl_of_settled {s : State} (h : s.writerSettled = true) : s.writeBufCtrl s.buf.ctrl = s := by
  simp [State.writeBufCtrl, Buf.bitAt_ctrl, State.modBuf, State.refreshWriter_of_settled h]

/-! ### A full buffer -/

/-- A statistics counter stays at all ones, and else counts one more event (R475). -/
theorem satAdd_one {n : Nat} (x : BitVec n) : satAdd x 1 = if x = BitVec.allOnes n then BitVec.allOnes n else x + 1#n := by
  have hx := x.isLt
  unfold satAdd
  by_cases h : x = BitVec.allOnes n
  case pos =>
    have hmax : x.toNat = 2 ^ n - 1 := by rw [h, BitVec.toNat_allOnes]
    rw [if_pos (by omega), if_pos h]
  case neg =>
    have hne : x.toNat ≠ 2 ^ n - 1 := fun e => h (BitVec.eq_of_toNat_eq (by rw [e, BitVec.toNat_allOnes]))
    rw [if_neg (by omega), if_neg h, BitVec.ofNat_add, BitVec.ofNat_toNat, BitVec.setWidth_eq]

theorem packItem_ne_nil {gs : List Grain} (h : gs ≠ []) : packItem gs ≠ [] := by
  obtain ⟨g, gs, rfl⟩ := List.exists_cons_of_ne_nil h
  cases gs with
  | nil => simp [packItem, grainBytes, packBytes]
  | cons => simp [packItem, grainBytes, packBytes]

/-- Frames among which one has a grain make words. -/
theorem frameWords_ne_nil {f : Frame} (hf : ∀ n, f n ≠ []) {fs : List Frame} (h : f ∈ fs) (n : BitVec 16) :
    (frameWords fs n).1 ≠ [] := by
  induction fs generalizing n with
  | nil => simp at h
  | cons g gs ih =>
    rcases List.mem_cons.1 h with rfl | hg
    · simp [frameWords, packItem_ne_nil (hf n)]
    · simp [frameWords, ih hg]

/-- A unit is dropped whole at a full buffer (R379). -/
theorem State.placeUnit_full {s : State} (hon : s.isOn .sb = true) (hfull : s.level = bufWords) {f : Frame} (hf : ∀ n, f n ≠ [])
    {own : List Frame} (h : f ∈ own) (lost : Nat) : s.placeUnit own lost = (s.dropFrames false lost, false) := by
  have hlen := List.length_pos_of_ne_nil (frameWords_ne_nil hf (List.mem_append_right s.pendingGaps h) s.buf.seq)
  unfold State.placeUnit
  rw [if_neg (by simp [hon])]
  exact if_pos (by omega)

/-- An EVENT frame at a full buffer is dropped (R379). -/
theorem State.placeEvent_full {s : State} (hon : s.isOn .sb = true) (hfull : s.level = bufWords) {e : EventFrame}
    {rest : List EventFrame} (he : s.buf.events = e :: rest) :
    s.placeEvent = (s.modBuf fun b => { b with events := rest }).dropFrames false 1 := by
  unfold State.placeEvent
  rw [he]
  exact congrArg Prod.fst (State.placeUnit_full (s := s.modBuf fun b => { b with events := rest }) hon hfull
    (fun _ => List.cons_ne_nil _ _) (List.mem_singleton_self (eventFrame e)) 1)

/-! ### The accesses -/

theorem State.popWord_cons {s : State} {w : BufWord} {ws : List BufWord} (h : s.buf.words = w :: ws) :
    s.popWord = (w.data, s.modBuf fun b => { b with words := ws, rp := b.rp + 1#22, last := w }) := by
  simp [State.popWord, h]

theorem State.popWord_nil {s : State} (h : s.buf.words = []) :
    s.popWord = (s.buf.last.data, s.modBuf fun b => { b with underrun := true }) := by
  simp [State.popWord, h]

@[simp] theorem State.touch_clk (d : Dom) (s : State) : (s.touch d).clk = s.clk := rfl
@[simp] theorem State.touch_buf (d : Dom) (s : State) : (s.touch d).buf = s.buf := rfl
@[simp] theorem State.touch_host (d : Dom) (s : State) : (s.touch d).host = s.host := rfl
@[simp] theorem State.finishRead_buf (r : Word × State) : (State.finishRead r).buf = r.2.buf := rfl
@[simp] theorem State.finishWrite_buf (s : State) : s.finishWrite.buf = s.buf := rfl

section
variable {s : State}

/-- A read of BUF_DATA that is executed reaches SB and takes a word (R375, R429). -/
theorem exec_bufDataRead (h : s.Reaches 27) :
    exec .bufDataRead s = .next (State.arbitrate s (State.finishRead (s.touch .sb).popWord)) :=
  congrArg (answer s) (State.hostRead_reaches (i := 27) h)

theorem exec_bufThreshWrite (h : s.Reaches 29) (w : Word) :
    exec (.bufThreshWrite w) s = .next (State.arbitrate s (s.writeBufThresh w).finishWrite) :=
  congrArg (answer s) (State.hostWrite_reaches (i := 29) h w)

theorem exec_bufStatWrite (h : s.Reaches 31) (w : Word) :
    exec (.registerWrite 31 w) s = .next (State.arbitrate s (s.writeBufStat w).finishWrite) :=
  congrArg (answer s) (State.hostWrite_reaches (i := 31) h w)

/-- An EVENT frame that is next in the order of R370 is placed, or dropped. -/
theorem exec_eventPlace (hw : s.buf.writing = true) (hsm : s.hasSm = true) (hnext : s.isNext .event = true) :
    exec (.unitPlace .event) s = .next (State.arbitrate s s.placeEvent) := by
  simp [exec, execUnitPlace, hw, hsm, hnext]

/-- The host writes BUF_CTRL as it stands, with one action bit set (R391). -/
theorem State.hostWrite_bufCtrl_action (h : s.Reaches 30) {j : Nat} (hj : j ≠ 0) :
    s.hostWrite 30 (s.buf.ctrl ||| flg true j) =
      ((s.reportsFirst (!s.buf.enable)).writeBufCtrl (s.buf.ctrl ||| flg true j)).finishWrite := by
  have h0 : bitAt (s.buf.ctrl ||| flg true j) 0 = s.buf.enable := by simp [bitAt_or, bitAt_flg, Buf.bitAt_ctrl, hj.symm]
  rw [State.hostWrite_reaches (i := 30) h, ← h0]
  rfl

theorem exec_flush (h : s.Reaches 30) :
    exec .flush s =
      .next (State.arbitrate s ((s.reportsFirst (!s.buf.enable)).writeBufCtrl s.buf.ctrl).flush.finishWrite) := by
  rw [← State.writeBufCtrl_or_flush (by simp [Buf.bitAt_ctrl])]
  exact congrArg (answer s) (State.hostWrite_bufCtrl_action h (by decide))

theorem exec_dropClr (h : s.Reaches 30) :
    exec .dropClr s =
      .next (State.arbitrate s ((s.reportsFirst (!s.buf.enable)).clearDropped.writeBufCtrl s.buf.ctrl).finishWrite) := by
  rw [← State.writeBufCtrl_or_dropClr (by simp [Buf.bitAt_ctrl])]
  exact congrArg (answer s) (State.hostWrite_bufCtrl_action h (by decide))

/-- At a settled writer DROP_CLR clears DROPPED and does nothing else (R381). -/
theorem exec_dropClr_of_settled (h : s.Reaches 30) (hs : s.writerSettled = true) :
    exec .dropClr s = .next (State.arbitrate s s.clearDropped.finishWrite) := by
  rw [exec_dropClr h, State.reportsFirst_of_settled hs]
  rw [show s.buf.ctrl = s.clearDropped.buf.ctrl from rfl, State.writeBufCtrl_ctrl_of_settled (s := s.clearDropped) hs]

end

/-- Settles O31: each access is its own update of the buffer (exec_bufDataRead and its companions); at a settled writer a write of
BUF_CTRL with ENABLE as it stands starts, stops and reports nothing, so FLUSH and DROP_CLR act alone
(State.writeBufCtrl_ctrl_of_settled). The strobe, the write of a register as one command and the item that a flush may cut are the
model's own readings (log entries 8, 9, 62). -/
theorem bufferAccessesComplete : Obligations.BufferAccessesComplete := by
  unfold Obligations.BufferAccessesComplete
  refine ⟨?read, ?empty, ?thresh, ?flush, ?dropClr, ?stat, ?full⟩
  case read =>
    intro s w ws h hw
    refine ⟨_, exec_bufDataRead h, ?_⟩
    rw [State.popWord_cons (s := s.touch .sb) hw]
    simp [Same]
  case empty =>
    intro s h hw
    refine ⟨_, exec_bufDataRead h, ?_⟩
    rw [State.popWord_nil (s := s.touch .sb) hw]
    simp [Same]
  case thresh =>
    intro s w h
    refine ⟨_, exec_bufThreshWrite h w, ?_⟩
    simp only [State.arbitrate_buf, State.finishWrite_buf, State.writeBufThresh_buf, true_and]
    refine ⟨fun hbelow hne hle => ?meets, fun hno => ?stays, by simp [Same]⟩
    case meets => simp [hbelow, hne, hle]
    case stays =>
      rcases hno with habove | hlt
      · simp [habove]
      · simp [Nat.not_le.2 hlt]
  case flush =>
    intro s h
    refine ⟨_, exec_flush h, ?_⟩
    simp only [State.arbitrate_buf, State.finishWrite_buf]
    refine ⟨State.flush_buf_words _, State.flush_buf_rp _, State.flush_buf_flushDone _, ?enable, fun hs => ?settled,
      by simp [Same]⟩
    case enable => simp [Buf.bitAt_ctrl]
    case settled =>
      rw [State.reportsFirst_of_settled hs, State.writeBufCtrl_ctrl_of_settled hs]
      exact ⟨State.flush_buf_dropped s, State.flush_buf_of_idle, by simp [Same]⟩
  case dropClr =>
    intro s h hs
    exact ⟨_, exec_dropClr_of_settled h hs, by simp [State.clearDropped, Same]⟩
  case stat =>
    intro s w h
    exact ⟨_, exec_bufStatWrite h w, by simp [Same, State.writeBufStat, w1c]⟩
  case full =>
    intro s e rest hw hsm hnext he hon hfull
    refine ⟨_, exec_eventPlace hw hsm hnext, ?_⟩
    rw [State.placeEvent_full hon hfull he]
    simp only [State.arbitrate_buf]
    exact ⟨rfl, satAdd_one _, rfl, by simp [Same]⟩

end Sys2Proof.Machine
end

section
/-!
PROOFS. The interrupt controller as the host reaches it (R404 to R410, R415): what a claim returns and puts in service, what a
completion ends, and the two statistics counters.
-/

namespace Sys2Proof.Machine

open Sys2Proof

/-! ### The configuration of one source -/

section
variable {c d : Intc} {n m : Nat}

theorem Intc.cfg_congr (h : c.src = d.src) : c.cfg n = d.cfg n := by
  simp [Intc.cfg, h]

@[simp] theorem Intc.cfg_setCfg_same (h : n < 48) (f : IntSrc → IntSrc) : (c.setCfg n f).cfg n = f (c.cfg n) := by
  simp [Intc.cfg, Intc.setCfg, h]

@[simp] theorem Intc.cfg_setCfg_ne (h : m ≠ n) (f : IntSrc → IntSrc) : (c.setCfg n f).cfg m = c.cfg m := by
  unfold Intc.cfg Intc.setCfg
  by_cases hn : n < 48
  case pos => simp [hn, Vector.getElem_set_ne, h.symm]
  case neg => simp [hn]

@[simp] theorem Intc.setCfg_badcomp (f : IntSrc → IntSrc) : (c.setCfg n f).badcomp = c.badcomp := by
  unfold Intc.setCfg; split <;> rfl

@[simp] theorem Intc.setCfg_spurious (f : IntSrc → IntSrc) : (c.setCfg n f).spurious = c.spurious := by
  unfold Intc.setCfg; split <;> rfl

/-- Only a source that the module has is ever in service (R396). -/
theorem Intc.lt_of_serv {r : BitVec 2 × BitVec 3} (h : (c.cfg n).serv = some r) : n < 48 := by
  by_contra hn
  simp [Intc.cfg, hn] at h

@[simp] theorem Intc.dropGone_src (x : HostTarget) : (c.dropGone x).src = c.src := by cases x <;> rfl

@[simp] theorem Intc.dropGone_spurious (x : HostTarget) : (c.dropGone x).spurious = c.spurious := by cases x <;> rfl

@[simp] theorem Intc.dropGone_cfg (x : HostTarget) : (c.dropGone x).cfg n = c.cfg n := Intc.cfg_congr (Intc.dropGone_src x)

end

@[simp] theorem State.arbitrate_int_cfg (s t : State) (n : Nat) : (State.arbitrate s t).int.cfg n = t.int.cfg n :=
  Intc.cfg_congr (State.arbitrate_int_src s t)

@[simp] theorem State.finishRead_int (r : Word × State) : (State.finishRead r).int = r.2.int := rfl
@[simp] theorem State.finishWrite_int (s : State) : s.finishWrite.int = s.int := rfl

/-! ### What arbitration presents -/

/-- A fold that keeps its choice or takes the index it stands at chooses an index below its bound. -/
theorem lt_of_foldUpto_eq_some {f : Option Nat → Nat → Option Nat} (hf : ∀ b k, f b k = b ∨ f b k = some k) {n m : Nat}
    (h : foldUpto f none n = some m) : m < n := by
  induction n with
  | zero => simp [foldUpto] at h
  | succ n ih =>
    rw [foldUpto] at h
    rcases hf (foldUpto f none n) n with hkeep | htake
    · have := ih (hkeep ▸ h)
      omega
    · have : n = m := by simpa [htake] using h
      omega

theorem State.better_eq (s : State) (b : Option Nat) (n : Nat) : s.better b n = b ∨ s.better b n = some n := by
  cases b with
  | none => exact .inr rfl
  | some b =>
    unfold State.better
    dsimp only
    split
    · exact .inr rfl
    · exact .inl rfl

/-- Arbitration presents a source that the module has (R396, R404). -/
theorem State.presented_lt {s : State} {x : BitVec 2} {n : Nat} (h : s.presented x = some n) : n < 48 := by
  refine lt_of_foldUpto_eq_some (fun b k => ?_) h
  split
  · exact s.better_eq b k
  · exact .inl rfl

/-! ### Claims -/

section
variable {s : State} {x : HostTarget}

theorem State.claim_presented {n : Nat} (hline : s.int.line x = true) (hp : s.presented (lineTarget x) = some n) :
    s.claim x = (claimWord n (s.int.cfg n).prio, (s.modInt fun c => c.dropGone x).serve (lineTarget x) n) := by
  simp [State.claim, hline, hp]

theorem State.claim_nothing (hline : s.int.line x = true) (hp : s.presented (lineTarget x) = none) :
    s.claim x = (s.modInt fun c => c.dropGone x).spurious := by
  simp [State.claim, hline, hp]

/-- A claim of a line that is high, and was not taken away within the 2 LK cycles of R401, returns 0 (R404). -/
theorem State.claim_high (hline : s.int.line x = false) (hgone : ∀ g, s.int.gone x = some g → s.withinLk g.at_ 2 = false) :
    ∃ t, s.claim x = (0#32, t) ∧ (t = s ∨ t = s.modInt fun c => c.dropGone x) := by
  cases hg : s.int.gone x with
  | none => exact ⟨s, by simp [State.claim, hline, hg], .inl rfl⟩
  | some g => exact ⟨_, by simp [State.claim, hline, hg, hgone g hg], .inr rfl⟩

theorem State.claim_late {g : Gone} (hline : s.int.line x = false) (hgone : s.int.gone x = some g)
    (hwithin : s.withinLk g.at_ 2 = true) : s.claim x = (s.modInt fun c => c.dropGone x).lateClaim x g := by
  simp [State.claim, hline, hgone, hwithin]

@[simp] theorem State.spurious_fst (s : State) : s.spurious.1 = 63#32 := rfl
@[simp] theorem State.spurious_src (s : State) : s.spurious.2.int.src = s.int.src := rfl
@[simp] theorem State.spurious_spurious (s : State) : s.spurious.2.int.spurious = satInc s.int.spurious := rfl

/-- A late claim of a masked source is spurious, or returns the source, not in service until then (R407). -/
theorem State.lateClaim_masked {g : Gone} (hm : g.masked = true) :
    ((s.lateClaim x g).1 = 63#32 ∧ (s.lateClaim x g).2.int.src = s.int.src) ∨
      ((s.int.cfg g.src.toNat).serv = none ∧ (s.lateClaim x g).1 = claimWord g.src.toNat g.prio) := by
  unfold State.lateClaim
  dsimp only
  split
  case isTrue => exact .inl ⟨rfl, rfl⟩
  case isFalse h =>
    obtain ⟨-, hserv⟩ : Config.lateClaim s.fresh = false ∧ (s.int.cfg g.src.toNat).serv = none := by simpa [hm] using h
    exact .inr ⟨hserv, rfl⟩

/-- A late claim of a withdrawn source is spurious, or returns 0 (R404). -/
theorem State.lateClaim_withdrawn {g : Gone} (hm : g.masked = false) :
    ((s.lateClaim x g).1 = 63#32 ∨ (s.lateClaim x g).1 = 0#32) ∧ (s.lateClaim x g).2.int.src = s.int.src := by
  unfold State.lateClaim
  dsimp only
  split
  case isTrue => exact ⟨.inl rfl, rfl⟩
  case isFalse => simp [hm]

/-! ### Completions -/

variable {w : Word}

/-- The numbers 0 and 63, which a completion ignores (R410). -/
theorem toNat_ignored_iff {v : BitVec 6} : (v.toNat = 0 ∨ v.toNat = 63) ↔ (v = 0#6 ∨ v = 63#6) := by
  simp [← BitVec.toNat_inj]

/-- A completion of a source in service at the target ends its service (R409). -/
theorem State.complete_served {p : BitVec 3} (h0 : (bits w 0 6 : BitVec 6) ≠ 0#6) (h63 : (bits w 0 6 : BitVec 6) ≠ 63#6)
    (hserv : (s.int.cfg (bits w 0 6 : BitVec 6).toNat).serv = some (lineTarget x, p)) :
    s.complete x w = s.modInt fun c => c.setCfg (bits w 0 6 : BitVec 6).toNat fun q => { q with serv := none } := by
  have hn := toNat_ignored_iff.not.2 (not_or.2 ⟨h0, h63⟩)
  simp [State.complete, hn, hserv]

/-- A completion of a source not in service at the target is counted (R410). -/
theorem State.complete_bad (h0 : (bits w 0 6 : BitVec 6) ≠ 0#6) (h63 : (bits w 0 6 : BitVec 6) ≠ 63#6)
    (hserv : ∀ q, (s.int.cfg (bits w 0 6 : BitVec 6).toNat).serv ≠ some (lineTarget x, q)) :
    s.complete x w = s.modInt fun c => { c with badcomp := satInc c.badcomp } := by
  have hn := toNat_ignored_iff.not.2 (not_or.2 ⟨h0, h63⟩)
  cases hs : (s.int.cfg (bits w 0 6 : BitVec 6).toNat).serv with
  | none => simp [State.complete, hn, hs]
  | some r =>
    obtain ⟨y, q⟩ := r
    have hy : y ≠ lineTarget x := fun e => hserv q (e ▸ hs)
    simp [State.complete, hn, hs, hy]

/-- A completion of 0 or 63 is ignored (R410). -/
theorem State.complete_ignored (h : (bits w 0 6 : BitVec 6) = 0#6 ∨ (bits w 0 6 : BitVec 6) = 63#6) : s.complete x w = s :=
  if_pos (toNat_ignored_iff.2 h)

/-- A completion is of the source that bits [5:0] name (R410). -/
theorem State.complete_congr {v : Word} (h : (bits w 0 6 : BitVec 6) = bits v 0 6) : s.complete x w = s.complete x v := by
  simp only [State.complete, h]

/-! ### The accesses -/

/-- No gate and no domain stands between the bus and a claim register (R393). -/
theorem State.resolve_claimReg (s : State) (x : HostTarget) : s.resolve (claimReg x).val = .executed := by
  cases x <;> rfl

theorem exec_intClaim (h : s.Reaches (claimReg x).val) :
    exec (.intClaim x) s = .next (State.arbitrate s (State.finishRead (s.claim x))) := by
  cases x
  case t0 => exact congrArg (answer s) (State.hostRead_reaches (i := 16) h)
  case t1 => exact congrArg (answer s) (State.hostRead_reaches (i := 17) h)

theorem exec_intComplete (h : s.Reaches (claimReg x).val) (w : Word) :
    exec (.intComplete x w) s = .next (State.arbitrate s (s.complete x w).finishWrite) := by
  cases x
  case t0 => exact congrArg (answer s) (State.hostWrite_reaches (i := 16) h w)
  case t1 => exact congrArg (answer s) (State.hostWrite_reaches (i := 17) h w)

theorem exec_intStatsClear (h : s.Reaches 23) :
    exec .intStatsClear s = .next (State.arbitrate s s.clearStats.finishWrite) :=
  congrArg (answer s) (State.hostWrite_reaches (i := 23) h 0#32)

/-- A write of a claim register is a completion wherever LK runs, and else no access (R409, R460). -/
theorem State.hostWrite_claimReg (s : State) (x : HostTarget) (w : Word) :
    s.hostWrite (claimReg x) w = if s.hasLk then (s.withdraw.complete x w).finishWrite else s.noAccess := by
  simp only [State.hostWrite, State.hostWriteBusy, State.busWrite, State.writeNow, State.resolve_claimReg]
  cases x <;> rfl

/-- Bits [31:6] of a completion do not count, whether the access is made or not (R410). -/
theorem exec_intComplete_congr {v : Word} (h : (bits w 0 6 : BitVec 6) = bits v 0 6) :
    exec (.intComplete x w) s = exec (.intComplete x v) s := by
  refine congrArg (answer s) (?_ : s.hostWrite (claimReg x) w = s.hostWrite (claimReg x) v)
  rw [State.hostWrite_claimReg, State.hostWrite_claimReg, State.complete_congr h]

end

/-- Settles O32: each access is its own claim or completion (exec_intClaim and its companions), and each clause is the one case of
State.claim, State.lateClaim or State.complete that its hypotheses choose; arbitration, which follows, moves the lines and no
source. That a line follows its command at once, and which of its two values a late claim returns, are the model's own readings
(log entry 64). -/
theorem claimsAndCompletionsComplete : Obligations.ClaimsAndCompletionsComplete := by
  unfold Obligations.ClaimsAndCompletionsComplete
  refine ⟨fun s x h => ⟨?claim, ?nothing, ?high, fun g hline hgone hwithin => ⟨?masked, ?withdrawn⟩⟩,
    fun s x w p h h0 h63 => ⟨?served, ?bad⟩, ?ignored, ?highBits, ?stats⟩
  case claim =>
    intro n hline hp
    have hn := State.presented_lt hp
    refine ⟨_, exec_intClaim h, ?_⟩
    rw [State.claim_presented hline hp]
    refine ⟨?_, ?_, fun m hm => ?_, ?_, ?_⟩
    · simp [claimWord]
    · simp [State.serve, hn]
    · simp [State.serve, hm]
    · simp [State.serve]
    · simp [Same]
  case nothing =>
    intro hline hp
    refine ⟨_, exec_intClaim h, ?_⟩
    rw [State.claim_nothing hline hp]
    simp [Same]
  case high =>
    intro hline hgone
    obtain ⟨t, hclaim, rfl | rfl⟩ := State.claim_high hline hgone
    · exact ⟨_, exec_intClaim h, by simp [hclaim, Same]⟩
    · exact ⟨_, exec_intClaim h, by simp [hclaim, Same]⟩
  case masked =>
    intro hm
    refine ⟨_, exec_intClaim h, ?_, by simp [Same]⟩
    rw [State.claim_late hline hgone hwithin]
    simpa [claimWord] using State.lateClaim_masked (s := s.modInt fun c => c.dropGone x) (x := x) hm
  case withdrawn =>
    intro hm
    refine ⟨_, exec_intClaim h, ?_⟩
    have hlate := State.lateClaim_withdrawn (s := s.modInt fun c => c.dropGone x) (x := x) hm
    rw [State.claim_late hline hgone hwithin]
    simpa [Same] using hlate
  case served =>
    intro hserv
    have hn := Intc.lt_of_serv hserv
    refine ⟨_, exec_intComplete h w, ?_⟩
    rw [State.complete_served h0 h63 hserv]
    refine ⟨?_, fun m hm => ?_, ?_, ?_⟩
    · simp [hn]
    · simp [hm]
    · simp
    · simp [Same]
  case bad =>
    intro hserv
    refine ⟨_, exec_intComplete h w, ?_⟩
    rw [State.complete_bad h0 h63 hserv]
    simp [Same]
  case ignored =>
    intro s x w h hw
    exact ⟨_, exec_intComplete h w, by simp [State.complete_ignored hw, Same]⟩
  case highBits =>
    intro s x w v hv
    exact exec_intComplete_congr hv
  case stats =>
    intro s h
    exact ⟨_, exec_intStatsClear h, by simp [State.clearStats, Same]⟩

end Sys2Proof.Machine
end

section
/-!
PROOFS. The block as a whole: the step, the reset state, and why the store invariant does not survive a reset.
-/

namespace Sys2Proof.Machine

open Sys2Proof

/-- Settles O1: by the definition of a step on a queue that is not empty. -/
theorem stepRunsTheFrontCommand : Obligations.StepRunsTheFrontCommand := by
  unfold Obligations.StepRunsTheFrontCommand
  intro c s
  rfl

/-- Settles O58: the reset state is a closed term, and its empty stores and queues meet each conjunct. -/
theorem resetMeetsTheInvariants : Obligations.ResetMeetsTheInvariants := by
  unfold Obligations.ResetMeetsTheInvariants
  refine ⟨?ports, ?stores⟩
  case ports => unfold State.PortsOk; decide
  case stores => unfold State.StoresOk; decide

/-- A reset state whose internal store holds calibration cells out of order: StoresOk says nothing of that store. -/
def State.unsortedCalStore : State :=
  { State.reset with
    pending := [.powerOn 0#2]
    mgmt := { calStore := { newest := [(1, 0#32), (0, 0#32)] } } }

/-- The calibration values that a reset takes from the internal store (R560). -/
theorem State.releaseReset_calAct (s : State) (lspd : BitVec 2) (cause : BitVec 16) (src : BitVec 8) :
    (s.releaseReset lspd cause src).mgmt.calAct = s.mgmt.calStore.newest := rfl

/-- Refutes O60: StoresOk does not bind the copy of the calibration values in the internal store, and a reset makes that copy the
active one. -/
theorem not_stepKeepsStoresOk : ¬ Obligations.StepKeepsStoresOk := by
  unfold Obligations.StepKeepsStoresOk
  intro h
  have hok : State.unsortedCalStore.StoresOk := by unfold State.StoresOk; decide
  obtain ⟨-, -, -, -, hcal, -⟩ := h _ _ hok rfl
  simp [State.wakeLog, State.releaseReset_calAct, State.unsortedCalStore, Mem.wfBy, Mem.above] at hcal

end Sys2Proof.Machine
end

section
/-!
PROOFS. The port invariant (R54, R497, R500, R555) and every command's completion.
-/

namespace Sys2Proof.Machine

open Sys2Proof

/-- What PortsOk says of the link part: the address and ASSIGNED agree (R497). -/
def Link.Ok (x : Link) : Prop := x.assigned = (x.addr != 31#5)

/-- What PortsOk says of the port: a grant stands only while HOST_TAKE is 1 (R500), both flashes are in canonical form. -/
def Mport.Ok (x : Mport) : Prop :=
  (x.granted = true → x.take = true) ∧ flashWf x.flash = true ∧ flashWf x.flashB = true

theorem State.portsOk_iff {s : State} : s.PortsOk ↔ s.link.Ok ∧ s.clk.htSub < 6000 ∧ s.mport.Ok := by
  simp only [State.PortsOk, Link.Ok, Mport.Ok]
  tauto

@[simp] theorem State.portsOk_ite {c : Prop} [Decidable c] {a b : State} :
    (if c then a else b).PortsOk ↔ if c then a.PortsOk else b.PortsOk := by split <;> rfl

/-! ### The link address -/

@[simp] theorem Link.ok_assign (x : Link) (a : BitVec 5) : (x.assign a).Ok := by
  simp [Link.Ok, Link.assign]

/-! ### The flash contents -/

@[simp] theorem Mport.ok_applySeq {x : Mport} (h : x.Ok) (q : PortSeq) : (x.applySeq q).Ok := by
  obtain ⟨hg, ha, hb⟩ := h
  cases q with
  | program d a bs =>
    cases d
    · exact ⟨hg, flashWf_program bs a ha, hb⟩
    · exact ⟨hg, ha, flashWf_program bs a hb⟩
  | erase d a n =>
    cases d
    · exact ⟨hg, flashWf_erase ha, hb⟩
    · exact ⟨hg, ha, flashWf_erase hb⟩

@[simp] theorem Mport.ok_applySeqs {x : Mport} (h : x.Ok) (qs : List PortSeq) : (qs.foldl Mport.applySeq x).Ok :=
  foldl_keeps Mport.Ok (fun _ q hx => Mport.ok_applySeq hx q) qs h

@[simp] theorem Mport.ok_endSeq {x : Mport} (h : x.Ok) : x.endSeq.Ok := by
  unfold Mport.endSeq
  split
  · exact h
  · split
    · exact h
    · exact Mport.ok_applySeq h _

/-- A period of HT has at most 6000 SM ticks (R54, R617). -/
theorem State.htPeriod_le (s : State) : s.htPeriod ≤ 6000 := by
  unfold State.htPeriod
  (repeat' split) <;> omega

/-- A flash that a timeout cut short is still in canonical form. -/
theorem State.ok_cutFlash (s : State) {x : Mport} (h : x.Ok) : (s.cutFlash x).Ok := by
  obtain ⟨hg, ha, hb⟩ := h
  have hcut {m : List Host.Cell} (a n : Nat) (hm : flashWf m = true) :
      flashWf ((List.range n).foldl
        (fun m i => flashPut m (a + i) (flashGet m (a + i) ||| Config.flashByte s.fresh i)) m) = true :=
    foldl_keeps (fun m => flashWf m = true) (fun _ _ hm => flashWf_put _ _ hm) _ hm
  unfold State.cutFlash
  split
  · exact ⟨hg, ha, hb⟩
  · split
    · exact ⟨hg, ha, hb⟩
    · exact Mport.ok_applySeq ⟨hg, ha, hb⟩ _
    · dsimp only
      split
      · exact ⟨hg, ha, hcut _ _ hb⟩
      · exact ⟨hg, hcut _ _ ha, hb⟩

namespace Ports

/-- Every part of the state but the three that PortsOk speaks of. -/
def rest : List Part :=
  [.harrow, .arr, .therm, .aux, .recog, .cap, .scar, .spec, .smc, .buf, .int, .pwr, .host, .mgmt, .fresh]

@[simp] theorem mem_rest {p : Part} : p ∈ rest ↔ p ≠ .clk ∧ p ≠ .link ∧ p ≠ .mport := by
  cases p <;> decide

theorem portsOk_mask {s : State} : (s.mask rest).PortsOk ↔ s.PortsOk := by
  simp [State.PortsOk, State.mask]

@[simp] theorem ports_modClk {s : State} {f : Clk → Clk} (hf : ∀ c, (f c).htSub = c.htSub) :
    ((s.modClk f).mask rest).PortsOk ↔ (s.mask rest).PortsOk := by
  rw [portsOk_mask, portsOk_mask]
  simp [State.PortsOk, hf]

theorem ports_modClk_of_lt {s : State} {f : Clk → Clk} (hs : (s.mask rest).PortsOk) (hf : (f s.clk).htSub < 6000) :
    ((s.modClk f).mask rest).PortsOk := by
  rw [portsOk_mask, State.portsOk_iff] at *
  exact ⟨hs.1, hf, hs.2.2⟩

theorem ports_modLink_of_ok {s : State} {f : Link → Link} (hs : (s.mask rest).PortsOk) (hf : s.link.Ok → (f s.link).Ok) :
    ((s.modLink f).mask rest).PortsOk := by
  rw [portsOk_mask, State.portsOk_iff] at *
  exact ⟨hf hs.1, hs.2⟩

@[simp] theorem ports_modLink {s : State} {f : Link → Link} (hf : ∀ x, (f x).addr = x.addr)
    (hg : ∀ x, (f x).assigned = x.assigned) : ((s.modLink f).mask rest).PortsOk ↔ (s.mask rest).PortsOk := by
  rw [portsOk_mask, portsOk_mask]
  simp [State.PortsOk, hf, hg]

theorem ports_modMport_of_ok {s : State} {f : Mport → Mport} (hs : (s.mask rest).PortsOk) (hf : s.mport.Ok → (f s.mport).Ok) :
    ((s.modMport f).mask rest).PortsOk := by
  rw [portsOk_mask, State.portsOk_iff] at *
  exact ⟨hs.1, hs.2.1, hf hs.2.2⟩

@[simp] theorem ports_modMport {s : State} {f : Mport → Mport}
    (hg : ∀ x, (f x).granted = x.granted) (ht : ∀ x, (f x).take = x.take)
    (ha : ∀ x, (f x).flash = x.flash) (hb : ∀ x, (f x).flashB = x.flashB) :
    ((s.modMport f).mask rest).PortsOk ↔ (s.mask rest).PortsOk := by
  rw [portsOk_mask, portsOk_mask]
  simp [State.PortsOk, hg, ht, ha, hb]

theorem ports_foldUpto {f : State → Nat → State} {s : State} (hs : (s.mask rest).PortsOk)
    (h : ∀ t k, (t.mask rest).PortsOk → ((f t k).mask rest).PortsOk) (n : Nat) : ((foldUpto f s n).mask rest).PortsOk := by
  induction n with
  | zero => exact hs
  | succ n ih => exact h _ _ ih

@[simp] theorem ports_markQuality (s t : State) :
    ((State.markQuality s t).mask rest).PortsOk ↔ (t.mask rest).PortsOk := by
  simp [State.markQuality]

@[simp] theorem ports_relockPllE (s : State) : ((State.relockPllE s).mask rest).PortsOk ↔ (s.mask rest).PortsOk := by
  simp [State.relockPllE]

@[simp] theorem ports_startChange (s : State) : ((State.startChange s).mask rest).PortsOk ↔ (s.mask rest).PortsOk := by
  simp [State.startChange]

@[simp] theorem ports_endChange (s : State) : ((State.endChange s).mask rest).PortsOk ↔ (s.mask rest).PortsOk := by
  simp [State.endChange]

@[simp] theorem ports_leaveHold (s : State) : ((State.leaveHold s).mask rest).PortsOk ↔ (s.mask rest).PortsOk := by
  simp [State.leaveHold]

@[simp] theorem ports_reachGoal (s : State) : ((State.reachGoal s).mask rest).PortsOk ↔ (s.mask rest).PortsOk := by
  simp [State.reachGoal]

@[simp] theorem ports_writeDvfs (w : Word) (s : State) :
    ((State.writeDvfs w s).mask rest).PortsOk ↔ (s.mask rest).PortsOk := by
  simp [State.writeDvfs]

@[simp] theorem ports_lockPllM (s : State) : ((State.lockPllM s).mask rest).PortsOk ↔ (s.mask rest).PortsOk := by
  simp [State.lockPllM]

@[simp] theorem ports_enterCoast (s : State) : ((State.enterCoast s).mask rest).PortsOk ↔ (s.mask rest).PortsOk := by
  simp [State.enterCoast]

@[simp] theorem ports_shiftPaths (d : Tick) (s : State) :
    ((State.shiftPaths d s).mask rest).PortsOk ↔ (s.mask rest).PortsOk := by
  simp [State.shiftPaths]

@[simp] theorem ports_shiftTimers (d : Tick) (s : State) :
    ((State.shiftTimers d s).mask rest).PortsOk ↔ (s.mask rest).PortsOk := by
  simp [State.shiftTimers]

@[simp] theorem ports_takeEpoch (e : Tick) (s : State) :
    ((State.takeEpoch e s).mask rest).PortsOk ↔ (s.mask rest).PortsOk := by
  simp [State.takeEpoch]

@[simp] theorem ports_loadEpoch (e : Tick) (s : State) :
    ((State.loadEpoch e s).mask rest).PortsOk ↔ (s.mask rest).PortsOk := by
  simp [State.loadEpoch]

@[simp] theorem ports_writeTsync (w : Word) (s : State) :
    ((State.writeTsync w s).mask rest).PortsOk ↔ (s.mask rest).PortsOk := by
  simp [State.writeTsync]

@[simp] theorem ports_writeClkStat (w : Word) (s : State) :
    ((State.writeClkStat w s).mask rest).PortsOk ↔ (s.mask rest).PortsOk := by
  simp [State.writeClkStat]

@[simp] theorem ports_parkFrame (s : State) : ((State.parkFrame s).mask rest).PortsOk ↔ (s.mask rest).PortsOk := by
  simp [State.parkFrame]

@[simp] theorem ports_enterPark (s : State) : ((State.enterPark s).mask rest).PortsOk ↔ (s.mask rest).PortsOk := by
  simp [State.enterPark]

@[simp] theorem ports_endPark (s : State) : ((State.endPark s).mask rest).PortsOk ↔ (s.mask rest).PortsOk := by
  simp [State.endPark]

@[simp] theorem ports_endSeq (s : State) (hs : (s.mask rest).PortsOk) : ((State.endSeq s).mask rest).PortsOk := by
  have ht := ports_modMport_of_ok (f := fun x => { x.endSeq with single := if x.waiting then x.single else none }) hs
    fun h => Mport.ok_endSeq h
  unfold State.endSeq
  dsimp only
  split <;> simp [ht]

@[simp] theorem ports_startSeq (q : PortSeq) (s : State) (hs : (s.mask rest).PortsOk) :
    ((State.startSeq q s).mask rest).PortsOk := by
  simp [State.startSeq, hs]

@[simp] theorem ports_runSeq (q : PortSeq) (ends : Bool) (s : State) (hs : (s.mask rest).PortsOk) :
    ((State.runSeq q ends s).mask rest).PortsOk := by
  simp [State.runSeq, hs]

@[simp] theorem ports_flashWork (qs : List PortSeq) (s : State) (hs : (s.mask rest).PortsOk) :
    ((State.flashWork qs s).mask rest).PortsOk := by 
  exact ports_modMport_of_ok (ports_endSeq s hs) fun h => Mport.ok_applySeqs h qs

@[simp] theorem ports_storeWork (s : State) (hs : (s.mask rest).PortsOk) : ((State.storeWork s).mask rest).PortsOk := by
  simp [State.storeWork, hs]

@[simp] theorem ports_flashReads (as_ : List Nat) (s : State) (hs : (s.mask rest).PortsOk) :
    ((State.flashReads as_ s).mask rest).PortsOk := by
  simp [State.flashReads, hs]

@[simp] theorem ports_programControl (b : Bool) (before after : Slot) (s : State) (hs : (s.mask rest).PortsOk) :
    ((State.programControl b before after s).mask rest).PortsOk := by
  simp [State.programControl, hs]

@[simp] theorem ports_mcLeaves (s : State) : ((State.mcLeaves s).mask rest).PortsOk ↔ (s.mask rest).PortsOk := by
  simp [State.mcLeaves]

@[simp] theorem ports_mcOff (s : State) : ((State.mcOff s).mask rest).PortsOk ↔ (s.mask rest).PortsOk := by
  simp [State.mcOff]

@[simp] theorem ports_enOff (s : State) : ((State.enOff s).mask rest).PortsOk ↔ (s.mask rest).PortsOk := by
  simp [State.enOff]

@[simp] theorem ports_loses (d : Dom) (s : State) (hs : (s.mask rest).PortsOk) :
    ((State.loses d s).mask rest).PortsOk := by
  unfold State.loses
  (repeat' split) <;> simp [hs]

@[simp] theorem ports_leaves (d : Dom) (s : State) : ((State.leaves d s).mask rest).PortsOk ↔ (s.mask rest).PortsOk := by
  unfold State.leaves
  dsimp only
  (repeat' split) <;> simp

@[simp] theorem ports_startStop (d : Dom) (goal : Rest) (s : State) :
    ((State.startStop d goal s).mask rest).PortsOk ↔ (s.mask rest).PortsOk := by
  simp [State.startStop]

@[simp] theorem ports_arrives (d : Dom) (fromRet : Bool) (s : State) :
    ((State.arrives d fromRet s).mask rest).PortsOk ↔ (s.mask rest).PortsOk := by
  unfold State.arrives
  dsimp only
  (repeat' split) <;> simp

@[simp] theorem ports_startWake (d : Dom) (goal : Rest) (demand : Bool) (s : State) :
    ((State.startWake d goal demand s).mask rest).PortsOk ↔ (s.mask rest).PortsOk := by
  simp [State.startWake]

@[simp] theorem ports_failOne (d : Dom) (s : State) (hs : (s.mask rest).PortsOk) :
    ((State.failOne d s).mask rest).PortsOk := by
  simp [State.failOne, hs]

@[simp] theorem ports_fail (d : Dom) (s : State) (hs : (s.mask rest).PortsOk) :
    ((State.fail d s).mask rest).PortsOk := by
  unfold State.fail
  extract_lets t u v
  have ht : (t.mask rest).PortsOk := ports_failOne d s hs
  have hu : (u.mask rest).PortsOk := by unfold u; split <;> simp [ht]
  have hv : (v.mask rest).PortsOk := by unfold v; split <;> simp [hu]
  (repeat' split) <;> simp [ht, hv]

@[simp] theorem ports_tryStop (d : Dom) (goal : Rest) (s : State) :
    ((State.tryStop d goal s).1.mask rest).PortsOk ↔ (s.mask rest).PortsOk := by
  unfold State.tryStop
  dsimp only
  (repeat' split) <;> simp

@[simp] theorem ports_decideOne (write idle : Bool) (d : Dom) (s : State) :
    ((State.decideOne write idle d s).1.mask rest).PortsOk ↔ (s.mask rest).PortsOk := by
  unfold State.decideOne
  dsimp only
  (repeat' split) <;> simp

@[simp] theorem ports_decideAll (write : Bool) (x0 : List Dom) (s : State) (hs : (s.mask rest).PortsOk) :
    ((State.decideAll write x0 s).1.mask rest).PortsOk := by
  induction x0 generalizing s with
  | nil => exact hs
  | cons d ds ih => exact ih _ ((ports_decideOne write false d s).2 hs)

@[simp] theorem ports_process (write : Bool) (start : Nat) (s : State) (hs : (s.mask rest).PortsOk) :
    ((State.process write start s).mask rest).PortsOk := by
  unfold State.process
  dsimp only
  (repeat' split) <;> simp [hs]

@[simp] theorem ports_takeUp (d : Dom) (s : State) : ((State.takeUp d s).mask rest).PortsOk ↔ (s.mask rest).PortsOk := by
  simp [State.takeUp]

@[simp] theorem ports_resume (s : State) (hs : (s.mask rest).PortsOk) : ((State.resume s).mask rest).PortsOk := by
  unfold State.resume
  dsimp only
  refine foldl_keeps (fun t => (t.mask rest).PortsOk) (fun t d ht => (ports_decideOne false true d t).2 ht) _ ?_
  (repeat' split) <;> simp [hs]

@[simp] theorem ports_closeBuffer (s : State) (hs : (s.mask rest).PortsOk) :
    ((State.closeBuffer s).mask rest).PortsOk := by
  unfold State.closeBuffer
  (repeat' split) <;> simp [hs]

@[simp] theorem ports_portDone (s : State) (hs : (s.mask rest).PortsOk) : ((State.portDone s).mask rest).PortsOk := by
  simp [State.portDone, hs]

@[simp] theorem ports_writeClken (w : Word) (busy : BitVec 12) (s : State) (hs : (s.mask rest).PortsOk) :
    ((State.writeClken w busy s).mask rest).PortsOk := by
  unfold State.writeClken
  dsimp only
  refine ports_foldUpto ?_ (fun t k ht => by split <;> simp [ht]) _
  rw [State.mask_settleGates] <;> try simp
  exact ports_foldUpto (by simp [hs]) (fun t k ht => by split <;> simp [ht]) _

@[simp] theorem ports_writeLinkCfg (w : Word) (s : State) (hs : (s.mask rest).PortsOk) :
    ((State.writeLinkCfg w s).mask rest).PortsOk := by
  refine ports_modLink_of_ok hs fun h => ?_
  split
  · exact Link.ok_assign _ _
  · exact h

@[simp] theorem ports_writeLinkStat (w : Word) (s : State) :
    ((State.writeLinkStat w s).mask rest).PortsOk ↔ (s.mask rest).PortsOk := by
  simp [State.writeLinkStat]

@[simp] theorem ports_linkError (code : BitVec 4) (s : State) :
    ((State.linkError code s).mask rest).PortsOk ↔ (s.mask rest).PortsOk := by
  simp [State.linkError]

@[simp] theorem ports_writeMportCtrl (w : Word) (s : State) (hs : (s.mask rest).PortsOk) :
    ((State.writeMportCtrl w s).mask rest).PortsOk := by
  unfold State.writeMportCtrl
  extract_lets gives t u
  have ht : (t.mask rest).PortsOk := by
    refine ports_modMport_of_ok hs fun ⟨hg, ha, hb⟩ => ?_
    dsimp only
    split
    · exact ⟨nofun, ha, hb⟩
    case isFalse h => exact ⟨fun hg' => by simpa [gives, show s.mport.granted = true from hg'] using h, ha, hb⟩
  have hu : (u.mask rest).PortsOk := by unfold u; split <;> simp [ht]
  split <;> simp [hu]

@[simp] theorem ports_writeMportStat (w : Word) (s : State) :
    ((State.writeMportStat w s).mask rest).PortsOk ↔ (s.mask rest).PortsOk := by
  simp [State.writeMportStat]

@[simp] theorem ports_clkenFlies (w : Word) (busy : BitVec 12) (s : State) (hs : (s.mask rest).PortsOk) :
    ((State.clkenFlies w busy s).mask rest).PortsOk := by
  simp [State.clkenFlies, hs]

@[simp] theorem ports_writeReg (i : Nat) (w : Word) (busy : BitVec 12) (s : State) (hs : (s.mask rest).PortsOk) :
    ((State.writeReg i w busy s).mask rest).PortsOk := by
  unfold State.writeReg
  (repeat' split) <;> simp [hs]

@[simp] theorem ports_writeAs (p : Path462) (i : Nat) (w : Word) (busy : BitVec 12) (s : State) (hs : (s.mask rest).PortsOk) :
    ((State.writeAs p i w busy s).mask rest).PortsOk := by
  unfold State.writeAs
  (repeat' split) <;> simp [hs]

@[simp] theorem ports_writeNow (i : Nat) (w : Word) (busy : BitVec 12) (s : State) (hs : (s.mask rest).PortsOk) :
    ((State.writeNow i w busy s).mask rest).PortsOk := by
  simp [State.writeNow, hs]

@[simp] theorem ports_busWrite (i : Fin 64) (w : Word) (busy : BitVec 12) (s : State) (hs : (s.mask rest).PortsOk) :
    ((State.busWrite i w busy s).mask rest).PortsOk := by
  unfold State.busWrite
  (repeat' split) <;> simp [hs]

@[simp] theorem ports_hostWriteBusy (i : Fin 64) (w : Word) (busy : BitVec 12) (s : State) (hs : (s.mask rest).PortsOk) :
    ((State.hostWriteBusy i w busy s).mask rest).PortsOk := by
  simp [State.hostWriteBusy, hs]

@[simp] theorem ports_hostWrite (i : Fin 64) (w : Word) (s : State) (hs : (s.mask rest).PortsOk) :
    ((State.hostWrite i w s).mask rest).PortsOk := by
  simp [State.hostWrite, hs]

@[simp] theorem ports_endFlight (gates : List Nat) (s : State) :
    ((State.endFlight gates s).mask rest).PortsOk ↔ (s.mask rest).PortsOk := by
  simp [State.endFlight]

@[simp] theorem ports_forceGates (gates : List Nat) (s : State) :
    ((State.forceGates gates s).mask rest).PortsOk ↔ (s.mask rest).PortsOk := by
  simp [State.forceGates]

@[simp] theorem ports_tickItem (s : State) : ((State.tickItem s).mask rest).PortsOk ↔ (s.mask rest).PortsOk := by
  unfold State.tickItem
  dsimp only
  (repeat' split) <;> simp

@[simp] theorem ports_endStalled (d : Dom) (s : State) (hs : (s.mask rest).PortsOk) :
    ((State.endStalled d s).mask rest).PortsOk := by
  unfold State.endStalled
  dsimp only
  (repeat' split) <;> simp [*]

@[simp] theorem ports_flashError (s : State) : ((State.flashError s).mask rest).PortsOk ↔ (s.mask rest).PortsOk := by
  simp [State.flashError]

@[simp] theorem ports_putRec (r : LogRec) (s : State) (hs : (s.mask rest).PortsOk) :
    ((State.putRec r s).mask rest).PortsOk := by
  simp [State.putRec, hs]

@[simp] theorem ports_writeLog (s : State) (hs : (s.mask rest).PortsOk) : ((State.writeLog s).mask rest).PortsOk := by
  unfold State.writeLog
  (repeat' split) <;> simp [hs]

@[simp] theorem ports_drainLog (x0 : Nat) (s : State) (hs : (s.mask rest).PortsOk) :
    ((State.drainLog x0 s).mask rest).PortsOk := by
  induction x0 generalizing s with
  | zero => exact hs
  | succ n ih => exact ih _ (ports_writeLog s hs)

@[simp] theorem ports_restoreOne (k : Nat) (w : Word) (s : State) (hs : (s.mask rest).PortsOk) :
    ((State.restoreOne k w s).mask rest).PortsOk := by
  simp [State.restoreOne, hs]

@[simp] theorem ports_restoreRun (flies : Bool) (x0 : List (Nat × Word)) (s : State) (hs : (s.mask rest).PortsOk) :
    ((State.restoreRun flies x0 s).mask rest).PortsOk := by
  induction x0 generalizing s flies with
  | nil => simp [State.restoreRun, hs]
  | cons e r ih =>
    obtain ⟨k, w⟩ := e
    unfold State.restoreRun
    dsimp only
    (repeat' split) <;> simp [hs, ih]

@[simp] theorem ports_restoreFrom (flies : Bool) (s : State) (hs : (s.mask rest).PortsOk) :
    ((State.restoreFrom flies s).mask rest).PortsOk := by
  simp [State.restoreFrom, hs]

@[simp] theorem ports_restoreOn (s : State) (hs : (s.mask rest).PortsOk) : ((State.restoreOn s).mask rest).PortsOk := by
  simp [State.restoreOn, hs]

@[simp] theorem ports_restoreStart (l : List (Nat × Word)) (s : State) (hs : (s.mask rest).PortsOk) :
    ((State.restoreStart l s).mask rest).PortsOk := by
  simp [State.restoreStart, hs]

@[simp] theorem ports_stageFrom (flies : Bool) (s : State) (hs : (s.mask rest).PortsOk) :
    ((State.stageFrom flies s).mask rest).PortsOk := by
  unfold State.stageFrom
  dsimp only
  split
  · exact hs
  · split
    · exact foldl_keeps (fun t : State => (t.mask rest).PortsOk) (fun t k ht => by simpa using ht) _ hs
    · split <;> simp [hs]

@[simp] theorem ports_stageOn (s : State) (hs : (s.mask rest).PortsOk) : ((State.stageOn s).mask rest).PortsOk := by
  simp [State.stageOn, hs]

@[simp] theorem ports_spillStops (addr : Word) (s : State) :
    ((State.spillStops addr s).mask rest).PortsOk ↔ (s.mask rest).PortsOk := by
  simp [State.spillStops]

@[simp] theorem ports_autoStops (addr : Word) (s : State) :
    ((State.autoStops addr s).mask rest).PortsOk ↔ (s.mask rest).PortsOk := by
  simp [State.autoStops]

@[simp] theorem ports_spillEnds (s : State) : ((State.spillEnds s).mask rest).PortsOk ↔ (s.mask rest).PortsOk := by
  unfold State.spillEnds
  dsimp only
  (repeat' split) <;> simp

@[simp] theorem ports_learn (b : Bool) (f : ImageFound) (s : State) (hs : (s.mask rest).PortsOk) :
    ((State.learn b f s).mask rest).PortsOk := by
  unfold State.learn
  split
  · exact hs
  · rw [State.mask_modMgmt (by simp)]
    exact ports_modMport_of_ok hs fun ⟨hg, ha, hb⟩ => ⟨hg, flashWf_program _ _ (flashWf_erase ha), hb⟩

@[simp] theorem ports_cmdArm (found : ImageFound) (s : State) (hs : (s.mask rest).PortsOk) :
    ((State.cmdArm found s).1.mask rest).PortsOk := by
  unfold State.cmdArm
  dsimp only
  (repeat' split) <;> simp [hs]

@[simp] theorem ports_restartMc (s : State) (hs : (s.mask rest).PortsOk) : ((State.restartMc s).mask rest).PortsOk := by
  simp [State.restartMc, hs]

@[simp] theorem ports_commitUpdate (s : State) (hs : (s.mask rest).PortsOk) :
    ((State.commitUpdate s).mask rest).PortsOk := by
  have h : ((State.drainLog 17 s).endSeq.mask rest).PortsOk := ports_endSeq _ (ports_drainLog _ _ hs)
  unfold State.commitUpdate
  simp [h]

@[simp] theorem ports_cmdLock (s : State) : ((State.cmdLock s).1.mask rest).PortsOk ↔ (s.mask rest).PortsOk := by
  unfold State.cmdLock
  dsimp only
  (repeat' split) <;> simp

@[simp] theorem ports_gather (a : Nat) (b : BitVec 8) (s : State) (hs : (s.mask rest).PortsOk) :
    ((State.gather a b s).mask rest).PortsOk := by
  unfold State.gather
  dsimp only
  (repeat' split) <;> simp [*]

@[simp] theorem ports_gatherAll (x0 : Nat) (x1 : List (BitVec 8)) (s : State) (hs : (s.mask rest).PortsOk) :
    ((State.gatherAll x0 x1 s).mask rest).PortsOk := by
  induction x1 generalizing s x0 with
  | nil => exact hs
  | cons b bs ih => exact ih _ _ (ports_gather x0 b s hs)

@[simp] theorem ports_bufferEnd (e : BufferEnd) (s : State) (hs : (s.mask rest).PortsOk) :
    ((State.bufferEnd e s).mask rest).PortsOk := by
  simp [State.bufferEnd, hs]

@[simp] theorem ports_coreProgram (addr : Nat) (bytes : List (BitVec 8)) (e : BufferEnd)
    (s : State) (hs : (s.mask rest).PortsOk) :
    ((State.coreProgram addr bytes e s).mask rest).PortsOk := by
  simp [State.coreProgram, hs]

@[simp] theorem ports_checkSlots (a b : ImageFound) (s : State) (hs : (s.mask rest).PortsOk) :
    ((State.checkSlots a b s).mask rest).PortsOk := by
  simp [State.checkSlots, hs]

@[simp] theorem ports_rescued (s : State) (hs : (s.mask rest).PortsOk) : ((State.rescued s).mask rest).PortsOk := by
  unfold State.rescued
  dsimp only
  have hput : ∀ t : State, (t.mask rest).PortsOk →
      ((s.mgmt.rescue.newest.foldl (fun u r => State.putRec r u) t).mask rest).PortsOk := fun t ht =>
    foldl_keeps (fun t => (t.mask rest).PortsOk) (fun t r h => ports_putRec r t h) _ ht
  (repeat' split) <;> simp [*]

@[simp] theorem ports_startCore (slot : Bool) (flash1 : FlashFound) (copies : CopiesFound)
    (s : State) (hs : (s.mask rest).PortsOk) :
    ((State.startCore slot flash1 copies s).mask rest).PortsOk := by
  unfold State.startCore
  extract_lets t u v w x
  have hu : (u.mask rest).PortsOk := by simp [u, t, Mport.flash1Found, hs]
  have hv : (v.mask rest).PortsOk := by unfold v; split <;> simp [hu]
  have hw : (w.mask rest).PortsOk := by simp [w, hv]
  have hx : (x.mask rest).PortsOk := by simp [x, hw]
  (repeat' split) <;> simp [hx]

@[simp] theorem ports_chooseImage (a b : ImageFound) (s : State) (hs : (s.mask rest).PortsOk) :
    ((State.chooseImage a b s).1.mask rest).PortsOk := by
  have ht : ((s.checkSlots a b).mask rest).PortsOk := ports_checkSlots a b s hs
  unfold State.chooseImage
  dsimp only
  split <;> simp [ht]

@[simp] theorem ports_hostTs (a : Nat) (w : Word) (s : State) (hs : (s.mask rest).PortsOk) :
    ((State.hostTs a w s).mask rest).PortsOk := by
  exact ports_hostWrite _ _ _ (ports_hostWrite _ _ _ hs)

@[simp] theorem ports_hostTsRead (a : Nat) (s : State) (hs : (s.mask rest).PortsOk) :
    ((State.hostTsRead a s).mask rest).PortsOk := by
  simp [State.hostTsRead, hs]

@[simp] theorem ports_tickHt (s : State) (hs : (s.mask rest).PortsOk) : ((State.tickHt s).mask rest).PortsOk := by
  have ht : (s.tickHost.mask rest).PortsOk := by simp [State.tickHost, hs]
  unfold State.tickHt
  extract_lets u
  have hu : (u.mask rest).PortsOk := ports_modClk_of_lt ht (Nat.zero_lt_succ _)
  split
  · exact hu
  · rwa [State.mask_withFresh (by simp)]

@[simp] theorem ports_tickMss (n : Nat) (s : State) (hs : (s.mask rest).PortsOk) :
    ((State.tickMss n s).mask rest).PortsOk := by
  unfold State.tickMss
  refine ports_modMport_of_ok hs fun h => ?_
  (repeat' split) <;> exact h

@[simp] theorem ports_readLine (a : Nat) (s : State) (hs : (s.mask rest).PortsOk) :
    ((State.readLine a s).mask rest).PortsOk := by
  simp [State.readLine, hs]

@[simp] theorem ports_tickPort (s : State) (hs : (s.mask rest).PortsOk) : ((State.tickPort s).mask rest).PortsOk := by
  unfold State.tickPort
  lift_lets
  intro n t
  have e1 : (t.mask rest).PortsOk := by subst t; simp [*]
  clear_value n t
  intro u
  have e2 : (u.mask rest).PortsOk := by subst u; split <;> simp [*]
  clear_value u
  intro v
  have e3 : (v.mask rest).PortsOk := by subst v; (repeat' split) <;> simp [*]
  clear_value v
  intro w
  have e4 : (w.mask rest).PortsOk := by subst w; split <;> simp [*]
  clear_value w
  (repeat' split) <;> simp [*]

@[simp] theorem ports_tickClock (s : State) (hs : (s.mask rest).PortsOk) : ((State.tickClock s).mask rest).PortsOk := by
  have ht : ((s.modClk fun c => { c with tsc := c.tsc + 1#64 }).mask rest).PortsOk := by simp [hs]
  unfold State.tickClock
  dsimp only
  split
  case isTrue h => exact ports_modClk_of_lt ht (Nat.lt_of_lt_of_le h s.htPeriod_le)
  case isFalse =>
    have hu := ports_tickPort _ ((State.mask_tickRails (ps := rest) (by simp) (by simp) _).symm ▸ ports_tickHt _ ht)
    simp [hu]

@[simp] theorem ports_idle (s : State) (hs : (s.mask rest).PortsOk) : ((State.idle s).mask rest).PortsOk := by
  simp [State.idle, hs]

@[simp] theorem ports_logRead (r : Request) (s : State) (hs : (s.mask rest).PortsOk) :
    ((State.logRead r s).mask rest).PortsOk := by
  simp [State.logRead, hs]

@[simp] theorem ports_configRestore (s : State) (hs : (s.mask rest).PortsOk) :
    ((State.configRestore s).mask rest).PortsOk := by
  unfold State.configRestore
  (repeat' split) <;> simp [hs]

@[simp] theorem ports_updateStage (flashOk : Bool) (r : Request) (s : State) (hs : (s.mask rest).PortsOk) :
    ((State.updateStage flashOk r s).mask rest).PortsOk := by
  simp [State.updateStage, hs]

@[simp] theorem ports_captureSpill (flies flashOk : Bool) (k : Nat) (s : State) (hs : (s.mask rest).PortsOk) :
    ((State.captureSpill flies flashOk k s).mask rest).PortsOk := by
  simp [State.captureSpill, hs]

@[simp] theorem ports_takeSpill (flashOk : Bool) (r : Request) (s : State) (hs : (s.mask rest).PortsOk) :
    ((State.takeSpill flashOk r s).mask rest).PortsOk := by
  unfold State.takeSpill
  split <;> simp [hs]

@[simp] theorem ports_spillAuto (flies flashOk : Bool) (k : Nat) (s : State) (hs : (s.mask rest).PortsOk) :
    ((State.spillAuto flies flashOk k s).mask rest).PortsOk := by
  simp [State.spillAuto, hs]

@[simp] theorem ports_clearSource (n : Nat) (s : State) (hs : (s.mask rest).PortsOk) :
    ((State.clearSource n s).mask rest).PortsOk := by
  simp [State.clearSource, hs]

@[simp] theorem ports_serveT2 (n : Nat) (s : State) (hs : (s.mask rest).PortsOk) :
    ((State.serveT2 n s).mask rest).PortsOk := by
  simp [State.serveT2, hs]

@[simp] theorem ports_drive (l : List Word) (s : State) :
    ((State.drive l s).mask rest).PortsOk ↔ (s.mask rest).PortsOk := by
  simp [State.drive]

@[simp] theorem ports_newFrame (s : State) : ((State.newFrame s).mask rest).PortsOk ↔ (s.mask rest).PortsOk := by
  simp [State.newFrame]

@[simp] theorem ports_conflict (s : State) (hs : (s.mask rest).PortsOk) : ((State.conflict s).mask rest).PortsOk := by
  have h : ((s.modLink fun x => { x.assign 31#5 with locked := false, discEvt := true }).mask rest).PortsOk :=
    ports_modLink_of_ok hs fun _ => Link.ok_assign s.link 31#5
  unfold State.conflict
  simp [h]

@[simp] theorem ports_overrun (s : State) : ((State.overrun s).mask rest).PortsOk ↔ (s.mask rest).PortsOk := by
  simp [State.overrun]

@[simp] theorem ports_readBlock (flies : Bool) (index : BitVec 6) (single : Bool) (k : Nat) (x0 : Nat)
    (s : State) (hs : (s.mask rest).PortsOk) :
    ((State.readBlock flies index single k x0 s).2.mask rest).PortsOk := by
  induction x0 generalizing s k with
  | zero => exact hs
  | succ n ih =>
    unfold State.readBlock
    dsimp only
    apply ih
    split <;> simp [*]

@[simp] theorem ports_sendAfter (before : List Word) (n : Nat) (l : List Word) (bus : List Word)
    (s : State) (hs : (s.mask rest).PortsOk) :
    ((State.sendAfter before n l bus s).mask rest).PortsOk := by
  simp [State.sendAfter, hs]

@[simp] theorem ports_readReady (flies woke : Bool) (before : List Word) (busy : Nat) (index : BitVec 6) (count n : Nat) (bus : List Word)
    (s : State) (hs : (s.mask rest).PortsOk) :
    ((State.readReady flies woke before busy index count n bus s).mask rest).PortsOk := by
  unfold State.readReady
  dsimp only
  (repeat' split) <;> simp [*]

@[simp] theorem ports_linkRead (index : BitVec 6) (count : Nat) (words : Nat) (bus : List Word)
    (s : State) (hs : (s.mask rest).PortsOk) :
    ((State.linkRead index count words bus s).mask rest).PortsOk := by
  unfold State.linkRead
  dsimp only
  (repeat' split) <;> simp [*]

@[simp] theorem ports_endWait (s : State) (hs : (s.mask rest).PortsOk) : ((State.endWait s).mask rest).PortsOk := by
  unfold State.endWait
  dsimp only
  (repeat' split) <;> simp [*]

@[simp] theorem ports_applyWord (flies : Bool) (index : BitVec 6) (k : Nat) (w : Word)
    (s : State) (hs : (s.mask rest).PortsOk) :
    ((State.applyWord flies index k w s).mask rest).PortsOk := by
  simp [State.applyWord, hs]

@[simp] theorem ports_applyWords (flies : Bool) (index : BitVec 6) (k : Nat) (x0 : List Word)
    (s : State) (hs : (s.mask rest).PortsOk) :
    ((State.applyWords flies index k x0 s).mask rest).PortsOk := by
  induction x0 generalizing s k with
  | nil => exact hs
  | cons w ws ih => exact ih _ _ (ports_applyWord flies index k w s hs)

@[simp] theorem ports_writeStatus (own : Bool) (n : Nat) (l : List Word) (bus : List Word)
    (s : State) (hs : (s.mask rest).PortsOk) :
    ((State.writeStatus own n l bus s).mask rest).PortsOk := by
  simp [State.writeStatus, hs]

@[simp] theorem ports_linkWrite (own : Bool) (index : BitVec 6) (count : Nat) (words : List Word)
    (s : State) (hs : (s.mask rest).PortsOk) :
    ((State.linkWrite own index count words s).mask rest).PortsOk := by
  unfold State.linkWrite
  dsimp only
  (repeat' split) <;> simp [*]

@[simp] theorem ports_endStatus (f : Option Wait) (before : List Word) (w : Word) (s : State) (hs : (s.mask rest).PortsOk) :
    ((State.endStatus f before w s).mask rest).PortsOk := by
  unfold State.endStatus
  (repeat' split) <;> simp [hs]

@[simp] theorem ports_endPosted (p : Posted) (s : State) (hs : (s.mask rest).PortsOk) :
    ((State.endPosted p s).mask rest).PortsOk := by
  unfold State.endPosted
  extract_lets f t gates needs u
  have ht : (t.mask rest).PortsOk := by simp [t, hs]
  have hu : (u.mask rest).PortsOk := by simp [u, ht]
  (repeat' split) <;> simp [ht, hu, hs]

@[simp] theorem ports_discovered (len : Nat) (words : List Word) (s : State) (hs : (s.mask rest).PortsOk) :
    ((State.discovered len words s).mask rest).PortsOk := by
  unfold State.discovered
  (repeat' split) <;> simp [hs]

@[simp] theorem ports_assigned (words : List Word) (s : State) (hs : (s.mask rest).PortsOk) :
    ((State.assigned words s).mask rest).PortsOk := by
  unfold State.assigned
  split
  · split
    · simp [hs]
    · split
      · exact ports_modLink_of_ok hs fun _ => Link.ok_assign s.link _
      · exact hs
  · exact hs

@[simp] theorem ports_cutWait (s : State) : ((State.cutWait s).mask rest).PortsOk ↔ (s.mask rest).PortsOk := by
  simp [State.cutWait]

@[simp] theorem ports_cutFrame (h : LinkHead) (words bus : List Word) (s : State) (hs : (s.mask rest).PortsOk) :
    ((State.cutFrame h words bus s).mask rest).PortsOk := by
  unfold State.cutFrame
  extract_lets n t
  split
  · simp [hs]
  · split
    · exact hs
    · refine (ports_modLink (f := fun x => { x with wait := none, posted := none }) (fun _ => rfl) fun _ => rfl).2 ?_
      simp [t, hs]
  · simp [hs]
  · exact hs

@[simp] theorem ports_noteAbort (s : State) : ((State.noteAbort s).mask rest).PortsOk ↔ (s.mask rest).PortsOk := by
  simp [State.noteAbort]

@[simp] theorem ports_becomesOn (d : Dom) (s : State) (hs : (s.mask rest).PortsOk) :
    ((State.becomesOn d s).mask rest).PortsOk := by
  unfold State.becomesOn
  extract_lets t u v w
  have hu : (u.mask rest).PortsOk := by simp [u, t, hs]
  have hv : (v.mask rest).PortsOk := by simp [v, hu]
  have hw : (w.mask rest).PortsOk := by simp [w, hv]
  simp [hw]

@[simp] theorem ports_becomesRetained (d : Dom) (s : State) :
    ((State.becomesRetained d s).mask rest).PortsOk ↔ (s.mask rest).PortsOk := by
  simp [State.becomesRetained]

@[simp] theorem ports_linkNeeds (s : State) : ((State.linkNeeds s).mask rest).PortsOk ↔ (s.mask rest).PortsOk := by
  simp [State.linkNeeds]

end Ports

/-! ### Every command -/

open Ports

/-- An outcome is a next state, with the queue as it was and the port invariant kept. -/
def Answers (s : State) (o : Host.Outcome State Fault Refusal) : Prop :=
  ∃ t, o = .next t ∧ t.pending = s.pending ∧ (s.PortsOk → t.PortsOk)

/-- Every part of the state. -/
def Part.every : List Part :=
  [.clk, .harrow, .arr, .therm, .aux, .recog, .cap, .scar, .spec, .smc, .buf, .int, .pwr, .host, .link, .mport, .mgmt, .fresh]

@[simp] theorem Part.mem_every (p : Part) : p ∈ every := by cases p <;> decide

/-- A state in the terms of the frame lemmas: it keeps the queue, and the port invariant. -/
structure Reached (s t : State) : Prop where
  queue : t.mask Part.every = s.mask Part.every
  ports : (s.mask rest).PortsOk → (t.mask rest).PortsOk

theorem Reached.refl {s : State} : Reached s s := ⟨rfl, id⟩

theorem Answers.next {s t : State} (h : Reached s t) : Answers s (.next t) :=
  ⟨t, rfl, State.pending_of_mask h.queue, fun hs => portsOk_mask.1 (h.ports (portsOk_mask.2 hs))⟩

theorem Answers.answer {s u t : State} (h : Reached s t) : Answers s (answer u t) :=
  .next ⟨by simp [h.queue], fun hs => by simpa using h.ports hs⟩

theorem Answers.event_of {ok : Bool} {s t : State} (h : ok = true → Reached s t) : Answers s (event ok s t) := by
  unfold Machine.event
  split
  case isTrue hok => exact .answer (h hok)
  case isFalse => exact .next .refl

theorem Answers.event {ok : Bool} {s t : State} (h : Reached s t) : Answers s (event ok s t) := .event_of fun _ => h

theorem Answers.frame {ok : Bool} {s u t : State} (hu : Reached s u) (h : Reached s t) : Answers s (Machine.event ok u t) := by
  unfold Machine.event
  split
  · exact .answer h
  · exact .next hu

theorem Reached.trans {s t u : State} (h : Reached s t) (k : Reached t u) : Reached s u :=
  ⟨k.queue.trans h.queue, fun hs => k.ports (h.ports hs)⟩

theorem Answers.makeReport (r : Nat) (due : Option Report) (clear : Rec → Rec) (s : State) :
    Answers s (s.makeReport r due clear) := by
  unfold State.makeReport
  split
  · exact .event ⟨by simp, fun hs => by simp [hs]⟩
  · exact .next .refl

/-- A command row does no more than its own step 9, what follows its end, and the bookkeeping of R584. -/
theorem Answers.command {code : BitVec 8} {flashOk : Bool} {f : State → State × BitVec 8} {after : State → State} {s : State}
    (hf : ∀ t, Reached t (f t).1) (ha : ∀ t, Reached t (after t)) : Answers s (s.command code flashOk f after) := by
  unfold State.command
  extract_lets m t r u
  have ht : Reached s t := ⟨by simp [t], fun hs => by simp [t, hs]⟩
  have hr : Reached s r.1 := ht.trans (.trans ⟨by simp, fun hs => by simp [hs]⟩ (hf _))
  have hu : Reached s u := hr.trans ⟨by simp [u], fun hs => by simp [u, hs]⟩
  split
  · exact .next .refl
  · split
    · exact .answer ⟨by simp, fun hs => by simp [hs]⟩
    · split
      · exact .answer ⟨by simp, fun hs => by simp [hs]⟩
      · split
        · exact .next .refl
        · split
          · exact .answer (ht.trans ⟨by simp, fun hs => by simp [hs]⟩)
          · refine .answer ?_
            split
            · exact hu.trans (ha u)
            · exact hu

/-- A service row takes the message up and does its own work. -/
theorem Answers.serve {code : BitVec 8} {f : Request → State → State} {s : State} (hf : ∀ r t, Reached t (f r t)) :
    Answers s (s.serveMessage code f) := by
  unfold State.serveMessage
  split
  · exact .event (.trans ⟨by simp, fun hs => by simp [hs]⟩ (hf _ _))
  · exact .next .refl

theorem Reached.withLen {n : Nat} {f : Request → State → State} {r : Request} {t : State} (hf : Reached t (f r t)) :
    Reached t (Machine.withLen n f r t) := by
  unfold Machine.withLen
  split
  · exact hf
  · exact ⟨by simp, fun hs => by simp [hs]⟩

theorem Reached.markQuality (s t : State) : Reached t (State.markQuality s t) :=
  ⟨by simp, fun hs => by simp [hs]⟩

theorem Reached.settleArray (s t : State) : Reached t (State.settleArray s t) :=
  ⟨by simp, fun hs => by simp [hs]⟩

theorem Reached.newFrame (s : State) : Reached s s.newFrame :=
  ⟨by simp, fun hs => by simp [hs]⟩

theorem Reached.foldl {α : Type} {f : State → α → State} (h : ∀ t a, Reached t (f t a)) (l : List α) (s : State) :
    Reached s (l.foldl f s) := by
  induction l generalizing s with
  | nil => exact .refl
  | cons a l ih => exact (h s a).trans (ih _)

/-- What waits for a domain or a gate may end. -/
theorem Reached.waitersEnd (s : State) : Reached s s.linkNeeds.restoreOn.stageOn.spillEnds.endWait := by
  refine ⟨by simp, fun hs => ?_⟩
  have h := ports_restoreOn _ ((ports_linkNeeds s).2 hs)
  simp [h]

/-! #### The accesses of the host -/

theorem Reached.hostWrite (i : Fin 64) (w : Word) (s : State) : Reached s (s.hostWrite i w) :=
  ⟨by simp, fun hs => by simp [hs]⟩

theorem Reached.hostWriteBusy (i : Fin 64) (w : Word) (b : BitVec 12) (s : State) : Reached s (s.hostWriteBusy i w b) :=
  ⟨by simp, fun hs => by simp [hs]⟩

theorem Reached.hostRead (i : Fin 64) (s : State) : Reached s (s.hostRead i) :=
  ⟨by simp, fun hs => by simp [hs]⟩

theorem Reached.hostTs (a : Nat) (w : Word) (s : State) : Reached s (s.hostTs a w) :=
  ⟨by simp, fun hs => by simp [hs]⟩

theorem Reached.hostTsRead (a : Nat) (s : State) : Reached s (s.hostTsRead a) :=
  ⟨by simp, fun hs => by simp [hs]⟩

theorem Reached.ite {c : Prop} [Decidable c] {s t u : State} (ht : Reached s t) (hu : Reached s u) :
    Reached s (if c then t else u) := by
  split
  · exact ht
  · exact hu

theorem Reached.afterReset (lspd : BitVec 2) (cause : BitVec 16) (src : BitVec 8) (s : State) :
    Reached s (s.afterReset lspd cause src) := by
  refine ⟨by simp [State.mask, State.afterReset], fun hs => ?_⟩
  rw [portsOk_mask, State.portsOk_iff] at *
  obtain ⟨-, -, -, ha, hb⟩ := hs
  exact ⟨rfl, by simp [State.afterReset], nofun, ha, hb⟩

theorem Reached.releaseReset (lspd : BitVec 2) (cause : BitVec 16) (src : BitVec 8) (s : State) :
    Reached s (s.releaseReset lspd cause src).wakeLog :=
  (Reached.afterReset lspd cause src s).trans
    ⟨by simp [State.releaseReset, State.startUp, State.wakeLog], fun hs => by
      simpa [State.releaseReset, State.startUp, State.wakeLog] using hs⟩

theorem execWatchdog_answers (lspd : BitVec 2) (s : State) :
    Answers s (execWatchdog lspd s) := by
  unfold execWatchdog
  split
  · exact .answer (.trans (.releaseReset lspd 0x0004#16 0x07#8 s) ⟨by simp, fun hs => by simp [hs]⟩)
  · exact .next .refl

theorem execMonitorTrip_answers (s : State) :
    Answers s (execMonitorTrip s) := by
  refine .event ?_
  refine .trans ⟨?_, fun hs => ?_⟩ (.markQuality s _)
  · split <;> simp
  · split <;> simp [hs]

theorem execSync_answers (addr : BitVec 5) (words : List Word) (s : State) :
    Answers s (execSync addr words s) := by
  unfold execSync
  split
  · refine .frame (.newFrame s) ((Reached.newFrame s).trans ?_)
    split
    · exact ⟨by simp, fun hs => by simp [hs]⟩
    · exact ⟨by simp, fun hs => by simp [hs]⟩
  · exact .next (.newFrame s)

theorem execGateForced_answers (bit : Fin 12) (core : Option Word) (s : State) :
    Answers s (execGateForced bit core s) := by
  unfold execGateForced
  extract_lets t u v
  have hu : Reached s u := by
    unfold u
    cases core with
    | none => exact ⟨by simp [t], fun hs => by simp [t, hs]⟩
    | some a => exact ⟨by simp [t], fun hs => by simp [t, hs]⟩
  have hv : Reached s v := by
    unfold v
    split
    · exact hu.trans ⟨by simp, fun hs => by simp [hs]⟩
    · exact hu
  exact .event (hv.trans (.waitersEnd v))

theorem execAuditStart_answers (unit : Fin 660) (s : State) :
    Answers s (execAuditStart unit s) := by
  unfold execAuditStart
  dsimp only
  split
  · exact .event ⟨by simp, fun hs => by simp [hs]⟩
  · exact .next .refl

theorem execLeakCheck_answers (region : Fin 6) (found : LeakFound) (s : State) :
    Answers s (execLeakCheck region found s) := by
  unfold execLeakCheck
  split
  · exact .next .refl
  · refine .event ⟨?_, fun hs => ?_⟩ <;> (repeat' split) <;> simp [*]

theorem execAuditVerdict_answers (region : Fin 6) (moved : Bool) (meas : AuditMeas) (s : State) :
    Answers s (execAuditVerdict region moved meas s) := by
  unfold execAuditVerdict
  split
  · exact .next .refl
  · refine .event ⟨?_, fun hs => ?_⟩ <;> (repeat' split) <;> simp [*]

theorem execResidualCheck_answers (region : Fin 6) (exceeds : BitVec 8) (s : State) :
    Answers s (execResidualCheck region exceeds s) := by
  refine .event ((Reached.foldl (fun t i => ?_) _ s).trans (.settleArray s _))
  exact ⟨by simp, fun hs => by simp [hs]⟩

theorem execPendingCopyStart_answers (conv : Fin 4) (s : State) :
    Answers s (execPendingCopyStart conv s) := by
  unfold execPendingCopyStart
  split
  · exact .next .refl
  · refine .event ⟨?_, fun hs => ?_⟩ <;> simp [*]

theorem execUnitPlace_answers (unit : FrameUnit) (s : State) :
    Answers s (execUnitPlace unit s) := by
  cases unit with
  | data g => exact .event ⟨by simp, fun hs => by simp [hs]⟩
  | event => exact .event ⟨by simp, fun hs => by simp [hs]⟩
  | fill => exact .event ⟨by simp, fun hs => by simp [hs]⟩

theorem execT2Service_answers (s : State) :
    Answers s (execT2Service s) := by
  unfold execT2Service
  split
  · exact .next .refl
  · refine .event ⟨?_, fun hs => ?_⟩ <;> (repeat' split) <;> simp [*]

theorem execWakeTimeout_answers (d : Dom) (s : State) :
    Answers s (execWakeTimeout d s) := by
  have h hs := ports_restoreOn _ (ports_fail d s hs)
  exact .event ⟨by simp, fun hs => by simp [h hs]⟩

theorem execStallCut_answers (s : State) :
    Answers s (execStallCut s) := by
  unfold execStallCut
  split
  · exact .event ⟨by simp, fun hs => by simp [hs]⟩
  · exact .next .refl

theorem execMessageIncomplete_answers (s : State) :
    Answers s (execMessageIncomplete s) := by
  unfold execMessageIncomplete
  split
  · exact .next .refl
  · exact .event ⟨by simp, fun hs => by simp [hs]⟩

theorem execLogRead_answers (s : State) :
    Answers s (execLogRead s) := by
  unfold execLogRead
  split
  · exact .serve fun r t => .withLen ⟨by simp, fun hs => by simp [hs]⟩
  · exact .next .refl

theorem execConfigStage_answers (s : State) :
    Answers s (execConfigStage s) := by
  unfold execConfigStage
  split
  · exact .answer ⟨by simp, fun hs => by simp [hs]⟩
  · exact .serve fun r t => .withLen ⟨by simp, fun hs => by simp [hs]⟩

theorem execConfigRestore_answers (s : State) :
    Answers s (execConfigRestore s) := by
  unfold execConfigRestore
  split
  · exact .answer ⟨by simp, fun hs => by simp [hs]⟩
  · split
    · exact .serve fun r t => .withLen ⟨by simp, fun hs => by simp [hs]⟩
    · exact .next .refl

theorem execUpdateStage_answers (flashOk : Bool) (s : State) :
    Answers s (execUpdateStage flashOk s) := by
  unfold execUpdateStage
  split
  · exact .serve fun r t => ⟨by simp, fun hs => by simp [hs]⟩
  · exact .next .refl

theorem execCaptureSpill_answers (flashOk : Bool) (s : State) :
    Answers s (execCaptureSpill flashOk s) := by
  unfold execCaptureSpill
  split
  · exact .next .refl
  · split
    · exact .answer ⟨by simp, fun hs => by simp [hs]⟩
    · split
      · exact .answer ⟨by simp, fun hs => by simp [hs]⟩
      · exact .serve fun r t => .withLen ⟨by simp, fun hs => by simp [hs]⟩

theorem execSpillRead_answers (s : State) :
    Answers s (execSpillRead s) := by
  unfold execSpillRead
  split
  · exact .serve fun r t => .withLen ⟨by simp, fun hs => by simp [hs]⟩
  · exact .next .refl

theorem execPostedWriteCommit_answers (s : State) :
    Answers s (execPostedWriteCommit s) := by
  unfold execPostedWriteCommit
  split
  · exact .next .refl
  · exact .event ⟨by simp, fun hs => by simp [hs]⟩

theorem execConfigCommit_answers (flashOk : Bool) (s : State) : Answers s (execConfigCommit flashOk s) :=
  .command (fun _ => ⟨by simp, fun hs => by simp [hs]⟩) fun _ => .refl

theorem execConfigErase_answers (flashOk : Bool) (s : State) : Answers s (execConfigErase flashOk s) :=
  .command (fun _ => ⟨by simp, fun hs => by simp [hs]⟩) fun _ => .refl

theorem execCalSession_answers (flashOk : Bool) (s : State) : Answers s (execCalSession flashOk s) :=
  .command (fun _ => ⟨by simp, fun hs => by simp [hs]⟩) fun _ => .refl

theorem execUnitAdmit_answers (flashOk : Bool) (s : State) : Answers s (execUnitAdmit flashOk s) :=
  .command (fun _ => ⟨by simp, fun hs => by simp [hs]⟩) fun _ => .refl

theorem execUnitRetire_answers (flashOk : Bool) (s : State) : Answers s (execUnitRetire flashOk s) :=
  .command (fun _ => ⟨by simp, fun hs => by simp [hs]⟩) fun _ => .refl

theorem execLogErase_answers (flashOk : Bool) (s : State) : Answers s (execLogErase flashOk s) :=
  .command (fun _ => ⟨by simp, fun hs => by simp [hs]⟩) fun _ => .refl

theorem execUpdateArm_answers (flashOk : Bool) (found : ImageFound) (s : State) :
    Answers s (execUpdateArm flashOk found s) :=
  .command (fun _ => ⟨by simp, fun hs => by simp [hs]⟩) fun _ => .refl

theorem execUpdateCommit_answers (flashOk : Bool) (s : State) : Answers s (execUpdateCommit flashOk s) :=
  .command (fun t => ⟨by simp, fun hs => by simp [hs]⟩) fun t => ⟨by simp, fun hs => by simp [hs]⟩

theorem execAddrLock_answers (flashOk : Bool) (s : State) : Answers s (execAddrLock flashOk s) :=
  .command (fun _ => ⟨by simp, fun hs => by simp [hs]⟩) fun _ => .refl

theorem execThermLimits_answers (flashOk : Bool) (s : State) : Answers s (execThermLimits flashOk s) :=
  .command (fun _ => ⟨by simp, fun hs => by simp [hs]⟩) fun _ => .refl

theorem execKeyRoll_answers (flashOk : Bool) (s : State) : Answers s (execKeyRoll flashOk s) :=
  .command (fun _ => ⟨by simp, fun hs => by simp [hs]⟩) fun _ => .refl

theorem execFactoryReset_answers (flashOk : Bool) (s : State) : Answers s (execFactoryReset flashOk s) :=
  .command (fun _ => ⟨by simp, fun hs => by simp [hs]⟩) fun _ => .refl

theorem execHealthReport_answers (s : State) : Answers s (execHealthReport s) :=
  .serve fun r t => .withLen ⟨by simp, fun hs => by simp [hs]⟩

theorem execSensorRead_answers (values : Vector Word 16) (s : State) : Answers s (execSensorRead values s) :=
  .serve fun r t => .withLen ⟨by simp, fun hs => by simp [hs]⟩

theorem execAuxDiscover_answers (s : State) : Answers s (execAuxDiscover s) :=
  .serve fun r t => .withLen ⟨by simp, fun hs => by simp [hs]⟩

theorem execCalRun_answers (s : State) : Answers s (execCalRun s) :=
  .serve fun r t => .withLen ⟨by simp, fun hs => by simp [hs]⟩

theorem execBoot_answers (flash : FlashFound) (imageA imageB : ImageFound) (flash1 : FlashFound) (copies : CopiesFound)
    (s : State) : Answers s (execBoot flash imageA imageB flash1 copies s) := by
  unfold execBoot
  extract_lets d ok t r
  have ht : Reached s t := ⟨by simp [t], fun hs => by simp [t, Mport.discovered, hs]⟩
  have hr : Reached s r.1 := ht.trans ⟨by simp [r], fun hs => by simp [r, hs]⟩
  split
  · exact .event ht
  · refine .event (hr.trans ?_)
    split
    · exact ⟨by simp, fun hs => by simp [hs]⟩
    · exact .refl

theorem execLinkAbort_answers (cut : LinkCut) (words bus : List Word) (s : State) :
    Answers s (execLinkAbort cut words bus s) := by
  cases cut with
  | header => exact .frame (.newFrame s) ⟨by simp, fun hs => by simp [hs]⟩
  | waiting => exact .event ⟨by simp, fun hs => by simp [hs]⟩
  | frame h => exact .frame (.newFrame s) ⟨by simp, fun hs => by simp [hs]⟩

@[simp] theorem Mport.applySeq_take (x : Mport) (q : PortSeq) : (x.applySeq q).take = x.take := by
  cases q with
  | program d a bs => cases d <;> rfl
  | erase d a n => cases d <;> rfl

@[simp] theorem Mport.endSeq_take (x : Mport) : x.endSeq.take = x.take := by
  unfold Mport.endSeq
  split
  · rfl
  · split <;> simp

/-- The port part once what the port did before has ended. -/
theorem State.endSeq_mport (s : State) :
    s.endSeq.mport = { s.mport.endSeq with single := if s.mport.waiting then s.mport.single else none } := by
  unfold State.endSeq
  dsimp only
  split
  · exact State.mport_of_mask (State.mask_changedBy (ps := [.arr, .mgmt]) (by decide) (by decide) _ _) (by decide)
  · rfl

/-- A grant is given while HOST_TAKE is 1 alone (R500). -/
theorem execGrant_answers (s : State) : Answers s (execGrant s) := by
  refine .event_of fun hok => ⟨by simp, fun hs => ?_⟩
  have htake : s.mport.take = true := by
    simp only [Bool.and_eq_true] at hok
    exact hok.1.1.1
  refine ports_modMport_of_ok (ports_endSeq s hs) fun ⟨_, ha, hb⟩ => ⟨fun _ => ?_, ha, hb⟩
  simpa [State.endSeq_mport] using htake

theorem execPageProgram_answers (at_ : ProgramAt) (bytes : List (BitVec 8)) (ends : BufferEnd) (s : State) :
    Answers s (execPageProgram at_ bytes ends s) := by
  cases at_ with
  | window addr => exact .event ⟨by simp, fun hs => by simp [hs]⟩
  | command p => exact .event ⟨by simp, fun hs => by simp [hs]⟩

theorem execFlashTimeout_answers (s : State) : Answers s (execFlashTimeout s) := by
  unfold execFlashTimeout
  extract_lets t u
  have ht : Reached s t := by
    refine ⟨by simp [t], fun hs => ports_modMport_of_ok ?_ fun h => s.ok_cutFlash h⟩
    rwa [State.mask_withFresh (by simp)]
  have hu : Reached s u := by
    unfold u
    split
    · split
      · exact ht
      · exact ht.trans ⟨by simp, fun hs => by simp [hs]⟩
    · exact ht
  exact .event (hu.trans ⟨by simp, fun hs => by simp [hs]⟩)

theorem execSegmentDone_answers (valid late : Bool) (firstT lastT : Tick) (flags : BitVec 3) (s : State) :
    Answers s (execSegmentDone valid late firstT lastT flags s) := by
  unfold execSegmentDone
  dsimp only
  split
  · exact .event ⟨by simp, fun hs => by simp [hs]⟩
  · exact .event ⟨by simp, fun hs => by simp [hs]⟩
  · exact .next .refl

theorem execUnknownService_answers (s : State) : Answers s (execUnknownService s) := by
  unfold execUnknownService
  split
  · exact .event ⟨by simp, fun hs => by simp [hs]⟩
  · exact .next .refl

theorem execResetAssert_answers (s : State) : Answers s (execResetAssert s) :=
  .answer ((Reached.afterReset s.clk.lspd 0x0002#16 0x02#8 s).trans ⟨by simp, fun hs => by simp [hs]⟩)

theorem exec_answers (c : Instr) (s : State) : Answers s (exec c s) := by
  cases c with
  | powerOn _ => exact .answer (.releaseReset ..)
  | resetPin _ => exact .answer (.releaseReset ..)
  | watchdog _ => exact execWatchdog_answers ..
  | brownRecover _ => exact .answer (.releaseReset ..)
  | pllmFloor => exact .event ⟨by simp, fun hs => by simp [hs]⟩
  | pllmLock => exact .event ⟨by simp, fun hs => by simp [hs]⟩
  | pllFail => exact .event ⟨by simp, fun hs => by simp [hs]⟩
  | plleLock => exact .event ⟨by simp, fun hs => by simp [hs]⟩
  | monitorTrip => exact execMonitorTrip_answers ..
  | lclkReturn => exact .event ⟨by simp, fun hs => by simp [hs]⟩
  | sync _ _ => exact execSync_answers ..
  | alignChange _ => exact .answer (.hostWrite ..)
  | park _ => exact .event ⟨by simp, fun hs => by simp [hs]⟩
  | parkEntryDone => exact .event ⟨by simp, fun hs => by simp [hs]⟩
  | wake _ => exact .event ⟨by simp, fun hs => by simp [hs]⟩
  | clkenWrite _ _ => exact .answer (.hostWriteBusy ..)
  | gateForced _ _ => exact execGateForced_answers ..
  | relocksClr => exact .answer (.hostWrite ..)
  | rangeWrite _ _ => exact .answer (.hostTs ..)
  | driveWindowExclude _ => exact .event ⟨by simp, fun hs => by simp [hs]⟩
  | driveWindowInclude _ => exact .event ⟨by simp, fun hs => by simp [hs]⟩
  | dieFaultSet _ _ => exact .event ⟨by simp, fun hs => by simp [hs]⟩
  | dieFaultClear _ _ => exact .event ⟨by simp, fun hs => by simp [hs]⟩
  | thermCtrlWrite _ => exact .answer (.hostWrite ..)
  | thermReady _ _ => exact .event ⟨by simp, fun hs => by simp [hs]⟩
  | thermFault _ _ _ => exact .event ⟨by simp, fun hs => by simp [hs]⟩
  | thermSaturated => exact .event ⟨by simp, fun hs => by simp [hs]⟩
  | rotationStart _ => exact .event ⟨by simp, fun hs => by simp [hs]⟩
  | auditStart _ => exact execAuditStart_answers ..
  | leakCheck _ _ => exact execLeakCheck_answers ..
  | auditVerdict _ _ _ => exact execAuditVerdict_answers ..
  | deadAuditDue _ => exact .event ⟨by simp, fun hs => by simp [hs]⟩
  | fallowAuditDue _ => exact .event ⟨by simp, fun hs => by simp [hs]⟩
  | windowFault _ _ => exact .event ⟨by simp, fun hs => by simp [hs]⟩
  | retrimDone _ => exact .event ⟨by simp, fun hs => by simp [hs]⟩
  | healthCommit => exact .event ⟨by simp, fun hs => by simp [hs]⟩
  | residualCheck _ _ => exact execResidualCheck_answers ..
  | residualRetrim _ => exact .event ⟨by simp, fun hs => by simp [hs]⟩
  | clusterPwrWrite _ => exact .answer (.hostTs ..)
  | clusterRejoin _ => exact .event ⟨by simp, fun hs => by simp [hs]⟩
  | commit _ => exact .answer (.hostWrite ..)
  | pendingCopyStart _ => exact execPendingCopyStart_answers ..
  | ampReset _ => exact .answer (.hostWrite ..)
  | overload _ => exact .event ⟨by simp, fun hs => by simp [hs]⟩
  | periodicReset _ => exact .event ⟨by simp, fun hs => by simp [hs]⟩
  | resetEnd _ => exact .event ⟨by simp, fun hs => by simp [hs]⟩
  | excitationWrite _ _ => exact .answer (.hostTs ..)
  | excitationChange _ => exact .event ⟨by simp, fun hs => by simp [hs]⟩
  | excRestore _ => exact .answer (.hostWrite ..)
  | wireBreak _ _ => exact .event ⟨by simp, fun hs => by simp [hs]⟩
  | wireBreakRecovery _ _ => exact .event ⟨by simp, fun hs => by simp [hs]⟩
  | attach _ _ => exact .event ⟨by simp, fun hs => by simp [hs]⟩
  | tedsReadStart _ => exact .event ⟨by simp, fun hs => by simp [hs]⟩
  | tedsDone _ _ => exact .event ⟨by simp, fun hs => by simp [hs]⟩
  | calCycleDone _ => exact .event ⟨by simp, fun hs => by simp [hs]⟩
  | apply _ => exact .answer (.hostTs ..)
  | biquadCommit _ _ => exact .answer (.hostTs ..)
  | diagSelChange _ => exact .answer (.hostTs ..)
  | pathSettled _ _ => exact .event ⟨by simp, fun hs => by simp [hs]⟩
  | evtCtrlWrite _ => exact .answer (.hostWrite ..)
  | recParamWrite _ _ _ => exact .answer (.hostTs ..)
  | impactEvent => exact .makeReport ..
  | impactWinExpiry => exact .makeReport ..
  | cadenceEvent => exact .makeReport ..
  | cadenceEnd => exact .makeReport ..
  | freefallEvent => exact .makeReport ..
  | transientEvent => exact .makeReport ..
  | transientRearm => exact .event ⟨by simp, fun hs => by simp [hs]⟩
  | tiltBlockEnd => exact .makeReport ..
  | setRef => exact .answer (.hostTs ..)
  | resultSnapshotRead _ => exact .answer (.hostTsRead ..)
  | arm => exact .answer (.hostWrite ..)
  | trig => exact .answer (.hostWrite ..)
  | abort => exact .answer (.hostWrite ..)
  | release _ => exact .answer (.hostTs ..)
  | ownerChange _ => exact .answer (.hostWrite ..)
  | slotsChange _ => exact .answer (.hostWrite ..)
  | captureDone => exact .event ⟨by simp, fun hs => by simp [hs]⟩
  | scarTrip _ _ => exact .event ⟨by simp, fun hs => by simp [hs]⟩
  | scarArmed => exact .event ⟨by simp, fun hs => by simp [hs]⟩
  | scarRearm => exact .answer (.hostWrite ..)
  | scarClassify => exact .event ⟨by simp, fun hs => by simp [hs]⟩
  | scarClassTimeout => exact .event ⟨by simp, fun hs => by simp [hs]⟩
  | specRun => exact .answer (.hostWrite ..)
  | specStop => exact .answer (.hostWrite ..)
  | capGo _ => exact .answer (.hostWrite ..)
  | specAbort => exact .answer (.hostWrite ..)
  | hold _ => exact .answer (.hostWrite ..)
  | specPublish => exact .event ⟨by simp, fun hs => by simp [hs]⟩
  | specCountersClear => exact .answer (.hostTs ..)
  | learn => exact .answer (.hostTs ..)
  | smStart _ => exact .answer (.hostTs ..)
  | smStop _ => exact .answer (.hostTs ..)
  | smTick _ _ => exact .event ⟨by simp, fun hs => by simp [hs]⟩
  | smTimeout _ _ =>
    refine .event ⟨?_, fun hs => ?_⟩ <;> split <;> simp [*]
  | streamStart => exact .answer (.trans (.hostWrite ..) (.hostWrite ..))
  | streamStop _ => exact .answer (.ite (.hostWrite ..) (.hostWrite ..))
  | writerGateOpen => exact .event ⟨by simp, fun hs => by simp [hs]⟩
  | layoutChange _ _ => exact .answer (.hostWrite ..)
  | phaseChange _ => exact .answer (.hostWrite ..)
  | unitPlace _ => exact execUnitPlace_answers ..
  | flush => exact .answer (.hostWrite ..)
  | dropClr => exact .answer (.hostWrite ..)
  | bufDataRead => exact .answer (.hostRead ..)
  | bufThreshWrite _ => exact .answer (.hostWrite ..)
  | intClaim _ => exact .answer (.hostRead ..)
  | intComplete _ _ => exact .answer (.hostWrite ..)
  | intStatsClear => exact .answer (.hostWrite ..)
  | t2Service => exact execT2Service_answers ..
  | lowWordRead _ => exact .answer (.hostRead ..)
  | pwrReqWrite _ => exact .answer (.hostWrite ..)
  | pwrReqProcess => exact .event ⟨by simp, fun hs => by simp [hs]⟩
  | demandWake _ => exact .event ⟨by simp, fun hs => by simp [hs]⟩
  | wakeReady _ => exact .event ⟨by simp, fun hs => by simp [hs]⟩
  | wakeTimeout _ => exact execWakeTimeout_answers ..
  | stopDone _ => exact .event ⟨by simp, fun hs => by simp [hs]⟩
  | idleReturn _ => exact .event ⟨by simp, fun hs => by simp [hs]⟩
  | requestResume => exact .event ⟨by simp, fun hs => by simp [hs]⟩
  | stallCut => exact execStallCut_answers ..
  | opRaise _ => exact .answer (.hostWrite ..)
  | opLower _ => exact .answer (.hostWrite ..)
  | dvfsSettled => exact .event ⟨by simp, fun hs => by simp [hs]⟩
  | dvfsFail => exact .event ⟨by simp, fun hs => by simp [hs]⟩
  | dvfsDone => exact .event ⟨by simp, fun hs => by simp [hs]⟩
  | brownWarn _ => exact .answer ⟨by simp, fun hs => by simp [hs]⟩
  | brownRestore _ _ => exact .event ⟨by simp, fun hs => by simp [hs]⟩
  | powerFail _ => exact .answer ⟨by simp, fun hs => by simp [hs]⟩
  | winDataAccess _ _ => exact .answer (.ite (.hostWrite ..) (.hostRead ..))
  | winAddrWrite _ => exact .answer (.hostWrite ..)
  | cmdArgWrite _ => exact .answer (.hostWrite ..)
  | clear => exact .answer (.hostWrite ..)
  | configCommit _ => exact execConfigCommit_answers ..
  | configErase _ => exact execConfigErase_answers ..
  | calSession _ => exact execCalSession_answers ..
  | unitAdmit _ => exact execUnitAdmit_answers ..
  | unitRetire _ => exact execUnitRetire_answers ..
  | logErase _ => exact execLogErase_answers ..
  | updateArm _ _ => exact execUpdateArm_answers ..
  | updateCommit _ => exact execUpdateCommit_answers ..
  | addrLock _ => exact execAddrLock_answers ..
  | thermLimits _ => exact execThermLimits_answers ..
  | keyRoll _ => exact execKeyRoll_answers ..
  | factoryReset _ => exact execFactoryReset_answers ..
  | lockoutEnd => exact .event ⟨by simp, fun hs => by simp [hs]⟩
  | mbxInWrite _ => exact .answer (.hostWrite ..)
  | mbxOutRead => exact .answer (.hostRead ..)
  | mbxFlush => exact .answer (.hostWrite ..)
  | messageIncomplete => exact execMessageIncomplete_answers ..
  | logRead => exact execLogRead_answers ..
  | healthReport => exact execHealthReport_answers ..
  | sensorRead _ => exact execSensorRead_answers ..
  | auxDiscover => exact execAuxDiscover_answers ..
  | calRun => exact execCalRun_answers ..
  | configStage => exact execConfigStage_answers ..
  | configRestore => exact execConfigRestore_answers ..
  | updateStage _ => exact execUpdateStage_answers ..
  | captureSpill _ => exact execCaptureSpill_answers ..
  | spillRead => exact execSpillRead_answers ..
  | sensorMeasure _ => exact .event ⟨by simp, fun hs => by simp [hs]⟩
  | logWrite => exact .event ⟨by simp, fun hs => by simp [hs]⟩
  | trialConfirm => exact .event ⟨by simp, fun hs => by simp [hs]⟩
  | boot _ _ _ _ _ => exact execBoot_answers ..
  | nop _ _ => exact .answer ⟨by simp, fun hs => by simp [hs]⟩
  | read _ _ _ _ _ => exact .event ⟨by simp, fun hs => by simp [hs]⟩
  | write _ _ _ _ => exact .event ⟨by simp, fun hs => by simp [hs]⟩
  | postedWriteCommit => exact execPostedWriteCommit_answers ..
  | discover _ _ => exact .event ⟨by simp, fun hs => by simp [hs]⟩
  | assign _ => exact .event ⟨by simp, fun hs => by simp [hs]⟩
  | linkAbort _ _ _ => exact execLinkAbort_answers ..
  | linkRelease => exact .answer (.hostWrite ..)
  | statsClr => exact .answer (.hostWrite ..)
  | attnPulse => exact .event ⟨by simp, fun hs => by simp [hs]⟩
  | hostTake => exact .answer (.hostWrite ..)
  | grant => exact execGrant_answers ..
  | hostTakeClear => exact .answer (.hostWrite ..)
  | modeFault => exact .event ⟨by simp, fun hs => by simp [hs]⟩
  | modeFaultResume => exact .event ⟨by simp, fun hs => by simp [hs]⟩
  | pageProgram _ _ _ => exact execPageProgram_answers ..
  | erase _ _ _ => exact .event ⟨by simp, fun hs => by simp [hs]⟩
  | flashTimeout => exact execFlashTimeout_answers ..
  | registerWrite _ _ => exact .answer (.hostWrite ..)
  | pathOutput _ _ _ => exact .event ⟨by simp, fun hs => by simp [hs]⟩
  | segmentDone _ _ _ _ _ => exact execSegmentDone_answers ..
  | thermReadyLoss _ _ => exact .event ⟨by simp, fun hs => by simp [hs]⟩
  | headerCrcError _ => exact .event ⟨by simp, fun hs => by simp [hs]⟩
  | resetAssert => exact execResetAssert_answers s
  | unknownCommand => exact .event ⟨by simp, fun hs => by simp [hs]⟩
  | unknownService => exact execUnknownService_answers ..


/-- A tick keeps the port invariant. -/
theorem State.portsOk_idle {s : State} (h : s.PortsOk) : s.idle.PortsOk :=
  portsOk_mask.1 (ports_idle s (portsOk_mask.2 h))

/-- Settles O3: every row ends in an answer, in an event whose conditions hold or do not, or in no change at all
(exec_answers); no operation of the model touches the queue (State.pending_of_mask). -/
theorem everyCommandCompletes : Obligations.EveryCommandCompletes := by
  unfold Obligations.EveryCommandCompletes
  intro c s
  obtain ⟨t, ht, hq, -⟩ := exec_answers c s
  exact ⟨t, ht, hq⟩

/-- Settles O59: a step is a tick or a command, and both keep the invariant (State.portsOk_idle, exec_answers). -/
theorem stepKeepsPortsOk : Obligations.StepKeepsPortsOk := by
  unfold Obligations.StepKeepsPortsOk
  intro s t hs h
  unfold step at h
  split at h
  · obtain rfl : s.idle = t := by simpa using h
    exact State.portsOk_idle hs
  case _ c rest _ =>
    obtain ⟨u, hu, -, hk⟩ := exec_answers c { s with pending := rest }
    obtain rfl : u = t := by simpa [hu] using h
    exact hk hs

end Sys2Proof.Machine
end

section
/-!
PROOFS. How a row that answers completes, and what the shared operations leave of each part: the log queue, the history of the
clock quality, the sticky bits.
-/

namespace Sys2Proof.Machine

open Sys2Proof

/-! ### Completion -/

/-- A row that is an event whose conditions hold. -/
theorem Completes.event {c : Instr} {s u t : State} {ok : Bool} {P : State → Prop} (h : exec c s = Machine.event ok u t)
    (hok : ok = true) (hp : P (State.arbitrate u t)) : Completes c s P :=
  ⟨_, by rw [h, hok]; rfl, hp⟩

/-- A row that answers. -/
theorem Completes.answer {c : Instr} {s u t : State} {P : State → Prop} (h : exec c s = Machine.answer u t)
    (hp : P (State.arbitrate u t)) : Completes c s P :=
  ⟨_, h, hp⟩

/-! ### Bits -/

/-- A bit written is that bit, any other bit stands. -/
@[simp] theorem getLsbD_putBit {n : Nat} (x : BitVec n) (k : Nat) (b : Bool) (j : Nat) :
    (putBit x k b).getLsbD j = if j = k ∧ k < n then b else x.getLsbD j := by
  have hone : (1#n <<< k).getLsbD j = decide (j = k ∧ k < n) := by
    rw [BitVec.getLsbD_shiftLeft, BitVec.getLsbD_one]
    by_cases h : j = k
    · subst h
      by_cases hn : j < n <;> simp [hn]
      omega
    · by_cases hlt : j < k
      · simp [h, hlt]
      · have : j - k ≠ 0 := by omega
        simp [h, this]
  unfold putBit
  cases b
  case true => rw [if_pos rfl, BitVec.getLsbD_or, hone]; by_cases hk : j = k ∧ k < n <;> simp [hk]
  case false =>
    rw [if_neg Bool.false_ne_true, BitVec.getLsbD_and, BitVec.getLsbD_not, hone]
    by_cases hk : j = k ∧ k < n
    · simp [hk]
    · by_cases hj : j < n
      · simp [hk, hj]
      · simp [hk, BitVec.getLsbD_of_ge x j (by omega)]

/-! ### The log queue -/

section
variable (cls code : BitVec 8) (d0 d1 d2 : Word) (s : State)

@[simp] theorem State.log_pending : (s.log cls code d0 d1 d2).pending = s.pending := by
  unfold State.log; split <;> rfl

@[simp] theorem State.log_mgmt_zorHt : (s.log cls code d0 d1 d2).mgmt.zorHt = s.mgmt.zorHt := by
  unfold State.log; split <;> rfl

@[simp] theorem State.log_mgmt_inAt : (s.log cls code d0 d1 d2).mgmt.inAt = s.mgmt.inAt := by
  unfold State.log; split <;> rfl

@[simp] theorem State.log_mgmt_keyStore : (s.log cls code d0 d1 d2).mgmt.keyStore = s.mgmt.keyStore := by
  unfold State.log; split <;> rfl

@[simp] theorem State.log_mgmt_lockStore : (s.log cls code d0 d1 d2).mgmt.lockStore = s.mgmt.lockStore := by
  unfold State.log; split <;> rfl

@[simp] theorem State.log_mgmt_calStore : (s.log cls code d0 d1 d2).mgmt.calStore = s.mgmt.calStore := by
  unfold State.log; split <;> rfl

@[simp] theorem State.log_mgmt_sensAt : (s.log cls code d0 d1 d2).mgmt.sensAt = s.mgmt.sensAt := by
  unfold State.log; split <;> rfl

@[simp] theorem State.log_mgmt_entry : (s.log cls code d0 d1 d2).mgmt.entry = s.mgmt.entry := by
  unfold State.log; split <;> rfl

@[simp] theorem State.log_mgmt_keyHash : (s.log cls code d0 d1 d2).mgmt.keyHash = s.mgmt.keyHash := by
  unfold State.log; split <;> rfl

@[simp] theorem State.log_mgmt_autoWait : (s.log cls code d0 d1 d2).mgmt.autoWait = s.mgmt.autoWait := by
  unfold State.log; split <;> rfl

@[simp] theorem State.log_dom (d : Dom) : (s.log cls code d0 d1 d2).dom d = s.dom d := by
  unfold State.log; split <;> rfl

@[simp] theorem State.log_clk : (s.log cls code d0 d1 d2).clk = s.clk := by
  unfold State.log; split <;> rfl

@[simp] theorem State.log_harrow : (s.log cls code d0 d1 d2).harrow = s.harrow := by
  unfold State.log; split <;> rfl

@[simp] theorem State.log_therm : (s.log cls code d0 d1 d2).therm = s.therm := by
  unfold State.log; split <;> rfl

@[simp] theorem State.log_aux : (s.log cls code d0 d1 d2).aux = s.aux := by
  unfold State.log; split <;> rfl

@[simp] theorem State.log_recog : (s.log cls code d0 d1 d2).recog = s.recog := by
  unfold State.log; split <;> rfl

@[simp] theorem State.log_cap : (s.log cls code d0 d1 d2).cap = s.cap := by
  unfold State.log; split <;> rfl

@[simp] theorem State.log_scar : (s.log cls code d0 d1 d2).scar = s.scar := by
  unfold State.log; split <;> rfl

@[simp] theorem State.log_spec : (s.log cls code d0 d1 d2).spec = s.spec := by
  unfold State.log; split <;> rfl

@[simp] theorem State.log_smc : (s.log cls code d0 d1 d2).smc = s.smc := by
  unfold State.log; split <;> rfl

@[simp] theorem State.log_buf : (s.log cls code d0 d1 d2).buf = s.buf := by
  unfold State.log; split <;> rfl

@[simp] theorem State.log_int : (s.log cls code d0 d1 d2).int = s.int := by
  unfold State.log; split <;> rfl

@[simp] theorem State.log_pwr : (s.log cls code d0 d1 d2).pwr = s.pwr := by
  unfold State.log; split <;> rfl

@[simp] theorem State.log_host : (s.log cls code d0 d1 d2).host = s.host := by
  unfold State.log; split <;> rfl

@[simp] theorem State.log_link : (s.log cls code d0 d1 d2).link = s.link := by
  unfold State.log; split <;> rfl

@[simp] theorem State.log_mport : (s.log cls code d0 d1 d2).mport = s.mport := by
  unfold State.log; split <;> rfl

@[simp] theorem State.log_fresh : (s.log cls code d0 d1 d2).fresh = s.fresh := by
  unfold State.log; split <;> rfl

end

@[simp] theorem State.arbitrate_dom (s t : State) (d : Dom) : (State.arbitrate s t).dom d = t.dom d :=
  State.dom_congr (State.arbitrate_pwr s t) d

/-- CLK_STAT is a word of the clock part and of the domains (R72, R82). -/
theorem State.clkStat_congr {s t : State} (hc : t.clk = s.clk) (hp : t.pwr = s.pwr) : t.clkStat = s.clkStat := by
  simp [State.clkStat, State.quality, State.qualityState, State.locked, State.parkReady, State.parkDomains, State.hasLk,
    State.dom, hc, hp]

@[simp] theorem State.arbitrate_clkStat (s t : State) : (State.arbitrate s t).clkStat = t.clkStat :=
  State.clkStat_congr (by simp) (by simp)

@[simp] theorem State.log_clkStat (cls code : BitVec 8) (d0 d1 d2 : Word) (s : State) :
    (s.log cls code d0 d1 d2).clkStat = s.clkStat :=
  State.clkStat_congr (by simp) (by simp)

/-- A record at a queue with room, in the terms of the statements. -/
theorem State.logged_log {s t : State} {cls code : BitVec 8} {d0 d1 d2 : Word} (h : t.mgmt.logQ.length < 16)
    (hq : t.mgmt.logQ = s.mgmt.logQ) (htsc : t.clk.tsc = s.clk.tsc) (hep : t.clk.epochValid = s.clk.epochValid) (u : State) :
    s.Logged (State.arbitrate u (t.log cls code d0 d1 d2)) cls code d0 d1 d2 := by
  simp [State.Logged, State.log_logQ h, hq, htsc, hep]

/-! ### Domains, sticky bits, and the end of an access -/

section
variable (d : Dom) (f : Domain → Domain) (k : Nat) (r : Word × State) (s : State)

@[simp] theorem State.modDom_pending : (s.modDom d f).pending = s.pending := rfl
@[simp] theorem State.modDom_clk : (s.modDom d f).clk = s.clk := rfl
@[simp] theorem State.modDom_harrow : (s.modDom d f).harrow = s.harrow := rfl
@[simp] theorem State.modDom_arr : (s.modDom d f).arr = s.arr := rfl
@[simp] theorem State.modDom_therm : (s.modDom d f).therm = s.therm := rfl
@[simp] theorem State.modDom_aux : (s.modDom d f).aux = s.aux := rfl
@[simp] theorem State.modDom_recog : (s.modDom d f).recog = s.recog := rfl
@[simp] theorem State.modDom_cap : (s.modDom d f).cap = s.cap := rfl
@[simp] theorem State.modDom_scar : (s.modDom d f).scar = s.scar := rfl
@[simp] theorem State.modDom_spec : (s.modDom d f).spec = s.spec := rfl
@[simp] theorem State.modDom_smc : (s.modDom d f).smc = s.smc := rfl
@[simp] theorem State.modDom_buf : (s.modDom d f).buf = s.buf := rfl
@[simp] theorem State.modDom_int : (s.modDom d f).int = s.int := rfl
@[simp] theorem State.modDom_host : (s.modDom d f).host = s.host := rfl
@[simp] theorem State.modDom_link : (s.modDom d f).link = s.link := rfl
@[simp] theorem State.modDom_mport : (s.modDom d f).mport = s.mport := rfl
@[simp] theorem State.modDom_mgmt : (s.modDom d f).mgmt = s.mgmt := rfl
@[simp] theorem State.modDom_fresh : (s.modDom d f).fresh = s.fresh := rfl

@[simp] theorem State.touch_pending : (s.touch d).pending = s.pending := rfl
@[simp] theorem State.touch_harrow : (s.touch d).harrow = s.harrow := rfl
@[simp] theorem State.touch_arr : (s.touch d).arr = s.arr := rfl
@[simp] theorem State.touch_therm : (s.touch d).therm = s.therm := rfl
@[simp] theorem State.touch_aux : (s.touch d).aux = s.aux := rfl
@[simp] theorem State.touch_recog : (s.touch d).recog = s.recog := rfl
@[simp] theorem State.touch_cap : (s.touch d).cap = s.cap := rfl
@[simp] theorem State.touch_scar : (s.touch d).scar = s.scar := rfl
@[simp] theorem State.touch_spec : (s.touch d).spec = s.spec := rfl
@[simp] theorem State.touch_smc : (s.touch d).smc = s.smc := rfl
@[simp] theorem State.touch_int : (s.touch d).int = s.int := rfl
@[simp] theorem State.touch_link : (s.touch d).link = s.link := rfl
@[simp] theorem State.touch_mport : (s.touch d).mport = s.mport := rfl
@[simp] theorem State.touch_mgmt : (s.touch d).mgmt = s.mgmt := rfl
@[simp] theorem State.touch_fresh : (s.touch d).fresh = s.fresh := rfl

@[simp] theorem State.stick_pending : (s.stick k).pending = s.pending := rfl
@[simp] theorem State.stick_clk : (s.stick k).clk = s.clk := rfl
@[simp] theorem State.stick_harrow : (s.stick k).harrow = s.harrow := rfl
@[simp] theorem State.stick_arr : (s.stick k).arr = s.arr := rfl
@[simp] theorem State.stick_therm : (s.stick k).therm = s.therm := rfl
@[simp] theorem State.stick_aux : (s.stick k).aux = s.aux := rfl
@[simp] theorem State.stick_recog : (s.stick k).recog = s.recog := rfl
@[simp] theorem State.stick_cap : (s.stick k).cap = s.cap := rfl
@[simp] theorem State.stick_scar : (s.stick k).scar = s.scar := rfl
@[simp] theorem State.stick_spec : (s.stick k).spec = s.spec := rfl
@[simp] theorem State.stick_smc : (s.stick k).smc = s.smc := rfl
@[simp] theorem State.stick_buf : (s.stick k).buf = s.buf := rfl
@[simp] theorem State.stick_int : (s.stick k).int = s.int := rfl
@[simp] theorem State.stick_pwr : (s.stick k).pwr = s.pwr := rfl
@[simp] theorem State.stick_link : (s.stick k).link = s.link := rfl
@[simp] theorem State.stick_mport : (s.stick k).mport = s.mport := rfl
@[simp] theorem State.stick_mgmt : (s.stick k).mgmt = s.mgmt := rfl
@[simp] theorem State.stick_fresh : (s.stick k).fresh = s.fresh := rfl

@[simp] theorem State.finishWrite_pending : (s.finishWrite).pending = s.pending := rfl
@[simp] theorem State.finishWrite_clk : (s.finishWrite).clk = s.clk := rfl
@[simp] theorem State.finishWrite_harrow : (s.finishWrite).harrow = s.harrow := rfl
@[simp] theorem State.finishWrite_arr : (s.finishWrite).arr = s.arr := rfl
@[simp] theorem State.finishWrite_therm : (s.finishWrite).therm = s.therm := rfl
@[simp] theorem State.finishWrite_aux : (s.finishWrite).aux = s.aux := rfl
@[simp] theorem State.finishWrite_recog : (s.finishWrite).recog = s.recog := rfl
@[simp] theorem State.finishWrite_cap : (s.finishWrite).cap = s.cap := rfl
@[simp] theorem State.finishWrite_scar : (s.finishWrite).scar = s.scar := rfl
@[simp] theorem State.finishWrite_spec : (s.finishWrite).spec = s.spec := rfl
@[simp] theorem State.finishWrite_smc : (s.finishWrite).smc = s.smc := rfl
@[simp] theorem State.finishWrite_pwr : (s.finishWrite).pwr = s.pwr := rfl
@[simp] theorem State.finishWrite_link : (s.finishWrite).link = s.link := rfl
@[simp] theorem State.finishWrite_mport : (s.finishWrite).mport = s.mport := rfl
@[simp] theorem State.finishWrite_mgmt : (s.finishWrite).mgmt = s.mgmt := rfl
@[simp] theorem State.finishWrite_fresh : (s.finishWrite).fresh = s.fresh := rfl

@[simp] theorem State.stick_host : (s.stick k).host = { s.host with sticky := putBit s.host.sticky k true } := rfl

end

@[simp] theorem State.markQuality_clk_failHt (s t : State) : (State.markQuality s t).clk.failHt = t.clk.failHt := by
  unfold State.markQuality; split <;> rfl

end Sys2Proof.Machine
end

section
/-!
PROOFS. Resets and the clock (chapters 02 and 19).
-/

namespace Sys2Proof.Machine

open Sys2Proof

/-! ### Resets -/

/-- A reset state whose thermal limits in force differ from their copies in the internal store. -/
def State.limitsApart : State := { State.reset with therm := { maxCode := 0#8 } }

/-- The thermal limits after a reset come from the internal store (R120, R560). -/
theorem State.releaseReset_maxCode (s : State) (lspd : BitVec 2) (cause : BitVec 16) (src : BitVec 8) :
    (s.releaseReset lspd cause src).therm.maxCode = s.therm.limits.newest.1 := rfl

/-- Refutes O4: a reset takes the thermal limits from the internal store, and nothing in the statement makes the limits in force
agree with that copy; Restarted says that the ones in force stand. -/
theorem not_resetsComplete : ¬ Obligations.ResetsComplete := by
  unfold Obligations.ResetsComplete
  intro h
  obtain ⟨t, ht, hr⟩ := h.1 State.limitsApart 0#2
  obtain ⟨-, -, -, -, -, -, -, -, -, -, -, -, -, -, -, -, -, -, -, -, -, hmax, -⟩ := hr
  have hexec : exec (.powerOn 0#2) State.limitsApart =
      answerFresh (State.limitsApart.releaseReset 0#2 0x0001#16 0x01#8).wakeLog := rfl
  obtain rfl : State.arbitrate _ _ = t := by simpa [hexec, answerFresh] using ht
  simp [State.wakeLog, State.releaseReset_maxCode, State.limitsApart, State.reset] at hmax

/-! ### The two PLLs -/

@[simp] theorem State.driveVid_clk (op : BitVec 2) (s : State) : (s.driveVid op).clk = s.clk := rfl

@[simp] theorem State.oweTimes_clk (t : Option Tick) (s : State) : (s.oweTimes t).clk = s.clk := rfl

/-- A relock of PLL-E moves its phase and the hold clock (R78). -/
theorem State.relockPllE_clk (s : State) : ∃ p b, s.relockPllE.clk = { s.clk with plle := p, holdClk := b } := by
  unfold State.relockPllE
  split
  · exact ⟨_, _, rfl⟩
  · exact ⟨_, _, rfl⟩

/-- A change of the operating point starts with at most a relock of PLL-E (R441, R442). -/
theorem State.startChange_clk (s : State) : ∃ p b, s.startChange.clk = { s.clk with plle := p, holdClk := b } := by
  unfold State.startChange
  extract_lets p
  split
  · exact ⟨_, _, rfl⟩
  · split
    · exact ⟨_, _, rfl⟩
    · exact State.relockPllE_clk _

/-- The lock of PLL-M that is a relock (R78): the clock part after it. -/
theorem State.lockPllM_clk_of_relock {s : State} (hr : s.clk.relockDue = true) : ∃ p b,
    s.lockPllM.clk =
      { s.clk with
        pllm := .locked, frozen := false, relockDue := false, failHt := none, coast := false, relockEvt := true
        relocks := satInc s.clk.relocks, plle := p, holdClk := b } := by
  unfold State.lockPllM
  extract_lets relock t u v w x y
  have hu : ∃ p b, u.clk = { t.clk with plle := p, holdClk := b } := by
    unfold u
    split
    · exact ⟨_, _, rfl⟩
    · exact ⟨_, _, rfl⟩
  obtain ⟨p, b, hu⟩ := hu
  obtain ⟨p', b', hy⟩ := (x.driveVid x.pwr.vidPt).startChange_clk
  have hx : x.clk = { u.clk with coast := false, relockEvt := true, relocks := satInc u.clk.relocks } :=
    State.log_clk ..
  have hy' : y.clk = { t.clk with
      plle := p', holdClk := b', coast := false, relockEvt := true, relocks := satInc t.clk.relocks } := by
    rw [hy, State.driveVid_clk, hx, hu]
  refine ⟨p', b', ?_⟩
  rw [if_pos hr]
  have ht : t.clk = { s.clk with pllm := .locked, frozen := false, relockDue := false, failHt := none } := rfl
  split
  · rw [State.oweTimes_clk, hy', ht]
  · rw [hy', ht]

/-- The first lock of PLL-M, which is no relock (R51): the clock part after it. -/
theorem State.lockPllM_of_first {s : State} (hr : s.clk.relockDue = false) :
    s.lockPllM = (s.modClk fun c =>
      { c with pllm := .locked, frozen := false, relockDue := false, failHt := none
               plle := if s.wantsPllE then .locking else c.plle
               holdClk := if s.wantsPllE then false else c.holdClk }).modSpec fun x => { x with waiting := false } := by
  unfold State.lockPllM
  rw [hr]
  cases hw : s.wantsPllE <;> rfl

/-- Settles O5: each event is its own update of the clock part; a relock also drives the supply and takes up a change of the
operating point (R445). What a relock is, is the model's own reading (log entry 13). -/
theorem pllEventsComplete : Obligations.PllEventsComplete := by
  unfold Obligations.PllEventsComplete
  refine ⟨?floor, ?lock, ?relock, ?fail, ?plle⟩
  case floor =>
    intro s hp hsm
    exact .event rfl (by simp [hp, hsm]) (by simp [Same])
  case lock =>
    intro s hp hsm hl hr
    refine .event rfl (by simp [hp, hsm, hl]) ?_
    simp [Same, State.lockPllM_of_first hr]
  case relock =>
    intro s hp hsm hl hr
    refine .event rfl (by simp [hp, hsm, hl]) ?_
    obtain ⟨p, b, hlock⟩ := State.lockPllM_clk_of_relock hr
    simp [hlock, Same]
  case fail =>
    intro s hp hsm hl hf hq
    have he : exec .pllFail s = Machine.event _ s
        ((s.modClk fun c => { c with pllFailEvt := true, relockDue := true, failHt := none }).log _ _ _ _ _) := rfl
    refine .event he (by simpa [hsm, hl, hf] using hp) ?_
    refine ⟨by simp, ?_, by simp [Same]⟩
    simp only [State.arbitrate_clkStat, State.log_clkStat]
    exact State.logged_log (by exact hq) rfl rfl rfl _
  case plle =>
    intro s hp hl
    refine .event rfl (by simp [hp, hl, State.locked]) ?_
    exact ⟨by simp, fun hi => by simp [hi], by simp [Same]⟩

/-! ### Coast -/

/-- The clock part at the start of a coast (R75). -/
theorem State.enterCoast_clk (s : State) :
    s.enterCoast.clk =
      { s.clk with
        coast := true, lclkPresent := false, epochValid := false, lostEvt := true, htMark := s.clk.ht, relockDue := true
        holdClk := false, pllm := .floor, plle := if s.clk.plle = .off then .off else .locking } := by
  unfold State.enterCoast
  rw [State.log_clk]
  split
  · rfl
  · rfl

theorem State.enterCoast_sticky (s : State) : s.enterCoast.host.sticky = putBit s.host.sticky 4 true := by
  unfold State.enterCoast
  rw [State.log_host]
  split
  · rfl
  · rfl

/-- Settles O6: the three phases in which a trip finds PLL-M are the three cases of the row; the return of LCLK is the case
split on
the held sequencer. What a trip before the lock is, is the model's own reading (log entries 13, 14, 113). -/
theorem coastEventsComplete : Obligations.CoastEventsComplete := by
  unfold Obligations.CoastEventsComplete
  refine ⟨fun s ha hl hp hr => ⟨?locked, ?floor, ?early⟩, fun s hl hp hr => ⟨?free, ?held⟩⟩
  case locked =>
    intro hk
    refine .event rfl (by simp [ha, hl, hp, hr]) ?_
    simp [hk, State.enterCoast_clk, State.enterCoast_sticky, Same]
  case floor =>
    intro hk
    refine .event rfl (by simp [ha, hl, hp, hr]) ?_
    simp [hk, Same]
  case early =>
    intro hk
    refine .event rfl (by simp [ha, hl, hp, hr]) ?_
    rcases hk with hk | hk
    · simp [hk, Same, State.dropStall]
    · simp [hk, Same, State.dropStall]
  case free =>
    intro hh
    refine .event rfl (by simp [hl, hp, hr]) ?_
    simp [hh, Same]
  case held =>
    intro hh
    refine .event rfl (by simp [hl, hp, hr]) ?_
    simp [hh, Same]

end Sys2Proof.Machine
end

section
/-!
PROOFS. Writes of the clock registers, gates that are forced, and Park (chapter 02).
-/

namespace Sys2Proof.Machine

open Sys2Proof

/-! ### A host write of a register without a domain -/

/-- A write of a register that belongs to no domain, once it is reached. -/
theorem State.hostWriteBusy_plain {i : Fin 64} {s : State} (h : s.Reaches i.val) (hd : s.regDom i.val = none) (w : Word)
    (busy : BitVec 12) : s.hostWriteBusy i w busy = (s.writeReg i.val w busy).finishWrite := by
  rw [State.hostWriteBusy_reaches h, State.touchReg, hd]

theorem State.hostWrite_plain {i : Fin 64} {s : State} (h : s.Reaches i.val) (hd : s.regDom i.val = none) (w : Word) :
    s.hostWrite i w = (s.writeReg i.val w 0#12).finishWrite :=
  State.hostWriteBusy_plain h hd w 0#12

/-! ### TSYNC and CLKEN -/

@[simp] theorem bitAt_flg_self (b : Bool) (k : Nat) (h : k < 32) : bitAt (flg b k) k = b := by
  simp [bitAt_flg, h]

theorem bitAt_flg_ne {j k : Nat} (h : k ≠ j) (b : Bool) : bitAt (flg b j) k = false := by
  simp [bitAt_flg, h]

/-- The clock part after a write of TSYNC, but for the phase of the modulator (R67, R71). -/
theorem State.writeTsync_clk (w : Word) (s : State) : ∃ p, (s.writeTsync w).clk =
    { s.clk with
      align := bitAt w 0, syncEvt := w1c s.clk.syncEvt w 2, syncReject := w1c s.clk.syncReject w 3, modPhase := p } := by
  unfold State.writeTsync
  dsimp only
  split
  · exact ⟨0#5, by simp⟩
  · exact ⟨s.clk.modPhase, rfl⟩

/-- Turning gates off, settling what follows and turning gates on leaves the clock part as the write of CLKEN set it (R88). -/
theorem State.writeClken_clk (w : Word) (busy : BitVec 12) (s : State) :
    (s.writeClken w busy).clk =
      { s.clk with
        clken := bits w 0 12, closing := closingAfter s.clk.clken (bits w 0 12) busy s.clk.tsc s.clk.closing } := by
  unfold State.writeClken
  extract_lets new old off on t u v
  have hu : u.clk = t.clk :=
    State.clk_of_mask (ps := [.arr, .aux, .scar, .spec, .pwr, .mgmt])
      (State.mask_foldUpto _ (fun t k => by split <;> simp) _ _) (by decide)
  have hv : v.clk = u.clk :=
    State.clk_of_mask (ps := [.harrow, .arr, .therm, .aux, .recog, .cap, .scar, .spec, .smc, .buf, .pwr, .mgmt])
      (by simp [v]) (by decide)
  calc _ = v.clk :=
        State.clk_of_mask (ps := [.harrow, .arr, .therm, .aux, .recog, .cap, .scar, .spec, .smc, .buf, .pwr, .mgmt])
          (State.mask_foldUpto _ (fun t k => by split <;> simp) _ _) (by decide)
    _ = _ := hv.trans hu

/-- The item that a write of CLKEN may hold (R94). -/
def State.heldBy (w : Word) (s : State) : State := if s.clken 6 && !bitAt w 6 then s.holdItem else s

@[simp] theorem State.heldBy_clk (w : Word) (s : State) : (s.heldBy w).clk = s.clk := by
  unfold State.heldBy
  split
  · exact State.clk_of_mask (State.mask_holdItem (ps := [.harrow, .buf, .fresh]) (by decide) (by decide) (by decide) s)
        (by decide)
  · rfl

@[simp] theorem State.mask_heldBy {ps : List Part} (h0 : Part.harrow ∈ ps) (h1 : Part.buf ∈ ps) (h2 : Part.fresh ∈ ps) (w : Word)
    (s : State) : (s.heldBy w).mask ps = s.mask ps := by
  simp [State.heldBy, h0, h1, h2]

theorem State.writeReg_clken (w : Word) (busy : BitVec 12) (s : State) :
    s.writeReg 7 w busy = (s.heldBy w).writeClken w (busy ||| (s.heldBy w).flying) := rfl

/-- A write of CLKEN leaves alone what the buses, the link and the port hold. -/
theorem State.mask_writeReg_clken (w : Word) (busy : BitVec 12) (s : State) :
    (s.writeReg 7 w busy).mask [.clk, .harrow, .arr, .therm, .aux, .recog, .cap, .scar, .spec, .smc, .buf, .pwr, .mgmt, .fresh] =
      s.mask [.clk, .harrow, .arr, .therm, .aux, .recog, .cap, .scar, .spec, .smc, .buf, .pwr, .mgmt, .fresh] := by
  rw [State.writeReg_clken]
  simp

/-! ### What waits for a gate or a domain -/

/-- Where nothing waits, nothing ends (R94). -/
theorem State.waiters_quiet {s : State} (h : s.quietFlights = true) :
    s.linkNeeds.restoreOn.stageOn.spillEnds.endWait = s := by
  simp only [State.quietFlights, Bool.and_eq_true, Option.isNone_iff_eq_none, List.isEmpty_iff] at h
  obtain ⟨⟨⟨⟨⟨hstall, hwait⟩, hposted⟩, hrestore⟩, hreq⟩, hauto⟩ := h
  have hneeds : s.linkNeeds = s := by
    have hlink : s.link = { s.link with wait := none, posted := none } := by
      rw [← hwait, ← hposted]
    simp only [State.linkNeeds, State.modLink, hwait, hposted, Option.map_none, ← hlink]
  have hrest : s.restoreOn = s := by simp [State.restoreOn, hrestore]
  have hstage : s.stageOn = s := by simp [State.stageOn, State.stageFrom, State.staging, State.inHand, hreq]
  have hspill : s.spillEnds = s := by simp [State.spillEnds, State.spilling, State.inHand, hreq, hauto]
  have hend : s.endWait = s := by simp [State.endWait, hwait]
  rw [hneeds, hrest, hstage, hspill, hend]

/-! ### A gate that is forced -/

/-- The waits for gates, read at one index (R94). -/
theorem getD_ofFn {α : Type} {n : Nat} (f : Fin n → α) (k : Nat) (d : α) :
    (Vector.ofFn f).getD k d = if h : k < n then f ⟨k, h⟩ else d := by
  by_cases h : k < n <;> simp [Vector.getD, h]

theorem State.forceGates_closing (g : Nat) (s : State) (k : Nat) :
    (s.forceGates [g]).clk.closing.getD k none = if k = g then none else s.clk.closing.getD k none := by
  simp only [State.forceGates, State.modClk_clk, getD_ofFn]
  by_cases hk : k < 12
  · simp [hk, Vector.getD]
  · simp [hk, Vector.getD]

theorem State.gateStall_of_none {s : State} (h : s.host.stall = none) (k : Nat) : s.gateStall k = s := by
  simp [State.gateStall, h]

/-- The item held over a forced gate of the buffer is gone (R94). -/
def State.dropPart (b : Fin 12) (s : State) : State := if b = 6 then s.modBuf fun x => { x with part := none } else s

section
variable (b : Fin 12) (s : State)

@[simp] theorem State.dropPart_clk : (s.dropPart b).clk = s.clk := by unfold State.dropPart; split <;> rfl
@[simp] theorem State.dropPart_host : (s.dropPart b).host = s.host := by unfold State.dropPart; split <;> rfl
@[simp] theorem State.dropPart_mgmt : (s.dropPart b).mgmt = s.mgmt := by unfold State.dropPart; split <;> rfl
@[simp] theorem State.dropPart_link : (s.dropPart b).link = s.link := by unfold State.dropPart; split <;> rfl

theorem State.dropPart_buf : (s.dropPart b).buf = if b = 6 then { s.buf with part := none } else s.buf := by
  unfold State.dropPart; split <;> rfl

@[simp] theorem State.mask_dropPart {ps : List Part} (h : Part.buf ∈ ps) : (s.dropPart b).mask ps = s.mask ps := by
  simp [State.dropPart, h]

end

/-- What a forced gate does (R94): the wait is over, the mark is set, and an access of the core in flight ends in a bus error. -/
def State.gateGone (b : Fin 12) (core : Option Word) (s : State) : State :=
  match core with
  | some a => (((s.forceGates [b.val]).stick 7).coreError a).dropPart b
  | none => ((s.forceGates [b.val]).stick 7).dropPart b

theorem State.gateGone_quiet {s : State} (h : s.quietFlights = true) (b : Fin 12) (core : Option Word) :
    (s.gateGone b core).quietFlights = true := by
  rw [← h]
  cases core <;> simp [State.gateGone, State.quietFlights, State.coreError, State.forceGates]

/-- A gate is forced where nothing waits for it but the access in flight (R94). -/
theorem exec_gateForced {s : State} {b : Fin 12} (hdue : s.forceDue b.val = true) (hlk : s.hasLk = true)
    (hq : s.quietFlights = true) (core : Option Word) :
    exec (.gateForced b core) s = .next (State.arbitrate s (s.gateGone b core)) := by
  have hstall : ((s.forceGates [b.val]).stick 7).host.stall = none := by
    simp only [State.quietFlights, Bool.and_eq_true, Option.isNone_iff_eq_none] at hq
    exact hq.1.1.1.1.1
  have hgone := State.waiters_quiet (s.gateGone_quiet hq b core)
  cases core <;>
  · simp only [exec, execGateForced, State.gateStall_of_none hstall, hdue, hlk, Bool.and_true, event_true]
    exact congrArg (fun t => Host.Outcome.next (State.arbitrate s t)) hgone

@[simp] theorem State.gateGone_clken (b : Fin 12) (core : Option Word) (s : State) :
    (s.gateGone b core).clk.clken = s.clk.clken := by
  cases core <;> simp [State.gateGone, State.coreError, State.forceGates]

@[simp] theorem State.gateGone_closing (b : Fin 12) (core : Option Word) (s : State) (k : Nat) :
    (s.gateGone b core).clk.closing.getD k none = if k = b.val then none else s.clk.closing.getD k none := by
  rw [← State.forceGates_closing]
  cases core <;> simp [State.gateGone, State.coreError]

@[simp] theorem State.gateGone_host (b : Fin 12) (core : Option Word) (s : State) :
    (s.gateGone b core).host = { s.host with sticky := putBit s.host.sticky 7 true } := by
  cases core <;> simp [State.gateGone, State.coreError, State.forceGates]

theorem State.gateGone_buf (b : Fin 12) (core : Option Word) (s : State) :
    (s.gateGone b core).buf = if b = 6 then { s.buf with part := none } else s.buf := by
  cases core <;> simp [State.gateGone, State.dropPart_buf, State.coreError, State.forceGates]

/-- A core access in flight is logged as a bus error (R94, R571). -/
theorem State.logged_gateGone {s : State} (h : s.mgmt.logQ.length < 16) (b : Fin 12) (a : Word) :
    s.Logged (State.arbitrate s (s.gateGone b (some a))) 0x09#8 0x01#8 a 0#32 0#32 := by
  have hlog := State.log_logQ (s := (s.forceGates [b.val]).stick 7) h 0x09#8 0x01#8 a 0#32 0#32
  simpa [State.Logged, State.gateGone, State.coreError, State.forceGates] using hlog

/-- Settles O8: a write of TSYNC, CLK_STAT or CLKEN is that register's own write (State.writeTsync_clk,
State.writeClken_clk), a forced
gate is State.gateGone. That a field's row writes its register, and what ends with a forced gate, are the model's own readings
(log entries 9, 19). -/
theorem clockWritesComplete : Obligations.ClockWritesComplete := by
  unfold Obligations.ClockWritesComplete
  refine ⟨?align, ?relocks, ?clken, ?core, ?free⟩
  case align =>
    intro s v h
    obtain ⟨p, hclk⟩ := s.writeTsync_clk (flg v 0)
    refine .answer (congrArg (answer s) (State.hostWrite_plain (i := 15) h rfl _)) ?_
    have hhost : (s.writeTsync (flg v 0)).host = s.host :=
      State.host_of_mask (ps := [.clk, .harrow, .aux, .buf]) (by simp) (by decide)
    simp [State.writeReg, hclk, hhost, w1c, bitAt_flg, Same]
  case relocks =>
    intro s h
    refine .answer (congrArg (answer s) (State.hostWrite_plain (i := 12) h rfl _)) ?_
    simp [State.writeReg, State.writeClkStat, w1c, bitAt_flg, Same]
  case clken =>
    intro s w busy h
    refine .answer (congrArg (answer s) (State.hostWriteBusy_plain (i := 7) h rfl w busy)) ?_
    have hm := s.mask_writeReg_clken w busy
    have hclk := State.writeClken_clk w (busy ||| (s.heldBy w).flying) (s.heldBy w)
    rw [← State.writeReg_clken, State.heldBy_clk] at hclk
    have hhost := State.host_of_mask hm (by decide)
    have hint := State.int_of_mask hm (by decide)
    have hlink := State.link_of_mask hm (by decide)
    have hmport := State.mport_of_mask hm (by decide)
    have hqueue := State.pending_of_mask hm
    exact ⟨by simp [hclk], by simp [hclk, State.heldBy], by simp [hhost], by simp [hqueue], by simp [hlink], by simp [hmport],
      by simp [hint]⟩
  case core =>
    intro s b a hdue hlk hq hlog
    refine ⟨_, exec_gateForced hdue hlk hq (some a), ?_⟩
    refine ⟨by simp, fun k hk => by simp [hk], by simp, State.logged_gateGone hlog b a, by simp, fun hb => ?_, fun hb => ?_, ?_⟩
    · simp [State.gateGone_buf, hb]
    · simp [State.gateGone_buf, hb]
    · simp [State.gateGone, Same]
  case free =>
    intro s b hdue hlk hq
    refine ⟨_, exec_gateForced hdue hlk hq none, ?_⟩
    refine ⟨by simp, fun k hk => by simp [hk], by simp, by simp, fun hb => ?_, fun hb => ?_, ?_⟩
    · simp [State.gateGone_buf, hb]
    · simp [State.gateGone_buf, hb]
    · simp [State.gateGone, Same]

end Sys2Proof.Machine
end

section
/-!
PROOFS. Park (chapter 02).
-/

namespace Sys2Proof.Machine

open Sys2Proof

/-- The clock part of a new record of the clock quality, but for the record (R73). -/
theorem State.markQuality_clk (s t : State) : ∃ q, (State.markQuality s t).clk = { t.clk with quals := q } := by
  unfold State.markQuality
  split
  · exact ⟨t.clk.quals, rfl⟩
  · exact ⟨_, rfl⟩

/-- PARK where the domains allow it (R82). -/
theorem State.parkFrame_of_ready {s : State} (h : s.parkReady = true) :
    s.parkFrame = State.markQuality s
      (s.modClk fun c => { c with park := .entering, monitorArmed := false, epochValid := false }) := by
  simp [State.parkFrame, h]

theorem State.parkFrame_of_not_ready {s : State} (h : s.parkReady = false) :
    s.parkFrame = s.modClk fun c => { c with parkRefused := true } := by
  simp [State.parkFrame, h]

@[simp] theorem State.newFrame_parkReady (s : State) : s.newFrame.parkReady = s.parkReady := rfl

/-- WAKE where Scarecrow owes no wake (R84, R85). -/
theorem State.endPark_of_none {s : State} (h : s.scar.wakeOwed = false) :
    s.endPark = (((s.modClk fun c =>
      { c with
        park := .running, monitorArmed := true, lclkPresent := true, pllm := .rising, htMark := c.ht, failHt := some c.ht }).modLink
          fun x => { x with train := false }).wakeRec 0x03#8 0x04#8) := by
  simp [State.endPark, h]

/-- A short frame with words after its header answers nothing (R516). -/
theorem exec_park_long (s : State) (addr : BitVec 5) (n : Nat) : exec (.park ⟨addr, n + 1⟩) s = .next s.newFrame := by
  simp [exec, execPark, event]

/-- Settles O9: PARK, the end of its entry and WAKE are State.parkFrame, State.enterPark and State.endPark, each taken with its
own condition. What a frame held past its header is, is the model's own reading (log entries 17, 78). -/
theorem parkCompletes : Obligations.ParkCompletes := by
  unfold Obligations.ParkCompletes
  refine ⟨fun s addr hup hname => ⟨fun hready => ?ready, fun hready => ?refused⟩, fun s addr n hup => ?long,
      fun s hpark => ?entry,
    fun s addr hpark hreset haddr howed => ?wake⟩
  case ready =>
    refine .event rfl (by simp [hup, hname]) ?_
    obtain ⟨q, hq⟩ := State.markQuality_clk s.newFrame
      (s.newFrame.modClk fun c => { c with park := .entering, monitorArmed := false, epochValid := false })
    rw [State.parkFrame_of_ready (s := s.newFrame) hready]
    simp [hq, Same]
  case refused =>
    refine .event rfl (by simp [hup, hname]) ?_
    rw [State.parkFrame_of_not_ready (s := s.newFrame) hready]
    simp [Same]
  case long =>
    exact ⟨_, exec_park_long s addr n, by simp [Same]⟩
  case entry =>
    refine .event rfl (by simp [hpark]) ?_
    have hlk : s.enterPark.hasLk = false := by simp [State.hasLk, State.enterPark, State.dropStall]
    have hsm : s.enterPark.hasSm = false := by simp [State.hasSm, State.enterPark, State.dropStall]
    simp [State.arbitrate, hlk, hsm, Same]
    simp [State.enterPark, State.dropStall]
  case wake =>
    refine .event rfl (by simpa [hpark, hreset] using haddr) ?_
    rw [State.endPark_of_none (s := s.newFrame) howed]
    simp [State.wakeRec, Same]

end Sys2Proof.Machine
end

section
/-!
PROOFS. Reset values, and the idle step (chapter 02).
-/

namespace Sys2Proof.Machine

open Sys2Proof

/-! ### Reset values -/

/-- A value that every number of a count leaves is left by the count. -/
theorem foldUpto_fixed {α : Type} {f : α → Nat → α} {a : α} (h : ∀ k, f a k = a) (n : Nat) : foldUpto f a n = a := by
  induction n with
  | zero => rfl
  | succ n ih => rw [foldUpto, ih, h]

/-- No source is in service at reset (R405). -/
theorem Intc.running_reset (x : BitVec 2) : State.reset.int.running x = 0 := by
  have hcfg (n : Nat) : State.reset.int.cfg n = {} := by
    unfold Intc.cfg
    split
    · exact Vector.getElem_replicate _
    · rfl
  exact foldUpto_fixed (fun n => by simp [Intc.servedAt, hcfg]) 48

/-- Settles O57: each register's word at reset is evaluated. -/
theorem resetValues : Obligations.ResetValues := by
  unfold Obligations.ResetValues
  refine ⟨by decide, by decide, by decide, by decide, by decide, by decide, ?thresh, by decide, by decide, by decide, by decide,
    by decide, by decide, by decide, rfl, ?_, ?_⟩
  case thresh =>
    simp only [State.readReg, State.intThresh, Intc.running_reset]
    decide
  · intro d
    cases d <;> decide
  · decide

/-! ### What an operation of the array leaves of the domains -/

/-- A demand marks a domain; it does not move it (R423). -/
@[simp] theorem State.isOn_demand (d e : Dom) (s : State) : (s.demand d).isOn e = s.isOn e := by
  have hmod : ∀ f : Domain → Domain, (∀ x, (f x).st = x.st) → (s.modDom d f).isOn e = s.isOn e := by
    intro f hf
    simp only [State.isOn, State.dom_modDom]
    split <;> simp_all
  unfold State.demand
  split
  · exact hmod _ fun _ => rfl
  · exact hmod _ fun _ => rfl
  · exact hmod _ fun _ => rfl
  · split
    · rfl
    · exact hmod _ fun _ => rfl
  · rfl

@[simp] theorem State.isOn_log (cls code : BitVec 8) (d0 d1 d2 : Word) (s : State) (e : Dom) :
    (s.log cls code d0 d1 d2).isOn e = s.isOn e := by
  simp [State.isOn]

@[simp] theorem State.isOn_modArr (f : Arr → Arr) (s : State) (e : Dom) : (s.modArr f).isOn e = s.isOn e := rfl
@[simp] theorem State.isOn_modClk (f : Clk → Clk) (s : State) (e : Dom) : (s.modClk f).isOn e = s.isOn e := rfl
@[simp] theorem State.isOn_modCluster (i : Nat) (f : Cluster → Cluster) (s : State) (e : Dom) :
    (s.modCluster i f).isOn e = s.isOn e := rfl
@[simp] theorem State.isOn_modRotation (i : Nat) (f : Rotation → Rotation) (s : State) (e : Dom) :
    (s.modRotation i f).isOn e = s.isOn e := rfl

@[simp] theorem State.isOn_mapChanged (s : State) (e : Dom) : s.mapChanged.isOn e = s.isOn e := by
  unfold State.mapChanged
  dsimp only
  split <;> simp

@[simp] theorem State.isOn_setUnit (u : Nat) (quiet commit : Bool) (f : UnitHealth → UnitHealth) (s : State) (e : Dom) :
    (s.setUnit u quiet commit f).isOn e = s.isOn e := by
  unfold State.setUnit
  dsimp only
  split <;> split <;> simp

@[simp] theorem State.isOn_fill (i n : Nat) (s : State) (e : Dom) : (State.fill i n s).isOn e = s.isOn e := by
  induction n generalizing s with
  | zero => rfl
  | succ n ih =>
    unfold State.fill
    split
    · split
      · rw [ih, State.isOn_setUnit]
      · rfl
    · rfl

@[simp] theorem State.isOn_startRetrim (i : Nat) (s : State) (e : Dom) : (s.startRetrim i).isOn e = s.isOn e := by
  unfold State.startRetrim
  split
  · rfl
  · split <;> rfl

@[simp] theorem State.isOn_bringBack (i : Nat) (s : State) (e : Dom) : (s.bringBack i).isOn e = s.isOn e := by
  refine foldl_keeps (fun t : State => t.isOn e = s.isOn e) (fun t u ht => ?_) _ rfl
  dsimp only
  rw [← ht]
  split
  · split
    · exact State.isOn_setUnit _ _ _ _ _ _
    · rfl
  · split
    · exact State.isOn_setUnit _ _ _ _ _ _
    · rfl

@[simp] theorem State.isOn_settleArray (s t : State) (e : Dom) : (State.settleArray s t).isOn e = t.isOn e := by
  simp [State.isOn, State.dom_congr (State.pwr_of_mask (State.mask_settleArray (ps := [.arr, .mgmt]) (by decide)
      (by decide) s t) (by decide))]

@[simp] theorem State.isOn_endIsolation (i : Nat) (found : Bisection) (s : State) (e : Dom) :
    (s.endIsolation i found).isOn e = s.isOn e := by
  unfold State.endIsolation
  dsimp only
  rw [State.isOn_settleArray]
  split
  · split <;> simp [State.fillCluster]
  · simp
  · simp

@[simp] theorem State.isOn_tickIsolation (i : Nat) (s : State) (e : Dom) : (s.tickIsolation i).isOn e = s.isOn e := by
  unfold State.tickIsolation
  split
  · rfl
  · split
    · rfl
    · split <;> simp

@[simp] theorem State.isOn_tickIsolations (s : State) (e : Dom) : s.tickIsolations.isOn e = s.isOn e := by
  unfold State.tickIsolations
  split
  · rfl
  · exact foldl_keeps (fun t : State => t.isOn e = s.isOn e) (fun t i ht => by rw [State.isOn_tickIsolation, ht]) _ rfl

/-! ### The idle step -/

/-- A step on an empty queue is the idle step (R54). -/
theorem step_idle {s : State} (h : s.pending = []) : step s = .next s.idle := by
  unfold step
  simp [h]

theorem State.tickIsolations_of_none {s : State} (h : ∀ i < 36, (s.cluster i).iso = none) : s.tickIsolations = s := by
  have hall : ((List.range 36).all fun i => (s.cluster i).iso.isNone) = true := by
    simpa [List.all_eq_true] using h
  simp only [State.tickIsolations, hall, if_true]

theorem State.tickTherm_of_off {s : State} (h : s.isOn .th = false) : s.tickTherm = s := by
  simp [State.tickTherm, h]

theorem State.tickItem_of_none {s : State} (h : s.buf.part = none) : s.tickItem = s := by
  simp [State.tickItem, h]

/-- A tick within a Headland period (R54). -/
theorem State.tickClock_within {s : State} (h : s.clk.htSub + 1 < s.htPeriod) :
    s.tickClock = s.modClk fun c => { c with tsc := c.tsc + 1#64, htSub := c.htSub + 1 } := by
  simp [State.tickClock, h, State.modClk]

/-- The clock and the host part of State.tickHt (R54, R335, R429). -/
theorem State.tickHt_clk (s : State) :
    s.tickHt.clk = { s.clk with htSub := 0, ht := s.clk.ht + 1, htLog := s.tickHt.clk.htLog } := by
  unfold State.tickHt
  dsimp only
  split <;> simp [State.tickHost]

theorem State.tickHt_host (s : State) :
    s.tickHt.host = { s.host with stall := if Config.strobeRaised s.clk.ht then none else s.host.stall, gMach := 0#8 } := by
  unfold State.tickHt
  dsimp only
  split <;> simp [State.tickHost]

/-- The tick that ends a Headland period (R54): it counts a Headland tick. -/
theorem State.tickClock_end {s : State} (h : s.htPeriod ≤ s.clk.htSub + 1) :
    s.tickClock = ((s.modClk fun c => { c with tsc := c.tsc + 1#64 }).tickHt.tickRails.tickPort.samplePins.tickIdle) := by
  simp [State.tickClock, Nat.not_lt.mpr h]

theorem State.tickClock_end_clk {s : State} (h : s.htPeriod ≤ s.clk.htSub + 1) :
    s.tickClock.clk =
      { s.clk with tsc := s.clk.tsc + 1#64, htSub := 0, ht := s.clk.ht + 1, htLog := s.tickClock.clk.htLog } := by
  have hclk : s.tickClock.clk = (s.modClk fun c => { c with tsc := c.tsc + 1#64 }).tickHt.clk := by
    rw [State.tickClock_end h]
    exact State.clk_of_mask (ps := [.pwr, .fresh, .arr, .mport, .mgmt, .host]) (by simp) (by decide)
  rw [hclk]
  exact State.tickHt_clk _

theorem State.tickClock_end_host {s : State} (h : s.htPeriod ≤ s.clk.htSub + 1) :
    s.tickClock.host = { s.host with
      gIn := s.tickClock.host.gIn, stall := if Config.strobeRaised s.clk.ht then none else s.host.stall, gMach := 0#8 } := by
  have hpins : ∀ t : State, t.samplePins.host = { t.host with gIn := t.samplePins.host.gIn } := by
    intro t
    unfold State.samplePins
    split <;> rfl
  have hhost : (s.modClk fun c => { c with tsc := c.tsc + 1#64 }).tickHt.tickRails.tickPort.host =
      (s.modClk fun c => { c with tsc := c.tsc + 1#64 }).tickHt.host :=
    State.host_of_mask (ps := [.pwr, .fresh, .arr, .mport, .mgmt]) (by simp) (by decide)
  have hidle : s.tickClock.host =
      (s.modClk fun c => { c with tsc := c.tsc + 1#64 }).tickHt.tickRails.tickPort.samplePins.host := by
    rw [State.tickClock_end h]
    exact State.host_of_mask (ps := [.pwr]) (by simp) (by decide)
  rw [hidle, hpins, hhost, State.tickHt_host]
  rfl

/-- What a tick does besides the clock (R127, R148, R387): isolations, the thermal hold, the item in hand. -/
def State.tickRest (s : State) : State := s.tickIsolations.tickTherm.tickItem

theorem State.idle_of_sm {s : State} (h : s.hasSm = true) : s.idle = State.arbitrate s s.tickClock.tickRest := by
  simp [State.idle, h, State.tickRest]

/-- The clock part after the rest of a tick: an item that ends closes a gate that waits for it (R94). -/
theorem State.tickRest_clk (s : State) : s.tickRest.clk = { s.clk with closing := s.tickRest.clk.closing } := by
  have hclk : s.tickIsolations.tickTherm.clk = s.clk :=
    State.clk_of_mask (ps := [.arr, .pwr, .therm, .mgmt, .fresh]) (by simp) (by decide)
  have hend : ∀ t : State, (t.endItem.endFlight [6]).clk = { t.clk with closing := (t.endItem.endFlight [6]).clk.closing } := by
    intro t
    have ht : t.endItem.clk = t.clk := State.clk_of_mask (ps := [.buf]) (by simp) (by decide)
    simp [State.endFlight, ht]
  have hitem : ∀ t : State, t.tickItem.clk = { t.clk with closing := t.tickItem.clk.closing } := by
    intro t
    unfold State.tickItem
    split
    · rfl
    · extract_lets done
      split
      · exact hend t
      · rfl
  calc s.tickRest.clk = { s.tickIsolations.tickTherm.clk with closing := s.tickRest.clk.closing } := hitem _
    _ = _ := by rw [hclk]

theorem State.tickRest_host (s : State) : s.tickRest.host = s.host :=
  State.host_of_mask (ps := [.arr, .pwr, .therm, .mgmt, .fresh, .clk, .buf]) (by simp [State.tickRest]) (by decide)

theorem State.tickRest_mport (s : State) : s.tickRest.mport = s.mport :=
  State.mport_of_mask (ps := [.arr, .pwr, .therm, .mgmt, .fresh, .clk, .buf]) (by simp [State.tickRest]) (by decide)

theorem State.tickRest_of_no_item {s : State} (h : s.buf.part = none) : s.tickRest = s.tickIsolations.tickTherm := by
  have hbuf : s.tickIsolations.tickTherm.buf = s.buf :=
    State.buf_of_mask (ps := [.arr, .pwr, .therm, .mgmt, .fresh]) (by simp) (by decide)
  exact State.tickItem_of_none (by rw [hbuf, h])

theorem State.tickRest_therm_of_off {s : State} (h : s.isOn .th = false) : s.tickRest.therm = s.therm := by
  rw [State.tickRest, State.tickTherm_of_off (by simp [h])]
  exact State.therm_of_mask (ps := [.arr, .pwr, .mgmt, .clk, .buf]) (by simp) (by decide)

theorem State.tickRest_arr_of_none {s : State} (h : ∀ i < 36, (s.cluster i).iso = none) :
    s.tickRest.arr = s.arr ∧ s.tickRest.pwr = s.pwr := by
  have hm : s.tickRest.mask [.therm, .mgmt, .fresh, .clk, .buf] = s.mask [.therm, .mgmt, .fresh, .clk, .buf] := by
    rw [State.tickRest, State.tickIsolations_of_none h]
    simp
  exact ⟨State.arr_of_mask hm (by decide), State.pwr_of_mask hm (by decide)⟩

/-- A period of HT has 6000 SM ticks where PLL-M is locked (R54). -/
theorem State.htPeriod_of_locked {s : State} (h : s.clk.pllm = .locked) : s.htPeriod = 6000 := by
  simp [State.htPeriod, State.htExact, State.locked, h]

/-- Settles O2: an idle step is State.tickClock and State.tickRest; the tick within a Headland period and the one that ends it are
told apart by State.htPeriod. That an idle step is a tick is the model's own reading (log entry 2). -/
theorem idleStepIsOneTick : Obligations.IdleStepIsOneTick := by
  unfold Obligations.IdleStepIsOneTick
  intro s hpend
  refine ⟨s.idle, step_idle hpend, ?same, fun hsm => by simp [State.idle, hsm], fun hsm => ?ticks⟩
  case same =>
    unfold State.idle
    split
    · simp [Same]
    · rfl
  case ticks =>
    simp only [State.idle_of_sm hsm, State.arbitrate_clk, State.arbitrate_buf, State.arbitrate_host, State.arbitrate_mport,
      State.arbitrate_therm, State.arbitrate_arr, State.arbitrate_pwr]
    have hclk := State.tickRest_clk s.tickClock
    have hhost := State.tickRest_host s.tickClock
    refine ⟨?tsc, fun hin => ?within, fun hend => ?ends, State.htPeriod_of_locked⟩
    case tsc =>
      rw [hclk]
      rcases Nat.lt_or_ge (s.clk.htSub + 1) s.htPeriod with hin | hend
      · simp [State.tickClock_within hin]
      · rw [State.tickClock_end_clk hend]
    case within =>
      have hw := State.tickClock_within hin
      have harr := fun h => State.tickRest_arr_of_none (s := s.tickClock) h
      refine ⟨fun hpart => ?_, ?_, ?_, ?_, fun hth => ?_, fun hiso => ?_⟩
      · rw [State.tickRest_of_no_item (by simp [hw, hpart]), hw]
        have hm : ∀ t : State, t.tickIsolations.tickTherm.mask [.arr, .pwr, .therm, .mgmt, .fresh] =
            t.mask [.arr, .pwr, .therm, .mgmt, .fresh] := fun t => by simp
        exact ⟨State.clk_of_mask (hm _) (by decide), (State.buf_of_mask (hm _) (by decide)).trans rfl⟩
      · rw [hclk, hw]; rfl
      · rw [hhost, hw]; rfl
      · rw [State.tickRest_mport, hw]; rfl
      · rw [State.tickRest_therm_of_off (by simp [hw, hth]), hw]; rfl
      · rw [hw] at harr ⊢
        exact harr hiso
    case ends =>
      have hc := State.tickClock_end_clk hend
      have hh := State.tickClock_end_host hend
      refine ⟨?_, ?_, ?_⟩
      · rw [hclk, hc]
      · rw [hhost, hh]
      · rw [hhost, hh]
        dsimp only
        split
        · exact .inr rfl
        · exact .inl rfl

end Sys2Proof.Machine
end

section
/-!
PROOFS. The drive window and the die checks (chapters 01, 03, 04).
-/

namespace Sys2Proof.Machine

open Sys2Proof

/-! ### Settling where no unit enters or leaves a sum -/

/-- A step that touches neither the units nor the audits moves no gain trim (R98). -/
theorem State.trimsAfter_same {s t : State} (hu : t.arr.units = s.arr.units) (hr : t.arr.rot = s.arr.rot) :
    State.trimsAfter s t = t := by
  have hunit : ∀ u, t.unit u = s.unit u := State.unit_congr hu
  have hrot : ∀ r, t.rotation r = s.rotation r := State.rotation_congr hr
  have hsum : ∀ u, t.inSum u = s.inSum u := by
    intro u
    simp only [State.inSum, State.leaving, hunit, hrot]
  have hsens : ∀ i, t.sumSens i = s.sumSens i := by
    intro i
    simp only [State.sumSens, hunit, hsum]
  unfold State.trimsAfter
  exact foldl_keeps (fun u : State => u = t) (fun u i h => by simp [hsum, hsens, h]) _ rfl

theorem State.settleArray_cl_same {s t : State} (hu : t.arr.units = s.arr.units) (hr : t.arr.rot = s.arr.rot) :
    (State.settleArray s t).arr.cl = t.arr.cl := by
  rw [State.settleArray_arr, State.trimsAfter_same hu hr]

theorem State.cluster_settleArray_same {s t : State} (hu : t.arr.units = s.arr.units) (hr : t.arr.rot = s.arr.rot) (i : Nat) :
    (State.settleArray s t).cluster i = t.cluster i :=
  State.cluster_congr (State.settleArray_cl_same hu hr) i

/-! ### The state of a cluster -/

/-- The state of a cluster is a function of the array part (R101, R157). -/
theorem State.clusterState_congr {s t : State} (h : t.arr = s.arr) (i : Nat) : t.clusterState i = s.clusterState i := by
  calc t.clusterState i = State.clusterState { s with arr := t.arr } i := rfl
    _ = s.clusterState i := by rw [h]

/-- A cluster that the drive window excludes is Excluded, but for one that is Isolating (R108, R148). -/
theorem State.clusterState_driveExcl {s : State} {i : Nat} (hi : i < 36) (hiso : (s.cluster i).iso = none)
    (h : (s.cluster i).driveExcl = true) : s.clusterState i = 2#2 := by
  have hx : s.xcause i ≠ 0#3 := by
    rw [State.xcause, if_neg (Nat.not_le.mpr hi)]
    split
    · simp
    · simp
  simp [State.clusterState, Nat.not_le.mpr hi, hiso, hx]

/-! ### Faults of a die -/

theorem State.setDieFault_arr (die : Die) (check : DieCheck) (v : Bool) (s : State) :
    (s.setDieFault die check v).arr.units = s.arr.units ∧ (s.setDieFault die check v).arr.rot = s.arr.rot ∧
    (s.setDieFault die check v).arr.cl = s.arr.cl := by
  cases die <;> cases check <;> exact ⟨rfl, rfl, rfl⟩

theorem State.dieFault_setDieFault (die : Die) (check c : DieCheck) (v : Bool) (s : State) :
    ((s.setDieFault die check v).dieFault die).get c = if c = check then v else (s.dieFault die).get c := by
  cases die <;> cases check <;> cases c <;> rfl

theorem State.setDieFault_evt (die : Die) (check : DieCheck) (v : Bool) (s : State) :
    (check = .temperature → (s.setDieFault die check v).arr.tempEvt = true) ∧
    (check = .pressure → (s.setDieFault die check v).arr.cavEvt = true) := by
  cases check <;> simp [State.setDieFault]

@[simp] theorem State.dieFault_settleArray (s t : State) (die : Die) : (State.settleArray s t).dieFault die = t.dieFault die := by
  cases die <;> simp [State.dieFault]

@[simp] theorem State.dieFault_arbitrate (s t : State) (die : Die) : (State.arbitrate s t).dieFault die = t.dieFault die := by
  cases die <;> simp [State.dieFault]

/-- What a set or cleared fault of a die leaves (R163). -/
theorem State.dieFault_after (die : Die) (check : DieCheck) (v : Bool) (s : State) :
    let t := State.arbitrate s (State.settleArray s (s.setDieFault die check v))
    (t.dieFault die).get check = v ∧ (∀ c, c ≠ check → (t.dieFault die).get c = (s.dieFault die).get c) ∧
      (check = .temperature → t.arr.tempEvt = true) ∧ (check = .pressure → t.arr.cavEvt = true) ∧
      t.arr.units = s.arr.units ∧ t.arr.cl = s.arr.cl ∧ Same [.arr, .mgmt, .int] s t := by
  obtain ⟨hu, hr, hc⟩ := s.setDieFault_arr die check v
  obtain ⟨htemp, hcav⟩ := s.setDieFault_evt die check v
  refine ⟨by simp [State.dieFault_setDieFault], fun c hne => by simp [State.dieFault_setDieFault, hne], ?_, ?_, ?_, ?_, ?_⟩
  · simpa using htemp
  · simpa using hcav
  · simpa using hu
  · simpa [State.settleArray_cl_same hu hr] using hc
  · simp [Same]

/-- Settles O10: each row settles one change of a cluster or of a die. What a measurement outside its range is, is the model's
own reading (log entries 11, 29). -/
theorem windowAndDieEventsComplete : Obligations.WindowAndDieEventsComplete := by
  unfold Obligations.WindowAndDieEventsComplete
  have hcl : ∀ (s : State) (g : Fin 12) (f : Cluster → Cluster) (i : Nat),
      (State.arbitrate s (State.settleArray s (s.modCluster (24 + g.val) f))).cluster i = (s.modCluster
          (24 + g.val) f).cluster i := by
    intro s g f i
    rw [State.cluster_arbitrate]
    exact State.cluster_settleArray_same (by simp) (by simp) i
  refine ⟨fun s g hon hexcl hiso => ?exclude, fun s g hon hexcl => ?include_, fun s die check hex hon => ⟨fun h => ?set,
      fun h => ?clear⟩⟩
  case exclude =>
    refine .event rfl (by simp [hon, hexcl]) ⟨?_, ?_, fun i hi => ?_, by simp, by simp [Same]⟩
    · rw [hcl, State.cluster_modCluster_self (by omega)]
    · rw [State.clusterState_congr (State.arbitrate_arr _ _)]
      refine State.clusterState_driveExcl (by omega) ?_ ?_ <;>
        rw [← State.cluster_arbitrate s, hcl, State.cluster_modCluster_self (by omega)]
      exact hiso
    · rw [hcl, State.cluster_modCluster_ne (Ne.symm hi)]
  case include_ =>
    refine .event rfl (by simp [hon, hexcl]) ⟨?_, fun i hi => ?_, by simp, by simp [Same]⟩
    · rw [hcl, State.cluster_modCluster_self (by omega)]
    · rw [hcl, State.cluster_modCluster_ne (Ne.symm hi)]
  case set => exact .event rfl (by simp [hex, hon, h]) (s.dieFault_after die check true)
  case clear => exact .event rfl (by simp [hex, hon, h]) (s.dieFault_after die check false)

end Sys2Proof.Machine
end

section
/-!
PROOFS. The thermal hold (chapter 03).
-/

namespace Sys2Proof.Machine

open Sys2Proof

/-! ### The regulator -/

@[simp] theorem gradientHigh_eq (g : BitVec 6) : gradientHigh g = decide (10 < g.toNat) := rfl

/-- Whether the regulator runs is a function of the hold, its gate and its domain (R118). -/
theorem State.regulating_congr {s t : State} (ht : t.therm = s.therm) (hc : t.clk.clken = s.clk.clken)
    (hp : t.isOn .th = s.isOn .th) : t.regulating = s.regulating := by
  simp only [State.regulating, State.thermRuns, State.clken, ht, hc, hp]

/-- THERM_STAT is a function of the hold, its gate and its domain (R127). -/
theorem State.thermStat_congr {s t : State} (ht : t.therm = s.therm) (hc : t.clk.clken = s.clk.clken)
    (hp : t.isOn .th = s.isOn .th) : t.thermStat = s.thermStat := by
  simp only [State.thermStat, State.regulating_congr ht hc hp, ht]

@[simp] theorem State.isOn_modTherm (f : Therm → Therm) (s : State) (d : Dom) : (s.modTherm f).isOn d = s.isOn d := rfl

@[simp] theorem State.isOn_arbitrate (s t : State) (d : Dom) : (State.arbitrate s t).isOn d = t.isOn d := by simp [State.isOn]

@[simp] theorem State.regulating_arbitrate (s t : State) : (State.arbitrate s t).regulating = t.regulating :=
  State.regulating_congr (by simp) (by simp) (by simp)

@[simp] theorem State.thermStat_arbitrate (s t : State) : (State.arbitrate s t).thermStat = t.thermStat :=
  State.thermStat_congr (by simp) (by simp) (by simp)

@[simp] theorem State.regulating_log (cls code : BitVec 8) (d0 d1 d2 : Word) (s : State) :
    (s.log cls code d0 d1 d2).regulating = s.regulating :=
  State.regulating_congr (by simp) (by simp) (by simp)

@[simp] theorem State.thermStat_log (cls code : BitVec 8) (d0 d1 d2 : Word) (s : State) :
    (s.log cls code d0 d1 d2).thermStat = s.thermStat :=
  State.thermStat_congr (by simp) (by simp) (by simp)

theorem State.thermSettle_therm (s : State) : s.thermSettle.therm =
    if s.regulating then s.therm else { s.therm with ready := false, saturated := false, good := 0 } := by
  unfold State.thermSettle
  split <;> rfl

@[simp] theorem State.thermSettle_clk (s : State) : s.thermSettle.clk = s.clk := by unfold State.thermSettle; split <;> rfl
@[simp] theorem State.thermSettle_mgmt (s : State) : s.thermSettle.mgmt = s.mgmt := by unfold State.thermSettle; split <;> rfl
@[simp] theorem State.isOn_thermSettle (s : State) (d : Dom) : s.thermSettle.isOn d = s.isOn d := by
  unfold State.thermSettle; split <;> rfl

/-- A cut of the heaters stops the regulator, whatever else holds (R124). -/
theorem State.not_regulating_of_latch {s : State} (h : s.therm.faultLatch = true) : s.regulating = false := by
  simp [State.regulating, h]

/-! ### Events of the hold -/

/-- The hold after an event (R124): its code, its event bit, READY off, and the cut for the codes 1 to 3. -/
def Therm.event (ev : ThermEvent) (x : Therm) : Therm :=
  { x with fault := thermCode ev, faultEvt := true, ready := false, good := 0,
           faultLatch := x.faultLatch || thermCode ev != 0#2 }

theorem State.thermEvent_eq (ev : ThermEvent) (s : State) : s.thermEvent ev =
    (s.modTherm (Therm.event ev)).thermSettle.log 0x0B#8 0x01#8 (s.modTherm
        (Therm.event ev)).thermSettle.thermStat 0#32 0#32 := rfl

/-- An event leaves SATURATED where the regulator runs on, and clears it where not (R123, R124). -/
theorem State.thermEvent_therm (ev : ThermEvent) (s : State) :
    (s.thermEvent ev).therm = s.therm.event ev ∨ (s.thermEvent ev).therm = { s.therm.event ev with saturated := false } := by
  rw [State.thermEvent_eq, State.log_therm, State.thermSettle_therm]
  split
  · exact .inl rfl
  · exact .inr rfl

@[simp] theorem State.thermEvent_regulating_of_cut {ev : ThermEvent} (h : ev ≠ .gradient) (s : State) :
    (s.thermEvent ev).regulating = false := by
  refine State.not_regulating_of_latch ?_
  have hcode : (thermCode ev != 0#2) = true := by
    cases ev with
    | gradient => contradiction
    | overtemperature | disagreement | heater => rfl
  rcases s.thermEvent_therm ev with he | he <;> simp [he, Therm.event, hcode]

/-- The record of an event shows THERM_STAT as the event leaves it (R125). -/
theorem State.logged_thermEvent (ev : ThermEvent) {s t : State} (h : s.mgmt.logQ.length < 16) (hm : t.mgmt = s.mgmt)
    (hc : t.clk = s.clk) :
    s.Logged (State.arbitrate s (t.thermEvent ev)) 0x0B#8 0x01#8 (State.arbitrate s (t.thermEvent ev)).thermStat 0#32 0#32 := by
  rw [State.thermStat_arbitrate, State.thermEvent_eq, State.thermStat_log]
  exact State.logged_log (by simpa [hm] using h) (by simp [hm]) (by simp [hc]) (by simp [hc]) s

/-! ### THERM_CTRL -/

/-- The hold after a write of THERM_CTRL, before what it runs on settles (R118, R122, R124). -/
def Therm.writeCtrl (w : Word) (x : Therm) : Therm :=
  let y := { x with enable := bitAt w 0, setpoint := bits w 8 8 }
  let y := if bitAt w 0 && !x.enable then { y with faultLatch := false } else y
  if y.effective = x.effective then y else { y with ready := false, good := 0 }

theorem Therm.writeCtrl_fields (w : Word) (x : Therm) :
    (x.writeCtrl w).enable = bitAt w 0 ∧ (x.writeCtrl w).setpoint = bits w 8 8 ∧
    ((x.writeCtrl w).effective ≠ x.effective → (x.writeCtrl w).ready = false) ∧
    (bitAt w 0 = true → x.enable = false → (x.writeCtrl w).faultLatch = false) ∧
    (x.writeCtrl w).maxCode = x.maxCode ∧ (x.writeCtrl w).power = x.power ∧ (x.writeCtrl w).readyEvt = x.readyEvt := by
  unfold Therm.writeCtrl
  dsimp only
  split <;> split <;> simp_all

theorem State.writeThermCtrl_eq (w : Word) (s : State) : s.writeThermCtrl w = (s.modTherm (Therm.writeCtrl w)).thermSettle := rfl

/-- A write of THERM_CTRL (R118, R122, R124). -/
theorem State.writeThermCtrl_therm (w : Word) (s : State) :
    let t := s.writeThermCtrl w
    t.therm.enable = bitAt w 0 ∧ t.therm.setpoint = bits w 8 8 ∧
    (t.therm.effective ≠ s.therm.effective → t.therm.ready = false) ∧
    (bitAt w 0 = true → s.therm.enable = false → t.therm.faultLatch = false) ∧
    t.therm.maxCode = s.therm.maxCode ∧ t.therm.power = s.therm.power ∧ t.therm.readyEvt = s.therm.readyEvt := by
  have hw := s.therm.writeCtrl_fields w
  rw [State.writeThermCtrl_eq]
  dsimp only
  rw [State.thermSettle_therm]
  split
  · exact hw
  · obtain ⟨hen, hset, -, hlatch, hmax, hpow, hevt⟩ := hw
    exact ⟨hen, hset, fun _ => rfl, hlatch, hmax, hpow, hevt⟩

/-! ### Measurements -/

/-- The hold with a measurement (R121, R127). -/
def State.withMeasure (g : BitVec 6) (p : BitVec 16) (s : State) : State :=
  s.modTherm fun x =>
    { x with gradient := g, tplat := p,
             good := if s.regulating && !gradientHigh g && x.near p 5 then x.good + 1 else 0 }

@[simp] theorem State.withMeasure_mgmt (g : BitVec 6) (p : BitVec 16) (s : State) : (s.withMeasure g p).mgmt = s.mgmt := rfl
@[simp] theorem State.withMeasure_clk (g : BitVec 6) (p : BitVec 16) (s : State) : (s.withMeasure g p).clk = s.clk := rfl

/-- A measurement that is too hot cuts the heaters (R124). -/
theorem State.thermMeasured_of_hot {s : State} {g : BitVec 6} {p : BitVec 16} (hr : s.regulating = true)
    (hh : s.therm.tooHot p = true) : s.thermMeasured g p = (s.withMeasure g p).thermEvent .overtemperature := by
  simp [State.thermMeasured, State.withMeasure, hr, hh]

/-- A gradient while READY is 1 is an event of its own (R124). -/
theorem State.thermMeasured_of_gradient {s : State} {g : BitVec 6} {p : BitVec 16} (hr : s.regulating = true)
    (hh : s.therm.tooHot p = false) (hready : s.therm.ready = true) (hg : 10 < g.toNat) :
    s.thermMeasured g p = (s.withMeasure g p).thermEvent .gradient := by
  simp [State.thermMeasured, State.withMeasure, hr, hh, hready, hg]

/-- A deviation while READY is 1 clears READY (R121). -/
theorem State.thermMeasured_of_far {s : State} {g : BitVec 6} {p : BitVec 16} (hr : s.regulating = true)
    (hh : s.therm.tooHot p = false) (hready : s.therm.ready = true) (hg : g.toNat ≤ 10) (hn : s.therm.near p 10 = false) :
    s.thermMeasured g p = (s.withMeasure g p).modTherm fun x => { x with ready := false } := by
  simp [State.thermMeasured, State.withMeasure, hr, hh, hready, hn, Nat.not_lt.mpr hg]

/-- Every measurement shows its values and raises no SATURATED (R123, R127). -/
theorem State.thermMeasured_therm (g : BitVec 6) (p : BitVec 16) (s : State) :
    (s.thermMeasured g p).therm.gradient = g ∧ (s.thermMeasured g p).therm.tplat = p ∧
    (s.thermMeasured g p).therm.sub = s.therm.sub ∧
    ((s.thermMeasured g p).therm.saturated = true → s.therm.saturated = true) := by
  have hev (ev : ThermEvent) : ((s.withMeasure g p).thermEvent ev).therm.gradient = g ∧
      ((s.withMeasure g p).thermEvent ev).therm.tplat = p ∧ ((s.withMeasure g p).thermEvent ev).therm.sub = s.therm.sub ∧
      (((s.withMeasure g p).thermEvent ev).therm.saturated = true → s.therm.saturated = true) := by
    rcases (s.withMeasure g p).thermEvent_therm ev with he | he <;>
    · rw [he]
      simp [Therm.event, State.withMeasure]
  have heq : s.thermMeasured g p =
      if s.regulating && s.therm.tooHot p then (s.withMeasure g p).thermEvent .overtemperature
      else if !(s.regulating && s.therm.ready) then s.withMeasure g p
      else if gradientHigh g then (s.withMeasure g p).thermEvent .gradient
      else if s.therm.near p 10 then s.withMeasure g p
      else (s.withMeasure g p).modTherm fun x => { x with ready := false } := rfl
  rw [heq]
  split
  · exact hev _
  split
  · exact ⟨rfl, rfl, rfl, id⟩
  split
  · exact hev _
  split
  · exact ⟨rfl, rfl, rfl, id⟩
  · exact ⟨rfl, rfl, rfl, id⟩

/-! ### The millisecond of the hold -/

/-- What a millisecond sets before its measurement (R123, R127). -/
def State.thermSample (s : State) : State :=
  ({ s with fresh := s.fresh + 1 }).modTherm fun x =>
    { x with sub := 0,
             integ := if s.regulating then Config.regulator x.integ (Config.platGradient s.fresh)
                 (Config.platMean s.fresh) else x.integ,
             saturated := x.saturated && Config.heaterAtMax s.fresh }

theorem State.tickTherm_within {s : State} (hon : s.isOn .th = true) (h : s.therm.sub + 1 < 196608) :
    s.tickTherm = s.modTherm fun x => { x with sub := x.sub + 1 } := by
  simp [State.tickTherm, hon, h]

theorem State.tickTherm_sample {s : State} (hon : s.isOn .th = true) (h : 196608 ≤ s.therm.sub + 1) :
    s.tickTherm = s.thermSample.thermMeasured (Config.platGradient s.fresh) (Config.platMean s.fresh) := by
  simp [State.tickTherm, State.thermSample, hon, Nat.not_lt.mpr h]

@[simp] theorem State.thermSample_regulating (s : State) : s.thermSample.regulating = s.regulating := rfl

/-- A millisecond of the hold: a measurement, its values in THERM_STAT, SATURATED kept only at the maximum drive (R123, R124,
R127). -/
theorem State.tickTherm_sampled {s : State} (hon : s.isOn .th = true) (h : 196608 ≤ s.therm.sub + 1) :
    s.tickTherm.therm.sub = 0 ∧ s.tickTherm.therm.gradient = Config.platGradient s.fresh ∧
    s.tickTherm.therm.tplat = Config.platMean s.fresh ∧
    (s.tickTherm.therm.saturated = true → s.therm.saturated = true ∧ Config.heaterAtMax s.fresh = true) ∧
    (s.regulating = true → s.therm.tooHot s.tickTherm.therm.tplat = true →
      s.tickTherm.therm.fault = 1#2 ∧ s.tickTherm.therm.faultEvt = true ∧ s.tickTherm.therm.faultLatch = true ∧
      s.tickTherm.therm.ready = false) := by
  rw [State.tickTherm_sample hon h]
  obtain ⟨hg, hp, hsub, hsat⟩ := s.thermSample.thermMeasured_therm (Config.platGradient s.fresh) (Config.platMean s.fresh)
  refine ⟨hsub, hg, hp, fun hs => ?_, fun hr hh => ?_⟩
  · simpa [State.thermSample] using hsat hs
  · rw [hp] at hh
    rw [State.thermMeasured_of_hot (s := s.thermSample) hr hh]
    rcases (s.thermSample.withMeasure _ _).thermEvent_therm .overtemperature with he | he <;>
    · rw [he]
      simp [Therm.event, thermCode]

/-! ### The domains over a tick -/

@[simp] theorem State.isOn_tickIdle (s : State) (e : Dom) : s.tickIdle.isOn e = s.isOn e := by
  have hone : ∀ (d : Dom) (t : State), (t.idleTick d).isOn e = t.isOn e := by
    intro d t
    simp only [State.idleTick, State.isOn, State.dom_modDom]
    split
    · next h => rw [h]
    · rfl
  unfold State.tickIdle
  exact foldl_keeps (fun t : State => t.isOn e = s.isOn e) (fun t d ht => by rw [hone, ht]) _ rfl

@[simp] theorem State.isOn_tickRails (s : State) (e : Dom) : s.tickRails.isOn e = s.isOn e := by
  unfold State.tickRails
  split <;> rfl

/-- A tick leaves every domain as it stands (R429: only the idle timers run). -/
@[simp] theorem State.isOn_tickClock (s : State) (e : Dom) : s.tickClock.isOn e = s.isOn e := by
  rcases Nat.lt_or_ge (s.clk.htSub + 1) s.htPeriod with hin | hend
  · rw [State.tickClock_within hin]; rfl
  · have hpwr : ∀ t : State, t.tickPort.samplePins.isOn e = t.isOn e := fun t => by
      simp only [State.isOn, State.dom_congr (s := t) (t := t.tickPort.samplePins)
        (State.pwr_of_mask (ps := [.arr, .mport, .mgmt, .fresh, .host]) (by simp) (by decide))]
    have hht : ∀ t : State, t.tickHt.isOn e = t.isOn e := fun t => by
      simp only [State.isOn, State.dom_congr (s := t) (t := t.tickHt)
        (State.pwr_of_mask (ps := [.clk, .host, .fresh]) (by simp) (by decide))]
    rw [State.tickClock_end hend, State.isOn_tickIdle, hpwr, State.isOn_tickRails, hht]
    rfl

/-- What the hold finds at a tick (R127): the state before it, but for the clock and the array. -/
def State.beforeTherm (s : State) : State := s.tickClock.tickIsolations

theorem State.beforeTherm_therm (s : State) : s.beforeTherm.therm = s.therm :=
  State.therm_of_mask (ps := [.clk, .arr, .pwr, .host, .mport, .mgmt, .fresh]) (by simp [State.beforeTherm]) (by decide)

theorem State.tickClock_clken (s : State) : s.tickClock.clk.clken = s.clk.clken := by
  rcases Nat.lt_or_ge (s.clk.htSub + 1) s.htPeriod with hin | hend
  · rw [State.tickClock_within hin]; rfl
  · rw [State.tickClock_end_clk hend]

theorem State.beforeTherm_regulating (s : State) : s.beforeTherm.regulating = s.regulating := by
  have hclk : s.beforeTherm.clk = s.tickClock.clk :=
    State.clk_of_mask (ps := [.arr, .pwr, .mgmt]) (by simp [State.beforeTherm]) (by decide)
  exact State.regulating_congr s.beforeTherm_therm (by rw [hclk, State.tickClock_clken]) (by simp [State.beforeTherm])

/-- The hold after an idle step (R127). -/
theorem State.idle_therm {s : State} (h : s.hasSm = true) : s.idle.therm = s.beforeTherm.tickTherm.therm := by
  rw [State.idle_of_sm h, State.arbitrate_therm]
  exact State.therm_of_mask (ps := [.clk, .buf]) (by simp [State.tickRest, State.beforeTherm]) (by decide)

/-- A fault of the hold with a code of 1 to 3, and one of the gradient (R124, R125). -/
theorem State.thermFault_completes {s : State} {ev : ThermEvent} {g : BitVec 6} {p : BitVec 16}
    (hok : (s.isOn .th && s.clken 9 && (ev != .gradient || (s.therm.ready && gradientHigh g))) = true)
    {P : State → Prop}
    (hp : P (State.arbitrate s ((s.modTherm fun x => { x with gradient := g, tplat := p }).thermEvent ev))) :
    Completes (.thermFault ev g p) s P :=
  .event rfl hok hp

/-- Settles O11: a write of THERM_CTRL is State.writeThermCtrl, a measurement is State.thermMeasured with its cases, a fault is
State.thermEvent, and the millisecond is State.tickTherm. The drive that SATURATED follows is the model's own reading (log
entry 28). -/
theorem thermalHoldCompletes : Obligations.ThermalHoldCompletes := by
  unfold Obligations.ThermalHoldCompletes
  refine ⟨fun s w h => ?ctrl, fun s g m hreg hready hqual hg hnear hreach => ?ready,
    fun s g p hreg hready => ⟨fun hg hn hh => ?far, fun hg hh => ?gradient, fun hn hh => ?hot⟩,
    fun s g p ev hon hck hq hev => ?fault, fun s g p hon hck hq hready hg => ?gradientFault, fun s hreg hsat => ?sat,
    fun s hpend hlock hsm hon => ?sample⟩
  case ctrl =>
    refine .answer (congrArg (answer s) (State.hostWrite_plain (i := 54) h rfl w)) ?_
    obtain ⟨hen, hset, heff, hlatch, hmax, hpow, hevt⟩ := s.writeThermCtrl_therm w
    have hhost : (s.writeThermCtrl w).host = s.host := State.host_of_mask (ps := [.therm]) (by simp) (by decide)
    simp only [State.arbitrate_therm, State.finishWrite_therm]
    exact ⟨hen, hset, heff, hlatch, hmax, hpow, hevt, by simp [State.writeReg, hhost], by simp [State.writeReg, Same]⟩
  case ready =>
    exact .event rfl (by simp [hreg, hready, hqual, hg, hnear, hreach]) (by simp [Same])
  case far =>
    refine .event rfl (by simp [hreg, hready, hn]) ?_
    rw [State.thermMeasured_of_far hreg hh hready hg hn]
    simp [State.withMeasure, Same]
  case gradient =>
    refine .event rfl (by simp [hreg, hready, hg]) ?_
    rw [State.thermMeasured_of_gradient hreg hh hready hg]
    have hsame : Same [.therm, .mgmt, .int] s (State.arbitrate s ((s.withMeasure g p).thermEvent .gradient)) := by
      simp [Same, State.withMeasure]
    rcases (s.withMeasure g p).thermEvent_therm .gradient with he | he <;>
    · simp only [State.arbitrate_therm, he]
      exact ⟨rfl, rfl, rfl, rfl, rfl, by simp [Therm.event, thermCode, State.withMeasure], rfl, hsame⟩
  case hot =>
    refine .event rfl (by simp [hreg, hready, hn]) ?_
    rw [State.thermMeasured_of_hot hreg hh]
    have hsame : Same [.therm, .mgmt, .int] s (State.arbitrate s ((s.withMeasure g p).thermEvent .overtemperature)) := by
      simp [Same, State.withMeasure]
    rcases (s.withMeasure g p).thermEvent_therm .overtemperature with he | he <;>
    · simp only [State.arbitrate_therm, he]
      exact ⟨rfl, rfl, rfl, rfl, rfl, by simp [Therm.event, thermCode], by simp, hsame⟩
  case fault =>
    refine State.thermFault_completes (by simp [hon, hck, hev]) ?_
    have hlog := State.logged_thermEvent ev (s := s) (t := s.modTherm fun x => { x with gradient := g, tplat := p }) hq rfl rfl
    have hcode : (thermCode ev != 0#2) = true := by
      cases ev with
      | gradient => contradiction
      | overtemperature | disagreement | heater => rfl
    rcases (s.modTherm fun x => { x with gradient := g, tplat := p }).thermEvent_therm ev with he | he <;>
    · refine ⟨?_, ?_, ?_, ?_, ?_, ?_, by simp [hev], hlog, by simp [Same]⟩ <;>
        simp only [State.arbitrate_therm, he] <;> simp [Therm.event, hcode]
  case gradientFault =>
    refine State.thermFault_completes (by simp [hon, hck, hready, hg]) ?_
    have hlog := State.logged_thermEvent .gradient (s := s) (t := s.modTherm fun x => { x with gradient := g, tplat :=
        p }) hq rfl rfl
    rcases (s.modTherm fun x => { x with gradient := g, tplat := p }).thermEvent_therm .gradient with he | he <;>
    · refine ⟨?_, ?_, ?_, ?_, ?_, ?_, hlog, by simp [Same]⟩ <;>
        simp only [State.arbitrate_therm, he] <;> simp [Therm.event, thermCode]
  case sat =>
    exact .event rfl (by simp [hreg, hsat]) (by simp [Same])
  case sample =>
    have hth := s.beforeTherm_therm
    have hbon : s.beforeTherm.isOn .th = true := by simp [State.beforeTherm, hon]
    refine ⟨s.idle, step_idle hpend, fun hin => ?_, fun hend => ⟨s.beforeTherm.fresh, ?_⟩⟩
    · rw [State.idle_therm hsm, State.tickTherm_within hbon (by rw [hth]; exact hin)]
      simp [hth]
    · have hsampled := State.tickTherm_sampled hbon (by rw [hth]; exact hend)
      rw [hth, State.beforeTherm_regulating] at hsampled
      rw [State.idle_therm hsm]
      exact hsampled

end Sys2Proof.Machine
end

section
/-!
PROOFS. What the operations of the array leave of units, clusters, rotations and event bits (chapter 04).
-/

namespace Sys2Proof.Machine

open Sys2Proof

/-! ### Indices -/

theorem clusterOf_lt {u : Nat} (h : u < 660) : clusterOf u < 39 := by unfold clusterOf; split <;> omega

theorem regionOf_lt {i : Nat} (h : i < 39) : regionOf i < 6 := by unfold regionOf; split <;> [omega; split <;> omega]

theorem unitRegion_lt (u : Fin 660) : unitRegion u.val < 6 := regionOf_lt (clusterOf_lt u.isLt)

theorem mem_clusterUnits_lt {i u : Nat} (hi : i < 39) (h : u ∈ clusterUnits i) : u < 660 := by
  unfold clusterUnits at h
  split at h <;> simp only [List.mem_range'_1] at h <;> omega

theorem State.spares_spare {s : State} {i u : Nat} (h : u ∈ s.spares i) : (s.unit u).state = .spare := by
  simpa using (List.mem_filter.mp h).2

theorem State.spares_mem {s : State} {i u : Nat} (h : u ∈ s.spares i) : u ∈ clusterUnits i := (List.mem_filter.mp h).1

/-! ### What stands and what only rises -/

/-- VOIDS and CLUSTER_PWR stand; UNIT_EVT and the mark of an uncommitted map are not taken back. -/
def State.ArrKept (s t : State) : Prop :=
  t.arr.voids = s.arr.voids ∧ t.arr.clusterPwr = s.arr.clusterPwr ∧ (s.arr.unitEvt = true → t.arr.unitEvt = true) ∧
  (s.arr.dirtySince.isSome = true → t.arr.dirtySince.isSome = true)

theorem State.ArrKept.refl (s : State) : s.ArrKept s := ⟨rfl, rfl, id, id⟩

theorem State.ArrKept.trans {s t u : State} (h : s.ArrKept t) (g : t.ArrKept u) : s.ArrKept u := by
  obtain ⟨hv, hp, he, hd⟩ := h
  obtain ⟨gv, gp, ge, gd⟩ := g
  exact ⟨gv.trans hv, gp.trans hp, ge ∘ he, gd ∘ hd⟩

/-- A change of clusters and rotations alone. -/
theorem State.ArrKept.of_eq {s t : State} (hv : t.arr.voids = s.arr.voids) (hp : t.arr.clusterPwr = s.arr.clusterPwr)
    (he : t.arr.unitEvt = s.arr.unitEvt) (hd : t.arr.dirtySince = s.arr.dirtySince) : s.ArrKept t :=
  ⟨hv, hp, fun h => he.trans h, fun h => by rw [hd]; exact h⟩

@[simp] theorem State.demand_arr (d : Dom) (s : State) : (s.demand d).arr = s.arr :=
  State.arr_of_mask (State.mask_demand (ps := [.pwr]) (by decide) d s) (by decide)

theorem State.mapChanged_arr (s : State) :
    s.mapChanged.arr = { s.arr with dirtySince := some (s.arr.dirtySince.getD s.clk.ht) } := by
  unfold State.mapChanged
  dsimp only
  split
  · rfl
  · rw [State.demand_arr]; rfl

/-- One unit's change: what else of the array it may change. -/
theorem State.setUnit_arr (u : Nat) (quiet commit : Bool) (f : UnitHealth → UnitHealth) (s : State) :
    (s.setUnit u quiet commit f).arr =
      { s.arr with
        units := (s.setUnit u quiet commit f).arr.units
        unitEvt := s.arr.unitEvt || (!quiet && ((s.unit u).state != (f (s.unit u)).state || (s.unit u).lasting != (f
            (s.unit u)).lasting))
        dirtySince := if commit then some (s.arr.dirtySince.getD s.clk.ht) else s.arr.dirtySince } := by
  cases hmove : !quiet && ((s.unit u).state != (f (s.unit u)).state || (s.unit u).lasting != (f (s.unit u)).lasting) <;>
  cases commit <;> by_cases h : u < 660 <;>
  simp [State.setUnit, hmove, h, State.mapChanged_arr]

@[simp] theorem State.setUnit_unitEvt (u : Nat) (quiet commit : Bool) (f : UnitHealth → UnitHealth) (s : State) :
    (s.setUnit u quiet commit f).arr.unitEvt = (s.arr.unitEvt ||
      (!quiet && ((s.unit u).state != (f (s.unit u)).state || (s.unit u).lasting != (f (s.unit u)).lasting))) := by
  rw [State.setUnit_arr]

@[simp] theorem State.setUnit_dirtySince (u : Nat) (quiet commit : Bool) (f : UnitHealth → UnitHealth) (s : State) :
    (s.setUnit u quiet commit f).arr.dirtySince = if commit then some (s.arr.dirtySince.getD s.clk.ht) else s.arr.dirtySince := by
  rw [State.setUnit_arr]

theorem State.setUnit_kept (u : Nat) (quiet commit : Bool) (f : UnitHealth → UnitHealth) (s : State) :
    s.ArrKept (s.setUnit u quiet commit f) := by
  unfold State.ArrKept
  rw [State.setUnit_arr]
  refine ⟨rfl, rfl, fun h => by simp [h], fun h => ?_⟩
  dsimp only
  split
  · rfl
  · exact h

theorem State.modRotation_kept (r : Nat) (f : Rotation → Rotation) (s : State) : s.ArrKept (s.modRotation r f) := by
  unfold State.modRotation
  exact State.ArrKept.of_eq (by simp; split <;> rfl) (by simp; split <;> rfl) (by simp; split <;> rfl) (by simp; split <;> rfl)

theorem State.modCluster_kept (i : Nat) (f : Cluster → Cluster) (s : State) : s.ArrKept (s.modCluster i f) := by
  unfold State.modCluster
  exact State.ArrKept.of_eq (by simp; split <;> rfl) (by simp; split <;> rfl) (by simp; split <;> rfl) (by simp; split <;> rfl)

theorem State.settleArray_kept (s t : State) : t.ArrKept (State.settleArray s t) :=
  .of_eq (by simp) (by simp) (by simp) (by simp)

/-! ### The fill rule (R146) -/

/-- The fill rule makes Spares Active and touches no other unit (R146). -/
theorem State.unit_fill (i n : Nat) (s : State) (u : Nat) : (State.fill i n s).unit u = s.unit u ∨
    ((s.unit u).state = .spare ∧ (State.fill i n s).unit u = { s.unit u with state := .active }) := by
  induction n generalizing s with
  | zero => exact .inl rfl
  | succ n ih =>
    unfold State.fill
    split
    · split
      · next v vs hv =>
        have hspare : (s.unit v).state = .spare := State.spares_spare (i := i) (by rw [hv]; exact List.mem_cons_self)
        by_cases h : v = u ∧ v < 660
        · obtain ⟨rfl, hlt⟩ := h
          rcases ih (s.setUnit v false false fun h => { h with state := .active }) with he | ⟨hs, -⟩
          · exact .inr ⟨hspare, by rw [he, State.unit_setUnit_self hlt]⟩
          · simp [hlt] at hs
        · have hsame : (s.setUnit v false false fun h => { h with state := .active }).unit u = s.unit u := by
            rw [State.unit_setUnit, if_neg h]
          have hih := ih (s.setUnit v false false fun h => { h with state := .active })
          rwa [hsame] at hih
      · exact .inl rfl
    · exact .inl rfl

/-- A unit that is no Spare stands under the fill rule (R146). -/
theorem State.unit_fillCluster_of_not_spare {s : State} {u : Nat} (h : (s.unit u).state ≠ .spare) (i : Nat) :
    (s.fillCluster i).unit u = s.unit u := by
  rcases s.unit_fill i 18 u with he | ⟨hs, -⟩
  · exact he
  · exact absurd hs h

/-- A cluster that is full takes no Spare (R146). -/
theorem State.fillCluster_of_full {s : State} {i : Nat} (h : 16 ≤ s.sumPlaces i) : s.fillCluster i = s := by
  simp [State.fillCluster, State.fill, Nat.not_lt.mpr h]

theorem State.fill_facts (i n : Nat) (s : State) : (State.fill i n s).arr.rot = s.arr.rot ∧
    (State.fill i n s).arr.cl = s.arr.cl ∧ s.ArrKept (State.fill i n s) := by
  induction n generalizing s with
  | zero => exact ⟨rfl, rfl, .refl s⟩
  | succ n ih =>
    unfold State.fill
    split
    · split
      · obtain ⟨hr, hc, hk⟩ := ih (s.setUnit _ false false fun h => { h with state := .active })
        exact ⟨hr.trans (State.setUnit_rot ..), hc.trans (State.setUnit_cl ..), (State.setUnit_kept ..).trans hk⟩
      · exact ⟨rfl, rfl, .refl s⟩
    · exact ⟨rfl, rfl, .refl s⟩

@[simp] theorem State.fillCluster_rot (i : Nat) (s : State) : (s.fillCluster i).arr.rot = s.arr.rot := (s.fill_facts i 18).1
@[simp] theorem State.fillCluster_cl (i : Nat) (s : State) : (s.fillCluster i).arr.cl = s.arr.cl := (s.fill_facts i 18).2.1
theorem State.fillCluster_kept (i : Nat) (s : State) : s.ArrKept (s.fillCluster i) := (s.fill_facts i 18).2.2

@[simp] theorem State.rotation_fillCluster (i r : Nat) (s : State) : (s.fillCluster i).rotation r = s.rotation r :=
  State.rotation_congr (by simp) r

@[simp] theorem State.cluster_fillCluster (i j : Nat) (s : State) : (s.fillCluster i).cluster j = s.cluster j :=
  State.cluster_congr (by simp) j

/-! ### The end of an audit (R139, R142 to R147) -/

section
variable (r : Nat) (s : State)

@[simp] theorem State.endRotation_units : (s.endRotation r).arr.units = s.arr.units := by
  unfold State.endRotation; split <;> simp

@[simp] theorem State.endRotation_cl : (s.endRotation r).arr.cl = s.arr.cl := by
  unfold State.endRotation; split <;> simp

@[simp] theorem State.unit_endRotation (u : Nat) : (s.endRotation r).unit u = s.unit u := State.unit_congr (by simp) u

@[simp] theorem State.cluster_endRotation (i : Nat) : (s.endRotation r).cluster i = s.cluster i := State.cluster_congr (by simp) i

/-- The end of a rotation changes no audit (R139). -/
@[simp] theorem State.audit_endRotation (q : Nat) : ((s.endRotation r).rotation q).audit = (s.rotation q).audit := by
  unfold State.endRotation
  split
  · have hrot : ∀ f, ((s.modRotation r f).modArr fun a => { a with rotations := satInc a.rotations }).rotation q =
        (s.modRotation r f).rotation q := fun f => State.rotation_congr rfl q
    rw [hrot, State.rotation_modRotation]
    split <;> rfl
  · rfl

theorem State.endRotation_kept : s.ArrKept (s.endRotation r) := by
  unfold State.endRotation
  split
  · exact (s.modRotation_kept r _).trans (.of_eq rfl rfl rfl rfl)
  · exact .refl s

@[simp] theorem State.endAudit_units : (s.endAudit r).arr.units = s.arr.units := by simp [State.endAudit]
@[simp] theorem State.endAudit_cl : (s.endAudit r).arr.cl = s.arr.cl := by simp [State.endAudit]
@[simp] theorem State.unit_endAudit (u : Nat) : (s.endAudit r).unit u = s.unit u := by simp [State.endAudit]
@[simp] theorem State.cluster_endAudit (i : Nat) : (s.endAudit r).cluster i = s.cluster i := by simp [State.endAudit]

theorem State.audit_endAudit (h : r < 6) : ((s.endAudit r).rotation r).audit = none := by
  simp [State.endAudit, h]

theorem State.endAudit_kept : s.ArrKept (s.endAudit r) :=
  (s.modRotation_kept r _).trans ((s.modRotation r _).endRotation_kept r)

end

section
variable (q : Bool) (a : Audit) (s : State)

theorem State.releaseStandin_facts : (s.releaseStandin q a).arr.rot = s.arr.rot ∧ (s.releaseStandin q a).arr.cl = s.arr.cl ∧
    s.ArrKept (s.releaseStandin q a) := by
  unfold State.releaseStandin
  split
  · exact ⟨State.setUnit_rot .., State.setUnit_cl .., State.setUnit_kept ..⟩
  · exact ⟨rfl, rfl, .refl s⟩

@[simp] theorem State.releaseStandin_rot : (s.releaseStandin q a).arr.rot = s.arr.rot := (s.releaseStandin_facts q a).1
@[simp] theorem State.releaseStandin_cl : (s.releaseStandin q a).arr.cl = s.arr.cl := (s.releaseStandin_facts q a).2.1

@[simp] theorem State.rotation_releaseStandin (r : Nat) : (s.releaseStandin q a).rotation r = s.rotation r :=
  State.rotation_congr (by simp) r

@[simp] theorem State.cluster_releaseStandin (i : Nat) : (s.releaseStandin q a).cluster i = s.cluster i :=
  State.cluster_congr (by simp) i

/-- The return of a stand-in touches no other unit (R140). -/
theorem State.unit_releaseStandin {a : Audit} (h : a.standin ≠ some a.unit) : (s.releaseStandin q a).unit a.unit.val =
    s.unit a.unit.val := by
  unfold State.releaseStandin
  split
  · next v hv =>
    refine State.unit_setUnit_ne (fun he => h ?_) _ _ _ _
    rw [hv, Fin.ext he]
  · rfl

theorem State.releaseStandin_of_none {a : Audit} (h : a.standin = none) : s.releaseStandin q a = s := by
  simp [State.releaseStandin, h]

@[simp] theorem State.unit_returnUnit : (s.returnUnit q a).unit a.unit.val = { s.unit a.unit.val with state := a.ret, ret :=
    .active } :=
  State.unit_setUnit_self a.unit.isLt _ _ _ _

@[simp] theorem State.rotation_returnUnit (r : Nat) : (s.returnUnit q a).rotation r = s.rotation r := State.rotation_setUnit ..
@[simp] theorem State.cluster_returnUnit (i : Nat) : (s.returnUnit q a).cluster i = s.cluster i := State.cluster_setUnit ..
@[simp] theorem State.returnUnit_cl : (s.returnUnit q a).arr.cl = s.arr.cl := State.setUnit_cl ..

end

/-! ### Moves of units that the map does not record -/

section
variable {ps : List Part}

/-- A change of a unit that the map does not take stays within the array. -/
@[simp] theorem State.mask_setUnit_false (h0 : Part.arr ∈ ps) (u : Nat) (quiet : Bool) (f : UnitHealth → UnitHealth) (s : State) :
    (s.setUnit u quiet false f).mask ps = s.mask ps := by
  unfold State.setUnit
  simp only [Bool.false_eq_true, if_false]
  split <;> simp [h0]

@[simp] theorem State.mask_fill_arr (h0 : Part.arr ∈ ps) (i n : Nat) (s : State) : (State.fill i n s).mask ps = s.mask ps := by
  induction n generalizing s with
  | zero => rfl
  | succ n ih =>
    unfold State.fill
    split
    · split
      · rw [ih, State.mask_setUnit_false h0]
      · rfl
    · rfl

@[simp] theorem State.mask_fillCluster_arr (h0 : Part.arr ∈ ps) (i : Nat) (s : State) : (s.fillCluster i).mask ps = s.mask ps :=
  State.mask_fill_arr h0 i 18 s

@[simp] theorem State.mask_releaseStandin_arr (h0 : Part.arr ∈ ps) (q : Bool) (a : Audit) (s : State) :
    (s.releaseStandin q a).mask ps = s.mask ps := by
  unfold State.releaseStandin
  split <;> simp [h0]

@[simp] theorem State.mask_returnUnit_arr (h0 : Part.arr ∈ ps) (q : Bool) (a : Audit) (s : State) :
    (s.returnUnit q a).mask ps = s.mask ps := by
  simp [State.returnUnit, h0]

@[simp] theorem State.mask_voidAudit_arr (h0 : Part.arr ∈ ps) (r : Nat) (first : Bool) (s : State) :
    (s.voidAudit r first).mask ps = s.mask ps := by
  unfold State.voidAudit
  split
  · rfl
  · dsimp only
    split <;> simp [h0]

end

end Sys2Proof.Machine
end

section
/-!
PROOFS. Rotations, audits, leak checks and verdicts (chapter 04).
-/

namespace Sys2Proof.Machine

open Sys2Proof

/-! ### The start of rotations and audits (R139, R140) -/

theorem State.endRotation_of_idle {r : Nat} {s : State} (h : (s.rotation r).active = false) : s.endRotation r = s := by
  simp [State.endRotation, h]

/-- A scheduled audit joins those that wait, once (R139). -/
def Rotation.withDue (u : Fin 660) (q : Rotation) : Rotation := if u ∈ q.due then q else { q with due := q.due ++ [u] }

theorem Rotation.withDue_facts (u : Fin 660) (q : Rotation) :
    u ∈ (q.withDue u).due ∧ (∀ v, v ∈ q.due → v ∈ (q.withDue u).due) ∧ (q.withDue u).audit = q.audit := by
  unfold Rotation.withDue
  split
  · next h => exact ⟨h, fun _ hv => hv, rfl⟩
  · exact ⟨by simp, fun v hv => by simp [hv], rfl⟩

theorem State.auditDue_eq (u : Fin 660) (s : State) : s.auditDue u = s.modRotation (unitRegion u.val) (Rotation.withDue u) := rfl

/-- What a scheduled audit that falls due leaves (R151, R152). -/
theorem State.auditDue_facts (u : Fin 660) (s : State) :
    let t := State.arbitrate s (s.auditDue u)
    u ∈ (t.rotation (unitRegion u.val)).due ∧
    (∀ v, v ∈ (s.rotation (unitRegion u.val)).due → v ∈ (t.rotation (unitRegion u.val)).due) ∧
    (t.rotation (unitRegion u.val)).audit = (s.rotation (unitRegion u.val)).audit ∧ t.arr.units = s.arr.units ∧
    Same [.arr, .int] s t := by
  obtain ⟨hself, hkeep, haudit⟩ := Rotation.withDue_facts u (s.rotation (unitRegion u.val))
  simp only [State.auditDue_eq, State.rotation_arbitrate, State.rotation_modRotation_self (unitRegion_lt u)]
  exact ⟨hself, hkeep, haudit, by simp, by simp [Same]⟩

/-- The stand-in of an audit that begins (R140). -/
def State.standinFor (u : Fin 660) (s : State) : Option (Fin 660) :=
  if (s.unit u.val).state = .active ∧ u.val < 648 then
    match s.spares (clusterOf u.val) with
    | v :: _ => if h : v < 660 then some ⟨v, h⟩ else none
    | [] => none
  else none

/-- The audit that begins (R140). -/
def State.auditFor (u : Fin 660) (rotation : Bool) (s : State) : Audit :=
  { unit := u, ret := (s.unit u.val).state, standin := s.standinFor u,
    phase := if (s.unit u.val).state = .active then .leak else .pilot, rotation := rotation }

/-- The rotation with an audit that begins (R139). -/
def Rotation.begin (u : Fin 660) (rotation : Bool) (a : Audit) (x : Rotation) : Rotation :=
  { x with audit := some a, next := if rotation then max x.next (u.val + 1) else x.next, due := x.due.erase u,
           resume := if x.resume.map Prod.fst = some u then none else x.resume }

theorem State.beginAudit_eq (u : Fin 660) (rotation : Bool) (s : State) : s.beginAudit u rotation =
    let a := s.auditFor u rotation
    let t := s.modRotation (unitRegion u.val) (Rotation.begin u rotation a)
    let t := match s.standinFor u with
      | some v => t.setUnit v.val (s.quietAudit a) false fun h => { h with state := .active, standin := true }
      | none => t
    if (s.unit u.val).state = .active then t
    else t.setUnit u.val (s.quietAudit a) false fun h => { h with state := .audit, ret := (s.unit u.val).state } := rfl

/-- The stand-in is the first Spare of the cluster (R140). -/
theorem State.standinFor_active {u : Fin 660} {s : State} (h : (s.unit u.val).state = .active) (hu : u.val < 648) :
    (s.standinFor u).map Fin.val = (s.spares (clusterOf u.val)).head? := by
  have hlt : ∀ v ∈ s.spares (clusterOf u.val), v < 660 := fun v hv =>
    mem_clusterUnits_lt (clusterOf_lt u.isLt) (State.spares_mem hv)
  simp only [State.standinFor, h, hu, and_self, if_true]
  split
  · next v vs hv => simp [hv, hlt v (by rw [hv]; exact List.mem_cons_self)]
  · next hv => simp [hv]

theorem State.standinFor_other {u : Fin 660} {s : State} (h : (s.unit u.val).state ≠ .active) : s.standinFor u = none := by
  simp [State.standinFor, h]

/-- An audit that begins is the region's audit; no cluster and no other region changes (R140). -/
theorem State.beginAudit_rot (u : Fin 660) (rotation : Bool) (s : State) :
    (s.beginAudit u rotation).arr.rot =
      (s.modRotation (unitRegion u.val) (Rotation.begin u rotation (s.auditFor u rotation))).arr.rot ∧
    (s.beginAudit u rotation).arr.cl = s.arr.cl := by
  rw [State.beginAudit_eq]
  dsimp only
  split <;> split <;> simp

theorem State.beginAudit_unit {u : Fin 660} {s : State} (h : (s.unit u.val).state ≠ .active) (rotation : Bool) :
    ((s.beginAudit u rotation).unit u.val).state = .audit := by
  rw [State.beginAudit_eq]
  dsimp only
  rw [if_neg h, State.unit_setUnit_self u.isLt]

theorem State.mask_beginAudit_arr {ps : List Part} (h0 : Part.arr ∈ ps) (u : Fin 660) (rotation : Bool) (s : State) :
    (s.beginAudit u rotation).mask ps = s.mask ps := by
  rw [State.beginAudit_eq]
  dsimp only
  split <;> split <;> simp [h0]

/-- Settles O12: a rotation that starts is State.endRotation with nothing to end, an audit that begins is State.beginAudit, and a
scheduled audit joins the list of its region. The order of the slots is the model's own reading (log entry 20). -/
theorem auditsStart : Obligations.AuditsStart := by
  unfold Obligations.AuditsStart
  refine ⟨fun s r hmay hactive haudit hgap => ?rotation, fun s u b hnext hmay haudit => ?audit, fun s u hdead hlast hlk => ?dead,
    fun s u hfallow hlk => ?fallow⟩
  case rotation =>
    have hidle := State.endRotation_of_idle hactive
    refine .event rfl (by simp [hidle, hmay, hactive, haudit, hgap]) ?_
    simp only [hidle, State.rotation_arbitrate, State.rotation_modRotation_self r.isLt]
    refine ⟨trivial, trivial, haudit, trivial, fun q hq => State.rotation_modRotation_ne (Ne.symm hq) _ _, by simp, by simp,
        ?_, ?_⟩
    · have hk := s.modRotation_kept r.val fun q => { q with active := true, next := 0 }
      simpa using hk.1
    · simp [Same]
  case audit =>
    have hexec : exec (.auditStart u) s = event (u.val == u.val && s.auditsMay (unitRegion u.val) &&
        (s.rotation (unitRegion u.val)).audit.isNone) s (State.settleArray s (s.beginAudit u b)) := by
      simp only [exec, execAuditStart, hnext]
    obtain ⟨hrot, hcl⟩ := s.beginAudit_rot u b
    have hrotation : ∀ r, (State.arbitrate s (State.settleArray s (s.beginAudit u b))).rotation r =
        (s.modRotation (unitRegion u.val) (Rotation.begin u b (s.auditFor u b))).rotation r := fun r => by
      rw [State.rotation_arbitrate, State.rotation_settleArray, State.rotation_congr hrot]
    refine .event hexec (by simp [hmay, haudit]) ⟨⟨s.auditFor u b, ?_, rfl, rfl, rfl, fun h => ⟨?_, fun hu => ?_⟩,
        fun h => ⟨?_, ?_, ?_⟩⟩,
      fun r hr => ?_, fun i => ?_, by simp [Same, State.mask_beginAudit_arr]⟩
    · rw [hrotation, State.rotation_modRotation_self (unitRegion_lt u)]; rfl
    · exact if_pos h
    · exact State.standinFor_active h hu
    · exact if_neg h
    · exact State.standinFor_other h
    · simpa using State.beginAudit_unit h b
    · rw [hrotation, State.rotation_modRotation_ne (Ne.symm hr)]
    · rw [State.cluster_arbitrate, State.cluster_settleArray, State.cluster_congr hcl]
  case dead => exact .event rfl (by simp [hdead, hlast, hlk]) (s.auditDue_facts u)
  case fallow => exact .event rfl (by simp [hfallow, hlk]) (s.auditDue_facts u)

/-! ### Void audits (R142) -/

/-- The rotation after a void audit (R138, R142). -/
def Rotation.voided (a : Audit) (first : Bool) (x : Rotation) : Rotation :=
  { x with
    audit := none
    resume := if first then some (a.unit, a.rotation) else x.resume
    due := if a.rotation ∨ first then x.due else x.due ++ [a.unit] }

/-- A void audit before the fill rule: the unit and its stand-in go back, and VOIDS counts (R142). -/
def State.unaudited (r : Nat) (a : Audit) (s : State) : State :=
  (((s.returnUnit (s.quietAudit a) a).releaseStandin (s.quietAudit a) a).modRotation r (Rotation.voided a false)).modArr
    fun y => { y with voids := satInc y.voids }

theorem State.voidAudit_eq {r : Nat} {a : Audit} {s : State} (h : (s.rotation r).audit = some a) :
    s.voidAudit r false = ((s.unaudited r a).fillCluster (clusterOf a.unit.val)).endRotation r := by
  simp only [State.voidAudit, h]
  rfl

theorem State.rotation_unaudited {r : Nat} (hr : r < 6) (a : Audit) (s : State) : ((s.unaudited r a).rotation r).audit =
    none := by
  have hrot : (s.unaudited r a).rotation r =
      (((s.returnUnit (s.quietAudit a) a).releaseStandin (s.quietAudit a) a).modRotation r
          (Rotation.voided a false)).rotation r :=
    State.rotation_congr rfl r
  rw [hrot, State.rotation_modRotation_self hr]
  rfl

theorem State.unit_unaudited {r : Nat} {a : Audit} (h : a.standin ≠ some a.unit) (s : State) :
    (s.unaudited r a).unit a.unit.val = { s.unit a.unit.val with state := a.ret, ret := .active } := by
  have hunit : (s.unaudited r a).unit a.unit.val =
      (((s.returnUnit (s.quietAudit a) a).releaseStandin (s.quietAudit a) a).modRotation r
          (Rotation.voided a false)).unit a.unit.val :=
    State.unit_congr rfl _
  rw [hunit, State.unit_modRotation, State.unit_releaseStandin _ _ h, State.unit_returnUnit]

theorem State.unaudited_voids (r : Nat) (a : Audit) (s : State) : (s.unaudited r a).arr.voids = satInc s.arr.voids := by
  have hk := (s.setUnit_kept a.unit.val (s.quietAudit a) false fun h => { h with state := a.ret, ret := .active }).trans
    ((State.releaseStandin_facts (s.quietAudit a) a _).2.2.trans (State.modRotation_kept r (Rotation.voided a false) _))
  exact congrArg satInc hk.1

/-- A void audit ends; its unit is back, but for a Spare that the fill rule takes at once (R142, R146). -/
theorem State.voidAudit_facts {r : Nat} {a : Audit} {s : State} (hr : r < 6) (h : (s.rotation r).audit = some a)
    (hne : a.standin ≠ some a.unit) :
    ((s.voidAudit r false).rotation r).audit = none ∧
    (a.ret ≠ .spare → ((s.voidAudit r false).unit a.unit.val).state = a.ret) ∧
    (s.voidAudit r false).arr.voids = satInc s.arr.voids := by
  rw [State.voidAudit_eq h]
  refine ⟨?_, fun hret => ?_, ?_⟩
  · rw [State.audit_endRotation, State.rotation_fillCluster, State.rotation_unaudited hr]
  · rw [State.unit_endRotation, State.unit_fillCluster_of_not_spare] <;> rw [State.unit_unaudited hne]
    exact hret
  · have hk := (State.fillCluster_kept (clusterOf a.unit.val) (s.unaudited r a)).trans (State.endRotation_kept r _)
    rw [hk.1, State.unaudited_voids]

/-! ### The sum after a move that no sum sees -/

/-- Where no unit enters or leaves a sum and no unit in a sum changes its sensitivity, no trim moves (R98). -/
theorem State.settleArray_cl_of_sums {s t : State} (hin : ∀ u, t.inSum u = s.inSum u) (hsens : ∀ u, (t.unit u).sens =
    (s.unit u).sens) :
    (State.settleArray s t).arr.cl = t.arr.cl := by
  have hsum : ∀ i, t.sumSens i = s.sumSens i := fun i => by simp only [State.sumSens, hin, hsens]
  have htrims : State.trimsAfter s t = t := by
    unfold State.trimsAfter
    exact foldl_keeps (fun u : State => u = t) (fun u i h => by simp [hin, hsum, h]) _ rfl
  rw [State.settleArray_arr, htrims]

/-! ### The leak check (R140, R142, R157) -/

/-- The unit under audit leaves its cluster: the switch was found closed (R140). -/
def State.leakClosed (r : Nat) (a : Audit) (s : State) : State :=
  (s.modRotation r fun x => { x with audit := some { a with phase := .pilot } }).setUnit a.unit.val
    (s.quietAudit a) false fun h => { h with state := .audit, ret := a.ret }

/-- The unit under audit is Dead: its switch is stuck closed (R157). -/
def State.leakStuck (r : Nat) (a : Audit) (s : State) : State :=
  (((((s.releaseStandin false a).setUnit a.unit.val false true fun h =>
    { h with state := .dead, lasting := true, cause := 7#3 }).modCluster (clusterOf a.unit.val) fun c => { c with stuck :=
        true }).endAudit
      r).fillCluster (clusterOf a.unit.val))

/-- LEAK_CHECK in a region with an audit (R140). -/
theorem exec_leakCheck {s : State} {r : Fin 6} {a : Audit} (h : (s.rotation r.val).audit = some a) (hphase : a.phase = .leak)
    (hmay : s.auditsMay r.val = true) (f : LeakFound) :
    exec (.leakCheck r f) s = answer s (State.settleArray s
      (if f.moved then s.voidAudit r.val false else if f.stuck then s.leakStuck r.val a else s.leakClosed r.val a)) := by
  simp only [exec, execLeakCheck, h, hphase, hmay]
  rfl

/-- The unit that leaves was out of its sum already: the leak phase takes it out (R140). -/
theorem State.leakClosed_inSum {s : State} {r : Nat} {a : Audit} (hr : r < 6) (h : (s.rotation r).audit = some a)
    (hphase : a.phase = .leak) (hreg : unitRegion a.unit.val = r) (u : Nat) : (s.leakClosed r a).inSum u = s.inSum u := by
  by_cases hu : u = a.unit.val
  · subst hu
    simp [State.inSum, State.leaving, State.leakClosed, hreg, h, hphase]
  · have hunit : (s.leakClosed r a).unit u = s.unit u := by
      rw [State.leakClosed, State.unit_setUnit_ne (Ne.symm hu), State.unit_modRotation]
    have hleave : (s.leakClosed r a).leaving u = s.leaving u := by
      by_cases hq : unitRegion u = r
      · have hb : (a.unit.val == u) = false := beq_eq_false_iff_ne.mpr (Ne.symm hu)
        simp [State.leaving, State.leakClosed, hq, h, hr, hb]
      · rw [State.leaving, State.leaving, State.leakClosed, State.rotation_setUnit, State.rotation_modRotation_ne (Ne.symm hq)]
    rw [State.inSum, State.inSum, hunit, hleave]

theorem State.leakStuck_facts {s : State} {r : Nat} {a : Audit} (hr : r < 6) (hne : a.standin ≠ some a.unit)
    (hactive : (s.unit a.unit.val).state = .active) :
    ((s.leakStuck r a).rotation r).audit = none ∧
    (s.leakStuck r a).unit a.unit.val = { s.unit a.unit.val with state := .dead, lasting := true, cause := 7#3 } ∧
    ((s.leakStuck r a).cluster (clusterOf a.unit.val)).stuck = true ∧ (s.leakStuck r a).arr.unitEvt = true ∧
    (s.leakStuck r a).arr.dirtySince.isSome = true := by
  have hi := clusterOf_lt a.unit.isLt
  have hu := State.unit_releaseStandin false s hne
  have hk := ((State.modCluster_kept (clusterOf a.unit.val) (fun c => { c with stuck := true })
      ((s.releaseStandin false a).setUnit
    a.unit.val false true fun h => { h with state := .dead, lasting := true, cause := 7#3 })).trans
        (State.endAudit_kept r _)).trans
      (State.fillCluster_kept (clusterOf a.unit.val) _)
  refine ⟨?_, ?_, ?_, hk.2.2.1 (by simp [hu, hactive]), hk.2.2.2 (by simp)⟩
  · rw [State.leakStuck, State.rotation_fillCluster, State.audit_endAudit _ _ hr]
  · rw [State.leakStuck, State.unit_fillCluster_of_not_spare] <;> simp [hu]
  · simp [State.leakStuck, hi]

/-- Settles O13: the three outcomes are State.leakClosed, State.leakStuck and State.voidAudit. That the unit is out of the
sum from the
first step of the audit on is the model's own reading (log entries 21, 22). -/
theorem leakChecksComplete : Obligations.LeakChecksComplete := by
  unfold Obligations.LeakChecksComplete
  intro s r a haudit hphase hmay hreg hne hactive hret
  have hexec := fun f => exec_leakCheck haudit hphase hmay f
  refine ⟨.answer (hexec ⟨false, false⟩) ?closed, .answer (hexec ⟨false, true⟩) ?stuck, fun stuck => .answer (hexec ⟨true,
      stuck⟩) ?moved⟩
  case closed =>
    have hcl : (State.settleArray s (s.leakClosed r.val a)).arr.cl = s.arr.cl := by
      rw [State.settleArray_cl_of_sums (State.leakClosed_inSum r.isLt haudit hphase hreg) (fun u => ?_)]
      · simp [State.leakClosed]
      · by_cases hu : a.unit.val = u
        · subst hu; simp [State.leakClosed]
        · simp [State.leakClosed, State.unit_setUnit_ne hu]
    refine ⟨by simp [State.leakClosed], by simp [State.leakClosed, hret], fun u hu => ?_, by simpa using hcl,
      by simp [Same, State.leakClosed]⟩
    simp [State.leakClosed, State.unit_setUnit_ne (Ne.symm hu)]
  case stuck =>
    obtain ⟨hrot, hunit, hstuck, hevt, hdirty⟩ := s.leakStuck_facts r.isLt hne hactive
    have hbare := State.cluster_settleArray s (s.leakStuck r.val a) (clusterOf a.unit.val)
    have hst := congrArg Cluster.stuck hbare
    refine ⟨by simpa using hrot, by simp [hunit], by simp [hunit], by simp [hunit], ?_, by simpa using hevt,
        by simpa using hdirty,
      by simp [Same, State.leakStuck]⟩
    simp only [State.cluster_arbitrate]
    exact hst.trans hstuck
  case moved =>
    obtain ⟨hrot, hunit, hvoids⟩ := State.voidAudit_facts r.isLt haudit hne
    refine ⟨by simpa using hrot, ?_, by simpa using hvoids, by simp [Same]⟩
    simpa [hret] using hunit (by simp [hret])

end Sys2Proof.Machine
end

section
/-!
PROOFS. The verdict of an audit (chapter 04).
-/

namespace Sys2Proof.Machine

open Sys2Proof

/-! ### Full clusters -/

/-- A region with no audit in its leak phase has no unit on its way out of a sum (R140). -/
theorem State.leaving_of_no_leak {s : State} {u : Nat} (h : ∀ a, (s.rotation (unitRegion u)).audit = some a → a.phase ≠ .leak) :
    s.leaving u = false := by
  unfold State.leaving
  split
  · next a ha => simp [h a ha]
  · rfl

/-- A unit that was and is out of its sum leaves the sums as they are, where the audit of its region is past the leak phase
and over
then (R140, R142). -/
theorem State.activeCount_of_out {s t : State} {v r : Nat} (hs : (s.unit v).state ≠ .active) (ht : (t.unit v).state ≠ .active)
    (hu : ∀ u, u ≠ v → t.unit u = s.unit u) (hleave : ∀ u, unitRegion u = r → s.leaving u = false ∧ t.leaving u = false) {i : Nat}
    (hi : ∀ u ∈ clusterUnits i, unitRegion u = r) : t.activeCount i = s.activeCount i := by
  refine congrArg List.length (List.filter_congr fun u hmem => ?_)
  obtain ⟨hls, hlt⟩ := hleave u (hi u hmem)
  rw [hls, hlt]
  by_cases h : u = v
  · subst h
    rw [beq_eq_false_iff_ne.mpr hs, beq_eq_false_iff_ne.mpr ht]
  · rw [hu u h]

theorem State.activeCount_le_sumPlaces (s : State) (i : Nat) : s.activeCount i ≤ s.sumPlaces i := Nat.le_add_right _ _

/-- The units of a cluster are in it. -/
theorem clusterOf_mem {i u : Nat} (hi : i < 39) (h : u ∈ clusterUnits i) : clusterOf u = i := by
  unfold clusterUnits at h
  unfold clusterOf
  split at h <;> simp only [List.mem_range'_1] at h <;> split <;> omega

/-- The units of a unit's cluster are of its region. -/
theorem unitRegion_of_mem {u v : Nat} (hv : v < 660) (h : u ∈ clusterUnits (clusterOf v)) : unitRegion u = unitRegion v := by
  simp only [unitRegion, clusterOf_mem (clusterOf_lt hv) h]

/-! ### The rows of the verdict -/

/-- AUDIT_VERDICT in a region with an audit (R142). -/
theorem exec_auditVerdict {s : State} {r : Fin 6} {a : Audit} (h : (s.rotation r.val).audit = some a) (hphase : a.phase = .pilot)
    (hmay : s.auditsMay r.val = true) (moved : Bool) (m : AuditMeas) :
    exec (.auditVerdict r moved m) s = answer s (State.settleArray s
      (if moved then s.voidAudit r.val false
       else match a.ret with
        | .fallow => s.verdictFallow a (auditCause (3 ≤ r.val) m) (BitVec.ofInt 13 m.sens)
        | .dead => s.verdictDead a (auditCause (3 ≤ r.val) m) (BitVec.ofInt 13 m.sens)
        | _ => s.verdictSum a (auditCause (3 ≤ r.val) m) (BitVec.ofInt 13 m.sens))) := by
  simp only [exec, execAuditVerdict, h, hphase, hmay]
  rfl

/-- The rows for a unit that was in a sum or a Spare (R143, R144, R146). -/
theorem exec_verdictSum {s : State} {r : Fin 6} {a : Audit} (h : (s.rotation r.val).audit = some a) (hphase : a.phase = .pilot)
    (hmay : s.auditsMay r.val = true) (hret : a.ret = .active ∨ a.ret = .spare) (m : AuditMeas) :
    exec (.auditVerdict r false m) s = answer s (State.settleArray s
      (s.verdictSum a (auditCause (3 ≤ r.val) m) (BitVec.ofInt 13 m.sens))) := by
  rw [exec_auditVerdict h hphase hmay]
  rcases hret with hr | hr <;> simp only [hr] <;> rfl

/-- What is common to the conditions of the statement: an audit past its leak phase, of a unit of region r. -/
structure State.InPilot (s : State) (r : Nat) (a : Audit) : Prop where
  lt : r < 6
  audit : (s.rotation r).audit = some a
  phase : a.phase = .pilot
  region : unitRegion a.unit.val = r
  ne : a.standin ≠ some a.unit
  spare : a.ret ≠ .active → a.standin = none
  state : (s.unit a.unit.val).state = .audit

/-- The count of the Active units of the cluster stands where the unit goes back as a Spare and the audit is over (R142, R144). -/
theorem State.InPilot.activeCount {s t : State} {r : Nat} {a : Audit} (h : s.InPilot r a)
    (ht : (t.unit a.unit.val).state ≠ .active) (hu : ∀ u, u ≠ a.unit.val → t.unit u = s.unit u)
    (hrot : (t.rotation r).audit = none) : t.activeCount (clusterOf a.unit.val) = s.activeCount (clusterOf a.unit.val) := by
  refine State.activeCount_of_out (v := a.unit.val) (r := r) (by simp [h.state]) ht hu (fun u hreg => ⟨?_, ?_⟩)
    fun u hmem => (unitRegion_of_mem a.unit.isLt hmem).trans h.region
  · refine State.leaving_of_no_leak fun b hb => ?_
    rw [hreg, h.audit] at hb
    obtain rfl := Option.some.inj hb
    simp [h.phase]
  · refine State.leaving_of_no_leak fun b hb => ?_
    rw [hreg, hrot] at hb
    contradiction

/-! ### A void audit -/

theorem State.InPilot.void {s : State} {r : Nat} {a : Audit} (h : s.InPilot r a) (hret : a.ret = .spare)
    (hfull : 16 ≤ s.activeCount (clusterOf a.unit.val)) : ((s.voidAudit r false).unit a.unit.val).state = .spare := by
  have hunit := State.unit_unaudited (r := r) h.ne s
  have hnone : a.standin = none := h.spare (by simp [hret])
  have hcount : (s.unaudited r a).activeCount (clusterOf a.unit.val) = s.activeCount (clusterOf a.unit.val) := by
    refine h.activeCount (by simp [hunit, hret]) (fun u hu => ?_) (State.rotation_unaudited h.lt a s)
    have hother : (s.unaudited r a).unit u = ((s.returnUnit (s.quietAudit a) a).modRotation r
        (Rotation.voided a false)).unit u := by
      rw [State.unaudited, State.releaseStandin_of_none _ _ hnone]
      rfl
    rw [hother, State.unit_modRotation, State.returnUnit, State.unit_setUnit_ne (Ne.symm hu)]
  rw [State.voidAudit_eq h.audit, State.fillCluster_of_full
    (Nat.le_trans (hcount ▸ hfull) (State.activeCount_le_sumPlaces _ _)), State.unit_endRotation, hunit]
  exact hret

/-! ### A pass (R144) -/

/-- A unit of a sum, or a Spare, that passes goes back (R144). -/
def State.passBack (a : Audit) (sens : BitVec 13) (s : State) : State :=
  (((s.setUnit a.unit.val true false fun h => { h with sens := sens, fails := 0#2 }).returnUnit (s.quietAudit a) a).releaseStandin
    (s.quietAudit a) a).endAudit (unitRegion a.unit.val)

theorem State.verdictSum_pass (a : Audit) (sens : BitVec 13) (s : State) :
    s.verdictSum a 0#3 sens = (s.passBack a sens).fillCluster (clusterOf a.unit.val) := rfl

theorem State.passBack_facts {s : State} {r : Nat} {a : Audit} (h : s.InPilot r a) (sens : BitVec 13) :
    ((s.passBack a sens).rotation r).audit = none ∧
    (s.passBack a sens).unit a.unit.val = { s.unit a.unit.val with state := a.ret, ret := .active, sens := sens, fails := 0#2 } ∧
    s.ArrKept (s.passBack a sens) := by
  refine ⟨?_, ?_, ?_⟩
  · rw [State.passBack, h.region]
    exact State.audit_endAudit _ _ h.lt
  · rw [State.passBack, State.unit_endAudit, State.unit_releaseStandin _ _ h.ne, State.unit_returnUnit,
        State.unit_setUnit_self a.unit.isLt]
  · exact ((State.setUnit_kept _ _ _ _ _).trans (State.setUnit_kept _ _ _ _ _)).trans
      ((State.releaseStandin_facts _ _ _).2.2.trans (State.endAudit_kept _ _))

theorem State.verdictSum_pass_facts {s : State} {r : Nat} {a : Audit} (h : s.InPilot r a) (sens : BitVec 13) :
    let t := s.verdictSum a 0#3 sens
    (t.rotation r).audit = none ∧ (a.ret = .active → (t.unit a.unit.val).state = .active) ∧
    (a.ret = .spare → 16 ≤ s.activeCount (clusterOf a.unit.val) → (t.unit a.unit.val).state = .spare) ∧
    (t.unit a.unit.val).sens = sens ∧ (t.unit a.unit.val).fails = 0#2 ∧ t.arr.voids = s.arr.voids := by
  obtain ⟨hrot, hunit, hkept⟩ := State.passBack_facts h sens
  have hkeep : ((s.passBack a sens).fillCluster (clusterOf a.unit.val)).unit a.unit.val =
      { s.unit a.unit.val with state := a.ret, ret := .active, sens := sens, fails := 0#2 } ∨
      a.ret = .spare ∧ ((s.passBack a sens).fillCluster (clusterOf a.unit.val)).unit a.unit.val =
      { s.unit a.unit.val with state := .active, ret := .active, sens := sens, fails := 0#2 } := by
    have hf := (s.passBack a sens).unit_fill (clusterOf a.unit.val) 18 a.unit.val
    rwa [hunit] at hf
  refine ⟨?_, fun hret => ?_, fun hret hfull => ?_, ?_, ?_, ?_⟩
  · rw [State.verdictSum_pass, State.rotation_fillCluster, hrot]
  · rw [State.verdictSum_pass]
    rcases hkeep with he | ⟨-, he⟩ <;> rw [he]
    exact hret
  · have hcount : (s.passBack a sens).activeCount (clusterOf a.unit.val) = s.activeCount (clusterOf a.unit.val) := by
      refine h.activeCount (by simp [hunit, hret]) (fun u hu => ?_) hrot
      rw [State.passBack, State.unit_endAudit, State.releaseStandin_of_none _ _ (h.spare (by simp [hret])), State.returnUnit,
        State.unit_setUnit_ne (Ne.symm hu), State.unit_setUnit_ne (Ne.symm hu)]
    rw [State.verdictSum_pass, State.fillCluster_of_full
      (Nat.le_trans (hcount ▸ hfull) (State.activeCount_le_sumPlaces _ _)), hunit]
    exact hret
  · rw [State.verdictSum_pass]
    rcases hkeep with he | ⟨-, he⟩ <;> rw [he]
  · rw [State.verdictSum_pass]
    rcases hkeep with he | ⟨-, he⟩ <;> rw [he]
  · exact (hkept.trans (State.fillCluster_kept _ _)).1

theorem State.mask_verdictSum_pass {ps : List Part} (h0 : Part.arr ∈ ps) (a : Audit) (sens : BitVec 13) (s : State) :
    (s.verdictSum a 0#3 sens).mask ps = s.mask ps := by
  simp [State.verdictSum_pass, State.passBack, h0]

/-! ### A fail (R143, R147) -/

theorem State.verdictSum_fail {a : Audit} {cause : BitVec 3} {s : State} (hc : cause ≠ 0#3) (hf :
    (s.unit a.unit.val).fails.toNat < 2)
    (sens : BitVec 13) : s.verdictSum a cause sens =
      s.setUnit a.unit.val true false fun h => { h with fails := (s.unit a.unit.val).fails + 1#2 } := by
  simp [State.verdictSum, hc, hf]

/-- The third fail makes the unit Dead (R143). -/
def State.failDead (a : Audit) (cause : BitVec 3) (s : State) : State :=
  s.setUnit a.unit.val false true fun h => { h with state := .dead, fails := 3#2, ret := .active, cause := cause }

theorem State.verdictSum_dead {a : Audit} {cause : BitVec 3} {s : State} (hc : cause ≠ 0#3) (hf : 2 ≤
    (s.unit a.unit.val).fails.toNat)
    (sens : BitVec 13) : s.verdictSum a cause sens = (s.failDead a cause).removeUnit a := by
  simp [State.verdictSum, State.failDead, hc, Nat.not_lt.mpr hf]

/-- The stand-in stays, or the cluster is re-trimmed (R147). -/
def State.leaveStandin (a : Audit) (s : State) : State :=
  match a.standin with
  | some v => s.setUnit v.val false false fun h => { h with standin := false }
  | none => if a.ret = UnitState.active then s.startRetrim (clusterOf a.unit.val) else s

theorem State.removeUnit_eq (a : Audit) (s : State) :
    s.removeUnit a = ((s.leaveStandin a).endAudit (unitRegion a.unit.val)).fillCluster (clusterOf a.unit.val) := rfl

@[simp] theorem State.startRetrim_units (i : Nat) (s : State) : (s.startRetrim i).arr.units = s.arr.units := by
  unfold State.startRetrim; split <;> [rfl; split <;> simp]

theorem State.startRetrim_kept (i : Nat) (s : State) : s.ArrKept (s.startRetrim i) := by
  unfold State.startRetrim
  split
  · exact .refl s
  · split <;> exact State.modCluster_kept ..

theorem State.leaveStandin_facts {a : Audit} (h : a.standin ≠ some a.unit) (s : State) :
    (s.leaveStandin a).unit a.unit.val = s.unit a.unit.val ∧ s.ArrKept (s.leaveStandin a) := by
  unfold State.leaveStandin
  split
  · next v hv =>
    refine ⟨State.unit_setUnit_ne (fun he => h ?_) _ _ _ _, State.setUnit_kept ..⟩
    rw [hv, Fin.ext he]
  · split
    · exact ⟨State.unit_congr (State.startRetrim_units _ _) _, State.startRetrim_kept _ _⟩
    · exact ⟨rfl, .refl s⟩

theorem State.verdictSum_dead_facts {s : State} {r : Nat} {a : Audit} (h : s.InPilot r a) {cause : BitVec 3} (hc : cause ≠ 0#3)
    (hf : 2 ≤ (s.unit a.unit.val).fails.toNat) (sens : BitVec 13) :
    let t := s.verdictSum a cause sens
    (t.rotation r).audit = none ∧ (t.unit a.unit.val).state = .dead ∧ (t.unit a.unit.val).cause = cause ∧ t.arr.unitEvt =
        true := by
  have hdead : (s.failDead a cause).unit a.unit.val =
      { s.unit a.unit.val with state := .dead, fails := 3#2, ret := .active, cause := cause } :=
          State.unit_setUnit_self a.unit.isLt _ _ _ _
  have hevt : (s.failDead a cause).arr.unitEvt = true := by simp [State.failDead, h.state]
  obtain ⟨hdrop, hkept⟩ := (s.failDead a cause).leaveStandin_facts h.ne
  have hend : (((s.failDead a cause).leaveStandin a).endAudit (unitRegion a.unit.val)).unit a.unit.val =
      { s.unit a.unit.val with state := .dead, fails := 3#2, ret := .active, cause := cause } := by
    rw [State.unit_endAudit, hdrop, hdead]
  have hunit : ((s.failDead a cause).removeUnit a).unit a.unit.val =
      { s.unit a.unit.val with state := .dead, fails := 3#2, ret := .active, cause := cause } := by
    rw [State.removeUnit_eq, State.unit_fillCluster_of_not_spare (by rw [hend]; simp), hend]
  dsimp only
  rw [State.verdictSum_dead hc hf]
  refine ⟨?_, by rw [hunit], by rw [hunit], ?_⟩
  · rw [State.removeUnit_eq, State.rotation_fillCluster, h.region, State.audit_endAudit _ _ h.lt]
  · exact ((hkept.trans (State.endAudit_kept _ _)).trans (State.fillCluster_kept _ _)).2.2.1 hevt

/-! ### Dead and Fallow units (R151, R152, R154) -/

theorem State.verdictDead_facts {s : State} {r : Nat} {a : Audit} (h : s.InPilot r a) (hret : a.ret = .dead) (cause : BitVec 3)
    (sens : BitVec 13) :
    let t := s.verdictDead a cause sens
    (t.rotation r).audit = none ∧
    (cause = 0#3 → (t.unit a.unit.val).state = .fallow ∧ (t.unit a.unit.val).passes = 1#5 ∧ (t.unit a.unit.val).sens = sens) ∧
    (cause ≠ 0#3 → (t.unit a.unit.val).state = .dead) := by
  refine ⟨?_, fun hc => ?_, fun hc => ?_⟩
  · rw [State.verdictDead, h.region]
    exact State.audit_endAudit _ _ h.lt
  · simp [State.verdictDead, hc]
  · simp [State.verdictDead, hc, hret]

/-- A Fallow unit that passes (R152). -/
def State.fallowPass (a : Audit) (sens : BitVec 13) (s : State) : State :=
  let h := s.unit a.unit.val
  let spare := decide (a.unit.val < 648) && decide (24 ≤ (satInc h.passes).toNat) && s.spanReached h &&
    decide ((s.spares (clusterOf a.unit.val)).length < 2)
  (s.setUnit a.unit.val false spare fun h' =>
    { h' with state := if spare then .spare else .fallow, ret := .active, sens := sens, passes := satInc h.passes, fails := 0#2,
              seriesHt := if h.passes = 0#5 then s.clk.ht else h.seriesHt }).endAudit (unitRegion a.unit.val)

theorem State.verdictFallow_pass (a : Audit) (sens : BitVec 13) (s : State) :
    s.verdictFallow a 0#3 sens = (s.fallowPass a sens).fillCluster (clusterOf a.unit.val) := rfl

theorem State.verdictFallow_pass_facts {s : State} {r : Nat} {a : Audit} (h : s.InPilot r a) (sens : BitVec 13) :
    let t := s.verdictFallow a 0#3 sens
    (t.rotation r).audit = none ∧ (t.unit a.unit.val).passes = satInc (s.unit a.unit.val).passes ∧
    (t.unit a.unit.val).sens = sens ∧ (t.unit a.unit.val).fails = 0#2 ∧
    ((satInc (s.unit a.unit.val).passes).toNat < 24 → (t.unit a.unit.val).state = .fallow) ∧
    (a.unit.val < 648 → 24 ≤ (satInc (s.unit a.unit.val).passes).toNat → s.spanReached (s.unit a.unit.val) = true →
      (s.spares (clusterOf a.unit.val)).length < 2 → (t.unit a.unit.val).state = .spare ∨ (t.unit a.unit.val).state =
          .active) := by
  have hpass : ∃ x : UnitHealth, (s.fallowPass a sens).unit a.unit.val = x ∧ x.passes = satInc (s.unit a.unit.val).passes ∧
      x.sens = sens ∧ x.fails = 0#2 ∧ ((satInc (s.unit a.unit.val).passes).toNat < 24 → x.state = .fallow) ∧
      (a.unit.val < 648 → 24 ≤ (satInc (s.unit a.unit.val).passes).toNat → s.spanReached (s.unit a.unit.val) = true →
        (s.spares (clusterOf a.unit.val)).length < 2 → x.state = .spare) := by
    refine ⟨_, by rw [State.fallowPass, State.unit_endAudit, State.unit_setUnit_self a.unit.isLt], rfl, rfl, rfl,
        fun hlt => ?_, ?_⟩
    · simp [Nat.not_le.mpr hlt]
    · intro hu hp hs hl
      simp [hu, hp, hs, hl]
  obtain ⟨x, hunit, hpasses, hsens, hfails, hfew, hmany⟩ := hpass
  have hfill := (s.fallowPass a sens).unit_fill (clusterOf a.unit.val) 18 a.unit.val
  rw [hunit] at hfill
  dsimp only
  rw [State.verdictFallow_pass]
  refine ⟨?_, ?_⟩
  · rw [State.rotation_fillCluster, State.fallowPass, h.region]
    exact State.audit_endAudit _ _ h.lt
  · change (State.fill _ 18 _).unit _ = _ ∨ _ at hfill
    rcases hfill with he | ⟨hs, he⟩ <;> rw [State.fillCluster, he]
    · exact ⟨hpasses, hsens, hfails, hfew, fun hu hp hsp hl => .inl (hmany hu hp hsp hl)⟩
    · refine ⟨hpasses, hsens, hfails, fun hlt => ?_, fun _ _ _ _ => .inr rfl⟩
      rw [hfew hlt] at hs
      contradiction

theorem State.verdictFallow_fail_facts {s : State} {r : Nat} {a : Audit} (h : s.InPilot r a) {cause : BitVec 3} (hc : cause ≠ 0#3)
    (sens : BitVec 13) :
    let t := s.verdictFallow a cause sens
    (t.rotation r).audit = none ∧ (t.unit a.unit.val).state = .dead ∧
    (t.unit a.unit.val).flaps = satInc (s.unit a.unit.val).flaps ∧ (t.unit a.unit.val).passes = 0#5 ∧
    (t.unit a.unit.val).lasting = (satInc (s.unit a.unit.val).flaps == 3#2) := by
  simp only [State.verdictFallow, if_neg hc, State.unit_endAudit, State.unit_setUnit_self a.unit.isLt]
  exact ⟨by rw [h.region]; exact State.audit_endAudit _ _ h.lt, trivial, trivial, trivial, trivial⟩

/-- Settles O14: the verdict is State.voidAudit, State.verdictSum, State.verdictDead or State.verdictFallow by the unit's
RETURN and
the measurement, and each is taken apart above. The limits of a Scarecrow unit, and the RETURN that an audit keeps,
    are the model's
own readings (log entries 21, 110). -/
theorem auditVerdictsComplete : Obligations.AuditVerdictsComplete := by
  unfold Obligations.AuditVerdictsComplete
  intro s r a m haudit hphase hmay hreg hne hspare hstate
  have hp : s.InPilot r.val a := ⟨r.isLt, haudit, hphase, hreg, hne, hspare, hstate⟩
  have hexec := fun moved => exec_auditVerdict haudit hphase hmay moved m
  have hsum := fun hret => exec_verdictSum haudit hphase hmay hret m
  refine ⟨.answer (hexec true) ?void, fun hret hc => .answer (hsum hret) ?pass, fun hret hc hf => .answer (hsum hret) ?fail,
    fun hret hc hf => .answer (hsum hret) ?third, fun hret hc => .answer (hexec false) ?deadPass,
    fun hret hc => .answer (hexec false) ?deadFail, fun hret hc => .answer (hexec false) ?fallowPass,
    fun hret hc => .answer (hexec false) ?fallowFail⟩
  case void =>
    obtain ⟨hrot, hunit, hvoids⟩ := State.voidAudit_facts r.isLt haudit hne
    refine ⟨by simpa using hrot, fun hret => by simpa using hunit hret, fun hret hfull => ?_, by simpa using hvoids,
        by simp [Same]⟩
    simpa using hp.void hret hfull
  case pass =>
    obtain ⟨hrot, hact, hsp, hsens, hfails, hvoids⟩ := State.verdictSum_pass_facts hp (BitVec.ofInt 13 m.sens)
    rw [hc]
    exact ⟨by simpa using hrot, fun h => by simpa using hact h, fun h g => by simpa using hsp h g, by simpa using hsens,
      by simpa using hfails, by simpa using hvoids, by simp [Same, State.mask_verdictSum_pass]⟩
  case fail =>
    rw [State.verdictSum_fail hc hf]
    simp [haudit, hstate, Same]
  case third =>
    obtain ⟨hrot, hdead, hcause, hevt⟩ := State.verdictSum_dead_facts hp hc hf (BitVec.ofInt 13 m.sens)
    exact ⟨by simpa using hrot, by simpa using hdead, by simpa using hcause, by simpa using hevt, by simp [Same]⟩
  case deadPass =>
    obtain ⟨hrot, hpass, -⟩ := State.verdictDead_facts hp hret (auditCause (3 ≤ r.val) m) (BitVec.ofInt 13 m.sens)
    obtain ⟨hst, hpa, hse⟩ := hpass hc
    simp only [hret]
    exact ⟨by simpa using hrot, by simpa using hst, by simpa using hpa, by simpa using hse, by simp [Same]⟩
  case deadFail =>
    obtain ⟨hrot, -, hfail⟩ := State.verdictDead_facts hp hret (auditCause (3 ≤ r.val) m) (BitVec.ofInt 13 m.sens)
    simp only [hret]
    exact ⟨by simpa using hrot, by simpa using hfail hc, by simp [Same, State.verdictDead, hc]⟩
  case fallowPass =>
    obtain ⟨hrot, hpa, hse, hfa, hfew, hmany⟩ := State.verdictFallow_pass_facts hp (BitVec.ofInt 13 m.sens)
    simp only [hret, hc]
    exact ⟨by simpa using hrot, by simpa using hpa, by simpa using hse, by simpa using hfa, fun h => by simpa using hfew h,
      fun h1 h2 h3 h4 => by simpa using hmany h1 h2 h3 h4, by simp [Same]⟩
  case fallowFail =>
    obtain ⟨hrot, hdead, hflaps, hpasses, hlast⟩ := State.verdictFallow_fail_facts hp hc (BitVec.ofInt 13 m.sens)
    simp only [hret]
    exact ⟨by simpa using hrot, by simpa using hdead, by simpa using hflaps, by simpa using hpasses, by simpa using hlast,
        by simp [Same]⟩

end Sys2Proof.Machine
end

section
/-!
PROOFS. Isolations, re-trims, residual checks, the commit of the map and CLUSTER_PWR (chapters 04, 12).
-/

namespace Sys2Proof.Machine

open Sys2Proof

/-! ### The array but for the copies of its map in flash -/

/-- The array but for the copies of the map in flash, which a program or an erase may destroy (R134, R544). -/
def Arr.noCopies (a : Arr) : Arr := { a with mapA := none, mapB := none }

theorem State.noCopies_facts {s t : State} (h : t.arr.noCopies = s.arr.noCopies) :
    t.arr.units = s.arr.units ∧ t.arr.cl = s.arr.cl ∧ t.arr.rot = s.arr.rot :=
  ⟨(congrArg Arr.units h :), (congrArg Arr.cl h :), (congrArg Arr.rot h :)⟩

@[simp] theorem State.noCopies_endSeq (s : State) : s.endSeq.arr.noCopies = s.arr.noCopies := by
  have hover : ∀ (e : Bool) (a n : Nat) (t : State), (t.overwritten e a n).arr.noCopies = t.arr.noCopies := fun _ _ _ _ => rfl
  have hchanged : ∀ (q : PortSeq) (t : State), (t.changedBy q).arr.noCopies = t.arr.noCopies := by
    intro q t
    unfold State.changedBy
    split
    · exact hover _ _ _ _
    · exact hover _ _ _ _
    · rfl
  unfold State.endSeq
  dsimp only
  split
  · exact hchanged _ _
  · rfl

@[simp] theorem State.noCopies_closeBuffer (s : State) : s.closeBuffer.arr.noCopies = s.arr.noCopies := by
  unfold State.closeBuffer
  split
  · rfl
  · exact State.noCopies_endSeq _

@[simp] theorem State.noCopies_readLine (a : Nat) (s : State) : (s.readLine a).arr.noCopies = s.arr.noCopies := by
  unfold State.readLine
  dsimp only
  split
  · simp [State.coreError]
  · split
    · rfl
    · split <;> simp

@[simp] theorem State.noCopies_tickPort (s : State) : s.tickPort.arr.noCopies = s.arr.noCopies := by
  unfold State.tickPort
  lift_lets
  intro n t
  have ht : t.arr.noCopies = s.arr.noCopies := rfl
  clear_value n t
  intro u
  have hu : u.arr.noCopies = s.arr.noCopies := by
    rw [← ht]; subst u; split <;> rfl
  clear_value u
  intro v
  have hv : v.arr.noCopies = s.arr.noCopies := by
    rw [← hu]; subst v; (repeat' split) <;> simp
  clear_value v
  intro w
  have hw : w.arr.noCopies = s.arr.noCopies := by
    rw [← hv]; subst w; split <;> simp
  clear_value w
  (repeat' split) <;> simp [hw]

/-- A tick of the clock changes nothing of the array but the copies in flash. -/
@[simp] theorem State.noCopies_tickClock (s : State) : s.tickClock.arr.noCopies = s.arr.noCopies := by
  rcases Nat.lt_or_ge (s.clk.htSub + 1) s.htPeriod with hin | hend
  · rw [State.tickClock_within hin]; rfl
  · have hht : ∀ t : State, t.tickHt.tickRails.arr = t.arr := fun t =>
      State.arr_of_mask (ps := [.clk, .host, .fresh, .pwr]) (by simp) (by decide)
    have hidle : ∀ t : State, t.samplePins.tickIdle.arr = t.arr := fun t =>
      State.arr_of_mask (ps := [.host, .pwr]) (by simp) (by decide)
    rw [State.tickClock_end hend, hidle, State.noCopies_tickPort, hht]
    rfl

/-- What the isolations find at a tick: units, clusters and rotations stand, and the dies run as before (R148). -/
theorem State.tickClock_front (s : State) : s.tickClock.arr.units = s.arr.units ∧ s.tickClock.arr.cl = s.arr.cl ∧
    s.tickClock.arr.rot = s.arr.rot ∧ ∀ r, s.tickClock.frontRuns r = s.frontRuns r := by
  obtain ⟨hu, hc, hr⟩ := State.noCopies_facts s.noCopies_tickClock
  exact ⟨hu, hc, hr, fun r => by simp [State.frontRuns, State.clken, State.tickClock_clken]⟩

/-! ### The end of an isolation (R148) -/

@[simp] theorem State.bringBack_cl (i : Nat) (s : State) : (s.bringBack i).arr.cl = s.arr.cl := by
  unfold State.bringBack
  refine foldl_keeps (fun t : State => t.arr.cl = s.arr.cl) (fun t u h => ?_) _ rfl
  extract_lets held
  split
  · rw [State.setUnit_cl, h]
  · exact h

/-- A unit that is not under audit is not brought back (R148). -/
theorem State.unit_bringBack {s : State} {u : Nat} (h : (s.unit u).state ≠ .audit) (i : Nat) : (s.bringBack i).unit u =
    s.unit u := by
  unfold State.bringBack
  refine foldl_keeps (fun t : State => t.unit u = s.unit u) (fun t v ht => ?_) _ rfl
  extract_lets held
  split
  · next hv =>
    have hne : v ≠ u := by
      rintro rfl
      simp only [held, Bool.and_eq_true, beq_iff_eq, ht] at hv
      exact h hv.1
    rw [State.unit_setUnit_ne hne, ht]
  · exact ht

@[simp] theorem State.cluster_bringBack (i j : Nat) (s : State) : (s.bringBack i).cluster j = s.cluster j :=
  State.cluster_congr (by simp) j

theorem State.cluster_startRetrim_ne {i j : Nat} (h : i ≠ j) (s : State) : (s.startRetrim i).cluster j = s.cluster j := by
  unfold State.startRetrim
  split
  · rfl
  · split <;> exact State.cluster_modCluster_ne h _ _

theorem State.startRetrim_of_on {i : Nat} {s : State} (hi : i < 36) (h : s.isOn (frontDom (regionOf i)) = true) :
    s.startRetrim i = s.modCluster i fun c => { c with retrim := true } := by
  simp [State.startRetrim, Nat.not_le.mpr hi, h]

/-- An isolation that ends changes no other cluster but in its trims (R148). -/
theorem State.endIsolation_ne {i j : Nat} (h : i ≠ j) (f : Bisection) (s : State) :
    ((s.endIsolation i f).cluster j).bare = (s.cluster j).bare := by
  have hmod : ∀ (g : Cluster → Cluster) (t : State), (t.modCluster i g).cluster j = t.cluster j := fun g t =>
    State.cluster_modCluster_ne h g t
  have hevt : ∀ t : State, (t.modArr fun a => { a with unitEvt := true }).cluster j = t.cluster j :=
      fun t => State.cluster_congr rfl j
  unfold State.endIsolation
  dsimp only
  rw [State.cluster_settleArray]
  split
  · split
    · rw [hevt, State.cluster_startRetrim_ne h, State.cluster_fillCluster, State.cluster_bringBack, State.cluster_setUnit, hmod]
    · rw [State.cluster_startRetrim_ne h, State.cluster_bringBack, hmod]
  · rw [hmod, hmod]
  · rw [State.cluster_startRetrim_ne h, hmod]

theorem State.tickIsolation_ne {i j : Nat} (h : i ≠ j) (s : State) : ((s.tickIsolation i).cluster j).bare =
    (s.cluster j).bare := by
  unfold State.tickIsolation
  split
  · rfl
  · split
    · rfl
    · split
      · exact State.endIsolation_ne h _ s
      · rw [State.cluster_modCluster_ne h]

theorem State.tickIsolation_of_none {i : Nat} {s : State} (h : (s.cluster i).iso = none) : s.tickIsolation i = s := by
  simp [State.tickIsolation, h]

/-- Where one cluster is Isolating, a tick is that cluster's (R148). -/
theorem State.tickIsolations_one {s : State} {i : Nat} (hi : i < 36) (hsome : (s.cluster i).iso.isSome = true)
    (hother : ∀ j, j ≠ i → (s.cluster j).iso = none) : s.tickIsolations = s.tickIsolation i := by
  have hnone : ∀ j, j ≠ i → ((s.tickIsolation i).cluster j).iso = none := fun j hj => by
    have hb : ((s.tickIsolation i).cluster j).iso = (s.cluster j).iso := (congrArg Cluster.iso (State.tickIsolation_ne
        (Ne.symm hj) s) :)
    rw [hb, hother j hj]
  have hfold : ∀ n, (List.range n).foldl (fun t i => t.tickIsolation i) s = if i < n then s.tickIsolation i else s := by
    intro n
    induction n with
    | zero => rfl
    | succ n ih =>
      rw [List.range_succ, List.foldl_append, ih]
      rcases Nat.lt_trichotomy i n with hlt | rfl | hgt
      · simp [hlt, Nat.lt_succ_of_lt hlt, State.tickIsolation_of_none (hnone n (Nat.ne_of_gt hlt))]
      · simp
      · simp [Nat.not_lt.mpr (Nat.le_of_lt hgt), Nat.not_lt.mpr hgt, State.tickIsolation_of_none (hother n (Nat.ne_of_lt hgt))]
  have hall : ((List.range 36).all fun i => (s.cluster i).iso.isNone) = false := by
    rw [List.all_eq_false]
    exact ⟨i, List.mem_range.mpr hi, by simpa [Option.isSome_iff_ne_none] using hsome⟩
  rw [State.tickIsolations, hall, if_neg Bool.false_ne_true, hfold, if_pos hi]

/-- A cluster with a node fault is Excluded (R148). -/
theorem State.clusterState_nodeFault {s : State} {i : Nat} (hi : i < 36) (hiso : (s.cluster i).iso = none)
    (h : (s.cluster i).nodeFault = true) : s.clusterState i = 2#2 := by
  have hx : s.xcause i ≠ 0#3 := by
    rw [State.xcause, if_neg (Nat.not_le.mpr hi)]
    split
    · simp
    · split
      · simp
      · split <;> simp
  simp [State.clusterState, Nat.not_le.mpr hi, hiso, hx]

theorem State.endIsolation_nodeFault {s : State} {i : Nat} (hi : i < 36) :
    let t := s.endIsolation i .nodeFault
    (t.cluster i).iso = none ∧ (t.cluster i).nodeFault = true ∧ t.clusterState i = 2#2 ∧ t.arr.units = s.arr.units := by
  have hbare : ((s.endIsolation i .nodeFault).cluster i).bare = ({ s.cluster i with iso := none, nodeFault :=
      true } : Cluster).bare := by
    unfold State.endIsolation
    rw [State.cluster_settleArray, State.cluster_modCluster_self (by omega), State.cluster_modCluster_self (by omega)]
  have hiso : ((s.endIsolation i .nodeFault).cluster i).iso = none := congrArg Cluster.iso hbare
  have hnode : ((s.endIsolation i .nodeFault).cluster i).nodeFault = true := congrArg Cluster.nodeFault hbare
  refine ⟨hiso, hnode, State.clusterState_nodeFault hi hiso hnode, ?_⟩
  simp [State.endIsolation]

/-- A bisection that names a unit of the cluster makes it Dead and starts the re-trim (R148, R149). -/
theorem State.endIsolation_unit {s : State} {i : Nat} (hi : i < 36) {u : Fin 660} (hfront : s.isOn (frontDom (regionOf i)) = true)
    (hb : s.bisects i (.unit u) = true) :
    let t := s.endIsolation i (.unit u)
    (t.cluster i).iso = none ∧ (t.unit u.val).state = .dead ∧ (t.unit u.val).cause = 5#3 ∧ (t.cluster i).retrim = true ∧
      t.arr.unitEvt = true := by
  have hbis : (s.modCluster i fun c => { c with iso := none }).bisects i (.unit u) = true := by
    simpa [State.bisects, State.inSum, State.leaving] using hb
  have hend : s.endIsolation i (.unit u) = State.settleArray s
      ((((((s.modCluster i fun c => { c with iso := none }).setUnit u.val false true fun h =>
        { h with state := .dead, standin := false, cause := 5#3 }).bringBack i).fillCluster i).startRetrim i).modArr
          fun a => { a with unitEvt := true }) := by
    unfold State.endIsolation
    dsimp only
    rw [if_pos hbis]
  have hunit : ((((s.modCluster i fun c => { c with iso := none }).setUnit u.val false true fun h =>
        { h with state := .dead, standin := false, cause := 5#3 }).bringBack i).fillCluster i).unit u.val =
      { s.unit u.val with state := .dead, standin := false, cause := 5#3 } := by
    rw [State.unit_fillCluster_of_not_spare] <;> rw [State.unit_bringBack] <;> simp
  have hretrim := State.startRetrim_of_on (s := (((s.modCluster i fun c => { c with iso :=
      none }).setUnit u.val false true fun h =>
        { h with state := .dead, standin := false, cause := 5#3 }).bringBack i).fillCluster i) hi
            (by simp [State.fillCluster, hfront])
  have hcl : ∀ t : State, (t.modArr fun a => { a with unitEvt := true }).cluster i = t.cluster i :=
      fun t => State.cluster_congr rfl i
  have hun : ∀ t : State, (t.modArr fun a => { a with unitEvt := true }).unit u.val = t.unit u.val :=
      fun t => State.unit_congr rfl _
  have hbare : ((s.endIsolation i (.unit u)).cluster i).bare = ({ s.cluster i with iso := none, retrim :=
      true } : Cluster).bare := by
    rw [hend, State.cluster_settleArray, hcl, hretrim]
    simp [show i < 39 by omega]
  have hdead : (s.endIsolation i (.unit u)).unit u.val = { s.unit u.val with state := .dead, standin := false, cause :=
      5#3 } := by
    rw [hend, State.unit_settleArray, hun, hretrim, State.unit_modCluster, hunit]
  refine ⟨congrArg Cluster.iso hbare, by rw [hdead], by rw [hdead], congrArg Cluster.retrim hbare, ?_⟩
  rw [hend]
  simp

/-- The array after an idle step that ends one isolation (R148). -/
theorem State.idle_arr_isolation {s : State} {i : Nat} {f : Bisection} (hi : i < 36) (hsm : s.hasSm = true)
    (hfront : s.frontRuns (regionOf i) = true) (hiso : (s.cluster i).iso = some (f, 1))
    (hother : ∀ j, j ≠ i → (s.cluster j).iso = none) : s.idle.arr = (s.tickClock.endIsolation i f).arr := by
  obtain ⟨-, hc, -, hfr⟩ := s.tickClock_front
  have hcl : ∀ j, s.tickClock.cluster j = s.cluster j := State.cluster_congr hc
  have hone : s.tickClock.tickIsolations = s.tickClock.endIsolation i f := by
    rw [State.tickIsolations_one hi (by rw [hcl, hiso]; rfl) (fun j hj => by rw [hcl, hother j hj])]
    simp [State.tickIsolation, hcl, hiso, hfr, hfront]
  rw [State.idle_of_sm hsm, State.arbitrate_arr, State.tickRest, hone]
  exact State.arr_of_mask (ps := [.therm, .mgmt, .fresh, .clk, .buf]) (by simp) (by decide)

/-! ### Window faults (R148) -/

/-- A cluster whose state moves sets DEGR_EVT (R160). -/
theorem State.settleArray_degrEvt {s t : State} {i : Nat} (hi : i < 39) (h : s.clusterState i ≠ t.clusterState i) :
    (State.settleArray s t).arr.degrEvt = true := by
  have hmem : i ∈ (List.range 39).filter fun i => s.clusterState i != t.clusterState i := by simp [hi, h]
  have hmoved : ((List.range 39).filter fun i => s.clusterState i != t.clusterState i).isEmpty = false :=
    List.isEmpty_eq_false_iff.mpr (List.ne_nil_of_mem hmem)
  simp only [State.settleArray, hmoved, Bool.not_false, Bool.or_true, if_true, State.modArr_arr]

theorem State.clusterState_iso {s : State} {i : Nat} (hi : i < 36) : s.clusterState i = 3#2 ↔ (s.cluster i).iso.isSome =
    true := by
  unfold State.clusterState
  rw [if_neg (Nat.not_le.mpr hi)]
  constructor
  · intro h
    by_contra hiso
    rw [if_neg hiso] at h
    split at h
    · simp at h
    · split at h <;> simp at h
  · intro h
    rw [if_pos h]

/-- WINDOW_FAULT in a cluster whose region is not under audit (R148). -/
theorem exec_windowFault {s : State} {i : Fin 36} {f : Bisection} (hfront : s.frontRuns (regionOf i.val) = true)
    (hon : s.clusterOn i.val = true) (hnode : (s.cluster i.val).nodeFault = false) (hiso : (s.cluster i.val).iso = none)
    (haudit : (s.rotation (regionOf i.val)).audit = none) (hb : s.bisects i.val f = true) :
    exec (.windowFault i f) s = answer s (State.settleArray s
      (({ s with fresh := s.fresh + 1 }).modCluster i.val fun c =>
        { c with winevt := satInc c.winevt, retrim := false, iso := some (f, 1 + Config.bisectTicks s.fresh % 7352) })) := by
  simp only [exec, execWindowFault, haudit, hfront, hon, hnode, hiso, hb]
  rfl

/-! ### The map (R134, R150) -/

/-- The copy that a commit writes (R134, R150). -/
def Arr.nextCopy (a : Arr) : MapCopy :=
  { seq := match a.newerCopy with | some c => c.seq + 1 | none => 1
    units := a.units.map UnitHealth.settled, cl := a.cl.map Cluster.kept }

/-- The commit takes the place of copy A (R134). -/
def Arr.intoA (a : Arr) : Bool :=
  match a.mapA, a.mapB with | none, _ => true | some _, none => false | some x, some y => decide (x.seq ≤ y.seq)

theorem State.commitMap_arr (s : State) : s.commitMap.arr =
    if s.arr.intoA then { s.arr with mapA := some s.arr.nextCopy, dirtySince := none }
    else { s.arr with mapB := some s.arr.nextCopy, dirtySince := none } := rfl

/-- The copy that a commit writes is newer than both (R134). -/
theorem Arr.nextCopy_newer (a : Arr) : (∀ x, a.mapA = some x → x.seq < a.nextCopy.seq) ∧
    ∀ y, a.mapB = some y → y.seq < a.nextCopy.seq := by
  unfold Arr.nextCopy Arr.newerCopy
  cases ha : a.mapA <;> cases hb : a.mapB
  case some.some x y =>
    by_cases h : x.seq < y.seq
    · simp [h]; omega
    · simp [h]; omega
  all_goals simp

/-- The copy that a commit writes is the newer one; the other copy stands (R134, R150). -/
theorem State.commitMap_facts (s : State) : s.commitMap.arr.dirtySince = none ∧ s.commitMap.arr.units = s.arr.units ∧
    s.commitMap.arr.newerCopy = some s.arr.nextCopy ∧
      (s.commitMap.arr.mapA = some s.arr.nextCopy ∧ s.commitMap.arr.mapB = s.arr.mapB ∨
        s.commitMap.arr.mapB = some s.arr.nextCopy ∧ s.commitMap.arr.mapA = s.arr.mapA) := by
  obtain ⟨hA, hB⟩ := s.arr.nextCopy_newer
  rw [State.commitMap_arr]
  split
  · refine ⟨rfl, rfl, ?_, .inl ⟨rfl, rfl⟩⟩
    cases hb : s.arr.mapB with
    | none => simp [Arr.newerCopy, hb]
    | some y => simp [Arr.newerCopy, hb, Nat.not_lt.mpr (Nat.le_of_lt (hB y hb))]
  · refine ⟨rfl, rfl, ?_, .inr ⟨rfl, rfl⟩⟩
    cases ha : s.arr.mapA with
    | none => simp [Arr.newerCopy, ha]
    | some x => simp [Arr.newerCopy, ha, hA x ha]

/-- The work that a use of the flash bus ends leaves the array, but for the copies of the map (R544). -/
theorem State.storeWork_noCopies (s : State) : s.storeWork.arr.noCopies = s.arr.noCopies := by
  simp [State.storeWork]

theorem State.storeWork_arr_of_idle {s : State} (h : s.mport.seq = none) : s.storeWork.arr = s.arr := by
  simp [State.storeWork, State.endSeq, h]

/-! ### Residual checks (R159) -/

/-- A fold of updates of different clusters updates each of them once. -/
theorem State.foldl_modCluster {l : List Nat} (hl : l.Nodup) (hlt : ∀ i ∈ l, i < 39) (f : Nat → Cluster → Cluster) (s : State) :
    (∀ i, i ∉ l → (l.foldl (fun t i => t.modCluster i (f i)) s).cluster i = s.cluster i) ∧
    (∀ i ∈ l, (l.foldl (fun t i => t.modCluster i (f i)) s).cluster i = f i (s.cluster i)) ∧
    (l.foldl (fun t i => t.modCluster i (f i)) s).arr.units = s.arr.units ∧
    (l.foldl (fun t i => t.modCluster i (f i)) s).arr.rot = s.arr.rot := by
  induction l generalizing s with
  | nil => exact ⟨fun _ _ => rfl, fun i hi => absurd hi List.not_mem_nil, rfl, rfl⟩
  | cons j l ih =>
    obtain ⟨hj, hl⟩ := List.nodup_cons.mp hl
    obtain ⟨hout, hin, hu, hr⟩ := ih hl (fun i hi => hlt i (List.mem_cons_of_mem _ hi)) (s.modCluster j (f j))
    simp only [List.foldl_cons]
    refine ⟨fun i hi => ?_, fun i hi => ?_, hu.trans (by simp), hr.trans (by simp)⟩
    · obtain ⟨hne, hi⟩ := not_or.mp (fun h => hi (List.mem_cons.mpr h))
      rw [hout i hi, State.cluster_modCluster_ne (Ne.symm hne)]
    · rcases List.mem_cons.mp hi with rfl | hi
      · rw [hout i hj, State.cluster_modCluster_self (hlt i List.mem_cons_self)]
      · have hne : j ≠ i := fun h => hj (h ▸ hi)
        rw [hin i hi, State.cluster_modCluster_ne hne]

theorem regionClusters_facts (r : Fin 6) : (regionClusters r.val).Nodup ∧ ∀ i ∈ regionClusters r.val, i < 39 := by
  unfold regionClusters
  split
  · exact ⟨List.nodup_range', fun i hi => by simp only [List.mem_range'_1] at hi; omega⟩
  · exact ⟨List.nodup_range', fun i hi => by simp only [List.mem_range'_1] at hi; omega⟩

/-! ### Accesses to table space -/

/-- A field read back. -/
@[simp] theorem bits_fld_zero {n : Nat} (x : BitVec n) (h : n ≤ 32) : bits (fld x 0) 0 n = x := by
  apply BitVec.eq_of_getLsbD_eq
  intro i hi
  simp [bits, fld, hi, Nat.lt_of_lt_of_le hi h]

section
variable (s : State)

@[simp] theorem State.winNext_pending : s.winNext.pending = s.pending := rfl
@[simp] theorem State.winNext_clk : s.winNext.clk = s.clk := rfl
@[simp] theorem State.winNext_harrow : s.winNext.harrow = s.harrow := rfl
@[simp] theorem State.winNext_arr : s.winNext.arr = s.arr := rfl
@[simp] theorem State.winNext_therm : s.winNext.therm = s.therm := rfl
@[simp] theorem State.winNext_aux : s.winNext.aux = s.aux := rfl
@[simp] theorem State.winNext_recog : s.winNext.recog = s.recog := rfl
@[simp] theorem State.winNext_cap : s.winNext.cap = s.cap := rfl
@[simp] theorem State.winNext_scar : s.winNext.scar = s.scar := rfl
@[simp] theorem State.winNext_spec : s.winNext.spec = s.spec := rfl
@[simp] theorem State.winNext_smc : s.winNext.smc = s.smc := rfl
@[simp] theorem State.winNext_buf : s.winNext.buf = s.buf := rfl
@[simp] theorem State.winNext_int : s.winNext.int = s.int := rfl
@[simp] theorem State.winNext_pwr : s.winNext.pwr = s.pwr := rfl
@[simp] theorem State.winNext_link : s.winNext.link = s.link := rfl
@[simp] theorem State.winNext_mport : s.winNext.mport = s.mport := rfl
@[simp] theorem State.winNext_mgmt : s.winNext.mgmt = s.mgmt := rfl
@[simp] theorem State.winNext_fresh : s.winNext.fresh = s.fresh := rfl

end

section
variable (a : Nat) (s : State)

@[simp] theorem State.touchTs_pending : (s.touchTs a).pending = s.pending := by unfold State.touchTs; split <;> rfl
@[simp] theorem State.touchTs_clk : (s.touchTs a).clk = s.clk := by unfold State.touchTs; split <;> rfl
@[simp] theorem State.touchTs_harrow : (s.touchTs a).harrow = s.harrow := by unfold State.touchTs; split <;> rfl
@[simp] theorem State.touchTs_arr : (s.touchTs a).arr = s.arr := by unfold State.touchTs; split <;> rfl
@[simp] theorem State.touchTs_therm : (s.touchTs a).therm = s.therm := by unfold State.touchTs; split <;> rfl
@[simp] theorem State.touchTs_aux : (s.touchTs a).aux = s.aux := by unfold State.touchTs; split <;> rfl
@[simp] theorem State.touchTs_recog : (s.touchTs a).recog = s.recog := by unfold State.touchTs; split <;> rfl
@[simp] theorem State.touchTs_cap : (s.touchTs a).cap = s.cap := by unfold State.touchTs; split <;> rfl
@[simp] theorem State.touchTs_scar : (s.touchTs a).scar = s.scar := by unfold State.touchTs; split <;> rfl
@[simp] theorem State.touchTs_spec : (s.touchTs a).spec = s.spec := by unfold State.touchTs; split <;> rfl
@[simp] theorem State.touchTs_smc : (s.touchTs a).smc = s.smc := by unfold State.touchTs; split <;> rfl
@[simp] theorem State.touchTs_buf : (s.touchTs a).buf = s.buf := by unfold State.touchTs; split <;> rfl
@[simp] theorem State.touchTs_int : (s.touchTs a).int = s.int := by unfold State.touchTs; split <;> rfl
@[simp] theorem State.touchTs_link : (s.touchTs a).link = s.link := by unfold State.touchTs; split <;> rfl
@[simp] theorem State.touchTs_mport : (s.touchTs a).mport = s.mport := by unfold State.touchTs; split <;> rfl
@[simp] theorem State.touchTs_mgmt : (s.touchTs a).mgmt = s.mgmt := by unfold State.touchTs; split <;> rfl
@[simp] theorem State.touchTs_fresh : (s.touchTs a).fresh = s.fresh := by unfold State.touchTs; split <;> rfl

@[simp] theorem State.mask_touchTs {ps : List Part} (h : Part.pwr ∈ ps) : (s.touchTs a).mask ps = s.mask ps := by
  unfold State.touchTs; split <;> simp [h]

end

/-- A word of a page without a domain (R469). -/
theorem State.touchTs_of_none {a : Nat} (h : tsDom a = none) (s : State) : s.touchTs a = s := by
  simp [State.touchTs, h]

/-! ### CLUSTER_PWR (R453) -/

@[simp] theorem State.voidAudit_cl (r : Nat) (first : Bool) (s : State) : (s.voidAudit r first).arr.cl = s.arr.cl := by
  unfold State.voidAudit
  split
  · rfl
  · dsimp only
    split <;> simp

theorem State.voidAudit_clusterPwr (r : Nat) (first : Bool) (s : State) : (s.voidAudit r first).arr.clusterPwr =
    s.arr.clusterPwr := by
  unfold State.voidAudit
  split
  · rfl
  next a _ =>
  extract_lets q t u v
  have ht : t.arr.clusterPwr = s.arr.clusterPwr :=
    ((State.setUnit_kept _ _ _ _ s).trans (State.releaseStandin_facts q a _).2.2).2.1
  have hu : u.arr.clusterPwr = t.arr.clusterPwr := (State.modRotation_kept r _ t).2.1
  have hv : v.arr.clusterPwr = u.arr.clusterPwr :=
    (State.fillCluster_kept _ (u.modArr fun y => { y with voids := satInc y.voids })).2.1
  split
  · exact hv.trans (hu.trans ht)
  · exact (State.endRotation_kept r v).2.1.trans (hv.trans (hu.trans ht))

/-- One cluster of a write of CLUSTER_PWR (R453). -/
def State.switchCluster (old v : BitVec 24) (now : Tick) (t : State) (i : Nat) : State :=
  if old.getLsbD i && !v.getLsbD i then
    let t := t.modCluster i fun c => { c with rejoin := false }
    match (t.rotation (regionOf i)).audit with
    | some a => if clusterOf a.unit.val = i then t.voidAudit (regionOf i) false else t
    | none => t
  else if !old.getLsbD i && v.getLsbD i then t.modCluster i fun c => { c with rejoin := true, rejoinAt := now }
  else t

theorem State.writeClusterPwr_eq (v : BitVec 24) (s : State) : s.writeClusterPwr v = State.settleArray s
    ((List.range 24).foldl (State.switchCluster s.arr.clusterPwr v s.clk.tsc) (s.modArr fun a => { a with clusterPwr :=
        v })) := rfl

/-- A cluster switched on again joins later; no other cluster changes (R453). -/
theorem State.switchCluster_facts (old v : BitVec 24) (now : Tick) (t : State) (i : Nat) :
    (t.switchCluster old v now i).arr.clusterPwr = t.arr.clusterPwr ∧
    (∀ j, j ≠ i → (t.switchCluster old v now i).cluster j = t.cluster j) ∧
    (i < 39 → old.getLsbD i = false → v.getLsbD i = true →
      (t.switchCluster old v now i).cluster i = { t.cluster i with rejoin := true, rejoinAt := now }) := by
  unfold State.switchCluster
  split
  · next h =>
    extract_lets u
    have hpwr : u.arr.clusterPwr = t.arr.clusterPwr := (State.modCluster_kept i _ t).2.1
    have hcl : ∀ j, j ≠ i → u.cluster j = t.cluster j := fun j hj => State.cluster_modCluster_ne (Ne.symm hj) _ _
    have hoff : old.getLsbD i = true := (Bool.and_eq_true_iff.mp h).1
    refine ⟨?_, fun j hj => ?_, fun _ hold => absurd (hoff.symm.trans hold) Bool.true_eq_false.mp⟩
    · split
      · split
        · rw [State.voidAudit_clusterPwr, hpwr]
        · exact hpwr
      · exact hpwr
    · split
      · split
        · rw [State.cluster_congr (State.voidAudit_cl _ _ u), hcl j hj]
        · exact hcl j hj
      · exact hcl j hj
  · split
    · exact ⟨(State.modCluster_kept i _ t).2.1, fun j hj => State.cluster_modCluster_ne (Ne.symm hj) _ _,
        fun hi _ _ => State.cluster_modCluster_self hi _ _⟩
    · next h => exact ⟨rfl, fun _ _ => rfl, fun _ hold hnew => absurd (by simp [hold, hnew]) h⟩

theorem State.switchClusters_facts (old v : BitVec 24) (now : Tick) (s : State) (n : Nat) (hn : n ≤ 24) :
    let t := (List.range n).foldl (State.switchCluster old v now) s
    t.arr.clusterPwr = s.arr.clusterPwr ∧
    ∀ i, i < n → old.getLsbD i = false → v.getLsbD i = true → (t.cluster i).rejoin = true ∧ (t.cluster i).rejoinAt = now := by
  induction n with
  | zero => exact ⟨rfl, fun i hi => absurd hi (Nat.not_lt_zero i)⟩
  | succ n ih =>
    obtain ⟨hp, hc⟩ := ih (by omega)
    dsimp only
    rw [List.range_succ, List.foldl_append, List.foldl_cons, List.foldl_nil]
    obtain ⟨gp, gne, gself⟩ :=
      ((List.range n).foldl (State.switchCluster old v now) s).switchCluster_facts old v now n
    refine ⟨gp.trans hp, fun i hi hold hnew => ?_⟩
    rcases Nat.lt_succ_iff_lt_or_eq.mp hi with hlt | rfl
    · rw [gne i (by omega)]
      exact hc i hlt hold hnew
    · rw [gself (by omega) hold hnew]
      exact ⟨rfl, rfl⟩

/-- A write of CLUSTER_PWR (R453). -/
theorem State.writeClusterPwr_facts (v : BitVec 24) (s : State) : (s.writeClusterPwr v).arr.clusterPwr = v ∧
    ∀ i, i < 24 → s.arr.clusterPwr.getLsbD i = false → v.getLsbD i = true →
      ((s.writeClusterPwr v).cluster i).rejoin = true ∧ ((s.writeClusterPwr v).cluster i).rejoinAt = s.clk.tsc := by
  obtain ⟨hp, hc⟩ := State.switchClusters_facts s.arr.clusterPwr v s.clk.tsc (s.modArr fun a => { a with clusterPwr := v }) 24
    (Nat.le_refl 24)
  rw [State.writeClusterPwr_eq]
  refine ⟨by rw [State.settleArray_clusterPwr]; exact hp, fun i hi hold hnew => ?_⟩
  obtain ⟨hj, ha⟩ := hc i hi hold hnew
  have hbare := State.cluster_settleArray s
    ((List.range 24).foldl (State.switchCluster s.arr.clusterPwr v s.clk.tsc) (s.modArr fun a => { a with clusterPwr := v })) i
  exact ⟨(congrArg Cluster.rejoin hbare :).trans hj, (congrArg Cluster.rejoinAt hbare :).trans ha⟩

/-- Settles O15: each event is its row's update of one cluster, settled; an isolation that ends is State.endIsolation, the
commit is
State.commitMap, a write of CLUSTER_PWR is State.writeClusterPwr. How long a bisection takes,
    and what a cluster that is switched off
does to an audit, are the model's own readings (log entries 24, 25, 111). -/
theorem clusterEventsComplete : Obligations.ClusterEventsComplete := by
  unfold Obligations.ClusterEventsComplete
  refine ⟨fun s i f hfront hon hnode hiso haudit hb => ?fault, fun s i hpend hsm hfront hother => ⟨fun hiso => ?node,
      fun u hiso hb => ?unit⟩,
    fun s i hre hfront => ?retrim, fun s hdirty hload hmc hfree => ?commit, fun s r e hon hmc => ?resid,
    fun s i hex hmc hon => ?residTrim, fun s v h => ?pwr, fun s i hre hon hus => ?rejoin⟩
  case fault =>
    refine .answer (exec_windowFault hfront hon hnode hiso haudit hb) ?_
    have hcl : ∀ j, (State.settleArray s (({ s with fresh := s.fresh + 1 }).modCluster i.val fun c =>
        { c with winevt := satInc c.winevt, retrim := false, iso := some (f,
            1 + Config.bisectTicks s.fresh % 7352) })).cluster j =
        (s.modCluster i.val fun c => { c with winevt := satInc c.winevt, retrim := false, iso := some (f,
            1 + Config.bisectTicks s.fresh % 7352) }).cluster j :=
      fun j => State.cluster_settleArray_same (by simp) (by simp) j
    have hself := State.cluster_modCluster_self (i := i.val) (by omega)
      (fun c => { c with winevt := satInc c.winevt, retrim := false, iso := some (f, 1 + Config.bisectTicks s.fresh % 7352) }) s
    refine ⟨⟨1 + Config.bisectTicks s.fresh % 7352, by omega, by omega, ?_⟩, ?_, fun j hj => ?_, by simp, ?_, by simp [Same]⟩
    · rw [State.cluster_arbitrate, hcl, hself]
    · rw [State.clusterState_iso i.isLt, State.cluster_arbitrate, hcl, hself]; rfl
    · rw [State.cluster_arbitrate, hcl, State.cluster_modCluster_ne (Ne.symm hj)]
    · rw [State.arbitrate_arr]
      refine State.settleArray_degrEvt (i := i.val) (by omega) fun he => ?_
      have h3 : s.clusterState i.val = 3#2 := by
        rw [he, State.clusterState_iso i.isLt]
        exact congrArg (fun c => Option.isSome c.iso) hself
      rw [State.clusterState_iso i.isLt, hiso] at h3
      contradiction
  case node =>
    have harr := State.idle_arr_isolation i.isLt hsm hfront hiso hother
    obtain ⟨h1, h2, h3, h4⟩ := State.endIsolation_nodeFault (s := s.tickClock) i.isLt
    have hcl := State.cluster_congr (congrArg Arr.cl harr) i.val
    exact ⟨s.idle, step_idle hpend, by rw [hcl, h1], by rw [hcl, h2], by rw [State.clusterState_congr harr, h3],
      by rw [harr, h4, s.tickClock_front.1]⟩
  case unit =>
    have harr := State.idle_arr_isolation i.isLt hsm hfront hiso hother
    obtain ⟨hu, -, hr, hfr⟩ := s.tickClock_front
    have hfr' : s.tickClock.isOn (frontDom (regionOf i.val)) = true := by
      rw [State.isOn_tickClock]
      exact (Bool.and_eq_true_iff.mp hfront).1
    have hb' : s.tickClock.bisects i.val (.unit u) = true := by
      simpa [State.bisects, State.inSum, State.leaving, State.unit_congr hu, State.rotation_congr hr] using hb
    obtain ⟨h1, h2, h3, h4, h5⟩ := State.endIsolation_unit i.isLt hfr' hb'
    have hcl := State.cluster_congr (congrArg Arr.cl harr) i.val
    have hun := State.unit_congr (congrArg Arr.units harr) u.val
    exact ⟨s.idle, step_idle hpend, by rw [hcl, h1], by rw [hun, h2], by rw [hun, h3], by rw [hcl, h4], by rw [harr, h5]⟩
  case retrim =>
    refine .event rfl (by simp [hre, hfront]) ⟨⟨Vector.ofFn fun k => Config.measuredTrim k.val s.fresh, ?_⟩, fun j hj => ?_,
        by simp, by simp [Same]⟩
    · rw [State.cluster_arbitrate, State.cluster_settleArray_same (by simp) (by simp), State.cluster_modCluster_self (by omega)]
      rfl
    · rw [State.cluster_arbitrate, State.cluster_settleArray_same (by simp) (by simp), State.cluster_modCluster_ne (Ne.symm hj)]
      rfl
  case commit =>
    obtain ⟨hd, hu, hnew, hcopies⟩ := s.storeWork.commitMap_facts
    have hunits : s.storeWork.arr.units = s.arr.units := (State.noCopies_facts s.storeWork_noCopies).1
    refine .event rfl (by simp [hdirty, hload, hmc, hfree]) ⟨by simpa using hd, ?_,
      ⟨s.storeWork.arr.nextCopy, ?_, by simpa using hnew, fun hseq => ?_⟩, by simp [Same]⟩
    · rw [State.arbitrate_arr, hu, hunits]
    · exact congrArg (fun x => x.map UnitHealth.settled) hunits
    · rw [State.arbitrate_arr]
      have hsame := State.storeWork_arr_of_idle hseq
      rw [hsame] at hcopies ⊢
      exact hcopies
  case resid =>
    obtain ⟨hnd, hlt⟩ := regionClusters_facts r
    obtain ⟨hout, hin, hu, hr⟩ := State.foldl_modCluster hnd hlt
      (fun i c => c.compare (s.included i) (e.getLsbD (i - (regionClusters r.val).headD 0))) s
    have hm := State.mask_foldl (ps := [.arr, .mgmt, .int]) (fun t i => t.modCluster i fun c =>
      c.compare (s.included i) (e.getLsbD (i - (regionClusters r.val).headD 0))) (fun t i => by simp) s (regionClusters r.val)
    refine .event rfl (by simp [hon, hmc]) ⟨fun i hi => ?_, ?_, fun i hi => ?_, ?_⟩
    · rw [State.cluster_arbitrate, State.cluster_settleArray_same hu hr, hout i hi]
    · simpa using hu
    · rw [State.cluster_arbitrate, State.cluster_settleArray_same hu hr, hin i hi]
    · rw [Same, State.mask_arbitrate (by decide), State.mask_settleArray (by decide) (by decide)]
      exact hm
  case residTrim =>
    have htrim := State.startRetrim_of_on (s := s.modCluster i.val fun c => { c with residTrim := true }) i.isLt
        (by simpa using hon)
    refine .event rfl (by simp [hex, hmc, hon]) ?_
    rw [htrim]
    refine ⟨?_, fun j hj => ?_, by simp, by simp [Same]⟩
    · rw [State.cluster_arbitrate, State.cluster_settleArray_same (by simp) (by simp), State.cluster_modCluster_self (by omega),
        State.cluster_modCluster_self (by omega)]
    · rw [State.cluster_arbitrate, State.cluster_settleArray_same (by simp) (by simp), State.cluster_modCluster_ne (Ne.symm hj),
        State.cluster_modCluster_ne (Ne.symm hj)]
  case pwr =>
    refine .answer (congrArg (answer s) (State.hostTs_reaches h (fld v 0))) ?_
    have hwrite : ∀ u : State, u.tsWrite 0x7023 (fld v 0) = u.writeClusterPwr v := fun u =>
      congrArg (fun x => u.writeClusterPwr x) (bits_fld_zero v (by decide))
    obtain ⟨hv, hc⟩ := State.writeClusterPwr_facts v (s.atWord 0x7023)
    rw [State.touchTs_of_none rfl, hwrite]
    refine ⟨by simpa using hv, fun i hi hold hnew => ?_, by simp [Same]⟩
    rw [State.cluster_arbitrate]
    exact hc i hi hold hnew
  case rejoin =>
    refine .event rfl (by simp [hre, hon, hus]) ⟨?_, fun j hj => ?_, by simp [Same]⟩
    · rw [State.cluster_arbitrate, State.cluster_modCluster_self (by omega)]
    · rw [State.cluster_arbitrate, State.cluster_modCluster_ne (Ne.symm hj)]

end Sys2Proof.Machine
end

section
/-!
PROOFS. The auxiliary front end: converters, excitation, wire break, identification (chapter 05).
-/

namespace Sys2Proof.Machine

open Sys2Proof

/-! ### One converter -/

theorem State.conv_modConv (c d : Fin 4) (f : Conv → Conv) (s : State) :
    (s.modConv c f).aux.conv[d] = if c = d then f s.aux.conv[c] else s.aux.conv[d] := by
  by_cases h : c = d
  · subst h; simp [State.modConv]
  · simp [State.modConv, h, Vector.getElem_set_ne c.isLt d.isLt (fun he => h (Fin.ext he))]

@[simp] theorem State.conv_modConv_self (c : Fin 4) (f : Conv → Conv) (s : State) :
    (s.modConv c f).aux.conv[c] = f s.aux.conv[c] := by
  rw [State.conv_modConv, if_pos rfl]

theorem State.conv_modConv_ne {c d : Fin 4} (h : d ≠ c) (f : Conv → Conv) (s : State) :
    (s.modConv c f).aux.conv[d] = s.aux.conv[d] := by
  rw [State.conv_modConv, if_neg (Ne.symm h)]

/-- A change of a converter leaves the rest of the front end. -/
theorem State.modConv_aux (c : Fin 4) (f : Conv → Conv) (s : State) :
    (s.modConv c f).aux = { s.aux with conv := s.aux.conv.set c (f s.aux.conv[c]) } := rfl

/-! ### Words and fields -/

theorem bitAt_fld {n : Nat} (x : BitVec n) {k j : Nat} (hj : j < 32) :
    bitAt (fld x k) j = (decide (k ≤ j) && x.getLsbD (j - k)) := by
  simp only [bitAt, fld, BitVec.getLsbD_shiftLeft, BitVec.getLsbD_setWidth, hj]
  by_cases h : k ≤ j
  · simp [h, Nat.not_lt.mpr h, show j - k < 32 by omega]
  · simp [h, Nat.lt_of_not_le h]

theorem getLsbD_bits (w : Word) (lo n i : Nat) : (bits w lo n).getLsbD i = (decide (i < n) && bitAt w (lo + i)) := by
  simp [bits, bitAt]

/-! ### AUX_CTRL (R189, R197, R212) -/

/-- The converters that four bits of AUX_CTRL name (R212). -/
def onNamed (f : Fin 4 → State → State) (lo : Nat) (w : Word) (s : State) : State :=
  foldUpto (fun t k => if h : k < 4 then (if bitAt w (lo + k) then f ⟨k, h⟩ t else t) else t) s 4

theorem State.writeAuxCtrl_eq (w : Word) (s : State) : s.writeAuxCtrl w =
    (onNamed State.startReset 4 w (onNamed State.commitConv 0 w s)).modAux fun a =>
      { a with tedsAuto := bitAt w 8, probeEn := bits w 12 4 } := rfl

theorem onNamed_none {w : Word} {lo : Nat} (h : ∀ k < 4, bitAt w (lo + k) = false) (f : Fin 4 → State → State) (s : State) :
    onNamed f lo w s = s := by
  have h0 : bitAt w lo = false := h 0 (by decide)
  simp [onNamed, foldUpto, h, h0]

theorem onNamed_one {w : Word} {lo : Nat} {c : Fin 4} (h : ∀ k < 4, bitAt w (lo + k) = decide (k = c.val))
    (f : Fin 4 → State → State) (s : State) : onNamed f lo w s = f c s := by
  have h0 : bitAt w lo = decide (0 = c.val) := h 0 (by decide)
  match c with
  | 0 | 1 | 2 | 3 => simp [onNamed, foldUpto, h, h0]

/-- AUX_CTRL as read, with one of its command bits set (R212). -/
def Aux.ctrlWith (a : Aux) (k : Nat) : Word := a.ctrl ||| flg true k

theorem Aux.bitAt_ctrlWith (a : Aux) {k j : Nat} (hj : j < 8) : bitAt (a.ctrlWith k) j = decide (j = k) := by
  simp [Aux.ctrlWith, Aux.ctrl, bitAt_or, bitAt_flg, bitAt_fld, show j < 32 by omega, show ¬ 12 ≤ j by omega,
      show ¬ j = 8 by omega]

theorem Aux.ctrlWith_settings (a : Aux) {k : Nat} (hk : k < 8) :
    bitAt (a.ctrlWith k) 8 = a.tedsAuto ∧ bits (a.ctrlWith k) 12 4 = a.probeEn := by
  refine ⟨?_, BitVec.eq_of_getLsbD_eq fun i hi => ?_⟩
  · simp [Aux.ctrlWith, Aux.ctrl, bitAt_or, bitAt_flg, bitAt_fld, show ¬ 8 = k by omega]
  · rw [getLsbD_bits]
    simp [Aux.ctrlWith, Aux.ctrl, bitAt_or, bitAt_flg, bitAt_fld, hi, show 12 + i < 32 by omega,
      show ¬ 12 + i = 8 by omega, show ¬ 12 + i = k by omega]

/-- The tick at which the active copy stops for a commit: the first valid request sets it (R189). -/
def State.commitStop (c : Fin 4) (s : State) : Tick :=
  if s.aux.conv[c].pend.isSome then s.aux.conv[c].stopAt.getD (s.stopFor c) else s.stopFor c

/-- A commit request that finds its block (R189). -/
def State.commitBody (c : Fin 4) (s : State) : State :=
  if s.aux.conv[c].stage.check ≠ 0#3 then s.modConv c fun q => { q with err := s.aux.conv[c].stage.check }
  else s.modConv c fun q =>
    { q with pend := some q.stage, err := 0#3, stopAt := some (s.commitStop c), startAt := s.startFor q.stage (s.commitStop c) }

theorem State.commitConv_or (c : Fin 4) (s : State) : s.commitConv c = s ∨ s.commitConv c = s.commitBody c :=
  ite_eq_or_eq _ _ _

theorem State.commitConv_of_on {c : Fin 4} {s : State} (hon : s.isOn .xf = true) : s.commitConv c = s.commitBody c := by
  rw [State.commitConv, if_neg (by cases h : (s.dom .xf).st <;> simp [State.isOn, h, DomState.isOn] at hon ⊢)]
  rfl

/-- What a change of converters leaves of the settings of AUX_CTRL. -/
theorem State.commitConv_settings (c : Fin 4) (s : State) :
    (s.commitConv c).aux.tedsAuto = s.aux.tedsAuto ∧ (s.commitConv c).aux.probeEn = s.aux.probeEn := by
  have hbody : (s.commitBody c).aux.tedsAuto = s.aux.tedsAuto ∧ (s.commitBody c).aux.probeEn = s.aux.probeEn := by
    unfold State.commitBody
    split <;> exact ⟨rfl, rfl⟩
  rcases s.commitConv_or c with h | h <;> rw [h]
  · exact ⟨rfl, rfl⟩
  · exact hbody

theorem State.startReset_settings (c : Fin 4) (s : State) :
    (s.startReset c).aux.tedsAuto = s.aux.tedsAuto ∧ (s.startReset c).aux.probeEn = s.aux.probeEn := by
  unfold State.startReset
  split <;> exact ⟨rfl, rfl⟩

/-- A write that sets one commit bit is that commit (R189). -/
theorem State.writeAuxCtrl_commit (c : Fin 4) (s : State) : s.writeAuxCtrl (s.aux.ctrlWith c.val) = s.commitConv c := by
  obtain ⟨hauto, hprobe⟩ := s.aux.ctrlWith_settings (k := c.val) (by omega)
  obtain ⟨ha, hp⟩ := s.commitConv_settings c
  rw [State.writeAuxCtrl_eq, hauto, hprobe, ← ha, ← hp,
    onNamed_one (lo := 0) (c := c) (fun k hk => by rw [s.aux.bitAt_ctrlWith (by omega), Nat.zero_add]),
    onNamed_none (lo := 4) (fun k hk => by rw [s.aux.bitAt_ctrlWith (by omega)]; exact decide_eq_false (by omega))]
  rfl

/-- A write that sets one reset bit is that reset (R197). -/
theorem State.writeAuxCtrl_reset (c : Fin 4) (s : State) : s.writeAuxCtrl (s.aux.ctrlWith (4 + c.val)) = s.startReset c := by
  obtain ⟨hauto, hprobe⟩ := s.aux.ctrlWith_settings (k := 4 + c.val) (by omega)
  obtain ⟨ha, hp⟩ := s.startReset_settings c
  rw [State.writeAuxCtrl_eq, hauto, hprobe, ← ha, ← hp,
    onNamed_none (lo := 0) (fun k hk => by rw [s.aux.bitAt_ctrlWith (by omega)]; exact decide_eq_false (by omega)),
    onNamed_one (lo := 4) (c := c) (fun k hk => by rw [s.aux.bitAt_ctrlWith (by omega)]; exact decide_eq_decide.mpr (by omega))]
  rfl

/-! ### Charge resets (R196 to R198) -/

/-- The converter with a reset that starts at tick t (R196). -/
def Conv.resetFrom (t now : Tick) (q : Conv) : Conv :=
  { q with
    resetting := true
    holds := (t, none) :: q.holds.filter fun h => match h.2 with | some b => decide ((now - b).toNat < 2 ^ 31) | none => false }

theorem State.startReset_of_may {c : Fin 4} {s : State} (h : s.mayReset c = true) :
    s.startReset c = s.modConv c (Conv.resetFrom s.nextMod s.clk.tsc) := by
  rw [State.startReset, if_neg (by simp [h])]
  rfl

theorem State.startReset_of_not {c : Fin 4} {s : State} (h : s.mayReset c = false) : s.startReset c = s := by
  simp [State.startReset, h]

/-! ### The start of a copy (R188 to R190) -/

/-- A suppression changes marks of its converter alone, and restarts paths (R190). -/
theorem State.suppressSlots_aux (c : Fin 4) (p : Nat → Bool) (t : Tick) (s : State) :
    ∃ at_ to_, (s.suppressSlots c p t).aux = (s.modConv c fun q => { q with supAt := at_, supTo := to_ }).aux ∧
      ∀ k : Fin 4, p k.val = true → at_[k].isSome = true := by
  refine ⟨_, _, State.aux_of_mask (ps := [.harrow]) (State.mask_restartAllFrom (by decide) _ _ _) (by decide), fun k hk => ?_⟩
  simp [hk]

/-- The same for what blanks the comparators besides (R190, R200). -/
theorem State.unsettle_aux (c : Fin 4) (p : Nat → Bool) (t : Tick) (s : State) :
    ∃ b at_ to_, (s.unsettle c p t).aux = (s.modConv c fun q => { q with blankAt := b, supAt := at_, supTo := to_ }).aux ∧
      ∀ k : Fin 4, p k.val = true → at_[k].isSome = true := by
  obtain ⟨at_, to_, h, hs⟩ :=
    (s.modConv c fun q => if p 0 then { q with blankAt := some (q.boundary 0 t) } else q).suppressSlots_aux c p t
  refine ⟨if p 0 then some (s.aux.conv[c].boundary 0 t) else s.aux.conv[c].blankAt, at_, to_, ?_, hs⟩
  rw [State.unsettle, h]
  split <;> simp [State.modConv_aux, *]

/-- A copy that starts: its cycle begins at t, a reset in progress is over, every slot is suppressed (R188 to R190). -/
theorem State.startConvAt_aux (c : Fin 4) (t : Tick) (s : State) :
    ∃ b at_ to_, (s.startConvAt c t).aux = (s.modConv c fun q =>
        { q.closeHold s.clk.tsc with start := t, timerHt := s.clk.ht, blankAt := b, supAt := at_, supTo := to_ }).aux ∧
      ∀ k : Fin 4, at_[k].isSome = true := by
  obtain ⟨b, at_, to_, h, hs⟩ := ((s.modConv c fun q =>
    { q.closeHold s.clk.tsc with start := t, timerHt := s.clk.ht }).refreshPaths).unsettle_aux c (fun _ => true) t
  have hpaths : (s.modConv c fun q => { q.closeHold s.clk.tsc with start := t, timerHt := s.clk.ht }).refreshPaths.aux =
      (s.modConv c fun q => { q.closeHold s.clk.tsc with start := t, timerHt := s.clk.ht }).aux :=
    State.aux_of_mask (ps := [.harrow]) (by simp) (by decide)
  refine ⟨b, at_, to_, ?_, fun k => hs k rfl⟩
  rw [State.startConvAt, h]
  simp [State.modConv_aux, hpaths]

/-- The change of a pending copy into the active one (R189). -/
def Conv.activated (b : ConvBlock) (q : Conv) : Conv :=
  { q with act := b, pend := none, stopAt := none, offs := Vector.ofFn fun k => b.offset k.val }

@[simp] theorem Conv.closeHold_fields (q : Conv) (t : Tick) : (q.closeHold t).resetting = false ∧ (q.closeHold t).act = q.act ∧
    (q.closeHold t).pend = q.pend ∧ (q.closeHold t).fault = q.fault ∧ (q.closeHold t).stage = q.stage ∧
    (q.closeHold t).offs = q.offs := ⟨rfl, rfl, rfl, rfl, rfl, rfl⟩

theorem exec_pendingCopyStart {s : State} {c : Fin 4} {b : ConvBlock} (hp : s.aux.conv[c].pend = some b) :
    exec (.pendingCopyStart c) s = event (s.convFree && s.hasSm && decide (0 ≤ (s.clk.tsc - s.aux.conv[c].startAt).toInt)) s
      (((s.modConv c (Conv.activated b)).startConvAt c s.aux.conv[c].startAt).boundaryAt c s.aux.conv[c].startAt) := by
  simp only [exec, execPendingCopyStart, hp]
  rfl

/-- A step boundary changes when pending excitation changes are due, and nothing else (R193). -/
theorem State.boundaryAt_aux (c : Fin 4) (t : Tick) (s : State) : (s.boundaryAt c t).aux.conv = s.aux.conv ∧
    ∀ n : Fin 4, (s.boundaryAt c t).aux.exc[n] = { s.aux.exc[n] with due := (s.boundaryAt c t).aux.exc[n].due } := by
  refine ⟨rfl, fun n => ?_⟩
  simp only [State.boundaryAt, State.modAux_aux, Fin.getElem_fin, Vector.getElem_ofFn]
  split <;> rfl

/-- What the start of a pending copy leaves (R188 to R190, R193). -/
theorem State.pendingCopy_facts (s : State) (c : Fin 4) (b : ConvBlock) :
    let t := ((s.modConv c (Conv.activated b)).startConvAt c s.aux.conv[c].startAt).boundaryAt c s.aux.conv[c].startAt
    t.aux.conv[c].act = b ∧ t.aux.conv[c].pend = none ∧ t.aux.conv[c].resetting = false ∧
      t.aux.conv[c].start = s.aux.conv[c].startAt ∧ t.aux.conv[c].fault = s.aux.conv[c].fault ∧
      t.aux.conv[c].stage = s.aux.conv[c].stage ∧ (∀ k : Fin 4, t.aux.conv[c].offs[k] = b.offset k.val) ∧
      (∀ k : Fin 4, t.aux.conv[c].supAt[k].isSome = true) ∧
      (∀ d, d ≠ c → t.aux.conv[d] = s.aux.conv[d]) ∧
      (∀ n : Fin 4, t.aux.exc[n] = { s.aux.exc[n] with due := t.aux.exc[n].due }) := by
  obtain ⟨bl, at_, to_, haux, hsup⟩ := (s.modConv c (Conv.activated b)).startConvAt_aux c s.aux.conv[c].startAt
  obtain ⟨hconv, hexc⟩ := ((s.modConv c
      (Conv.activated b)).startConvAt c s.aux.conv[c].startAt).boundaryAt_aux c s.aux.conv[c].startAt
  have hself : (((s.modConv c
      (Conv.activated b)).startConvAt c s.aux.conv[c].startAt).boundaryAt c s.aux.conv[c].startAt).aux.conv[c] =
      { (Conv.activated b s.aux.conv[c]).closeHold s.clk.tsc with
        start := s.aux.conv[c].startAt, timerHt := s.clk.ht, blankAt := bl, supAt := at_, supTo := to_ } := by
    rw [hconv, haux, State.conv_modConv_self, State.conv_modConv_self]
    rfl
  have hother : ∀ d, d ≠ c → (((s.modConv c (Conv.activated b)).startConvAt c s.aux.conv[c].startAt).boundaryAt c
      s.aux.conv[c].startAt).aux.conv[d] = s.aux.conv[d] := fun d hd => by
    rw [hconv, haux, State.conv_modConv_ne hd, State.conv_modConv_ne hd]
  dsimp only
  rw [hself]
  refine ⟨rfl, rfl, rfl, rfl, rfl, rfl, fun k => by simp [Conv.activated, Conv.closeHold], hsup, hother, fun n => ?_⟩
  rw [haux] at hexc
  exact hexc n

/-- The overload flag of a converter (R198). -/
def State.flagOverload (c : Fin 4) (s : State) : State := s.modAux fun a => { a with overload := putBit a.overload c.val true }

@[simp] theorem State.flagOverload_mayReset (c : Fin 4) (s : State) : (s.flagOverload c).mayReset c = s.mayReset c := rfl

theorem exec_overload (s : State) (c : Fin 4) : exec (.overload c) s = event (s.convRuns c) s
    (if bitAt s.aux.conv[c].act.rst 4 then (s.flagOverload c).startReset c else s.flagOverload c) := rfl

/-- An overload sets its flag, and starts a reset where the block asks for one and one may start (R197, R198). -/
theorem State.overload_conv {s : State} {c : Fin 4} (hrun : s.convRuns c = true) :
    let t := if bitAt s.aux.conv[c].act.rst 4 then (s.flagOverload c).startReset c else s.flagOverload c
    t.aux.overload = putBit s.aux.overload c.val true ∧
    t.aux.conv[c].resetting =
      (s.aux.conv[c].resetting || (convCharge s.aux.conv[c].act.conv && bitAt s.aux.conv[c].act.rst 4)) ∧
    ∀ d, d ≠ c → t.aux.conv[d] = s.aux.conv[d] := by
  dsimp only
  cases hbit : bitAt s.aux.conv[c].act.rst 4 with
  | false => exact ⟨rfl, by rw [if_neg Bool.false_ne_true, Bool.and_false, Bool.or_false]; rfl, fun _ _ => rfl⟩
  | true =>
    rw [if_pos rfl, Bool.and_true]
    cases hmay : s.mayReset c with
    | true =>
      rw [State.startReset_of_may (s := s.flagOverload c) hmay]
      refine ⟨rfl, ?_, fun d hd => State.conv_modConv_ne hd _ _⟩
      have hcharge : convCharge s.aux.conv[c].act.conv = true :=
        (Bool.and_eq_true_iff.mp (Bool.and_eq_true_iff.mp hmay).1).2
      rw [State.conv_modConv_self, hcharge, Bool.or_true]
      rfl
    | false =>
      rw [State.startReset_of_not (s := s.flagOverload c) hmay]
      refine ⟨rfl, ?_, fun _ _ => rfl⟩
      change s.aux.conv[c].resetting = _
      rw [State.mayReset, hrun, Bool.true_and] at hmay
      cases hres : s.aux.conv[c].resetting
      · rw [hres, Bool.not_false, Bool.and_true] at hmay
        rw [hmay]; rfl
      · rfl

theorem overload_completes {s : State} {c : Fin 4} (hrun : s.convRuns c = true) : Completes (.overload c) s fun t =>
    t.aux.overload = putBit s.aux.overload c.val true ∧
    t.aux.conv[c].resetting =
      (s.aux.conv[c].resetting || (convCharge s.aux.conv[c].act.conv && bitAt s.aux.conv[c].act.rst 4)) ∧
    (∀ d, d ≠ c → t.aux.conv[d] = s.aux.conv[d]) ∧ Same [.aux, .int] s t := by
  obtain ⟨hflag, hres, hother⟩ := State.overload_conv hrun
  refine .event (exec_overload s c) hrun ?_
  simp only [State.arbitrate_aux]
  refine ⟨hflag, hres, hother, ?_⟩
  rw [Same, State.mask_arbitrate (by decide)]
  split <;> simp [State.flagOverload]

/-- Settles O16: a commit is State.commitBody, a reset Conv.resetFrom or Conv.closeHold, the start of a copy
State.startConvAt. When
an active copy stops and what becomes of a reset in progress are the model's own readings (log entries 30, 32, 114). -/
theorem converterEventsComplete : Obligations.ConverterEventsComplete := by
  unfold Obligations.ConverterEventsComplete
  refine ⟨fun s c h hon => ?commit, fun s c b hp hon hck hsm hdue => ?start, fun s c h hmay => ?reset, fun s c hrun => ?overload,
    fun s c hmay hper htimer => ?periodic, fun s c hres hrun hover => ?resetEnd⟩
  case commit =>
    have hexec : exec (.commit c) s = answer s (s.commitBody c).finishWrite := by
      refine congrArg (answer s) ((State.hostWrite_plain (i := 36) h rfl _).trans ?_)
      exact congrArg State.finishWrite ((State.writeAuxCtrl_commit c s).trans (State.commitConv_of_on hon))
    have hmask : Same [.aux, .host, .int] s (State.arbitrate s (s.commitBody c).finishWrite) := by
      simp [Same, State.commitBody]
    have hother : ∀ d, d ≠ c → (s.commitBody c).aux.conv[d] = s.aux.conv[d] := fun d hd => by
      unfold State.commitBody
      split <;> exact State.conv_modConv_ne hd _ _
    refine ⟨fun hchk hpend => .answer hexec ?_, fun hchk => .answer hexec ?_, fun hchk => .answer hexec ?_⟩
    all_goals simp only [State.arbitrate_aux, State.finishWrite_aux]
    · have hself : s.commitBody c = s.modConv c fun q =>
          { q with
            pend := some q.stage, err := 0#3, stopAt := some (s.stopFor c), startAt := s.startFor q.stage (s.stopFor c) } := by
        rw [State.commitBody, if_neg (not_not.mpr hchk), State.commitStop, hpend]
        rfl
      refine ⟨by rw [hself, State.conv_modConv_self], hother, ?_, ?_, ?_, by simp [hself, State.modConv], hmask⟩ <;>
          rw [hself] <;> rfl
    · have hself : s.commitBody c = s.modConv c fun q =>
          { q with
            pend := some q.stage, err := 0#3, stopAt := some (s.commitStop c),
            startAt := s.startFor q.stage (s.commitStop c) } := by
        rw [State.commitBody, if_neg (not_not.mpr hchk)]
      refine ⟨?_, ?_, ?_, hother, hmask⟩ <;> rw [hself, State.conv_modConv_self]
    · have hself : s.commitBody c = s.modConv c fun q => { q with err := s.aux.conv[c].stage.check } := if_pos hchk
      exact ⟨by rw [hself, State.conv_modConv_self], hother, hmask⟩
  case start =>
    obtain ⟨h1, h2, h3, h4, h5, h6, h7, h8, h9, h10⟩ := s.pendingCopy_facts c b
    refine .event (exec_pendingCopyStart hp) (by rw [State.convFree, hon, hck, hsm, decide_eq_true hdue]; rfl) ?_
    simp only [State.arbitrate_aux]
    exact ⟨h1, h2, h3, h4, h5, h6, h7, h8, h9, h10, by simp [Same]⟩
  case reset =>
    have hexec : exec (.ampReset c) s = answer s (s.modConv c (Conv.resetFrom s.nextMod s.clk.tsc)).finishWrite := by
      refine congrArg (answer s) ((State.hostWrite_plain (i := 36) h rfl _).trans ?_)
      exact congrArg State.finishWrite ((State.writeAuxCtrl_reset c s).trans (State.startReset_of_may hmay))
    refine .answer hexec ?_
    simp only [State.arbitrate_aux, State.finishWrite_aux, State.conv_modConv_self]
    exact ⟨rfl, rfl, rfl, rfl, fun d hd => State.conv_modConv_ne hd _ _, by simp [Same]⟩
  case overload =>
    exact overload_completes hrun
  case periodic =>
    refine .event rfl (by simp [-Fin.getElem_fin, hmay, hper, htimer]) ?_
    rw [State.startReset_of_may hmay]
    simp only [State.arbitrate_aux, State.conv_modConv_self]
    exact ⟨rfl, rfl, fun d hd => State.conv_modConv_ne hd _ _, by simp [Same]⟩
  case resetEnd =>
    refine .event rfl (by simp [-Fin.getElem_fin, hres, hrun, hover]) ?_
    simp only [State.arbitrate_aux, State.conv_modConv_self]
    exact ⟨rfl, trivial, trivial, fun d hd => State.conv_modConv_ne hd _ _, by simp [Same]⟩

end Sys2Proof.Machine
end

section
/-!
PROOFS. Excitation and wire break (chapter 05).
-/

namespace Sys2Proof.Machine

open Sys2Proof

/-! ### CONFLICT and what settles (R172, R193) -/

/-- CONFLICT is a function of the words of the sources (R172). -/
theorem Aux.conflictOf_congr {a b : Aux} (h : ∀ m : Fin 4, a.exc[m].word = b.exc[m].word) (n : Nat) : a.conflictOf n = b.conflictOf n := by
  have hword : ∀ k : Nat, (a.exc.toList[k]?.map Exc.word).getD 0#32 = (b.exc.toList[k]?.map Exc.word).getD 0#32 := by
    intro k
    by_cases hk : k < 4
    · have hw := h ⟨k, hk⟩
      simp only [Fin.getElem_fin] at hw
      simp [hk, hw]
    · simp [hk]
  simp only [Aux.conflictOf, hword]

/-- A source after a change settles (R172, R193). -/
theorem State.settleExc_exc (new : Aux) (s : State) (n : Fin 4) :
    let e := (s.settleExc new).aux.exc[n]
    e.word = new.exc[n].word ∧ e.live = new.exc[n].live ∧ e.conflict = new.conflictOf n.val ∧
    e.ok = (new.exc[n].ok && !new.conflictOf n.val && !new.excCut.getLsbD n.val) ∧
    (new.exc[n].word ≠ s.aux.exc[n].word → e.pend = true) := by
  simp only [State.settleExc, State.modAux_aux, Fin.getElem_fin, Vector.getElem_ofFn]
  exact ⟨trivial, trivial, trivial, trivial, fun h => by simp [h]⟩

/-- CONFLICT stands for the words as they are then (R172). -/
theorem State.settleExc_conflict (new : Aux) (s : State) (n : Fin 4) :
    (s.settleExc new).aux.exc[n].conflict = (s.settleExc new).aux.conflictOf n.val := by
  obtain ⟨-, -, hc, -⟩ := s.settleExc_exc new n
  rw [hc]
  exact Aux.conflictOf_congr (fun m => ((s.settleExc_exc new m).1).symm) n.val

/-! ### A source's word (R191) -/

/-- The front end with a new word of one source (R191). -/
def Aux.withWord (n : Fin 4) (w : Word) (a : Aux) : Aux := { a with exc := a.exc.set n { a.exc[n] with word := w &&& 0xFFFFF#32 } }

theorem Aux.withWord_self (n : Fin 4) (w : Word) (a : Aux) :
    (a.withWord n w).exc[n] = { a.exc[n] with word := w &&& 0xFFFFF#32 } := by
  simp [Aux.withWord]

theorem Aux.withWord_ne {n m : Fin 4} (h : m ≠ n) (w : Word) (a : Aux) : (a.withWord n w).exc[m] = a.exc[m] := by
  simp [Aux.withWord, Vector.getElem_set_ne n.isLt m.isLt (fun he => h (Fin.ext he.symm))]

theorem State.writeExc_eq (n : Fin 4) (w : Word) (s : State) : s.writeExc n w = s.settleExc (s.aux.withWord n w) := rfl

theorem State.writeExc_facts (n : Fin 4) (w : Word) (s : State) :
    let t := s.writeExc n w
    t.aux.exc[n].word = w &&& 0xFFFFF#32 ∧ (∀ m, m ≠ n → t.aux.exc[m].word = s.aux.exc[m].word) ∧
    (∀ m : Fin 4, t.aux.exc[m].live = s.aux.exc[m].live) ∧ (∀ m : Fin 4, t.aux.exc[m].conflict = t.aux.conflictOf m.val) ∧
    (w &&& 0xFFFFF#32 ≠ s.aux.exc[n].word → t.aux.exc[n].pend = true) ∧ t.aux.conv = s.aux.conv := by
  have hself := Aux.withWord_self n w s.aux
  have hne := fun m (h : m ≠ n) => Aux.withWord_ne h w s.aux
  have hexc := s.settleExc_exc (s.aux.withWord n w)
  refine ⟨?_, fun m hm => ?_, fun m => ?_, s.settleExc_conflict _, fun hw => ?_, rfl⟩
  · rw [State.writeExc_eq, (hexc n).1, hself]
  · rw [State.writeExc_eq, (hexc m).1, hne m hm]
  · rw [State.writeExc_eq, (hexc m).2.1]
    by_cases hm : m = n
    · rw [hm, hself]
    · rw [hne m hm]
  · rw [State.writeExc_eq, (hexc n).2.2.2.2]
    rwa [hself]

/-- The four words of the sources in table space (R180, R191). -/
theorem State.tsWrite_exc (n : Fin 4) (w : Word) (s : State) : s.tsWrite (0x1050 + n.val) w = s.writeExc n w := by
  match n with
  | 0 | 1 | 2 | 3 => rfl

/-! ### Suppression of the slots that name a source (R195, R202) -/

/-- All but the converters is left, and each runs as before. -/
def Aux.Quiet (a b : Aux) : Prop :=
  b = { a with conv := b.conv } ∧ ∀ c : Fin 4, b.conv[c].act = a.conv[c].act ∧ b.conv[c].fault = a.conv[c].fault

theorem Aux.Quiet.refl (a : Aux) : a.Quiet a := ⟨rfl, fun _ => ⟨rfl, rfl⟩⟩

theorem Aux.Quiet.trans {a b c : Aux} (h : a.Quiet b) (g : b.Quiet c) : a.Quiet c := by
  obtain ⟨hb, hc⟩ := h
  obtain ⟨gb, gc⟩ := g
  refine ⟨?_, fun k => ⟨(gc k).1.trans (hc k).1, (gc k).2.trans (hc k).2⟩⟩
  rw [gb, hb]

theorem State.unsettle_quiet (c : Fin 4) (p : Nat → Bool) (t : Tick) (s : State) : s.aux.Quiet (s.unsettle c p t).aux := by
  obtain ⟨b, at_, to_, h, -⟩ := s.unsettle_aux c p t
  rw [h]
  refine ⟨rfl, fun d => ?_⟩
  rw [State.conv_modConv]
  split
  · next hcd => subst hcd; exact ⟨rfl, rfl⟩
  · exact ⟨rfl, rfl⟩

/-- What each of four turns keeps, the four keep. -/
theorem foldUpto_keeps {α : Type} (P : α → Prop) {f : α → Nat → α} (h : ∀ a k, P a → P (f a k)) {a : α} (ha : P a) (n : Nat) :
    P (foldUpto f a n) := by
  induction n with
  | zero => exact ha
  | succ n ih => exact h _ _ ih

theorem State.excSuppress_quiet (n : Nat) (at_ : Tick) (s : State) : s.aux.Quiet (s.excSuppress n at_).aux := by
  refine foldUpto_keeps (fun t : State => s.aux.Quiet t.aux) (fun t k h => ?_) (.refl _) 4
  split
  · split
    · exact h.trans (State.unsettle_quiet ..)
    · exact h
  · exact h

theorem State.cutSuppress_quiet (cut : BitVec 4) (s : State) : s.aux.Quiet (s.cutSuppress cut).aux := by
  refine foldUpto_keeps (fun t : State => s.aux.Quiet t.aux) (fun t k h => ?_) (.refl _) 4
  split
  · split
    · exact h.trans (State.unsettle_quiet ..)
    · exact h
  · exact h

/-! ### The boundary of a change (R193 to R195) -/

/-- EXCITATION_CHANGE: the source takes its setting, and the slots that name it are suppressed (R193, R195). -/
def State.takeExc (n : Fin 4) (s : State) : State := s.modAux fun a => { a with exc := a.exc.set n (a.takeExc n) }

theorem State.takeExc_facts (n : Fin 4) (at_ : Tick) (s : State) :
    let t := (s.takeExc n).excSuppress n.val at_
    t.aux.exc[n] = { s.aux.exc[n] with
      pend := false, live := s.aux.exc[n].word, ok := !s.aux.exc[n].conflict && !s.aux.excCut.getLsbD n.val } ∧
    (∀ m, m ≠ n → t.aux.exc[m] = s.aux.exc[m]) ∧ t.aux.excCut = s.aux.excCut ∧
    (∀ c : Fin 4, t.aux.conv[c].act = s.aux.conv[c].act ∧ t.aux.conv[c].fault = s.aux.conv[c].fault) := by
  obtain ⟨haux, hconv⟩ := (s.takeExc n).excSuppress_quiet n.val at_
  have hexc : ((s.takeExc n).excSuppress n.val at_).aux.exc = (s.takeExc n).aux.exc := by rw [haux]
  have hcut : ((s.takeExc n).excSuppress n.val at_).aux.excCut = s.aux.excCut := by rw [haux]; rfl
  refine ⟨?_, fun m hm => ?_, hcut, hconv⟩
  · rw [hexc]
    simp [State.takeExc, Aux.takeExc]
  · rw [hexc]
    simp [State.takeExc, Vector.getElem_set_ne n.isLt m.isLt (fun he => hm (Fin.ext he.symm))]

/-! ### A restore (R203) -/

/-- Bits outside the field of a word are 0. -/
theorem bits_fld_apart {n m : Nat} (x : BitVec n) {k lo : Nat} (h : lo + m ≤ k ∨ k + n ≤ lo) (hlt : lo + m ≤ 32) :
    bits (fld x k) lo m = 0#m := by
  apply BitVec.eq_of_getLsbD_eq
  intro i hi
  rw [getLsbD_bits, bitAt_fld x (by omega)]
  rcases h with h | h
  · simp [show ¬ k ≤ lo + i by omega]
  · simp [BitVec.getLsbD_of_ge x (lo + i - k) (by omega)]

theorem bits_fld_self {n : Nat} (x : BitVec n) {k : Nat} (h : k + n ≤ 32) : bits (fld x k) k n = x := by
  apply BitVec.eq_of_getLsbD_eq
  intro i hi
  rw [getLsbD_bits, bitAt_fld x (by omega)]
  simp [hi]

theorem w1cField_apart {n m : Nat} (old : BitVec m) (x : BitVec n) {k lo : Nat} (h : lo + m ≤ k ∨ k + n ≤ lo) (hlt : lo + m ≤ 32) :
    w1cField old (fld x k) lo = old := by
  simp [w1cField, bits_fld_apart x h hlt]

/-- EXC_RESTORE clears cuts and no other bit of AUX_STAT (R203, R213). -/
theorem State.writeAuxStat_restore (m : BitVec 4) (s : State) :
    s.writeAuxStat (fld m 16) = s.settleExc { s.aux with excCut := s.aux.excCut &&& ~~~m } := by
  have hcut : w1cField s.aux.excCut (fld m 16) 16 = s.aux.excCut &&& ~~~m := by
    rw [w1cField, bits_fld_self m (by decide)]
  have hdone : w1c s.aux.tedsDone (fld m 16) 28 = s.aux.tedsDone := by
    simp [w1c, bitAt_fld]
  simp only [State.writeAuxStat, hcut, hdone, w1cField_apart s.aux.overload m (k := 16) (lo := 8) (by decide) (by decide),
    w1cField_apart s.aux.attachEvt m (k := 16) (lo := 20) (by decide) (by decide),
    w1cField_apart s.aux.wbEvt m (k := 16) (lo := 24) (by decide) (by decide)]

/-! ### Wire break (R200 to R204) -/

/-- The faulted slot and the cuts that follow (R201). -/
def State.faulted (c k : Fin 4) (s : State) : State :=
  let t := s.modConv c fun q => { q with fault := putBit q.fault k.val true }
  t.settleExc
    { t.aux with
      wbEvt := putBit t.aux.wbEvt c.val true
      excCut := t.aux.excCut ||| bits (s.aux.conv[c].act.stepA k.val) 22 4 }

/-- A wire break before its record (R200 to R202). -/
def State.broken (c k : Fin 4) (s : State) : State :=
  State.quietFault s (slotChan c k.val) (((s.faulted c k).restartAll (putBit 0#24 (slotChan c k.val) true)).cutSuppress
    (bits (s.aux.conv[c].act.stepA k.val) 22 4 &&& ~~~s.aux.excCut))

theorem exec_wireBreak (s : State) (c k : Fin 4) (neg : Bool) : exec (.wireBreak c ⟨k, neg⟩) s =
    event (s.compares c k.val neg) s
      ((s.broken c k).log 0x05#8 0x01#8 (s.broken c k).aux.stat (BitVec.ofNat 32 c.val) 0#32) := rfl

theorem State.broken_quiet (c k : Fin 4) (s : State) : (s.faulted c k).aux.Quiet (s.broken c k).aux := by
  have hfault : ∀ (ch : Nat) (t : State), (State.quietFault s ch t).aux = t.aux := fun ch t =>
    State.aux_of_mask (ps := [.harrow]) (by simp) (by decide)
  have hrestart : ∀ (set : BitVec 24) (t : State), (t.restartAll set).aux = t.aux := fun set t =>
    State.aux_of_mask (ps := [.harrow]) (by simp) (by decide)
  rw [State.broken, hfault, ← hrestart (putBit 0#24 (slotChan c k.val) true) (s.faulted c k)]
  exact State.cutSuppress_quiet ..

theorem State.broken_facts (c k : Fin 4) (s : State) :
    (s.broken c k).aux.conv[c].fault = putBit s.aux.conv[c].fault k.val true ∧
    (s.broken c k).aux.wbEvt = putBit s.aux.wbEvt c.val true ∧
    (s.broken c k).aux.excCut = s.aux.excCut ||| bits (s.aux.conv[c].act.stepA k.val) 22 4 ∧
    (∀ n : Fin 4, bitAt (s.aux.conv[c].act.stepA k.val) (22 + n.val) = true → (s.broken c k).aux.exc[n].ok = false) ∧
    (∀ d, d ≠ c → (s.broken c k).aux.conv[d].fault = s.aux.conv[d].fault) := by
  obtain ⟨haux, hconv⟩ := s.broken_quiet c k
  have hexc : (s.broken c k).aux.exc = (s.faulted c k).aux.exc := by rw [haux]
  refine ⟨?_, by rw [haux]; rfl, by rw [haux]; rfl, fun n hn => ?_, fun d hd => ?_⟩
  · rw [(hconv c).2]
    exact congrArg Conv.fault (State.conv_modConv_self c (fun q => { q with fault := putBit q.fault k.val true }) s)
  · rw [hexc, State.faulted, ((State.settleExc_exc _ _ n).2.2.2.1)]
    have hbit : (bits (s.aux.conv[c].act.stepA k.val) 22 4).getLsbD n.val = true := by
      rw [getLsbD_bits, hn, decide_eq_true n.isLt]; rfl
    rw [BitVec.getLsbD_or, hbit, Bool.or_true, Bool.not_true, Bool.and_false]
  · rw [(hconv d).2]
    exact congrArg Conv.fault (State.conv_modConv_ne hd (fun q => { q with fault := putBit q.fault k.val true }) s)

/-- The end of a wire break (R204). -/
def State.recovered (c k : Fin 4) (s : State) : State :=
  (s.modConv c fun q => { q with fault := putBit q.fault k.val false }).suppressSlots c (fun i => i == k.val) s.clk.tsc

theorem State.recovered_facts (c k : Fin 4) (s : State) :
    (s.recovered c k).aux.conv[c].fault = putBit s.aux.conv[c].fault k.val false ∧
    (s.recovered c k).aux.conv[c].supAt[k].isSome = true ∧ (s.recovered c k).aux.excCut = s.aux.excCut ∧
    (∀ d, d ≠ c → (s.recovered c k).aux.conv[d] = s.aux.conv[d]) := by
  obtain ⟨at_, to_, haux, hsup⟩ :=
    (s.modConv c fun q => { q with fault := putBit q.fault k.val false }).suppressSlots_aux c (fun i => i == k.val) s.clk.tsc
  rw [State.recovered, haux]
  refine ⟨?_, ?_, rfl, fun d hd => ?_⟩
  · rw [State.conv_modConv_self, State.conv_modConv_self]
  · rw [State.conv_modConv_self]
    exact hsup k (by simp)
  · rw [State.conv_modConv_ne hd, State.conv_modConv_ne hd]

/-- Settles O17: a source's word and a restore settle through State.settleExc, a boundary is State.takeExc, a wire break
State.broken, a recovery a change of one converter with the suppression of its slot. When a change takes effect is the model's own
reading (log entry 31). -/
theorem excitationEventsComplete : Obligations.ExcitationEventsComplete := by
  unfold Obligations.ExcitationEventsComplete
  refine ⟨fun s n w h => ?word, fun s n hp hon hck hdue => ?change, fun s m h => ?restore, fun s c k neg hcmp hq => ?broken,
    fun s c k hcmp hfault => ?recovery⟩
  case word =>
    refine .answer (congrArg (answer s) (State.hostTs_reaches h w)) ?_
    rw [State.tsWrite_exc]
    have haux : ((s.atWord (0x1050 + n.val)).touchTs (0x1050 + n.val)).aux = s.aux := by simp
    obtain ⟨h1, h2, h3, h4, h5, h6⟩ := State.writeExc_facts n w ((s.atWord (0x1050 + n.val)).touchTs (0x1050 + n.val))
    rw [haux] at h2 h3 h5 h6
    simp only [State.arbitrate_aux, State.finishWrite_aux, State.winNext_aux]
    exact ⟨h1, h2, h3, h4, h5, h6, by simp [Same, State.writeExc_eq]⟩
  case change =>
    obtain ⟨h1, h2, h3, h4⟩ := s.takeExc_facts n s.aux.exc[n].due
    refine .event (t := (s.takeExc n).excSuppress n.val s.aux.exc[n].due) rfl
      (by rw [hp, State.convFree, hon, hck, decide_eq_true hdue]; rfl) ?_
    simp only [State.arbitrate_aux]
    exact ⟨h1, h2, h3, h4, by simp [Same, State.takeExc]⟩
  case restore =>
    refine .answer (congrArg (answer s) (State.hostWrite_plain (i := 35) h rfl (fld m 16))) ?_
    have hw : s.writeReg (35 : Fin 64).val (fld m 16) 0#12 = s.settleExc { s.aux with excCut := s.aux.excCut &&& ~~~m } :=
      s.writeAuxStat_restore m
    rw [hw]
    simp only [State.arbitrate_aux, State.finishWrite_aux]
    exact ⟨rfl, rfl, rfl, rfl, rfl, rfl, by simp [Same]⟩
  case broken =>
    obtain ⟨h1, h2, h3, h4, h5⟩ := s.broken_facts c k
    refine .event (exec_wireBreak s c k neg) hcmp ?_
    have hm : (s.broken c k).mask [.aux, .harrow] = s.mask [.aux, .harrow] := by simp [State.broken, State.faulted]
    have hmgmt := State.mgmt_of_mask hm (by decide)
    have hclk := State.clk_of_mask hm (by decide)
    simp only [State.arbitrate_aux, State.log_aux]
    refine ⟨h1, h2, h3, h4, h5, ?_, ?_⟩
    · exact State.logged_log (by rwa [hmgmt]) (by rw [hmgmt]) (by rw [hclk]) (by rw [hclk]) s
    · simp [Same, State.broken, State.faulted]
  case recovery =>
    obtain ⟨h1, h2, h3, h4⟩ := s.recovered_facts c k
    refine .event (t := s.recovered c k) rfl (by rw [hcmp, hfault]; rfl) ?_
    simp only [State.arbitrate_aux]
    exact ⟨h1, h2, h3, h4, by simp [Same, State.recovered]⟩

end Sys2Proof.Machine
end

section
/-!
PROOFS. Identification and calibration cycles (chapter 05).
-/

namespace Sys2Proof.Machine

open Sys2Proof

/-! ### Attach and the start of a read (R207, R209) -/

/-- ATTACH before its record (R207, R209, R210). -/
def State.attached (p : Fin 4) (v : Bool) (s : State) : State :=
  s.modAux fun a =>
    { a with
      attach := putBit a.attach p.val v
      attachEvt := putBit a.attachEvt p.val true
      tedsValid := if v then a.tedsValid else putBit a.tedsValid p.val false
      tedsDue := putBit a.tedsDue p.val (v && a.tedsAuto)
      attachHt := a.attachHt.set p s.clk.ht
      teds := if v then a.teds
        else Mem.put 0#32 a.teds (tedsBase p.val) (Mem.get 0#32 a.teds (tedsBase p.val) &&& 0xFFFFFF00#32) }

theorem exec_attach (s : State) (p : Fin 4) (v : Bool) : exec (.attach p v) s =
    event (s.aux.probeEn.getLsbD p.val && s.hasLk && s.aux.attach.getLsbD p.val != v) s
      ((s.attached p v).log 0x05#8 0x02#8 (s.attached p v).aux.stat (BitVec.ofNat 32 p.val) 0#32) := rfl

/-- TEDS_READ_START before the demand (R209). -/
def State.tedsStarted (p : Fin 4) (s : State) : State :=
  s.modAux fun a => { a with tedsDue := putBit a.tedsDue p.val false, tedsBusy := putBit a.tedsBusy p.val true }

theorem exec_tedsReadStart (s : State) (p : Fin 4) : exec (.tedsReadStart p) s =
    event (s.aux.tedsDue.getLsbD p.val && s.aux.attach.getLsbD p.val && s.tedsTime p && s.hasLk) s
      (if s.demandStarts .mc then ((s.tedsStarted p).wakeRec 0x05#8 (BitVec.ofNat 8 p.val)).demand .mc
       else (s.tedsStarted p).demand .mc) := rfl

/-- A demand marks one domain; WAKE_REC stands (R423, R451). -/
theorem State.demand_wake (d : Dom) (s : State) : (s.demand d).pwr.wakeSrc = s.pwr.wakeSrc ∧
    (s.demand d).pwr.wakeDet = s.pwr.wakeDet ∧ (s.demand d).pwr.wakeHt = s.pwr.wakeHt := by
  unfold State.demand
  split
  · exact ⟨rfl, rfl, rfl⟩
  · exact ⟨rfl, rfl, rfl⟩
  · exact ⟨rfl, rfl, rfl⟩
  · split <;> exact ⟨rfl, rfl, rfl⟩
  · exact ⟨rfl, rfl, rfl⟩

/-! ### The image of a read (R208, R211) -/

theorem tedsImage_length (p : Nat) (found : TedsFound) : (tedsImage p found).length ≤ 256 := by
  cases found <;> simp [tedsImage]

/-- The images of the ports after a read (R211). -/
theorem Mem.get_image {m : Mem} (h : Mem.wf 0#32 m = true) (base : Nat) {ws : List Word} (hl : ws.length ≤ 256) (a : Nat) :
    Mem.get 0#32 (Mem.putList 0#32 (Mem.drop base (base + 255) m) base ws) a =
      if base ≤ a ∧ a < base + 256 then ws.getD (a - base) 0#32 else Mem.get 0#32 m a := by
  rw [Mem.get_putList _ _ _ (Mem.wf_drop h), Mem.get_drop _ h]
  by_cases hin : base ≤ a ∧ a < base + 256
  · rw [if_pos hin]
    split
    · rfl
    · rw [if_pos (by omega), List.getD_eq_default _ _ (by omega)]
  · rw [if_neg hin, if_neg (by omega), if_neg (by omega)]

/-- STATUS of an image (R211). -/
theorem tedsStatus (p : Nat) (found : TedsFound) :
    let status : BitVec 8 := bits ((tedsImage p found).headD 0#32) 0 8
    (status == 1#8 || status == 2#8) = (match found with | .memory _ => true | _ => false) := by
  have hraw : ∀ (st : BitVec 8) (known : Bool) (m : List (BitVec 8)), bits (tedsRaw st known m 0) 0 8 = st := by
    intro st known m
    apply BitVec.eq_of_getLsbD_eq
    intro i hi
    rw [getLsbD_bits]
    simp [tedsRaw, bitAt_or, bitAt_fld, bitAt_flg, hi, show i < 32 by omega, show ¬ 8 ≤ i by omega, show ¬ 16 ≤ i by omega,
      show ¬ i = 28 by omega]
  have hhead : (List.range 256).head? = some 0 := rfl
  cases found with
  | noResponse =>
    change (bits 3#32 0 8 == 1#8 || bits 3#32 0 8 == 2#8) = false
    decide
  | checksumError m => simp [tedsImage, hhead, hraw]
  | memory m =>
    cases hk : Config.tedsKnown (Config.tedsTemplate m) <;> simp [tedsImage, hhead, tedsImageWord, hk, hraw]

/-- A read of a port has completed, before its record (R209, R211). -/
def State.tedsStored (p : Nat) (found : TedsFound) (s : State) : State :=
  let status : BitVec 8 := bits ((tedsImage p found).headD 0#32) 0 8
  s.modAux fun a =>
    { a with
      tedsBusy := putBit a.tedsBusy p false
      tedsDone := true
      tedsValid := putBit a.tedsValid p (status == 1#8 || status == 2#8)
      teds := Mem.putList 0#32 (Mem.drop (tedsBase p) (tedsBase p + 255) a.teds) (tedsBase p) (tedsImage p found) }

theorem State.storeTeds_aux (p : Nat) (found : TedsFound) (s : State) : (s.storeTeds p found).aux = (s.tedsStored p found).aux :=
  State.log_aux ..

theorem exec_tedsDone {s : State} {p : Fin 4} (hd : s.discovers p.val = false) (found : TedsFound) :
    exec (.tedsDone p found) s = event (s.coreUp && s.aux.tedsBusy.getLsbD p.val) s (s.storeTeds p.val found) := by
  simp only [exec, execTedsDone, hd]
  rfl

/-! ### Calibration cycles (R217) -/

/-- The front end at the end of a calibration of a converter, before its slots are suppressed (R217). -/
def Aux.calDoneOf (c : Fin 4) (a : Aux) : Aux :=
  { a with calQueue := putBit a.calQueue c.val false, calNow := calFirst (putBit a.calQueue c.val false) none,
           calDone := putBit a.calDone c.val true }

theorem State.calConvDone_aux (c : Fin 4) (s : State) : ∃ at_ to_, (s.calConvDone c).aux =
      ((s.modAux (Aux.calDoneOf c)).modConv c fun q => { q with supAt := at_, supTo := to_ }).aux ∧
      ∀ k : Fin 4, at_[k].isSome = true := by
  obtain ⟨at_, to_, h, hs⟩ := (s.modAux (Aux.calDoneOf c)).suppressSlots_aux c (fun _ => true) s.clk.tsc
  exact ⟨at_, to_, h, fun k => hs k rfl⟩

theorem State.calConvDone_facts (c : Fin 4) (s : State) :
    (s.calConvDone c).aux.calQueue = putBit s.aux.calQueue c.val false ∧
    (s.calConvDone c).aux.calDone = putBit s.aux.calDone c.val true ∧ (s.calConvDone c).aux.calTag = s.aux.calTag ∧
    (∀ k : Fin 4, (s.calConvDone c).aux.conv[c].supAt[k].isSome = true) ∧
    (∀ d, d ≠ c → (s.calConvDone c).aux.conv[d] = s.aux.conv[d]) := by
  obtain ⟨at_, to_, haux, hs⟩ := s.calConvDone_aux c
  rw [haux]
  refine ⟨rfl, rfl, rfl, fun k => ?_, fun d hd => ?_⟩
  · rw [State.conv_modConv_self]
    exact hs k
  · rw [State.conv_modConv_ne hd]
    rfl

theorem exec_calCycleDone (s : State) (c : Fin 4) : exec (.calCycleDone c) s = event (s.calibrating c) s
    (if (s.calConvDone c).aux.calQueue = 0#4 ∧ (s.calConvDone c).aux.calTag.isSome then
      ((s.calConvDone c).modAux fun a => { a with calTag := none }).reply 0#8 [fld (s.calConvDone c).aux.calDone 0]
     else s.calConvDone c) := rfl

/-- Settles O18: attach, the start and the end of a read, and the end of a calibration are changes of the front end with their
record, demand or reply. What an image without its checksum holds and which port a read serves are the model's own readings (log
entries 34, 35). -/
theorem identificationCompletes : Obligations.IdentificationCompletes := by
  unfold Obligations.IdentificationCompletes
  refine ⟨fun s p v hprobe hlk hne hq => ?attach, fun s p hdue hatt htime hlk => ⟨fun hd => ?read, fun hd => ?readWakes⟩,
    fun s p found hfit hup hbusy hdisc hwf => ?done, fun s c hcal htag => ?cycle, fun s c r hcal htag hqueue hreq hmc hroom => ?answer⟩
  case attach =>
    refine .event (exec_attach s p v) (by rw [hprobe, hlk, bne_iff_ne.mpr hne]; rfl) ?_
    have hlog := State.logged_log (s := s) (t := s.attached p v) (cls := 0x05#8) (code := 0x02#8) (d0 := (s.attached p v).aux.stat)
      (d1 := BitVec.ofNat 32 p.val) (d2 := 0#32) hq rfl rfl rfl s
    have haux : ∀ u : State, (State.arbitrate s (u.log 0x05#8 0x02#8 (s.attached p v).aux.stat (BitVec.ofNat 32 p.val) 0#32)).aux =
        u.aux := fun u => by simp
    rw [haux]
    refine ⟨rfl, rfl, rfl, ?_, fun hv => ?_, hlog, rfl, by simp [Same, State.attached]⟩
    · simp [State.attached]
    · simp [State.attached, hv]
  case read =>
    refine .event (exec_tedsReadStart s p) (by rw [hdue, hatt, htime, hlk]; rfl) ?_
    rw [hd, if_neg Bool.false_ne_true]
    have haux : ((s.tedsStarted p).demand .mc).aux = (s.tedsStarted p).aux :=
      State.aux_of_mask (ps := [.pwr]) (by simp) (by decide)
    simp only [State.arbitrate_aux, State.arbitrate_pwr, haux, (State.demand_wake .mc (s.tedsStarted p)).1]
    exact ⟨rfl, rfl, by simp [Same, State.tedsStarted]⟩
  case readWakes =>
    refine .event (exec_tedsReadStart s p) (by rw [hdue, hatt, htime, hlk]; rfl) ?_
    rw [hd, if_pos rfl]
    obtain ⟨hsrc, hdet, -⟩ := State.demand_wake .mc ((s.tedsStarted p).wakeRec 0x05#8 (BitVec.ofNat 8 p.val))
    have haux : (((s.tedsStarted p).wakeRec 0x05#8 (BitVec.ofNat 8 p.val)).demand .mc).aux = (s.tedsStarted p).aux :=
      State.aux_of_mask (ps := [.pwr, .mgmt]) (by simp) (by decide)
    simp only [State.arbitrate_aux, State.arbitrate_pwr, haux, hsrc, hdet]
    refine ⟨rfl, ?_, ?_, by simp [Same, State.tedsStarted]⟩
    · simp [State.wakeRec]
    · simp [State.wakeRec]
  case done =>
    refine .event (exec_tedsDone hdisc found) (by rw [hup, hbusy]; rfl) ?_
    simp only [State.arbitrate_aux, State.storeTeds_aux]
    have hget := Mem.get_image hwf (tedsBase p.val) (tedsImage_length p.val found)
    refine ⟨rfl, rfl, ?_, fun i hi => ?_, fun a ha => ?_, rfl, by simp [Same]⟩
    · refine Eq.trans ?_ (tedsStatus p.val found)
      simp only [State.tedsStored, State.modAux_aux, getLsbD_putBit, p.isLt, true_and, if_true]
    · have hi' := hget (tedsBase p.val + i)
      rw [if_pos (by omega), Nat.add_sub_cancel_left] at hi'
      exact hi'
    · have ha' := hget a
      rw [if_neg (by omega)] at ha'
      exact ha'
  case cycle =>
    obtain ⟨hqueue, hdone, htag', hsup, hother⟩ := s.calConvDone_facts c
    refine .event (exec_calCycleDone s c) hcal ?_
    rw [htag', htag, if_neg (by simp)]
    simp only [State.arbitrate_aux]
    exact ⟨hqueue, hdone, hsup, hother, by simp [Same]⟩
  case answer =>
    obtain ⟨hq, hdone, htag', -, -⟩ := s.calConvDone_facts c
    have hm : ((s.calConvDone c).modAux fun a => { a with calTag := none }).mask [.aux, .harrow] = s.mask [.aux, .harrow] := by
      simp
    have hmgmt : ((s.calConvDone c).modAux fun a => { a with calTag := none }).mgmt = s.mgmt := State.mgmt_of_mask hm (by decide)
    have hpwr : ((s.calConvDone c).modAux fun a => { a with calTag := none }).pwr = s.pwr := State.pwr_of_mask hm (by decide)
    refine .event (exec_calCycleDone s c) hcal ?_
    rw [if_pos ⟨by rw [hq, hqueue], by rw [htag', htag]⟩, State.reply_fits (by rw [hmgmt, hreq])
      (by rw [State.isOn, State.dom_congr hpwr]; exact hmc) _ _ (by rw [hmgmt]; exact hroom)]
    simp only [State.arbitrate_aux, State.arbitrate_mgmt, State.modMgmt_aux, State.modMgmt_mgmt, hmgmt, hdone]
    exact ⟨hq.trans hqueue, rfl, trivial, trivial, trivial, trivial, by simp [Same]⟩

end Sys2Proof.Machine
end

section
/-!
PROOFS. Accesses of plain registers, gated accesses, the command registers, the mailbox queues, and what a claim leaves presented
(chapters 11, 13 and 14).
-/

namespace Sys2Proof.Machine

open Sys2Proof

/-! ### A host read of a register without a domain -/

theorem State.hostRead_plain {i : Fin 64} {s : State} (h : s.Reaches i.val) (hd : s.regDom i.val = none) :
    s.hostRead i = State.finishRead (s.readReg i.val true) := by
  rw [State.hostRead_reaches h, State.touchReg, hd]

/-- Settles O35: each of the three registers has no domain, so the read is the register's own row of State.readReg, which keeps
the high word; the strobe at the sample edge is the configuration's (log entry 8). -/
theorem lowWordReadsHoldTheHighWord : Obligations.LowWordReadsHoldTheHighWord := by
  unfold Obligations.LowWordReadsHoldTheHighWord
  refine ⟨fun s h => ?tsc, fun s h => ?uid, fun s h => ?pend⟩
  case tsc =>
    refine .answer (congrArg (answer s) (State.hostRead_plain (i := 13) h rfl)) ?_
    simp [State.readReg, Same]
  case uid =>
    refine .answer (congrArg (answer s) (State.hostRead_plain (i := 2) h rfl)) ?_
    simp [State.readReg, Same]
  case pend =>
    refine .answer (congrArg (answer s) (State.hostRead_plain (i := 19) h rfl)) ?_
    simp [State.readReg, Same]

/-! ### Gated accesses -/

/-- An access whose word CLKEN gates leaves everything but the bus alone, but that WIN_DATA moves ADDR (R89, R471). -/
theorem State.skipped_gated {i : Nat} (h : i ≠ 57) (s : State) : s.skipped i .gated = s := if_neg h

theorem State.resolve_gated {i : Nat} {s : State} (h : s.regGated i = true) : s.resolve i = .gated := if_pos h

theorem State.hostWrite_gated {s : State} {i : Fin 64} (hb : s.busOpen = true) (hg : s.regGated i.val = true) (hi : i ≠ 57)
    (w : Word) : s.hostWrite i w = s.finishWrite := by
  obtain ⟨hlk, hopen⟩ := State.withdraw_open hb
  have hi' : i.val ≠ 57 := fun h => hi (Fin.ext h)
  simp only [State.hostWrite, State.hostWriteBusy, hlk, hopen, State.busWrite, State.resolve_gated hg, State.writeNow,
    State.writeAs, State.skipped_gated hi', if_true]

theorem State.hostRead_gated {s : State} {i : Fin 64} (hb : s.busOpen = true) (hg : s.regGated i.val = true) (hi : i ≠ 57) :
    s.hostRead i = State.finishRead (0#32, s) := by
  obtain ⟨hlk, hopen⟩ := State.withdraw_open hb
  have hi' : i.val ≠ 57 := fun h => hi (Fin.ext h)
  simp only [State.hostRead, hlk, hopen, State.busRead, State.resolve_gated hg, State.readNow, State.readAs,
    State.skipped_gated hi', if_true]

/-- Settles O43: a gated access takes the row of R462 that changes nothing (State.hostWrite_gated, State.hostRead_gated). That a
gate that still waits for an access (R94) already turns a new one away is the model's own reading (log entry 19). -/
theorem gatedAccessesDoNothing : Obligations.GatedAccessesDoNothing := by
  unfold Obligations.GatedAccessesDoNothing
  intro s i hb hg hi
  refine ⟨fun w => ?_, ?_⟩
  · exact .answer (congrArg (answer s) (State.hostWrite_gated hb hg hi w)) (by simp [Same])
  · exact .answer (congrArg (answer s) (State.hostRead_gated hb hg hi)) (by simp [Same])

/-! ### The command registers -/

section
variable {s : State}

theorem State.modCmd_idle (h : s.mgmt.busy = false) (f : Mgmt → Mgmt) : s.modCmd f = s.modMgmt f := by
  simp [State.modCmd, h]

theorem State.modCmd_busy (h : s.mgmt.busy = true) (f : Mgmt → Mgmt) : s.modCmd f = s := by
  simp [State.modCmd, h]

/-- A write of any of the six command registers changes nothing while BUSY (R492). -/
theorem State.writeReg_command_busy (h : s.mgmt.busy = true) {i : Nat} (h1 : 40 ≤ i) (h2 : i ≤ 45) (w : Word)
    (busy : BitVec 12) : s.writeReg i w busy = s := by
  obtain rfl | rfl | rfl | rfl | rfl | rfl : i = 40 ∨ i = 41 ∨ i = 42 ∨ i = 43 ∨ i = 44 ∨ i = 45 := by omega
  case inr.inr.inr.inr.inr => simp [State.writeReg, State.writeCmdGo, h]
  all_goals exact State.modCmd_busy h _

theorem State.writeCmdGo_clear (h : s.mgmt.busy = false) : s.writeCmdGo (flg true 1) = s.modMgmt Mgmt.clearCmd := by
  simp [State.writeCmdGo, h]

end

/-- Settles O44: the registers have no domain, and each write is the one case of its own row that BUSY and the number of words
choose. -/
theorem commandRegistersComplete : Obligations.CommandRegistersComplete := by
  unfold Obligations.CommandRegistersComplete
  refine ⟨fun s w h hbusy => ⟨fun hlt => ?word, fun hfull => ?full⟩, fun s h hbusy => ?clear,
    fun s w i hbusy hlo hhi h => ?busy⟩
  case word =>
    refine .answer (congrArg (answer s) (State.hostWrite_plain (i := 41) h rfl w)) ?_
    simp [State.writeReg, State.writeCmdArg, State.modCmd_idle hbusy, hlt, Same]
  case full =>
    refine .answer (congrArg (answer s) (State.hostWrite_plain (i := 41) h rfl w)) ?_
    simp [State.writeReg, State.writeCmdArg, State.modCmd_idle hbusy, Nat.not_lt.mpr hfull, Same]
  case clear =>
    refine .answer (congrArg (answer s) (State.hostWrite_plain (i := 45) h rfl _)) ?_
    simp [State.writeReg, State.writeCmdGo_clear hbusy, Mgmt.clearCmd, Same]
  case busy =>
    have hdom : s.regDom i.val = none := by
      unfold State.regDom
      rw [if_neg (by omega), if_neg (by omega), if_neg (by unfold winData; omega)]
    refine .answer (congrArg (answer s) (State.hostWrite_plain h hdom w)) ?_
    simp [State.writeReg_command_busy hbusy hlo hhi, Same]

/-! ### Plain registers -/

/-- A register without writable fields discards what is written (R467). -/
theorem State.writeReg_discarded {i : Nat} (h : i ∈ [0, 1, 2, 3, 4, 10, 13, 14, 19, 20, 28, 48, 62, 63]) (w : Word)
    (busy : BitVec 12) (s : State) : s.regDom i = none ∧ s.writeReg i w busy = s := by
  simp only [List.mem_cons, List.not_mem_nil, or_false] at h
  rcases h with rfl | rfl | rfl | rfl | rfl | rfl | rfl | rfl | rfl | rfl | rfl | rfl | rfl | rfl <;> exact ⟨rfl, rfl⟩

theorem Intc.shown_lt {c : Intc} {n : Nat} (h : c.shown = some n) : n < 48 := by
  simp only [Intc.shown] at h
  split at h
  · simp only [Option.some.injEq] at h
    omega
  · simp at h

@[simp] theorem Intc.setCfg_sel (c : Intc) (n : Nat) (f : IntSrc → IntSrc) : (c.setCfg n f).sel = c.sel := by
  unfold Intc.setCfg
  split <;> rfl

theorem State.writeIntCfg_shown {s : State} {n : Nat} (h : s.int.shown = some n) (w : Word) :
    s.writeIntCfg w = s.writeSource n w := by
  simp [State.writeIntCfg, h]

/-- Settles O56: none of the registers has a domain, and each write is its own row of State.writeReg. -/
theorem registerWritesComplete : Obligations.RegisterWritesComplete := by
  unfold Obligations.RegisterWritesComplete
  refine ⟨fun s w h => ?scratch, fun s w h => ?ctrl, fun s w h => ?sticky, fun s w h => ?gpioCtrl, fun s w h => ?gpioData,
    fun s w h => ?thresh, fun s w n h hn => ?cfg, fun s w i hi h => ?discarded⟩
  case scratch =>
    refine .answer (congrArg (answer s) (State.hostWrite_plain (i := 61) h rfl w)) ?_
    simp [State.writeReg, Same]
  case ctrl =>
    refine .answer (congrArg (answer s) (State.hostWrite_plain (i := 6) h rfl w)) ?_
    simp [State.writeReg, Same]
  case sticky =>
    refine .answer (congrArg (answer s) (State.hostWrite_plain (i := 5) h rfl w)) ?_
    simp [State.writeReg, State.writeSticky, w1cField, Same]
  case gpioCtrl =>
    refine .answer (congrArg (answer s) (State.hostWrite_plain (i := 59) h rfl w)) ?_
    simp [State.writeReg, Same]
  case gpioData =>
    refine .answer (congrArg (answer s) (State.hostWrite_plain (i := 60) h rfl w)) ?_
    simp [State.writeReg, Same]
  case thresh =>
    refine .answer (congrArg (answer s) (State.hostWrite_plain (i := 18) h rfl w)) ?_
    simp [State.writeReg, State.writeIntThresh, Same]
  case cfg =>
    refine .answer (congrArg (answer s) (State.hostWrite_plain (i := 22) h rfl w)) ?_
    have hlt := Intc.shown_lt hn
    refine ⟨?_, fun m hm => ?_, ?_, ?_⟩
    · simp [State.writeReg, State.writeIntCfg_shown hn, State.writeSource, hlt]
    · simp [State.writeReg, State.writeIntCfg_shown hn, State.writeSource, hm]
    · simp [State.writeReg, State.writeIntCfg_shown hn, State.writeSource]
    · simp [State.writeReg, State.writeIntCfg_shown hn, State.writeSource, Same]
  case discarded =>
    obtain ⟨hdom, hkept⟩ := s.writeReg_discarded hi w 0#12
    refine .answer (congrArg (answer s) (State.hostWrite_plain h hdom w)) ?_
    simp [hkept, Same]

/-! ### What is presented after a claim -/

/-- A fold that keeps its choice or takes the index it stands at, and takes only what qualifies, chooses what qualifies. -/
theorem of_foldUpto_eq_some {f : Option Nat → Nat → Option Nat} {p : Nat → Prop} (hf : ∀ b k, f b k = b ∨ f b k = some k ∧ p k)
    {n m : Nat} (h : foldUpto f none n = some m) : p m := by
  induction n with
  | zero => simp [foldUpto] at h
  | succ n ih =>
    rw [foldUpto] at h
    rcases hf (foldUpto f none n) n with hkeep | ⟨htake, hp⟩
    · exact ih (hkeep ▸ h)
    · obtain rfl : n = m := by simpa [htake] using h
      exact hp

/-- What is presented qualifies (R402, R404). -/
theorem State.qualifies_of_presented {s : State} {x : BitVec 2} {n : Nat} (h : s.presented x = some n) :
    s.qualifies x n = true := by
  refine of_foldUpto_eq_some (p := fun k => s.qualifies x k = true) (fun b k => ?_) h
  by_cases hq : s.qualifies x k = true
  · rw [if_pos hq]
    rcases s.better_eq b k with hb | hb
    · exact .inl hb
    · exact .inr ⟨hb, hq⟩
  · rw [if_neg hq]
    exact .inl rfl

/-- The priority of what is presented is above that of everything in service (R402). -/
theorem State.running_lt_of_presented {s : State} {x : BitVec 2} {n : Nat} (h : s.presented x = some n) :
    s.int.running x < (s.int.cfg n).prio.toNat := by
  have hq := State.qualifies_of_presented h
  simp only [State.qualifies, Bool.and_eq_true, decide_eq_true_eq] at hq
  exact hq.1.2

/-- The largest value of a function below a bound. -/
theorem foldUpto_max (f : Nat → Nat) (n : Nat) :
    (∀ k < n, f k ≤ foldUpto (fun m k => max m (f k)) 0 n) ∧
    (∀ b, (∀ k < n, f k ≤ b) → foldUpto (fun m k => max m (f k)) 0 n ≤ b) := by
  induction n with
  | zero => simp [foldUpto]
  | succ n ih =>
    obtain ⟨hge, hle⟩ := ih
    rw [foldUpto]
    refine ⟨fun k hk => ?_, fun b hb => ?_⟩
    · rcases Nat.lt_succ_iff_lt_or_eq.mp hk with hlt | rfl
      · exact (hge k hlt).trans (Nat.le_max_left _ _)
      · exact Nat.le_max_right _ _
    · exact max_le (hle b fun k hk => hb k (by omega)) (hb n (by omega))

theorem Intc.servedAt_le_running (c : Intc) (x : BitVec 2) {n : Nat} (h : n < 48) : c.servedAt x n ≤ c.running x :=
  (foldUpto_max (c.servedAt x) 48).1 n h

theorem Intc.running_le {c : Intc} {x : BitVec 2} {b : Nat} (h : ∀ n < 48, c.servedAt x n ≤ b) : c.running x ≤ b :=
  (foldUpto_max (c.servedAt x) 48).2 b h

theorem Intc.servedAt_congr {c d : Intc} {n : Nat} (h : c.cfg n = d.cfg n) (x : BitVec 2) : c.servedAt x n = d.servedAt x n := by
  simp [Intc.servedAt, h]

theorem Intc.running_congr {c d : Intc} (h : c.src = d.src) (x : BitVec 2) : c.running x = d.running x := by
  have hserved : c.servedAt x = d.servedAt x := funext fun n => Intc.servedAt_congr (Intc.cfg_congr h) x
  simp only [Intc.running, hserved]

/-- A source put in service above the running priority is the running priority (R405). -/
theorem Intc.running_serve {c : Intc} {x : BitVec 2} {n : Nat} (hn : n < 48) (h : c.running x < (c.cfg n).prio.toNat) :
    (c.setCfg n fun q => { q with serv := some (x, q.prio) }).running x = (c.cfg n).prio.toNat := by
  have hself : (c.setCfg n fun q => { q with serv := some (x, q.prio) }).servedAt x n = (c.cfg n).prio.toNat := by
    simp [Intc.servedAt, hn]
  refine Nat.le_antisymm (Intc.running_le fun m hm => ?_) (hself ▸ Intc.servedAt_le_running _ x hn)
  by_cases hmn : m = n
  · exact hmn ▸ hself.le
  · rw [Intc.servedAt_congr (Intc.cfg_setCfg_ne hmn _) x]
    exact (Intc.servedAt_le_running c x hm).trans h.le

/-- The running priority after a claim that puts source n in service. -/
theorem State.running_claim {s : State} {x : HostTarget} {n : Nat} (h : s.presented (lineTarget x) = some n) :
    ((s.modInt fun c => c.dropGone x).serve (lineTarget x) n).int.running (lineTarget x) = (s.int.cfg n).prio.toNat := by
  have hrun : (s.int.dropGone x).running (lineTarget x) = s.int.running (lineTarget x) :=
    Intc.running_congr (Intc.dropGone_src x) _
  have hserve := Intc.running_serve (c := s.int.dropGone x) (State.presented_lt h)
    (by rw [hrun, Intc.dropGone_cfg]; exact State.running_lt_of_presented h)
  rw [Intc.dropGone_cfg] at hserve
  exact hserve

/-- Settles O33: the source that is presented has a priority above the running one (State.running_lt_of_presented), so that it
is the running one once in service (State.running_claim), and whatever is presented then is above it in turn. -/
theorem claimsRaiseTheRunningPriority : Obligations.ClaimsRaiseTheRunningPriority := by
  unfold Obligations.ClaimsRaiseTheRunningPriority
  intro s x n h hline hp
  refine ⟨_, exec_intClaim h, ?_⟩
  rw [State.claim_presented hline hp]
  have hrun : (State.arbitrate s (State.finishRead (claimWord n (s.int.cfg n).prio,
      (s.modInt fun c => c.dropGone x).serve (lineTarget x) n))).int.running (lineTarget x) = (s.int.cfg n).prio.toNat := by
    rw [Intc.running_congr (State.arbitrate_int_src _ _), State.finishRead_int, State.running_claim hp]
  refine ⟨hrun, ?_, fun m hm => ?_⟩
  · rw [hrun]
    exact State.running_lt_of_presented hp
  · rw [← hrun]
    exact State.running_lt_of_presented hm

end Sys2Proof.Machine
end

section
/-!
PROOFS. The mailbox queues (chapters 14 and 17).
-/

namespace Sys2Proof.Machine

open Sys2Proof

/-! ### The queues -/

theorem State.demand_on {s : State} {d : Dom} (h : s.isOn d = true) : s.demand d = s := by
  unfold State.demand
  unfold State.isOn DomState.isOn at h
  split at h
  case h_4 => simp at h
  all_goals simp [*]

theorem State.demand_retain {s : State} {d : Dom} (h : (s.dom d).st = .retain) :
    s.demand d = s.modDom d fun x => { x with demandDue := true } := by
  simp [State.demand, h]

@[simp] theorem State.isOn_modMgmt (f : Mgmt → Mgmt) (s : State) (d : Dom) : (s.modMgmt f).isOn d = s.isOn d := rfl

@[simp] theorem State.dom_modMgmt (f : Mgmt → Mgmt) (s : State) (d : Dom) : (s.modMgmt f).dom d = s.dom d := rfl

@[simp] theorem State.finishRead_mgmt (r : Word × State) : (State.finishRead r).mgmt = r.2.mgmt := rfl

@[simp] theorem State.finishWrite_dom (s : State) (d : Dom) : s.finishWrite.dom d = s.dom d := rfl

theorem Mgmt.deliver_none {m : Mgmt} (h : m.reply = none) : m.deliver = m := by
  simp [Mgmt.deliver, h]

theorem State.deliver_of_none {s : State} (h : s.mgmt.reply = none) : s.deliver = s := by
  unfold State.deliver
  split
  · simp only [State.modMgmt, Mgmt.deliver_none h]
  · rfl

/-- What a FLUSH does: the flush of State.flushMbx, since the write names no W1C bit. -/
theorem State.writeMbxStat_flush (s : State) : s.writeMbxStat (flg true 24) = s.flushMbx := by
  simp [State.writeMbxStat, State.modMgmt, bitAt_flg, w1c]

/-! ### Requests that are answered at once -/

/-- A header alone leaves MBX_IN and its reply is placed (R561, R562). -/
theorem State.incomplete_reply {s : State} (hm : s.isOn .mc = true) (h : Word) (hroom : s.mgmt.outQ.length < 64) :
    (s.modMgmt fun m => { m with inQ := [], inAt := [], req := some ⟨h, []⟩ }).reply 3#8 [] =
      s.modMgmt fun m =>
        { m with
          inQ := [], inAt := [], outQ := m.outQ ++ replyWords h 3#8 [], reply := none, req := none, replyEvt := true } := by
  exact State.reply_fits (s := s.modMgmt fun m => { m with inQ := [], inAt := [], req := some ⟨h, []⟩ }) rfl hm 3#8 []
    (by simpa using hroom)

/-- A request that is taken up and answered with a reply that fits is over (R561, R562). -/
theorem State.takeUpMessage_reply {s : State} (hm : s.isOn .mc = true) (r : Request) (st : BitVec 8) (p : List Word)
    (hroom : s.mgmt.outQ.length + (p.length + 1) ≤ 64) :
    (s.takeUpMessage r).reply st p =
      s.modMgmt fun m =>
        { m with
          inQ := m.inQ.drop (r.payload.length + 1), inAt := m.inAt.drop (r.payload.length + 1),
          outQ := m.outQ ++ replyWords r.hdr st p, reply := none, req := none, replyEvt := true } := by
  exact State.reply_fits (s := s.takeUpMessage r) rfl hm st p hroom

theorem State.isOn_of_coreUp {s : State} (h : s.coreUp = true) : s.isOn .mc = true := by
  simp only [State.coreUp, Bool.and_eq_true] at h
  exact h.1.1

/-- Settles O48: the three registers have no domain and each access is its own row; the two messages that no service takes are
answered by State.reply_fits. -/
theorem mailboxQueuesComplete : Obligations.MailboxQueuesComplete := by
  unfold Obligations.MailboxQueuesComplete
  refine ⟨fun s w h hon => ⟨fun hlt => ?word, fun hfull => ?full⟩, fun s w h hret => ?wake, fun s w ws h hq hnone => ?pop,
    fun s h hq => ?under, fun s h => ?flush, fun s h rest hup hreq hq hmsg hold hroom => ?incomplete,
    fun s r hup hreq hmsg hserv hroom => ?unknown⟩
  case word =>
    refine .answer (congrArg (answer s) (State.hostWrite_plain (i := 47) h rfl w)) ?_
    have hdone : s.writeMbxIn w = s.modMgmt fun m => { m with inQ := m.inQ ++ [w], inAt := m.inAt ++ [s.clk.tsc] } := by
      rw [State.writeMbxIn, State.demand_on (s := s.modMgmt _) hon]
      simp only [State.modMgmt, hlt, if_true]
    simp [State.writeReg, hdone, Same]
  case full =>
    refine .answer (congrArg (answer s) (State.hostWrite_plain (i := 47) h rfl w)) ?_
    have hdone : s.writeMbxIn w = s.modMgmt fun m => { m with inOvf := true } := by
      rw [State.writeMbxIn, State.demand_on (s := s.modMgmt _) hon]
      simp only [State.modMgmt, Nat.not_lt.mpr hfull, if_false]
    simp [State.writeReg, hdone, Same]
  case wake =>
    refine .answer (congrArg (answer s) (State.hostWrite_plain (i := 47) h rfl w)) ?_
    refine ⟨?_, by simp [State.writeReg, State.writeMbxIn, Same]⟩
    simp only [State.writeReg, State.writeMbxIn, State.demand_retain (d := .mc) (s := s.modMgmt _) hret]
    simp
  case pop =>
    refine .answer (congrArg (answer s) (State.hostRead_plain (i := 48) h rfl)) ?_
    have hpop : s.popMbx = (w, s.modMgmt fun m => { m with outQ := ws }) := by
      rw [State.popMbx, hq]
      exact congrArg (Prod.mk w) (State.deliver_of_none (s := s.modMgmt fun m => { m with outQ := ws }) hnone)
    simp [State.readReg, hpop, Same]
  case under =>
    refine .answer (congrArg (answer s) (State.hostRead_plain (i := 48) h rfl)) ?_
    have hpop : s.popMbx = (0#32, s.modMgmt fun m => { m with outUnder := true }) := by rw [State.popMbx, hq]
    simp [State.readReg, hpop, Same]
  case flush =>
    refine .answer (congrArg (answer s) (State.hostWrite_plain (i := 49) h rfl _)) ?_
    simp [State.writeReg, State.writeMbxStat_flush, State.flushMbx, Same]
  case incomplete =>
    have hon := State.isOn_of_coreUp hup
    have hexec : exec .messageIncomplete s = Machine.event true s
        ((s.modMgmt fun m => { m with inQ := [], inAt := [], req := some ⟨h, []⟩ }).reply 3#8 []) := by
      simp only [exec, execMessageIncomplete, hq, hup, hreq, hmsg, hold]
      rfl
    refine .event hexec rfl ?_
    rw [State.incomplete_reply hon h hroom]
    simp [Same]
  case unknown =>
    have hon := State.isOn_of_coreUp hup
    have hexec : exec .unknownService s = Machine.event true s ((s.takeUpMessage r).reply 1#8 []) := by
      simp only [exec, execUnknownService, hmsg, hup, hreq, hserv]
      rfl
    refine .event hexec rfl ?_
    rw [State.takeUpMessage_reply hon r 1#8 [] (by simpa using hroom)]
    simp [State.Replied, Same]

end Sys2Proof.Machine
end

section
/-!
PROOFS. Requests, demands and stops of the power controller: what a decision for one domain does to it, and what it leaves of the
others (chapter 12).
-/

namespace Sys2Proof.Machine

open Sys2Proof

/-! ### What leaves the power part alone -/

section
variable {ps : List Part}

theorem State.mask_voidAudits_arr (h0 : Part.arr ∈ ps) (p : Nat → Bool) (s : State) : (s.voidAudits p).mask ps = s.mask ps := by
  unfold State.voidAudits
  rw [State.mask_foldl]
  intro u r
  split
  · exact State.mask_voidAudit_arr h0 r true u
  · rfl

theorem State.mask_fillAll_arr (h0 : Part.arr ∈ ps) (s : State) : s.fillAll.mask ps = s.mask ps :=
  State.mask_foldl _ (fun u i => State.mask_fillCluster_arr h0 i u) _ _

theorem State.mask_frontStops_arr (h0 : Part.arr ∈ ps) (d : Dom) (s : State) : (s.frontStops d).mask ps = s.mask ps := by
  unfold State.frontStops
  refine (State.mask_foldl _ (fun u i => ?_) _ _).trans (State.mask_voidAudits_arr h0 _ s)
  split <;> simp [h0]

theorem State.mask_frontReturns_arr (h0 : Part.arr ∈ ps) (d : Dom) (s : State) : (s.frontReturns d).mask ps = s.mask ps := by
  unfold State.frontReturns
  refine (State.mask_fillAll_arr h0 _).trans (State.mask_foldl _ (fun u i => ?_) _ _)
  split <;> simp [h0]

end

/-! ### Demands alone -/

/-- Domain y is domain x after demands alone (R427): its wake may lead to On now, or a demand is recorded. -/
def Domain.Asked (x y : Domain) : Prop :=
  y = { x with target := y.target, demand := y.demand, demandDue := y.demandDue } ∧
    (x.st ≠ .waking ∨ x.target = .on → y.target = x.target ∧ y.demand = x.demand)

theorem Domain.Asked.refl (x : Domain) : x.Asked x := ⟨rfl, fun _ => ⟨rfl, rfl⟩⟩

theorem Domain.Asked.st {x y : Domain} (h : x.Asked y) : y.st = x.st := (congrArg Domain.st h.1 :)

theorem Domain.Asked.trans {x y z : Domain} (hxy : x.Asked y) (hyz : y.Asked z) : x.Asked z := by
  refine ⟨?_, fun h => ?_⟩
  · have hz := hyz.1
    rw [hxy.1] at hz
    exact hz
  · obtain ⟨htarget, hdemand⟩ := hxy.2 h
    obtain ⟨htarget', hdemand'⟩ := hyz.2 (by rwa [hxy.st, htarget])
    exact ⟨htarget'.trans htarget, hdemand'.trans hdemand⟩

/-- The request stands, every domain stands but for demands, and the work that waits for a domain stands. -/
def State.OnlyAsks (s t : State) : Prop :=
  t.pwr.req = s.pwr.req ∧ t.pwr.reqDue = s.pwr.reqDue ∧ (∀ d, (s.dom d).Asked (t.dom d)) ∧
    t.mgmt.restore = s.mgmt.restore ∧ t.mgmt.req = s.mgmt.req

section
variable {s t u : State}

theorem State.OnlyAsks.of_eq (hp : t.pwr = s.pwr) (hm : t.mgmt = s.mgmt) : s.OnlyAsks t :=
  ⟨by rw [hp], by rw [hp], fun d => State.dom_congr hp d ▸ Domain.Asked.refl _, by rw [hm], by rw [hm]⟩

theorem State.OnlyAsks.refl (s : State) : s.OnlyAsks s := .of_eq rfl rfl

theorem State.OnlyAsks.trans (hst : s.OnlyAsks t) (htu : t.OnlyAsks u) : s.OnlyAsks u := by
  obtain ⟨h1, h2, h3, h4, h5⟩ := hst
  obtain ⟨k1, k2, k3, k4, k5⟩ := htu
  exact ⟨k1.trans h1, k2.trans h2, fun d => (h3 d).trans (k3 d), k4.trans h4, k5.trans h5⟩

/-- Two states that agree on every part but some, the power and the management part not among them. -/
theorem State.OnlyAsks.of_mask {ps : List Part} (h : t.mask ps = s.mask ps) (hp : Part.pwr ∉ ps) (hm : Part.mgmt ∉ ps) :
    s.OnlyAsks t :=
  .of_eq (State.pwr_of_mask h hp) (State.mgmt_of_mask h hm)

theorem State.OnlyAsks.st (h : s.OnlyAsks t) (d : Dom) : (t.dom d).st = (s.dom d).st := (h.2.2.1 d).st

theorem State.OnlyAsks.resting (h : s.OnlyAsks t) (d : Dom) : t.resting d = s.resting d := by
  rw [State.resting, State.resting, h.1]

theorem State.OnlyAsks.target (h : s.OnlyAsks t) {d : Dom} (hd : (s.dom d).st ≠ .waking ∨ (s.dom d).target = .on) :
    (t.dom d).target = (s.dom d).target ∧ (t.dom d).demand = (s.dom d).demand := (h.2.2.1 d).2 hd

theorem Domain.asked_due (x : Domain) : x.Asked { x with demandDue := true } := ⟨rfl, fun _ => ⟨rfl, rfl⟩⟩

theorem State.modDom_asks {d : Dom} {f : Domain → Domain} (h : (s.dom d).Asked (f (s.dom d))) : s.OnlyAsks (s.modDom d f) := by
  refine ⟨rfl, rfl, fun e => ?_, rfl, rfl⟩
  rw [State.dom_modDom]
  split
  · next he => exact he ▸ h
  · exact .refl _

theorem State.demand_asks (d : Dom) (s : State) : s.OnlyAsks (s.demand d) := by
  unfold State.demand
  split
  case h_4 hwaking =>
    split
    · exact .refl s
    · next hon => exact State.modDom_asks ⟨rfl, fun h => absurd (h.resolve_left (not_not.mpr hwaking)) hon⟩
  case h_5 => exact .refl s
  all_goals exact State.modDom_asks (Domain.asked_due _)

theorem State.mapDemand_asks (s : State) : s.OnlyAsks s.mapDemand := by
  unfold State.mapDemand
  split
  · exact s.demand_asks .mc
  · exact .refl s

theorem State.commitDemand_asks (s : State) : s.OnlyAsks s.commitDemand := by
  unfold State.commitDemand
  split
  · exact s.demand_asks .mc
  · exact .refl s

theorem State.log_asks (s : State) (cls code : BitVec 8) (d0 d1 d2 : Word) : s.OnlyAsks (s.log cls code d0 d1 d2) := by
  unfold State.log
  split <;> exact ⟨rfl, rfl, fun _ => .refl _, rfl, rfl⟩

/-! ### What leaves and follows a domain -/

theorem State.foldl_log_asks {α : Type} {f : State → α → State} (h : ∀ (u : State) a, u.OnlyAsks (f u a)) (l : List α) (s : State) :
    s.OnlyAsks (l.foldl f s) := by
  induction l generalizing s with
  | nil => exact .refl s
  | cons a l ih => exact (h s a).trans (ih _)

theorem State.settleArray_asks (s t : State) : t.OnlyAsks (State.settleArray s t) := by
  unfold State.settleArray
  dsimp only
  have htrims : t.OnlyAsks (s.trimsAfter t) := .of_mask (ps := [.arr]) (by simp) (by decide) (by decide)
  have hlogs := htrims.trans (State.foldl_log_asks (fun u i => u.log_asks 0x04#8 0x02#8 (BitVec.ofNat 32 i)
    (t.clusterWord i) (s.clusterWord i)) ((List.range 39).filter fun i => s.clusterState i != t.clusterState i) _)
  split
  · exact hlogs.trans (.of_eq rfl rfl)
  · exact hlogs

theorem State.settleFront_asks (d : Dom) (s t : State) : t.OnlyAsks (State.settleFront d s t) := by
  unfold State.settleFront
  split
  · exact State.settleArray_asks s t
  · exact State.settleArray_asks s t
  · exact .refl t

theorem State.mcLeaves_asks (s : State) : s.OnlyAsks s.mcLeaves := by
  have hvoid : s.OnlyAsks (s.voidAudits fun _ => true) :=
    .of_mask (State.mask_voidAudits_arr (ps := [.arr]) (by decide) _ s) (by decide) (by decide)
  have hsettled := hvoid.trans (State.settleArray_asks s (s.voidAudits fun _ => true))
  unfold State.mcLeaves
  generalize State.settleArray s (s.voidAudits fun _ => true) = t at hsettled ⊢
  obtain ⟨h1, h2, h3, h4, h5⟩ := hsettled
  exact ⟨h1, h2, h3, h4, h5⟩

theorem State.leaves_asks (d : Dom) (s : State) : s.OnlyAsks (s.leaves d) := by
  cases d
  case mc => exact s.mcLeaves_asks
  case en =>
    refine .of_mask (ps := [.harrow, .cap, .spec, .buf, .fresh]) ?_ (by decide) (by decide)
    unfold State.leaves
    dsimp only
    split <;> simp
  case af => exact .of_mask (State.mask_frontStops_arr (ps := [.arr]) (by decide) .af s) (by decide) (by decide)
  case gf => exact .of_mask (State.mask_frontStops_arr (ps := [.arr]) (by decide) .gf s) (by decide) (by decide)
  all_goals exact .of_mask (ps := [.aux, .spec]) (by simp [State.leaves]) (by decide) (by decide)

theorem State.placeUnit_asks (own : List Frame) (lost : Nat) (s : State) : s.OnlyAsks (s.placeUnit own lost).1 := by
  unfold State.placeUnit
  dsimp only
  split
  · exact (s.demand_asks .sb).trans (.of_eq rfl rfl)
  · split
    · exact .of_eq rfl rfl
    · refine .of_mask (ps := [.buf]) ?_ (by decide) (by decide)
      dsimp only
      split <;> simp

theorem State.placeFill_asks (s : State) : s.OnlyAsks s.placeFill := by
  unfold State.placeFill
  split
  · exact .refl s
  · next cause _ =>
    have hplace := (State.OnlyAsks.of_eq rfl rfl : s.OnlyAsks (s.modBuf fun b => { b with fillOwed := none })).trans
      (State.placeUnit_asks [fillFrame (!s.clk.epochValid) cause] 1 _)
    dsimp only
    split
    · exact hplace.trans (.of_eq rfl rfl)
    · exact hplace

theorem State.startWriter_asks (s : State) : s.OnlyAsks s.startWriter := s.placeFill_asks.trans (.of_eq rfl rfl)

theorem State.refreshWriter_asks (s : State) : s.OnlyAsks s.refreshWriter := by
  unfold State.refreshWriter
  split
  · split
    · exact .of_mask (ps := [.harrow, .buf]) (by simp) (by decide) (by decide)
    · exact .refl s
  · split
    · exact .refl s
    · split
      · split
        · exact .refl s
        · exact s.startWriter_asks
      · split
        · exact s.startWriter_asks
        · exact .of_eq rfl rfl

theorem State.refresh_asks (s : State) : s.OnlyAsks s.refresh :=
  (State.OnlyAsks.of_mask (ps := [.harrow]) (by simp) (by decide) (by decide)).trans s.refreshPaths.refreshWriter_asks

theorem State.refreshRecog_asks (s : State) : s.OnlyAsks s.refreshRecog :=
  .of_mask (ps := [.recog, .cap, .smc, .buf]) (by simp) (by decide) (by decide)

theorem State.settleStopped_asks (d : Dom) (s : State) : s.OnlyAsks (s.settleStopped d) := by
  cases d
  case en => exact s.refreshRecog_asks.trans s.refreshRecog.refresh_asks
  case th => exact .of_mask (ps := [.therm]) (by simp [State.settleStopped]) (by decide) (by decide)
  case sb => exact .refl s
  case cs => exact .refl s
  case mc => exact .refl s
  all_goals exact s.refresh_asks

/-! ### The start of a stop, and of a wake -/

/-- The state just after domain d has left On for a stop (R426). -/
def State.stopping (d : Dom) (goal : Rest) (s : State) : State :=
  (if s.isOn d then s.leaves d else s).modDom d fun x => { x with st := .stopping, target := goal, demand := false, reason := 0#4 }

theorem State.startStop_asks (d : Dom) (goal : Rest) (s : State) : (s.stopping d goal).OnlyAsks (s.startStop d goal) := by
  have hfront := State.settleFront_asks d s (s.stopping d goal)
  unfold State.startStop
  change State.OnlyAsks (s.stopping d goal) (if d = .mc then State.commitDemand _ else _)
  have hsettle : (s.stopping d goal).OnlyAsks (if s.isOn d then (State.settleFront d s (s.stopping d goal)).settleStopped d
      else State.settleFront d s (s.stopping d goal)) := by
    split
    · exact hfront.trans (State.settleStopped_asks d _)
    · exact hfront
  split
  · exact hsettle.trans (State.commitDemand_asks _)
  · exact hsettle

/-- Two states agree on the request and the work that waits, and on every domain but d, up to demands. -/
def State.AsksBut (d : Dom) (s t : State) : Prop :=
  t.pwr.req = s.pwr.req ∧ t.pwr.reqDue = s.pwr.reqDue ∧ (∀ e, e ≠ d → (s.dom e).Asked (t.dom e))

theorem State.OnlyAsks.but (h : s.OnlyAsks t) (d : Dom) : s.AsksBut d t := ⟨h.1, h.2.1, fun e _ => h.2.2.1 e⟩

theorem State.AsksBut.trans {d : Dom} (hst : s.AsksBut d t) (htu : t.AsksBut d u) : s.AsksBut d u := by
  obtain ⟨h1, h2, h3⟩ := hst
  obtain ⟨k1, k2, k3⟩ := htu
  exact ⟨k1.trans h1, k2.trans h2, fun e he => (h3 e he).trans (k3 e he)⟩

theorem State.modDom_but (d : Dom) (f : Domain → Domain) (s : State) : s.AsksBut d (s.modDom d f) :=
  ⟨rfl, rfl, fun _ he => State.dom_modDom_ne he f s ▸ .refl _⟩

theorem State.stopping_but (d : Dom) (goal : Rest) (s : State) : s.AsksBut d (s.stopping d goal) := by
  unfold State.stopping
  split
  · exact ((s.leaves_asks d).but d).trans (State.modDom_but ..)
  · exact State.modDom_but ..

theorem State.startStop_but (d : Dom) (goal : Rest) (s : State) : s.AsksBut d (s.startStop d goal) :=
  (s.stopping_but d goal).trans ((s.startStop_asks d goal).but d)

/-- A domain whose stop starts is stopping towards its goal, with no demand (R426). -/
theorem State.dom_startStop (d : Dom) (goal : Rest) (s : State) :
    ((s.startStop d goal).dom d).st = .stopping ∧ ((s.startStop d goal).dom d).target = goal ∧
      ((s.startStop d goal).dom d).demand = false := by
  have hasks := s.startStop_asks d goal
  have hst : ((s.stopping d goal).dom d).st = .stopping := by simp [State.stopping]
  obtain ⟨htarget, hdemand⟩ := hasks.target (.inl (by rw [hst]; decide) : ((s.stopping d goal).dom d).st ≠ .waking ∨ _)
  refine ⟨(hasks.st d).trans hst, htarget.trans ?_, hdemand.trans ?_⟩ <;> simp [State.stopping]

/-- The state of a domain whose wake starts (R419, R423, R427). -/
def Domain.woken (x : Domain) (goal : Rest) (demand : Bool) (ht : Nat) (pll : Bool) : Domain :=
  { x with
    st := .waking, target := goal, fromRet := x.st == .retain, demand := demand, demandDue := false, wakeHt := ht, wakePll := pll }

theorem State.startWake_pwr (d : Dom) (goal : Rest) (demand : Bool) (s : State) :
    (s.startWake d goal demand).pwr =
      (s.modDom d fun x => x.woken goal demand s.clk.ht (d == .en && s.clk.plle == .off)).pwr := by
  unfold State.startWake
  dsimp only
  split <;> rfl

theorem State.dom_startWake (d e : Dom) (goal : Rest) (demand : Bool) (s : State) :
    (s.startWake d goal demand).dom e =
      if e = d then (s.dom d).woken goal demand s.clk.ht (d == .en && s.clk.plle == .off) else s.dom e := by
  rw [State.dom_congr (State.startWake_pwr d goal demand s), State.dom_modDom]

@[simp] theorem State.startWake_mgmt (d : Dom) (goal : Rest) (demand : Bool) (s : State) :
    (s.startWake d goal demand).mgmt = s.mgmt :=
  State.mgmt_of_mask (ps := [.clk, .pwr]) (by simp) (by decide)

theorem State.startWake_but (d : Dom) (goal : Rest) (demand : Bool) (s : State) : s.AsksBut d (s.startWake d goal demand) := by
  refine ⟨?_, ?_, fun e he => ?_⟩
  · rw [State.startWake_pwr]; rfl
  · rw [State.startWake_pwr]; rfl
  · rw [State.dom_startWake, if_neg he]
    exact .refl _

/-- A domain whose wake to On starts is waking towards On, whatever demands follow (R423, R427). -/
theorem State.dom_wakeOn (d : Dom) (demand : Bool) (s : State) (h : (s.startWake d .on demand).OnlyAsks t) :
    (t.dom d).st = .waking ∧ (t.dom d).target = .on ∧ (t.dom d).demand = demand := by
  have hdom : (s.startWake d .on demand).dom d = _ := (State.dom_startWake ..).trans (if_pos rfl)
  obtain ⟨htarget, hdemand⟩ := h.target (.inr (by rw [hdom]; rfl) : _ ∨ ((s.startWake d .on demand).dom d).target = .on)
  refine ⟨(h.st d).trans ?_, htarget.trans ?_, hdemand.trans ?_⟩ <;> rw [hdom] <;> rfl

end

end Sys2Proof.Machine
end

section
/-!
PROOFS. The decisions of the power controller on a request, and PWR_REQ and demands (R421 to R432).
-/

namespace Sys2Proof.Machine

open Sys2Proof

section
variable {s t u : State}

/-! ### What a decision leaves alone besides the domains -/

/-- The counters, the link, the flash and the operation on it, the machines and the queue stand. -/
def State.Unreached (s t : State) : Prop :=
  t.clk.tsc = s.clk.tsc ∧ t.link = s.link ∧ t.mport.flash = s.mport.flash ∧ t.mport.seq = s.mport.seq ∧ t.smc = s.smc ∧
    t.pending = s.pending

theorem State.Unreached.refl (s : State) : s.Unreached s := ⟨rfl, rfl, rfl, rfl, rfl, rfl⟩

theorem State.Unreached.trans (hst : s.Unreached t) (htu : t.Unreached u) : s.Unreached u := by
  obtain ⟨h1, h2, h3, h4, h5, h6⟩ := hst
  obtain ⟨k1, k2, k3, k4, k5, k6⟩ := htu
  exact ⟨k1.trans h1, k2.trans h2, k3.trans h3, k4.trans h4, k5.trans h5, k6.trans h6⟩

/-- The parts that a decision may change as it likes. -/
def decisionParts : List Part := [.harrow, .arr, .therm, .aux, .recog, .cap, .scar, .spec, .buf, .int, .pwr, .host, .mgmt, .fresh]

theorem State.Unreached.of_mask (h : t.mask decisionParts = s.mask decisionParts) : s.Unreached t := by
  have hclk := State.clk_of_mask h (by decide)
  have hmport := State.mport_of_mask h (by decide)
  exact ⟨by rw [hclk], State.link_of_mask h (by decide), by rw [hmport], by rw [hmport], State.smc_of_mask h (by decide),
    State.pending_of_mask h⟩

theorem State.mcLeaves_unreached (s : State) : s.Unreached s.mcLeaves := by
  have hvoid : s.Unreached (State.settleArray s (s.voidAudits fun _ => true)) := .of_mask (by simp [decisionParts])
  unfold State.mcLeaves
  generalize State.settleArray s (s.voidAudits fun _ => true) = t at hvoid ⊢
  obtain ⟨h1, h2, h3, h4, h5, h6⟩ := hvoid
  exact ⟨h1, h2, h3, h4, h5, h6⟩

theorem State.leaves_unreached (d : Dom) (s : State) : s.Unreached (s.leaves d) := by
  cases d
  case mc => exact s.mcLeaves_unreached
  case en =>
    refine .of_mask ?_
    unfold State.leaves
    dsimp only
    split <;> simp [decisionParts]
  all_goals exact .of_mask (by simp [State.leaves, decisionParts])

/-- With EN not On no recogniser runs, and none that begins to run has a report to make (R256). -/
theorem State.refreshRecog_of_off (h : s.isOn .en = false) : ∃ f, s.refreshRecog = s.modRecog f := by
  have hwant : s.recogWant = 0#6 := by simp [State.recogWant, h]
  unfold State.refreshRecog
  simp only [hwant, BitVec.zero_and, if_true]
  exact ⟨_, rfl⟩

theorem State.settleStopped_unreached {d : Dom} (h : s.isOn d = false) : s.Unreached (s.settleStopped d) := by
  cases d
  case en =>
    obtain ⟨f, hf⟩ := State.refreshRecog_of_off h
    refine .of_mask ?_
    simp [State.settleStopped, hf, decisionParts]
  all_goals exact .of_mask (by simp [State.settleStopped, decisionParts])

theorem State.startStop_unreached (d : Dom) (goal : Rest) (s : State) : s.Unreached (s.startStop d goal) := by
  have hstop : s.Unreached (s.stopping d goal) := by
    unfold State.stopping
    split
    · exact (s.leaves_unreached d).trans (.of_mask (by simp [decisionParts]))
    · exact .of_mask (by simp [decisionParts])
  have hfront : s.Unreached (State.settleFront d s (s.stopping d goal)) :=
    hstop.trans (.of_mask (by simp [decisionParts]))
  have hoff : (State.settleFront d s (s.stopping d goal)).isOn d = false := by
    rw [State.isOn, (State.settleFront_asks d s (s.stopping d goal)).st d]
    simp [State.stopping, DomState.isOn]
  have hsettle : s.Unreached (if s.isOn d then (State.settleFront d s (s.stopping d goal)).settleStopped d
      else State.settleFront d s (s.stopping d goal)) := by
    split
    · exact hfront.trans (State.settleStopped_unreached hoff)
    · exact hfront
  unfold State.startStop
  change State.Unreached s (if d = .mc then State.commitDemand _ else _)
  split
  · exact hsettle.trans (.of_mask (State.mask_commitDemand (by decide) _))
  · exact hsettle

theorem State.startWake_unreached (d : Dom) (goal : Rest) (demand : Bool) (s : State) :
    s.Unreached (s.startWake d goal demand) := by
  unfold State.startWake
  dsimp only
  split <;> exact ⟨rfl, rfl, rfl, rfl, rfl, rfl⟩

theorem State.modDom_unreached (d : Dom) (f : Domain → Domain) (s : State) : s.Unreached (s.modDom d f) :=
  .of_mask (by simp [decisionParts])

theorem State.mapDemand_unreached (s : State) : s.Unreached s.mapDemand := .of_mask (State.mask_mapDemand (by decide) s)

theorem State.wakeFor_unreached (d : Dom) (goal : Rest) (s : State) : s.Unreached (s.startWake d goal false).mapDemand :=
  (State.startWake_unreached d goal false s).trans (State.mapDemand_unreached _)

/-! ### A decision for one domain -/

theorem State.wakeFor_but (d : Dom) (goal : Rest) (s : State) : s.AsksBut d (s.startWake d goal false).mapDemand :=
  (State.startWake_but d goal false s).trans ((State.mapDemand_asks _).but d)

theorem State.tryStop_facts (d : Dom) (goal : Rest) (s : State) :
    s.AsksBut d (s.tryStop d goal).1 ∧ s.Unreached (s.tryStop d goal).1 := by
  unfold State.tryStop
  dsimp only
  split
  · exact ⟨State.modDom_but .., State.modDom_unreached ..⟩
  · split
    · exact ⟨State.modDom_but .., State.modDom_unreached ..⟩
    · exact ⟨State.startStop_but .., State.startStop_unreached ..⟩

/-- A decision for a domain changes the others by demands alone (R431). -/
theorem State.decideOne_facts (write idle : Bool) (d : Dom) (s : State) :
    s.AsksBut d (s.decideOne write idle d).1 ∧ s.Unreached (s.decideOne write idle d).1 := by
  have hkept : s.AsksBut d s ∧ s.Unreached s := ⟨(State.OnlyAsks.refl s).but d, .refl s⟩
  have hwake (goal : Rest) := And.intro (State.wakeFor_but d goal s) (State.wakeFor_unreached d goal s)
  have hstop (goal : Rest) := State.tryStop_facts d goal s
  have hset (f : Domain → Domain) := And.intro (State.modDom_but d f s) (State.modDom_unreached d f s)
  unfold State.decideOne
  dsimp only
  split
  · exact hkept
  · exact hkept
  · split
    · exact hkept
    · split
      · exact ⟨(State.modDom_but d _ s).trans ((State.mapDemand_asks _).but d),
          (State.modDom_unreached d _ s).trans (State.mapDemand_unreached _)⟩
      · exact hwake _
  · split
    · exact hkept
    · exact hwake _
  · split
    · exact hkept
    · exact hwake .on
    · exact hstop .off
  all_goals
    split
    · exact hset _
    · split
      · exact hkept
      · exact hstop _

/-! ### A request -/

theorem State.noteRefusal_dom (d e : Dom) (s : State) : (s.noteRefusal d).dom e = s.dom e := by
  unfold State.noteRefusal
  rw [State.log_dom]
  rfl

/-- What holds of the whole list of decisions: the others stand but for demands. -/
theorem State.decideAll_but {d : Dom} {l : List Dom} (hd : d ∉ l) (write : Bool) (s : State) :
    (s.dom d).Asked ((State.decideAll write l s).1.dom d) := by
  induction l generalizing s with
  | nil => exact .refl _
  | cons e l ih =>
    obtain ⟨hne, hl⟩ := not_or.mp (fun h => hd (List.mem_cons.mpr h))
    exact ((s.decideOne_facts write false e).1.2.2 d hne).trans (ih hl _)

theorem State.decideAll_facts (l : List Dom) (write : Bool) (s : State) :
    (State.decideAll write l s).1.pwr.req = s.pwr.req ∧ (State.decideAll write l s).1.pwr.reqDue = s.pwr.reqDue ∧
      s.Unreached (State.decideAll write l s).1 := by
  induction l generalizing s with
  | nil => exact ⟨rfl, rfl, .refl s⟩
  | cons e l ih =>
    obtain ⟨⟨hreq, hdue, -⟩, hun⟩ := s.decideOne_facts write false e
    obtain ⟨ihreq, ihdue, ihun⟩ := ih (s.decideOne write false e).1
    exact ⟨ihreq.trans hreq, ihdue.trans hdue, hun.trans ihun⟩

/-- A domain is decided once, on what it was before but for demands, and then stands but for demands. -/
theorem State.decideAll_dom {d : Dom} {P Q : Domain → Prop} (write : Bool)
    (hP : ∀ x y : Domain, x.Asked y → P x → P y) (hQ : ∀ x y : Domain, x.Asked y → Q x → Q y)
    {l : List Dom} (hl : l.Nodup) (hd : d ∈ l) (s : State)
    (hone : ∀ u : State, u.pwr.req = s.pwr.req → P (u.dom d) → Q ((u.decideOne write false d).1.dom d))
    (h : P (s.dom d)) : Q ((State.decideAll write l s).1.dom d) := by
  induction l generalizing s with
  | nil => simp at hd
  | cons e l ih =>
    obtain ⟨hnot, hnodup⟩ := List.nodup_cons.mp hl
    obtain ⟨hreq, -, hothers⟩ := (s.decideOne_facts write false e).1
    by_cases hde : d = e
    · subst hde
      exact hQ _ _ (State.decideAll_but hnot write _) (hone s rfl h)
    · have hmem : d ∈ l := (List.mem_cons.mp hd).resolve_left hde
      exact ih hnodup hmem (s.decideOne write false e).1 (fun u hu => hone u (hu.trans hreq)) (hP _ _ (hothers d hde) h)

/-- The state after the decisions, before REFUSED_EVT. -/
theorem State.process_facts (write : Bool) (start : Nat) (s : State) :
    (∀ d, (s.process write start).dom d = (State.decideAll write (reqOrder.drop start) s).1.dom d) ∧
      (s.process write start).pwr.req = s.pwr.req ∧ (s.process write start).pwr.reqDue = s.pwr.reqDue ∧
      s.Unreached (s.process write start) := by
  obtain ⟨hreq, hdue, hun⟩ := State.decideAll_facts (reqOrder.drop start) write s
  have hnote (d : Dom) (u : State) : u.Unreached (u.noteRefusal d) := .of_mask (by simp [decisionParts])
  have hnoted (d : Dom) (u : State) : (u.noteRefusal d).pwr.req = u.pwr.req ∧ (u.noteRefusal d).pwr.reqDue = u.pwr.reqDue := by
    simp [State.noteRefusal]
  unfold State.process
  dsimp only
  split
  · exact ⟨fun _ => rfl, hreq, hdue, hun.trans (.of_mask (by simp [decisionParts]))⟩
  · next d _ =>
    split
    · exact ⟨fun _ => rfl, hreq, hdue, hun.trans (.of_mask (by simp [decisionParts]))⟩
    · obtain ⟨hreq', hdue'⟩ := hnoted d ((State.decideAll write (reqOrder.drop start) s).1.modPwr fun p =>
        { p with resumeAt := some (reqPlace d), refusedOnce := true })
      exact ⟨fun e => State.noteRefusal_dom .., hreq'.trans hreq, hdue'.trans hdue,
        (hun.trans (.of_mask (by simp [decisionParts]))).trans (hnote ..)⟩

theorem mem_reqOrder (d : Dom) : d ∈ reqOrder := by cases d <;> decide

theorem nodup_reqOrder : reqOrder.Nodup := by decide

/-- The whole request decided (R431). -/
theorem State.process_dom {d : Dom} {P Q : Domain → Prop} (write : Bool)
    (hP : ∀ x y : Domain, x.Asked y → P x → P y) (hQ : ∀ x y : Domain, x.Asked y → Q x → Q y) (s : State)
    (hone : ∀ u : State, u.pwr.req = s.pwr.req → P (u.dom d) → Q ((u.decideOne write false d).1.dom d))
    (h : P (s.dom d)) : Q ((s.process write 0).dom d) := by
  rw [(s.process_facts write 0).1 d]
  exact State.decideAll_dom write hP hQ nodup_reqOrder (mem_reqOrder d) s hone h

/-! ### One decision, case by case -/

section
variable {d : Dom} {write idle : Bool}

theorem State.decideOne_wake (hst : (s.dom d).st = .off) (hwant : s.resting d = .on) :
    (s.decideOne write idle d).1 = (s.startWake d .on false).mapDemand := by
  simp [State.decideOne, hst, hwant]

theorem State.decideOne_stay_off (hst : (s.dom d).st = .off) (hwant : s.resting d = .off) : (s.decideOne write idle d).1 = s := by
  simp [State.decideOne, hst, hwant]

theorem State.decideOne_stay_on (hst : (s.dom d).st = .on) (hwant : s.resting d = .on) :
    s.decideOne write idle d = (s.modDom d fun x => { x with st := .on, demand := false }, .done) := by
  simp [State.decideOne, hst, hwant]

theorem State.decideOne_failed (hst : (s.dom d).st = .failed) (hwant : s.resting d = .off) :
    (s.decideOne true idle d).1 = (s.modDom d fun x => { x with st := .off }).mapDemand := by
  simp [State.decideOne, hst, hwant]

end

theorem State.resting_congr (h : t.pwr.req = s.pwr.req) (d : Dom) : t.resting d = s.resting d := by
  rw [State.resting, State.resting, h]

/-- A predicate on the state of a domain survives demands. -/
theorem Domain.Asked.of_st {x y : Domain} {st : DomState} (h : x.Asked y) (hx : x.st = st) : y.st = st := h.st.trans hx

/-- What the processing of a request makes of each domain (R422, R423, R425). -/
theorem State.process_write (s : State) (d : Dom) :
    ((s.dom d).st = .off → s.resting d = .on →
      ((s.process true 0).dom d).st = .waking ∧ ((s.process true 0).dom d).target = .on) ∧
    ((s.dom d).st = .off → s.resting d = .off → ((s.process true 0).dom d).st = .off) ∧
    ((s.dom d).st = .on → s.resting d = .on → ((s.process true 0).dom d).st = .on) ∧
    ((s.dom d).st = .failed → s.resting d = .off → ((s.process true 0).dom d).st = .off) := by
  refine ⟨fun hst hwant => ?wake, fun hst hwant => ?off, fun hst hwant => ?on, fun hst hwant => ?failed⟩
  case wake =>
    refine State.process_dom (P := fun x => x.st = .off) (Q := fun x => x.st = .waking ∧ x.target = .on) true
      (fun x y h => h.of_st) (fun x y h hx => ⟨h.of_st hx.1, (h.2 (.inr hx.2)).1.trans hx.2⟩) s (fun u hu hst => ?_) hst
    rw [State.decideOne_wake hst ((State.resting_congr hu d).trans hwant)]
    obtain ⟨hw, ht, -⟩ := State.dom_wakeOn d false u (State.mapDemand_asks _)
    exact ⟨hw, ht⟩
  case off =>
    refine State.process_dom (P := fun x => x.st = .off) (Q := fun x => x.st = .off) true
      (fun x y h => h.of_st) (fun x y h => h.of_st) s (fun u hu hst => ?_) hst
    rw [State.decideOne_stay_off hst ((State.resting_congr hu d).trans hwant)]
    exact hst
  case on =>
    refine State.process_dom (P := fun x => x.st = .on) (Q := fun x => x.st = .on) true
      (fun x y h => h.of_st) (fun x y h => h.of_st) s (fun u hu hst => ?_) hst
    rw [State.decideOne_stay_on hst ((State.resting_congr hu d).trans hwant)]
    simp
  case failed =>
    refine State.process_dom (P := fun x => x.st = .failed) (Q := fun x => x.st = .off) true
      (fun x y h => h.of_st) (fun x y h => h.of_st) s (fun u hu hst => ?_) hst
    rw [State.decideOne_failed hst ((State.resting_congr hu d).trans hwant), (State.mapDemand_asks _).st d]
    simp

end

/-! ### A demand wake -/

theorem State.dom_demand_ne {d e : Dom} (h : e ≠ d) (s : State) : (s.demand d).dom e = s.dom e := by
  unfold State.demand
  split
  case h_4 =>
    split
    · rfl
    · exact State.dom_modDom_ne h _ s
  case h_5 => rfl
  all_goals exact State.dom_modDom_ne h _ s

theorem State.dom_mapDemand_ne {e : Dom} (h : e ≠ .mc) (s : State) : s.mapDemand.dom e = s.dom e := by
  unfold State.mapDemand
  split
  · exact State.dom_demand_ne h s
  · rfl

/-- With MC waking the map asks for nothing more (R135). -/
theorem State.mapDemand_of_waking {s : State} (h : (s.dom .mc).st = .waking) : s.mapDemand = s := by
  simp [State.mapDemand, h]

theorem State.dom_startWake_mapDemand (d : Dom) (goal : Rest) (demand : Bool) (s : State) :
    (s.startWake d goal demand).mapDemand.dom d =
      (s.dom d).woken goal demand s.clk.ht (d == .en && s.clk.plle == .off) := by
  have hdom : (s.startWake d goal demand).dom d = _ := (State.dom_startWake ..).trans (if_pos rfl)
  by_cases hd : d = .mc
  · subst hd
    rw [State.mapDemand_of_waking (by rw [hdom]; rfl), hdom]
  · rw [State.dom_mapDemand_ne hd, hdom]

/-- Settles O36: the write sets the request (State.writePwrReq); its processing decides each domain once, and the other
decisions reach a domain by demands alone (State.process_write, State.process_facts); a demand wake is State.startWake. -/
theorem powerRequestsComplete : Obligations.PowerRequestsComplete := by
  unfold Obligations.PowerRequestsComplete
  refine ⟨fun s w h => ?write, fun s hdue hlk => ?process, fun s d hdue hst hlk => ?demand⟩
  case write =>
    refine .answer (congrArg (answer s) (State.hostWrite_plain (i := 8) h rfl w)) ?_
    simp [State.writeReg, State.writePwrReq, Same]
  case process =>
    refine .event rfl (by rw [hdue, hlk]; rfl) ?_
    obtain ⟨-, hreq, hdone, htsc, hlink, hflash, hseq, hsmc, hpending⟩ :=
      (s.modPwr fun p => { p with reqDue := false }).process_facts true 0
    have hdom := (s.modPwr fun p => { p with reqDue := false }).process_write
    simp only [State.arbitrate_dom, State.arbitrate_pwr, State.arbitrate_clk, State.arbitrate_link, State.arbitrate_mport,
      State.arbitrate_smc, State.arbitrate_pending]
    exact ⟨hdone, hreq, fun d => (hdom d).1, fun d => (hdom d).2.1, fun d => (hdom d).2.2.1, fun d => (hdom d).2.2.2,
      htsc, hlink, hflash, hseq, hsmc, hpending⟩
  case demand =>
    refine .event rfl (by rw [hdue, hlk]; rcases hst with h | h <;> rw [h] <;> rfl) ?_
    have hdom := State.dom_startWake_mapDemand d .on (s.resting d != .on) s
    simp only [State.arbitrate_dom, State.arbitrate_pwr, hdom]
    refine ⟨rfl, rfl, rfl, rfl, rfl, fun e hed hemc => ?_, ?_, by simp [Same]⟩
    · rw [State.dom_mapDemand_ne hemc, State.dom_startWake, if_neg hed]
    · rw [(State.mapDemand_asks _).1, State.startWake_pwr]
      rfl

end Sys2Proof.Machine
end

section
/-!
PROOFS. Stops, idle returns and resumed requests (R419, R425, R426, R429, R430, R433).
-/

namespace Sys2Proof.Machine

open Sys2Proof

section
variable {s t : State} {d : Dom}

/-! ### The end of a stop -/

theorem State.takeUp_of_due (h : s.pwr.reqDue = true) (d : Dom) : s.takeUp d = s := if_pos h

/-- What a domain that goes Off loses is in the power part only BOOTED (R419, R483). -/
theorem State.loses_pwr (d : Dom) (s : State) :
    (s.loses d).pwr = if d = .mc then { s.pwr with booted := false } else s.pwr := by
  cases d
  case mc => rfl
  all_goals
    rw [if_neg (by decide)]
    refine State.pwr_of_mask (ps := [.clk, .harrow, .therm, .aux, .recog, .cap, .spec, .smc, .buf]) ?_ (by decide)
    simp [State.loses]

theorem State.dom_loses (d e : Dom) (s : State) : (s.loses d).dom e = s.dom e := by
  simp only [State.dom, State.loses_pwr]
  split <;> rfl

theorem State.demand_pwr (d : Dom) (s : State) : ∃ v, (s.demand d).pwr = { s.pwr with dom := v } := by
  unfold State.demand
  split
  case h_4 =>
    split
    · exact ⟨s.pwr.dom, rfl⟩
    · exact ⟨_, rfl⟩
  case h_5 => exact ⟨s.pwr.dom, rfl⟩
  all_goals exact ⟨_, rfl⟩

theorem State.mapDemand_pwr (s : State) : ∃ v, s.mapDemand.pwr = { s.pwr with dom := v } := by
  unfold State.mapDemand
  split
  · exact s.demand_pwr .mc
  · exact ⟨s.pwr.dom, rfl⟩

/-- What EN loses takes the machines with it (R347, R419). -/
theorem State.loses_en_smc (s : State) : (s.loses .en).smc = {} := by
  unfold State.loses State.enOff
  dsimp only
  have h : ∀ u : State, u.refreshPaths.smc = u.smc := fun u => State.smc_of_mask (ps := [.harrow]) (by simp) (by decide)
  rw [h]
  rfl

/-- The state in which a stop has ended, before the request is taken up (R419, R425). -/
def State.stopped (d : Dom) (s : State) : State :=
  if (s.dom d).target = .retain then s.modDom d fun x => { x with st := .retain }
  else (s.modDom d fun x => { x with st := .off }).loses d

theorem exec_stopDone (hst : (s.dom d).st = .stopping) (hlk : s.hasLk = true) (hdue : s.pwr.reqDue = true) :
    exec (.stopDone d) s = .next (State.arbitrate s (s.stopped d).mapDemand) := by
  have hstop : (s.stopped d).pwr.reqDue = true := by
    unfold State.stopped
    split
    · exact hdue
    · rw [State.loses_pwr]
      split <;> exact hdue
  have hexec : exec (.stopDone d) s =
      Machine.event ((s.dom d).st == .stopping && s.hasLk) s ((s.stopped d).takeUp d).mapDemand := by
    by_cases htarget : (s.dom d).target = .retain <;> simp only [exec, execStopDone, State.stopped, htarget, if_true, if_false]
  rw [hexec, State.takeUp_of_due hstop, hst, hlk]
  rfl

/-- What a stop that ends in Off leaves (R277, R418, R419). -/
theorem State.stopped_off (h : (s.dom d).target ≠ .retain) :
    ((s.stopped d).dom d).st = .off ∧ (d = .sb → (s.stopped d).buf.words = [] ∧ (s.stopped d).buf.wp = 0#22) ∧
      (d = .cs → (s.stopped d).cap.store = [] ∧ (s.stopped d).cap.seq = s.cap.seq) ∧ (d = .en → (s.stopped d).smc = {}) ∧
      (d = .mc → (s.stopped d).pwr.booted = false) := by
  have hoff : s.stopped d = (s.modDom d fun x => { x with st := .off }).loses d := if_neg h
  rw [hoff]
  refine ⟨by rw [State.dom_loses]; simp, ?_, ?_, ?_, ?_⟩ <;> rintro rfl
  · exact ⟨rfl, rfl⟩
  · exact ⟨rfl, rfl⟩
  · exact State.loses_en_smc _
  · rfl

theorem State.mask_stopped {ps : List Part}
    (h : ∀ p ∈ [Part.clk, .harrow, .therm, .aux, .recog, .cap, .spec, .smc, .buf, .pwr, .mport, .mgmt], p ∈ ps) :
    (s.stopped d).mask ps = s.mask ps := by
  simp only [List.mem_cons, List.not_mem_nil, or_false, forall_eq_or_imp, forall_eq] at h
  unfold State.stopped
  split <;> simp [h]

/-! ### An idle return -/

theorem State.decideOne_idle (hst : (s.dom d).st = .on) (hwant : s.resting d ≠ .on) :
    s.decideOne false true d = s.tryStop d (s.resting d) := by
  simp [State.decideOne, hst, hwant]

theorem State.tryStop_free (hown : s.ownReason d (s.resting d) = 0#4) (hheld : s.held d = false) :
    s.tryStop d (s.resting d) = (s.startStop d (s.resting d), .done) := by
  simp [State.tryStop, hown, hheld]

theorem State.tryStop_refused (hown : s.ownReason d (s.resting d) ≠ 0#4) (hon : s.isOn d = true) :
    s.tryStop d (s.resting d) =
      (s.modDom d fun x => { x with st := .onRefused, reason := s.ownReason d (s.resting d) }, .refused) := by
  simp [State.tryStop, hown, hon]

theorem exec_idleReturn (hidle : s.idleDue d = true) (hlk : s.hasLk = true) (hd : d ≠ .mc) :
    exec (.idleReturn d) s = .next (State.arbitrate s
      (if (s.tryStop d (s.resting d)).2 = .done then (s.tryStop d (s.resting d)).1
       else (s.tryStop d (s.resting d)).1.noteRefusal d)) := by
  have hstate : (s.dom d).st = .on ∧ s.resting d ≠ .on := by
    simp only [State.idleDue, Bool.and_eq_true, beq_iff_eq, bne_iff_ne] at hidle
    exact ⟨hidle.1.1.1.1.1.1.2, hidle.1.1.1.1.2⟩
  simp only [exec, execIdleReturn, if_neg hd, State.decideOne_idle hstate.1 hstate.2, hidle, hlk]
  rfl

/-! ### A request that goes on -/

theorem State.decideOne_resumed (write : Bool) (hst : (s.dom d).st = .onRefused ∨ (s.dom d).st = .onHeld)
    (hdemand : (s.dom d).demand = false) (hwant : s.resting d ≠ .on) :
    s.decideOne write false d = s.tryStop d (s.resting d) := by
  rcases hst with hst | hst <;> simp [State.decideOne, hst, hwant, hdemand]

theorem State.resume_list (d : Dom) : ∃ rest, reqOrder.drop (reqPlace d) = d :: rest ∧ d ∉ rest := by
  cases d <;> exact ⟨_, rfl, by decide⟩

/-- Idle returns of other domains reach domain d by demands alone. -/
theorem State.foldl_decideOne_asks {l : List Dom} (hd : d ∉ l) (s : State) :
    (s.dom d).Asked ((l.foldl (fun t e => (t.decideOne false true e).1) s).dom d) ∧
      (l.foldl (fun t e => (t.decideOne false true e).1) s).pwr.req = s.pwr.req ∧
      s.Unreached (l.foldl (fun t e => (t.decideOne false true e).1) s) := by
  induction l generalizing s with
  | nil => exact ⟨.refl _, rfl, .refl s⟩
  | cons e l ih =>
    obtain ⟨hne, hl⟩ := not_or.mp (fun h => hd (List.mem_cons.mpr h))
    obtain ⟨⟨hreq, -, hothers⟩, hun⟩ := s.decideOne_facts false true e
    obtain ⟨ihdom, ihreq, ihun⟩ := ih hl (s.decideOne false true e).1
    exact ⟨(hothers d hne).trans ihdom, ihreq.trans hreq, hun.trans ihun⟩

/-- A request that goes on from domain d, which nothing refuses any longer, starts its stop (R433). -/
theorem State.dom_process_resumed (hst : (s.dom d).st = .onRefused ∨ (s.dom d).st = .onHeld) (hdemand : (s.dom d).demand = false)
    (hwant : s.resting d ≠ .on) (hown : s.ownReason d (s.resting d) = 0#4) (hheld : s.held d = false) :
    ((s.process false (reqPlace d)).dom d).st = .stopping ∧
      ((s.process false (reqPlace d)).dom d).target = s.resting d := by
  obtain ⟨rest, hdrop, hnot⟩ := State.resume_list d
  have hfirst : (s.decideOne false false d).1 = s.startStop d (s.resting d) := by
    rw [State.decideOne_resumed false hst hdemand hwant, State.tryStop_free hown hheld]
  have hasked := State.decideAll_but hnot false (s.startStop d (s.resting d))
  obtain ⟨hstop, htarget, -⟩ := s.dom_startStop d (s.resting d)
  rw [(s.process_facts false (reqPlace d)).1 d, hdrop, State.decideAll, hfirst]
  exact ⟨hasked.st.trans hstop, (hasked.2 (.inl (by rw [hstop]; decide))).1.trans htarget⟩

theorem State.resume_facts (hat : s.pwr.resumeAt = some (reqPlace d))
    (hst : (s.dom d).st = .onRefused ∨ (s.dom d).st = .onHeld) (hdemand : (s.dom d).demand = false)
    (hwant : s.resting d ≠ .on) (hown : s.ownReason d (s.resting d) = 0#4) (hheld : s.held d = false)
    (hnone : ∀ e, s.stillRefuses e = false) :
    (s.resume.dom d).st = .stopping ∧ (s.resume.dom d).target = s.resting d ∧ s.resume.pwr.req = s.pwr.req ∧
      s.resume.pending = s.pending := by
  have hfree : d ∉ reqOrder.filter s.idleFree := by simp [State.idleFree, hdemand]
  have hresume : s.resume = (reqOrder.filter s.idleFree).foldl (fun t e => (t.decideOne false true e).1)
      (s.process false (reqPlace d)) := by
    simp [State.resume, hat, hnone]
  obtain ⟨hstop, htarget⟩ := State.dom_process_resumed hst hdemand hwant hown hheld
  obtain ⟨hasked, hreq, hun⟩ := State.foldl_decideOne_asks hfree (s.process false (reqPlace d))
  obtain ⟨-, hreq', -, hun'⟩ := s.process_facts false (reqPlace d)
  rw [hresume]
  exact ⟨hasked.st.trans hstop, (hasked.2 (.inl (by rw [hstop]; decide))).1.trans htarget, hreq.trans hreq',
    (hun'.trans hun).2.2.2.2.2⟩

theorem exec_requestResume (hat : s.pwr.resumeAt = some (reqPlace d)) (hlk : s.hasLk = true) (hmc : (s.dom .mc).reason ≠ 3#4)
    (hnone : ∀ e, s.stillRefuses e = false) : exec .requestResume s = .next (State.arbitrate s s.resume) := by
  have hport : s.portDone = s := if_neg hmc
  have hany : reqOrder.any s.stillRefuses = false := List.any_eq_false.mpr fun e _ => by simp [hnone e]
  simp [exec, execRequestResume, hport, hat, hlk, hany]

end

/-- Settles O39: a stop that ends is State.stopped, where the request waits for its tick; an idle return or a resumption is
the decision for its domain, a stop that starts or the refusal with its reason. -/
theorem stopsComplete : Obligations.StopsComplete := by
  unfold Obligations.StopsComplete
  refine ⟨fun s d hst hlk hdue => ?stop, fun s d hidle hlk hd => ⟨fun hown hheld => ?idle, fun hown => ?refused⟩,
    fun s d hat hlk hmc hst hdemand hwant hown hheld hnone => ?resume⟩
  case stop =>
    refine ⟨_, exec_stopDone hst hlk hdue, fun htarget => ?_, fun htarget => ?_, ?_, ?_, ?_⟩
    · have hret : s.stopped d = s.modDom d fun x => { x with st := .retain } := if_pos htarget
      rw [hret]
      refine ⟨?_, by simp [Same]⟩
      rw [State.arbitrate_dom, (State.mapDemand_asks _).st d]
      simp
    · obtain ⟨hoff, hsb, hcs, hen, hmc⟩ := State.stopped_off (s := s) htarget
      obtain ⟨v, hv⟩ := (s.stopped d).mapDemand_pwr
      have hmask : (s.stopped d).mapDemand.mask [.pwr] = (s.stopped d).mask [.pwr] := by simp
      simp only [State.arbitrate_dom, State.arbitrate_buf, State.arbitrate_cap, State.arbitrate_smc, State.arbitrate_pwr,
        (State.mapDemand_asks _).st d, State.buf_of_mask hmask (by decide), State.cap_of_mask hmask (by decide),
        State.smc_of_mask hmask (by decide), hv]
      exact ⟨hoff, hsb, hcs, hen, hmc⟩
    all_goals
      have hmask : (s.stopped d).mapDemand.mask
          [.clk, .harrow, .therm, .aux, .recog, .cap, .spec, .smc, .buf, .pwr, .mport, .mgmt] = s.mask _ :=
        (State.mask_mapDemand (by decide) _).trans (State.mask_stopped (fun p hp => hp))
    · rw [State.arbitrate_arr, State.arr_of_mask hmask (by decide)]
    · rw [State.arbitrate_link, State.link_of_mask hmask (by decide)]
    · rw [State.arbitrate_pending, State.pending_of_mask hmask]
  case idle =>
    refine ⟨_, exec_idleReturn hidle hlk hd, ?_⟩
    rw [State.tryStop_free hown hheld, if_pos rfl]
    obtain ⟨hstop, htarget, hdemand⟩ := s.dom_startStop d (s.resting d)
    obtain ⟨-, hlink, -, -, -, hpending⟩ := s.startStop_unreached d (s.resting d)
    simp only [State.arbitrate_dom, State.arbitrate_pwr, State.arbitrate_link, State.arbitrate_pending]
    exact ⟨hstop, htarget, hdemand, (s.startStop_but d (s.resting d)).1, hlink, hpending⟩
  case refused =>
    have hon : s.isOn d = true := by
      simp only [State.idleDue, Bool.and_eq_true, beq_iff_eq] at hidle
      simp [State.isOn, DomState.isOn, hidle.1.1.1.1.1.1.2]
    refine ⟨_, exec_idleReturn hidle hlk hd, ?_⟩
    rw [State.tryStop_refused hown hon, if_neg (fun h : Verdict.refused = Verdict.done => by cases h)]
    refine ⟨?_, ?_, ?_, fun e he => ?_, by simp [Same]⟩
    · rw [State.arbitrate_dom, State.noteRefusal_dom]
      simp
    · rw [State.arbitrate_dom, State.noteRefusal_dom]
      simp
    · simp [State.noteRefusal]
    · rw [State.arbitrate_dom, State.noteRefusal_dom, State.dom_modDom_ne he]
  case resume =>
    refine ⟨_, exec_requestResume hat hlk hmc hnone, ?_⟩
    simp only [State.arbitrate_dom, State.arbitrate_pwr, State.arbitrate_pending]
    exact State.resume_facts hat hst hdemand hwant hown hheld hnone

end Sys2Proof.Machine
end

section
/-!
PROOFS. The end of a wake: a domain that reports ready or fails, and the stalled access that waits for it (R423, R428, R435,
    R436).
-/

namespace Sys2Proof.Machine

open Sys2Proof

section
variable {s t u : State} {d : Dom}

/-! ### Work that waits for a domain -/

/-- No restore, request or automatic spill of the core is in hand. -/
def State.NoWork (s : State) : Prop := s.mgmt.restore = [] ∧ s.mgmt.req = none ∧ s.mgmt.autoWait = none

theorem State.quietFlights_iff : s.quietFlights = true ↔
    s.host.stall = none ∧ s.link.wait = none ∧ s.link.posted = none ∧ s.NoWork := by
  simp [State.quietFlights, State.NoWork, and_assoc]

theorem State.restoreOn_of_nil (h : s.mgmt.restore = []) : s.restoreOn = s := by simp [State.restoreOn, h]

theorem State.stageOn_of_none (h : s.mgmt.req = none) : s.stageOn = s := by
  simp [State.stageOn, State.stageFrom, State.staging, State.inHand, h]

theorem State.spillEnds_of_none (h : s.mgmt.req = none) (ha : s.mgmt.autoWait = none) : s.spillEnds = s := by
  simp [State.spillEnds, State.spilling, State.inHand, h, ha]

theorem State.endWait_of_none (h : s.link.wait = none) : s.endWait = s := by simp [State.endWait, h]

theorem State.endStalled_of_none (h : s.host.stall = none) (d : Dom) : s.endStalled d = s := by simp [State.endStalled, h]

/-! ### A domain that has become On -/

theorem State.tsc_stall_of_mask {ps : List Part} (h : t.mask ps = s.mask ps) (hc : Part.clk ∉ ps) (hh : Part.host ∉ ps) :
    t.clk.tsc = s.clk.tsc ∧ t.host.stall = s.host.stall :=
  ⟨congrArg Clk.tsc (State.clk_of_mask h hc), congrArg HostIf.stall (State.host_of_mask h hh)⟩

/-- What follows when a domain has become On asks for domains, and leaves the counters, the link and a stalled access alone. -/
theorem State.arrives_facts (d : Dom) (fromRet : Bool) (s : State) :
    s.OnlyAsks (s.arrives d fromRet) ∧ (s.arrives d fromRet).clk.tsc = s.clk.tsc ∧ (s.arrives d fromRet).link = s.link ∧
      (s.arrives d fromRet).host.stall = s.host.stall ∧ (s.arrives d fromRet).pending = s.pending := by
  have hlink : (s.arrives d fromRet).link = s.link :=
    State.link_of_mask (ps := [.clk, .harrow, .arr, .aux, .recog, .cap, .spec, .smc, .buf, .pwr, .host, .mgmt]) (by simp)
      (by decide)
  have hpending : (s.arrives d fromRet).pending = s.pending :=
    State.pending_of_mask (ps := [.clk, .harrow, .arr, .aux, .recog, .cap, .spec, .smc, .buf, .pwr, .host, .mgmt]) (by simp)
  have hfront (e : Dom) : s.OnlyAsks ((s.frontReturns e).refresh.restartAll (domChannels e)) :=
    ((State.OnlyAsks.of_mask (State.mask_frontReturns_arr (ps := [.arr]) (by decide) e s) (by decide) (by decide)).trans
      (State.refresh_asks _)).trans (.of_mask (ps := [.harrow]) (by simp) (by decide) (by decide))
  suffices h : s.OnlyAsks (s.arrives d fromRet) ∧ (s.arrives d fromRet).clk.tsc = s.clk.tsc ∧
      (s.arrives d fromRet).host.stall = s.host.stall from ⟨h.1, h.2.1, hlink, h.2.2, hpending⟩
  cases d
  case en =>
    have hrecog : s.OnlyAsks (if fromRet then s.recogEnReturns.smReturns else s.recogEnReturns) :=
      .of_mask (ps := [.recog, .cap, .smc, .buf]) (by split <;> simp) (by decide) (by decide)
    have hclk : (if fromRet then s.recogEnReturns.smReturns else s.recogEnReturns).clk = s.clk :=
      State.clk_of_mask (ps := [.recog, .cap, .smc, .buf]) (by split <;> simp) (by decide)
    have hhost : (if fromRet then s.recogEnReturns.smReturns else s.recogEnReturns).host = s.host :=
      State.host_of_mask (ps := [.recog, .cap, .smc, .buf]) (by split <;> simp) (by decide)
    unfold State.arrives
    dsimp only
    generalize (if fromRet then s.recogEnReturns.smReturns else s.recogEnReturns) = v at hrecog hclk hhost ⊢
    generalize hw : (v.modClk fun c => { c with holdClk := c.holdClk || (c.plle != .locked && !c.coast) }) = w
    have hwv : v.OnlyAsks w := hw ▸ .of_eq rfl rfl
    have hbuf : w.OnlyAsks w.bufEnReturns := .of_mask (ps := [.buf]) (by simp) (by decide) (by decide)
    have hrest : w.bufEnReturns.refresh.OnlyAsks
        (((w.bufEnReturns.refresh.rearmCapture.catchUp .fast).catchUp .slow).catchUp .recog) :=
      .of_mask (ps := [.harrow, .cap]) (by simp) (by decide) (by decide)
    have hmask : (((w.bufEnReturns.refresh.rearmCapture.catchUp .fast).catchUp .slow).catchUp .recog).mask
        [.harrow, .cap, .buf, .pwr] = w.mask [.harrow, .cap, .buf, .pwr] := by simp
    refine ⟨((hrecog.trans hwv).trans (hbuf.trans (State.refresh_asks _))).trans hrest, ?_, ?_⟩
    · rw [State.clk_of_mask hmask (by decide), ← hw, State.modClk_clk, hclk]
    · rw [State.host_of_mask hmask (by decide), ← hw, State.modClk_host, hhost]
  case af =>
    have hmask : (s.arrives .af fromRet).mask [.harrow, .arr, .buf, .pwr, .mgmt] = s.mask [.harrow, .arr, .buf, .pwr, .mgmt] := by
      simp [State.arrives]
    exact ⟨hfront .af, State.tsc_stall_of_mask hmask (by decide) (by decide)⟩
  case gf =>
    have hmask : (s.arrives .gf fromRet).mask [.harrow, .arr, .buf, .pwr, .mgmt] = s.mask [.harrow, .arr, .buf, .pwr, .mgmt] := by
      simp [State.arrives]
    exact ⟨hfront .gf, State.tsc_stall_of_mask hmask (by decide) (by decide)⟩
  case xf =>
    have hmask : (s.arrives .xf fromRet).mask [.harrow, .aux, .buf, .pwr] = s.mask [.harrow, .aux, .buf, .pwr] := by
      simp [State.arrives]
    have haux : s.OnlyAsks s.auxReturns := .of_mask (ps := [.harrow, .aux]) (by simp) (by decide) (by decide)
    have hlast : s.auxReturns.refresh.OnlyAsks (s.arrives .xf fromRet) :=
      .of_mask (ps := [.harrow]) (by simp [State.arrives]) (by decide) (by decide)
    exact ⟨(haux.trans s.auxReturns.refresh_asks).trans hlast, State.tsc_stall_of_mask hmask (by decide) (by decide)⟩
  case sp =>
    have hmask : (s.arrives .sp fromRet).mask [.harrow, .buf, .pwr] = s.mask [.harrow, .buf, .pwr] := by simp [State.arrives]
    exact ⟨s.refresh_asks, State.tsc_stall_of_mask hmask (by decide) (by decide)⟩
  case mc => exact ⟨⟨rfl, rfl, fun _ => .refl _, rfl, rfl⟩, rfl, rfl⟩
  case cs => exact ⟨.of_eq rfl rfl, rfl, rfl⟩
  case sb => exact ⟨.refl s, rfl, rfl⟩
  case th => exact ⟨.refl s, rfl, rfl⟩

/-- The state in which a domain is On and its last effects have begun, before anything that waits goes on (R423). -/
def State.arrived (d : Dom) (s : State) : State :=
  State.settleFront d s ((s.modDom d fun x => { x with st := .on, touched := true }).arrives d (s.dom d).fromRet)

theorem State.arrived_facts (d : Dom) (s : State) :
    (s.modDom d fun x => { x with st := .on, touched := true }).OnlyAsks (s.arrived d) ∧
      (s.arrived d).clk.tsc = s.clk.tsc ∧ (s.arrived d).link = s.link ∧ (s.arrived d).host.stall = s.host.stall ∧
      (s.arrived d).pending = s.pending := by
  obtain ⟨hasks, htsc, hlink, hstall, hpending⟩ :=
    (s.modDom d fun x => { x with st := .on, touched := true }).arrives_facts d (s.dom d).fromRet
  have hmask := State.mask_settleFront (ps := [.arr, .mgmt]) (by decide) (by decide) d s
    ((s.modDom d fun x => { x with st := .on, touched := true }).arrives d (s.dom d).fromRet)
  refine ⟨hasks.trans (State.settleFront_asks ..), ?_, ?_, ?_, ?_⟩
  · exact (congrArg Clk.tsc (State.clk_of_mask hmask (by decide))).trans htsc
  · exact (State.link_of_mask hmask (by decide)).trans hlink
  · exact (congrArg HostIf.stall (State.host_of_mask hmask (by decide))).trans hstall
  · exact (State.pending_of_mask hmask).trans hpending

/-- A domain that is On and is meant to be On, or is On by demand, stays On when the request is taken up (R425). -/
theorem State.takeUp_stays (hst : (s.dom d).st = .on) (h : s.resting d = .on ∨ (s.dom d).demand = true) :
    s.takeUp d = s ∨ s.takeUp d = s.modDom d fun x => { x with st := .on, demand := false } := by
  unfold State.takeUp
  split
  · exact .inl rfl
  · by_cases hwant : s.resting d = .on
    · rw [State.decideOne_stay_on hst hwant, if_pos rfl]
      exact .inr rfl
    · have hdemand := h.resolve_left hwant
      have hdone : s.decideOne false false d = (s, .done) := by simp [State.decideOne, hst, hwant, hdemand]
      rw [hdone, if_pos rfl]
      exact .inl rfl

/-- The end of a wake that leads to On, with nothing that waits for it (R423). -/
theorem State.becomesOn_quiet (hq : s.quietFlights = true) (h : s.resting d = .on ∨ (s.dom d).demand = true) :
    ((s.becomesOn d).dom d).st = .on ∧ (s.becomesOn d).clk.tsc = s.clk.tsc ∧ (s.becomesOn d).link = s.link ∧
      (s.becomesOn d).pending = s.pending := by
  obtain ⟨hstall, hwait, -, hrestore, hreq, -⟩ := State.quietFlights_iff.mp hq
  obtain ⟨hasks, htsc, hlink, hstall', hpending⟩ := s.arrived_facts d
  have hst : ((s.arrived d).dom d).st = .on := (hasks.st d).trans (by simp)
  have hdemand : ((s.arrived d).dom d).demand = (s.dom d).demand := by
    rw [(hasks.target (.inl (by simp))).2]
    simp
  have htake := State.takeUp_stays hst (by rw [hasks.resting, hdemand]; exact h)
  have hup : ((s.arrived d).takeUp d).mgmt = (s.arrived d).mgmt ∧ (((s.arrived d).takeUp d).dom d).st = .on ∧
      ((s.arrived d).takeUp d).mask [.pwr] = (s.arrived d).mask [.pwr] := by
    rcases htake with htake | htake <;> rw [htake]
    · exact ⟨rfl, hst, rfl⟩
    · exact ⟨rfl, by simp, by simp⟩
  obtain ⟨hmgmt, hon, hmask⟩ := hup
  have hmask' : ((s.arrived d).takeUp d).mapDemand.mask [.pwr] = (s.arrived d).mask [.pwr] :=
    (State.mask_mapDemand (by decide) _).trans hmask
  have hmgmt' : ((s.arrived d).takeUp d).mapDemand.mgmt = (s.arrived d).mgmt := State.mgmt_of_mask hmask' (by decide)
  have hend : s.becomesOn d = ((s.arrived d).takeUp d).mapDemand.deliver := by
    change State.deliver (State.stageOn (State.restoreOn (State.mapDemand (State.takeUp d
      (State.endWait (State.endStalled d (s.arrived d))))))) = _
    rw [State.endStalled_of_none (hstall'.trans hstall), State.endWait_of_none (by rw [hlink, hwait]),
      State.restoreOn_of_nil (by rw [hmgmt', hasks.2.2.2.1]; exact hrestore),
      State.stageOn_of_none (by rw [hmgmt', hasks.2.2.2.2]; exact hreq)]
  have hmaskend : (s.becomesOn d).mask [.pwr, .mgmt] = (s.arrived d).mask [.pwr, .mgmt] := by
    rw [hend, State.mask_deliver (by decide), State.mask_mapDemand (by decide)]
    rcases htake with htake | htake <;> rw [htake]
    simp
  refine ⟨?_, ?_, ?_, ?_⟩
  · rw [hend, State.dom_congr (State.pwr_of_mask (State.mask_deliver (ps := [.mgmt]) (by decide) _) (by decide)),
      (State.mapDemand_asks _).st d]
    exact hon
  · rw [State.clk_of_mask hmaskend (by decide)]
    exact htsc
  · rw [State.link_of_mask hmaskend (by decide)]
    exact hlink
  · rw [State.pending_of_mask hmaskend]
    exact hpending

/-- A wake that leads to Retain, where that is the resting state, ends there (R423, R425). -/
theorem State.becomesRetained_eq (hwant : s.resting d = .retain) :
    s.becomesRetained d = (s.modDom d fun x => { x with st := .retain }).mapDemand := by
  have hwant' : (s.modDom d fun x => { x with st := .retain }).resting d = .retain := hwant
  have hdone : (s.modDom d fun x => { x with st := .retain }).decideOne false false d =
      (s.modDom d fun x => { x with st := .retain }, .done) := by
    simp [State.decideOne, hwant']
  have htake : (s.modDom d fun x => { x with st := .retain }).takeUp d = s.modDom d fun x => { x with st := .retain } := by
    unfold State.takeUp
    rw [hdone]
    split <;> rfl
  rw [State.becomesRetained, htake]

/-! ### A wake that fails -/

/-- Domain d is FAILED with its marks (R436), and no work of the core waits. -/
def State.HasFailed (d : Dom) (s : State) : Prop :=
  (s.dom d).st = .failed ∧ s.pwr.wakefail = true ∧ s.host.sticky.getLsbD 6 = true ∧ s.NoWork

theorem State.endStall_sticky (d : Dom) (s : State) : (s.endStall d).host.sticky = s.host.sticky := by
  unfold State.endStall
  split
  · split
    · rw [State.modHost_host]
      dsimp only
      split <;> rfl
    · rfl
  · rfl

/-- What domains other than MC and EN lose is outside the core and the clocks (R419). -/
theorem State.mask_loses_ne (hmc : d ≠ .mc) (hen : d ≠ .en) (s : State) :
    (s.loses d).mask [.harrow, .therm, .aux, .cap, .spec, .buf] = s.mask [.harrow, .therm, .aux, .cap, .spec, .buf] := by
  cases d
  case mc => exact absurd rfl hmc
  case en => exact absurd rfl hen
  all_goals simp [State.loses]

theorem State.loses_noWork (h : s.NoWork) (d : Dom) : (s.loses d).NoWork := by
  by_cases hmc : d = .mc
  · subst hmc
    exact ⟨rfl, rfl, rfl⟩
  · have hmgmt : (s.loses d).mgmt = s.mgmt := by
      by_cases hen : d = .en
      · subst hen
        exact State.mgmt_of_mask (ps := [.clk, .harrow, .recog, .cap, .smc]) (by simp [State.loses]) (by decide)
      · exact State.mgmt_of_mask (State.mask_loses_ne hmc hen s) (by decide)
    unfold State.NoWork
    rw [hmgmt]
    exact h

theorem State.log_noWork (h : s.NoWork) (cls code : BitVec 8) (d0 d1 d2 : Word) : (s.log cls code d0 d1 d2).NoWork := by
  unfold State.log
  split <;> exact h

/-- The state in which a domain that failed has lost what it loses, with its marks (R436). -/
def State.lost (d : Dom) (s : State) : State :=
  (((s.modDom d fun x => { x with st := .failed, target := .off, demand := false, demandDue := false }).loses d).modPwr fun p =>
    { p with wakefail := true }).stick 6

/-- The end of a stalled access of the domain leaves all but the bus as it was lost. -/
theorem State.mask_endStall_lost (d : Dom) (s : State) : ((s.lost d).endStall d).mask [.host] = (s.lost d).mask [.host] :=
  State.mask_endStall (by decide) d _

theorem State.dom_lost (d e : Dom) (s : State) : ((s.lost d).endStall d).dom e =
    (s.modDom d fun x => { x with st := .failed, target := .off, demand := false, demandDue := false }).dom e := by
  rw [State.dom_congr (State.pwr_of_mask (s.mask_endStall_lost d) (by decide))]
  exact State.dom_loses d e _

theorem State.lost_noWork (h : s.NoWork) (d : Dom) : ((s.lost d).endStall d).NoWork := by
  unfold State.NoWork
  rw [State.mgmt_of_mask (s.mask_endStall_lost d) (by decide)]
  exact State.loses_noWork
    (s := s.modDom d fun x => { x with st := .failed, target := .off, demand := false, demandDue := false }) h d

theorem State.failOne_eq (d : Dom) (s : State) : s.failOne d =
    ((s.lost d).endStall d).log 0x02#8 0x01#8 (BitVec.ofNat 32 (domIdx d).val) (fld (s.dom d).reason 0) s.dvfs := rfl

theorem State.dom_failOne (d e : Dom) (s : State) :
    ((s.failOne d).dom e).st = if e = d then .failed else (s.dom e).st := by
  rw [State.failOne_eq, State.log_dom, State.dom_lost, State.dom_modDom]
  split <;> rfl

theorem State.failOne_hasFailed (h : s.NoWork) (d : Dom) : (s.failOne d).HasFailed d := by
  refine ⟨by rw [State.dom_failOne, if_pos rfl], ?_, ?_, ?_⟩ <;> rw [State.failOne_eq]
  · rw [State.log_pwr, State.pwr_of_mask (s.mask_endStall_lost d) (by decide)]
    rfl
  · rw [State.log_host, State.endStall_sticky]
    simp [State.lost]
  · exact State.log_noWork (State.lost_noWork h d) ..

theorem State.HasFailed.failOne (h : s.HasFailed d) {e : Dom} (hne : d ≠ e) : (s.failOne e).HasFailed d := by
  obtain ⟨hst, -, -, hwork⟩ := h
  obtain ⟨-, hfail, hsticky, hwork'⟩ := State.failOne_hasFailed hwork e
  exact ⟨by rw [State.dom_failOne, if_neg hne]; exact hst, hfail, hsticky, hwork'⟩

theorem State.HasFailed.endCommand (h : s.HasFailed d) (r : BitVec 8) : (s.endCommand r).HasFailed d := by
  obtain ⟨hst, hfail, hsticky, hwork⟩ := h
  unfold State.endCommand
  dsimp only
  refine ⟨?_, ?_, ?_, ?_⟩
  · rw [State.log_dom]
    split <;> exact hst
  · rw [State.log_pwr]
    split <;> exact hfail
  · rw [State.log_host]
    split
    · exact hsticky
    · simp [hsticky]
  · refine State.log_noWork ?_ ..
    split <;> exact hwork

theorem State.hasFailed_ite {c : Prop} [Decidable c] (ht : t.HasFailed d) (hs : s.HasFailed d) :
    (if c then t else s).HasFailed d := by
  split
  · exact ht
  · exact hs

/-- A front-end domain whose wake waits for the map fails with MC (R135). -/
def State.failFront (waits : Bool) (e : Dom) (s : State) : State := if waits then s.failOne e else s

/-- A command in hand ends with MC (R494, R582). -/
def State.endBusy (s : State) : State := if s.mgmt.busy then s.endCommand 0x0B#8 else s

theorem State.fail_mc (s : State) : s.fail .mc = (((s.failOne .mc).failFront (s.waitsMap .af) .af).failFront
    (s.waitsMap .gf) .gf).endBusy := by
  unfold State.fail State.endBusy State.failFront
  rw [if_pos rfl]

theorem State.HasFailed.failFront (h : s.HasFailed d) {e : Dom} (he : d ≠ e) (w : Bool) : (s.failFront w e).HasFailed d :=
  State.hasFailed_ite (h.failOne he) h

theorem State.HasFailed.endBusy (h : s.HasFailed d) : s.endBusy.HasFailed d := State.hasFailed_ite (h.endCommand _) h

theorem State.fail_hasFailed (h : s.NoWork) (d : Dom) : (s.fail d).HasFailed d := by
  have hone := State.failOne_hasFailed h d
  by_cases hd : d = .mc
  · subst hd
    rw [State.fail_mc]
    exact ((hone.failFront (by decide) _).failFront (by decide) _).endBusy
  · rw [State.fail, if_neg hd]
    exact hone

/-- What a failed wake may change (R419, R436, R571). -/
def failParts : List Part := [.clk, .harrow, .therm, .aux, .recog, .cap, .spec, .smc, .buf, .pwr, .host, .mport, .mgmt]

theorem State.loses_tsc (d : Dom) (s : State) : (s.loses d).clk.tsc = s.clk.tsc := by
  by_cases hen : d = .en
  · subst hen
    unfold State.loses State.enOff
    dsimp only
    have h : ∀ u : State, u.refreshPaths.clk = u.clk := fun u => State.clk_of_mask (ps := [.harrow]) (by simp) (by decide)
    rw [h]
    rfl
  · by_cases hmc : d = .mc
    · subst hmc
      rfl
    · rw [State.clk_of_mask (State.mask_loses_ne hmc hen s) (by decide)]

theorem State.failOne_tsc (d : Dom) (s : State) : (s.failOne d).clk.tsc = s.clk.tsc := by
  rw [State.failOne_eq, State.log_clk, State.clk_of_mask (s.mask_endStall_lost d) (by decide)]
  exact State.loses_tsc d _

theorem State.fail_tsc (d : Dom) (s : State) : (s.fail d).clk.tsc = s.clk.tsc := by
  have hfront (w : Bool) (e : Dom) (u : State) : (u.failFront w e).clk.tsc = u.clk.tsc := by
    unfold State.failFront
    split
    · exact State.failOne_tsc e u
    · rfl
  have hend (u : State) : u.endBusy.clk.tsc = u.clk.tsc := by
    unfold State.endBusy
    split
    · rw [State.clk_of_mask (ps := [.host, .mgmt]) (State.mask_endCommand (by decide) (by decide) _ u) (by decide)]
    · rfl
  by_cases hd : d = .mc
  · subst hd
    rw [State.fail_mc, hend, hfront, hfront, State.failOne_tsc]
  · rw [State.fail, if_neg hd]
    exact State.failOne_tsc d s

theorem State.fail_front {e : Dom} (h : e = .gf) : (s.fail e).mask [.pwr, .host, .mgmt] = s.mask [.pwr, .host, .mgmt] := by
  subst h
  rw [State.fail, if_neg (by decide), State.failOne_eq, State.mask_log (by decide), State.mask_endStall (by decide)]
  simp [State.lost, State.loses]

theorem State.fail_therm {e : Dom} (h : e = .th) :
    (s.fail e).mask [.therm, .pwr, .host, .mgmt] = s.mask [.therm, .pwr, .host, .mgmt] := by
  subst h
  rw [State.fail, if_neg (by decide), State.failOne_eq, State.mask_log (by decide), State.mask_endStall (by decide)]
  simp [State.lost, State.loses]

theorem exec_wakeReady (hst : (s.dom d).st = .waking) (hrep : s.canReport d = true) (hlk : s.hasLk = true)
    (hover : s.wakeOver d = false) : exec (.wakeReady d) s = .next (State.arbitrate s
      (if (s.dom d).target = .retain then s.becomesRetained d else s.becomesOn d)) := by
  simp only [exec, execWakeReady, hst, hrep, hlk, hover]
  rfl

theorem exec_wakeTimeout (hst : (s.dom d).st = .waking) (hmap : s.waitsMap d = false) (hlk : s.hasLk = true)
    (hover : s.wakeOver d = true) (hq : s.quietFlights = true) :
    exec (.wakeTimeout d) s = .next (State.arbitrate s (s.fail d)) := by
  obtain ⟨-, hwait, -, hwork⟩ := State.quietFlights_iff.mp hq
  obtain ⟨-, -, -, hrestore, hreq, hauto⟩ := State.fail_hasFailed hwork d
  have hlink : (s.fail d).link = s.link := State.link_of_mask (ps := failParts) (by simp [failParts]) (by decide)
  simp only [exec, execWakeTimeout, hst, hmap, hlk, hover, State.restoreOn_of_nil hrestore, State.stageOn_of_none hreq,
    State.spillEnds_of_none hreq hauto, State.endWait_of_none (hlink ▸ hwait)]
  rfl

end

/-- Settles O37: a wake that reports ready ends in its goal (State.becomesOn_quiet, State.becomesRetained_eq), one that times
out ends FAILED (State.fail_hasFailed); with nothing that waits for it nothing else goes on. -/
theorem wakesComplete : Obligations.WakesComplete := by
  unfold Obligations.WakesComplete
  refine ⟨fun s d hst hrep hlk hover hq => ⟨fun htarget h => ?on, fun htarget hwant => ?retain⟩,
    fun s d hst hmap hlk hover hq => ?failed⟩
  case on =>
    refine ⟨_, exec_wakeReady hst hrep hlk hover, ?_⟩
    rw [if_neg (by rw [htarget]; decide)]
    simp only [State.arbitrate_dom, State.arbitrate_clk, State.arbitrate_link, State.arbitrate_pending]
    exact State.becomesOn_quiet hq h
  case retain =>
    refine ⟨_, exec_wakeReady hst hrep hlk hover, ?_⟩
    rw [if_pos htarget, State.becomesRetained_eq hwant]
    have hmask : ((s.modDom d fun x => { x with st := .retain }).mapDemand).mask [.pwr] = s.mask [.pwr] := by simp
    refine ⟨?_, ?_, ?_, ?_⟩
    · rw [State.arbitrate_dom, (State.mapDemand_asks _).st d]
      simp
    · rw [State.arbitrate_link, State.link_of_mask hmask (by decide)]
    · rw [State.arbitrate_clk, State.clk_of_mask hmask (by decide)]
    · rw [State.arbitrate_pending, State.pending_of_mask hmask]
  case failed =>
    refine ⟨_, exec_wakeTimeout hst hmap hlk hover hq, ?_⟩
    obtain ⟨hfailed, hfail, hsticky, -⟩ := State.fail_hasFailed (State.quietFlights_iff.mp hq).2.2.2 d
    have hmask : (s.fail d).mask failParts = s.mask failParts := by simp [failParts]
    simp only [State.arbitrate_dom, State.arbitrate_pwr, State.arbitrate_host, State.arbitrate_link, State.arbitrate_arr,
      State.arbitrate_clk]
    refine ⟨hfailed, hfail, hsticky, fun hd => ?_, fun hd => ?_, State.link_of_mask hmask (by decide),
      State.arr_of_mask hmask (by decide), State.fail_tsc d s⟩
    · exact (State.mask_arbitrate (by decide) s _).trans (State.mask_mono (State.fail_front hd) (by decide))
    · exact (State.mask_arbitrate (by decide) s _).trans (State.mask_mono (State.fail_therm hd) (by decide))

end Sys2Proof.Machine
end

section
/-!
PROOFS. Stalled accesses: one that completes with the wake of SB, and one whose STALL limit has passed (R428, R462).
-/

namespace Sys2Proof.Machine

open Sys2Proof

section
variable {s : State}

/-! ### SB On -/

/-- A stop of SB moves the domain alone (R426). -/
theorem State.startStop_sb (goal : Rest) (s : State) :
    s.startStop .sb goal = s.modDom .sb fun x => { x with st := .stopping, target := goal, demand := false, reason := 0#4 } := by
  unfold State.startStop
  dsimp only
  cases s.isOn .sb <;> rfl

/-- What a decision for SB, while it is On, does to the state beside the domain: nothing (R422, R430). -/
theorem State.decideOne_sb (h : (s.dom .sb).st = .on) : ∃ f, (s.decideOne false false .sb).1 = s.modDom .sb f := by
  by_cases hwant : s.resting .sb = .on
  · exact ⟨_, by rw [State.decideOne_stay_on h hwant]⟩
  · by_cases hdemand : (s.dom .sb).demand = true
    · refine ⟨id, ?_⟩
      have hself : s.modDom .sb id = s := by simp [State.modDom, State.modPwr]
      rw [hself]
      simp [State.decideOne, h, hwant, hdemand]
    · have hstop : s.decideOne false false .sb = s.tryStop .sb (s.resting .sb) := by
        simp [State.decideOne, h, hwant, hdemand]
      rw [hstop]
      unfold State.tryStop
      dsimp only
      split
      · dsimp only
        exact ⟨_, rfl⟩
      · split
        · dsimp only
          exact ⟨_, rfl⟩
        · exact ⟨_, State.startStop_sb ..⟩

/-- The request taken up for SB, while it is On, moves the domain and may log its refusal (R425, R433). -/
theorem State.takeUp_sb (h : (s.dom .sb).st = .on) :
    (s.takeUp .sb).mask [.pwr, .mgmt] = s.mask [.pwr, .mgmt] ∧ (s.takeUp .sb).mgmt.restore = s.mgmt.restore := by
  obtain ⟨f, hf⟩ := State.decideOne_sb h
  have hnote (u : State) : (u.noteRefusal .sb).mgmt.restore = u.mgmt.restore :=
    (State.log_asks (u.modPwr fun p => { p with refused := true }) _ _ _ _ _).2.2.2.1
  unfold State.takeUp
  dsimp only
  rw [hf]
  split
  · exact ⟨rfl, rfl⟩
  · split
    · exact ⟨by simp, rfl⟩
    · split
      · exact ⟨by simp, rfl⟩
      · exact ⟨by simp, by rw [hnote]; rfl⟩

/-- The row of R462 for a stalled read of BUF_DATA once SB is On and the buffer has its clock. -/
theorem State.resolveStalled_bufData (hclk : s.clken 6 = true) (hon : s.isOn .sb = true) {w : BufWord} {ws : List BufWord}
    (hw : s.buf.words = w :: ws) : s.resolveStalled 27 = .executed := by
  have hflight : s.inFlight (s.gatesOf 27) = true := by simp [State.inFlight, State.gatesOf, winData, regGate, hclk]
  have hlevel : s.level ≠ 0 := by simp [State.level, hw]
  have hdom : s.regDom 27 = some .sb := rfl
  unfold State.resolveStalled
  rw [if_pos hflight]
  simp [State.resolveOpen, winData, hlevel, hdom, hon]

/-- A stalled read of BUF_DATA that completes pops the oldest word (R376, R428). -/
theorem State.endStalled_bufData {a : Stall} (hstall : s.host.stall = some a) (hdom : a.dom = .sb) (hread : a.write = false)
    (hindex : a.index = 27) (hclk : s.clken 6 = true) (hon : s.isOn .sb = true) {w : BufWord} {ws : List BufWord}
    (hw : s.buf.words = w :: ws) :
    s.endStalled .sb = (State.finishRead ((s.dropStall.touch .sb).popWord)).endFlight (s.gatesOf 27) := by
  have hres : s.dropStall.resolveStalled a.index.val = .executed := by
    rw [hindex]
    exact State.resolveStalled_bufData (s := s.dropStall) hclk hon hw
  unfold State.endStalled
  rw [hstall]
  dsimp only
  rw [if_neg (not_not.mpr hdom), hread, hres, hindex]
  rfl

/-- What follows a completed read leaves the buffer, the bus and the core's restore alone. -/
theorem State.afterRead_facts (hst : (s.dom .sb).st = .on) (hwait : s.link.wait = none) (hrestore : s.mgmt.restore = []) :
    ((s.endWait.takeUp .sb).mapDemand.restoreOn.stageOn.deliver).mask [.clk, .pwr, .mgmt] = s.mask [.clk, .pwr, .mgmt] := by
  obtain ⟨hmask, hkept⟩ := State.takeUp_sb hst
  have hmgmt : (s.takeUp .sb).mapDemand.mgmt.restore = [] := by
    rw [State.mgmt_of_mask (State.mask_mapDemand (ps := [.pwr]) (by decide) _) (by decide), hkept, hrestore]
  rw [State.endWait_of_none hwait, State.restoreOn_of_nil hmgmt, State.mask_deliver (by decide), State.stageOn,
    State.mask_stageFrom (by decide) (by decide) (by decide), State.mask_mapDemand (by decide)]
  exact State.mask_mono hmask (by decide)

/-- A stalled access whose STALL limit has passed ends on the bus alone, but for WIN_DATA (R428). -/
theorem State.endStall_host {a : Stall} (h : s.host.stall = some a) (hi : a.index ≠ 57) :
    s.endStall a.dom = s.modHost fun h =>
      { h with
        stall := none, rdata := if a.write then h.rdata else 0#32, done := true,
        valid := !a.write && Config.strobeHeld s.clk.tsc } := by
  have hval : a.index.val ≠ winData := fun h => hi (Fin.ext h)
  simp only [State.endStall, h, if_true, if_neg hval]

end

/-- Settles O38: the wake of SB completes the read (State.endStalled_bufData), after which nothing touches the buffer or the bus
(State.afterRead_facts); the STALL limit ends an access by State.endStall. -/
theorem stallsEnd : Obligations.StallsEnd := by
  unfold Obligations.StallsEnd
  refine ⟨fun s hst htarget hlk hover hrestore hwait hclk a hstall hdom hread hindex w ws hw => ?ready,
    fun s a hstall hlk hover hi => ?cut⟩
  case ready =>
    refine ⟨_, exec_wakeReady (d := .sb) hst rfl hlk hover, ?_⟩
    rw [if_neg (by rw [htarget]; decide)]
    have hon : (s.modDom .sb fun x => { x with st := .on, touched := true }).isOn .sb = true := by
      simp [State.isOn, DomState.isOn]
    have hend := State.endStalled_bufData (s := s.modDom .sb fun x => { x with st := .on, touched := true }) hstall hdom hread
      hindex hclk hon hw
    have hpop : ((s.modDom .sb fun x => { x with st := .on, touched := true }).dropStall.touch .sb).popWord =
        (w.data, ((s.modDom .sb fun x => { x with st := .on, touched := true }).dropStall.touch .sb).modBuf fun b =>
          { b with words := ws, rp := b.rp + 1#22, last := w }) := State.popWord_cons hw
    rw [hpop] at hend
    have hst' : (((s.modDom .sb fun x => { x with st := .on, touched := true }).endStalled .sb).dom .sb).st = .on := by
      rw [hend]
      change (((s.modDom .sb fun x => { x with st := .on, touched := true }).touch .sb).dom .sb).st = .on
      simp [State.touch]
    have hrest := State.afterRead_facts hst' (by rw [hend]; exact hwait) (by rw [hend]; exact hrestore)
    have hbecomes : s.becomesOn .sb =
        ((((s.modDom .sb fun x => { x with st := .on, touched := true }).endStalled .sb).endWait.takeUp
          .sb).mapDemand.restoreOn.stageOn.deliver) := rfl
    simp only [State.arbitrate_host, State.arbitrate_buf]
    rw [hbecomes, State.host_of_mask hrest (by decide), State.buf_of_mask hrest (by decide), hend]
    exact ⟨rfl, rfl, rfl, rfl, rfl⟩
  case cut =>
    have hexec : exec .stallCut s = Machine.event (s.hasLk && s.stallOver a) s
        ((s.endStall a.dom).modDom a.dom fun x => { x with stallCut := true }) := by
      simp only [exec, execStallCut, hstall]
    refine .event hexec (by rw [hlk, hover]; rfl) ?_
    rw [State.endStall_host hstall hi]
    refine ⟨by simp, ?_, ?_, fun e he => ?_, by simp [Same]⟩
    · simp
    · rw [State.arbitrate_dom, State.dom_modDom_self]
      rfl
    · rw [State.arbitrate_dom, State.dom_modDom_ne he]
      rfl

end Sys2Proof.Machine
end

section
/-!
PROOFS. Operating points, supply dips and a loss of power (R439 to R449, R452, R587).
-/

namespace Sys2Proof.Machine

open Sys2Proof

section
variable {s : State}

/-! ### A write of DVFS -/

theorem State.writeDvfs_fld (v : BitVec 2) (s : State) :
    s.writeDvfs (fld v 0) = (s.modPwr fun p => { p with opReq := v }).startChange := by
  have hbit : bitAt (fld v 0) 10 = false := by simp [bitAt_fld]
  have hself : (bits (fld v 0) 0 2 : BitVec 2) = v := bits_fld_self v (by omega)
  simp [State.writeDvfs, State.modPwr, w1c, hbit, hself]

theorem State.hostWrite_dvfs (h : s.Reaches 11) (v : BitVec 2) :
    s.hostWrite 11 (fld v 0) = (s.modPwr fun p => { p with opReq := v }).startChange.finishWrite := by
  rw [← State.writeDvfs_fld]
  exact State.hostWrite_plain (i := 11) h rfl _

theorem State.startChange_raise (hph : s.pwr.phase = .idle) (hc : s.clk.coast = false) (h : s.pwr.opCur.toNat < s.pwr.opReq.toNat) :
    s.startChange =
      ((s.modPwr fun p => { p with busy := true, fail := false, phase := .settling, goal := p.opReq }).driveVid
        s.pwr.opReq).stampPhase := by
  have hne : s.pwr.opReq ≠ s.pwr.opCur := fun he => by rw [he] at h; exact Nat.lt_irrefl _ h
  simp [State.startChange, hph, hc, hne, h]

theorem State.startChange_lower (hph : s.pwr.phase = .idle) (hc : s.clk.coast = false) (h : s.pwr.opReq.toNat < s.pwr.opCur.toNat) :
    s.startChange = (s.modPwr fun p => { p with busy := true, phase := .lowering, goal := p.opReq }).relockPllE := by
  have hne : s.pwr.opReq ≠ s.pwr.opCur := fun he => by rw [he] at h; exact Nat.lt_irrefl _ h
  simp [State.startChange, hph, hc, hne, Nat.not_lt.mpr h.le]

theorem State.relockPllE_facts (s : State) :
    s.relockPllE.pwr = s.pwr ∧ (s.isOn .en = true → s.relockPllE.clk.holdClk = true) ∧ s.relockPllE.clk.tsc = s.clk.tsc := by
  unfold State.relockPllE
  split
  · exact ⟨rfl, fun _ => rfl, rfl⟩
  · next h => exact ⟨rfl, fun hon => absurd hon h, rfl⟩

/-! ### The end of a change -/

/-- A change whose goal OP_REQ still names ends with no other (R445). -/
theorem State.endChange_last (h : s.pwr.opReq = s.pwr.goal) :
    s.endChange = s.modPwr fun p => { p with busy := false, doneEvt := true, phase := .idle } := by
  simp [State.endChange, h]

/-- The goal of a change in force (R442, R444). -/
theorem State.reachGoal_last (hc : s.clk.coast = false) (h : s.pwr.opReq = s.pwr.goal) :
    s.reachGoal.pwr = { s.pwr with
      opCur := s.pwr.goal, vidPt := s.pwr.goal, vid := vidOf s.pwr.goal s.pwr.margin, busy := false, doneEvt := true,
      phase := .idle } ∧
    s.reachGoal.clk = { s.clk with holdClk := s.clk.holdClk && s.clk.plle != .locked } := by
  have hlast : (((s.modPwr fun p => { p with opCur := p.goal }).driveVid s.pwr.goal).leaveHold).pwr.opReq =
      (((s.modPwr fun p => { p with opCur := p.goal }).driveVid s.pwr.goal).leaveHold).pwr.goal := h
  unfold State.reachGoal
  dsimp only
  rw [State.endChange_last hlast]
  simp [State.leaveHold, State.driveVid, hc]

theorem exec_dvfsSettled (hph : s.pwr.awaitsSupply = true) (hlk : s.hasLk = true) (hc : s.clk.coast = false)
    (hover : s.settleOver = true) : exec .dvfsSettled s = .next (State.arbitrate s
      (if s.isOn .en then (s.modPwr fun p => { p with phase := .relocking }).relockPllE else s.reachGoal)) := by
  simp only [exec, execDvfsSettled, hph, hlk, hc, hover]
  rfl

/-- The state of a change that has failed, before its log record (R443). -/
def State.dvfsFailed (s : State) : State :=
  (((s.driveVid s.pwr.opCur).stick 8).modPwr fun p => { p with fail := true }).endChange

theorem exec_dvfsFail (hph : s.pwr.phase = .settling) (hlk : s.hasLk = true) (hc : s.clk.coast = false)
    (hlate : s.settleLate = true) :
    exec .dvfsFail s = .next (State.arbitrate s (s.dvfsFailed.log 0x02#8 0x04#8 0#32 0#32 s.dvfsFailed.dvfs)) := by
  have haw : s.pwr.awaitsSupply = true := by simp [Pwr.awaitsSupply, hph]
  have hne : s.pwr.phase ≠ .restoring := by rw [hph]; decide
  simp only [exec, execDvfsFail, if_neg hne, haw, hlk, hc, hlate]
  rfl

theorem State.dvfsFailed_last (hc : s.clk.coast = false) (h : s.pwr.opReq = s.pwr.goal) :
    s.dvfsFailed = ((s.modPwr fun p =>
      { p with
        vidPt := s.pwr.opCur, vid := vidOf s.pwr.opCur p.margin, fail := true, busy := false, doneEvt := true,
        phase := .idle }).stick 8) := by
  have hlast : (((s.driveVid s.pwr.opCur).stick 8).modPwr fun p => { p with fail := true }).pwr.opReq =
      (((s.driveVid s.pwr.opCur).stick 8).modPwr fun p => { p with fail := true }).pwr.goal := h
  rw [State.dvfsFailed, State.endChange_last hlast]
  simp [State.driveVid, State.stick, State.modPwr, State.modHost, hc]

theorem State.mask_dvfsFailed (hc : s.clk.coast = false) (h : s.pwr.opReq = s.pwr.goal) :
    s.dvfsFailed.mask [.pwr, .host] = s.mask [.pwr, .host] := by
  rw [State.dvfsFailed_last hc h]
  simp

/-- The record of a change that has failed (R443, R571). -/
theorem State.dvfsFailed_logged (hc : s.clk.coast = false) (h : s.pwr.opReq = s.pwr.goal) (hq : s.mgmt.logQ.length < 16) :
    s.Logged (State.arbitrate s (s.dvfsFailed.log 0x02#8 0x04#8 0#32 0#32 s.dvfsFailed.dvfs)) 0x02#8 0x04#8 0#32 0#32
      (State.arbitrate s (s.dvfsFailed.log 0x02#8 0x04#8 0#32 0#32 s.dvfsFailed.dvfs)).dvfs := by
  have hdvfs : (State.arbitrate s (s.dvfsFailed.log 0x02#8 0x04#8 0#32 0#32 s.dvfsFailed.dvfs)).dvfs = s.dvfsFailed.dvfs := by
    simp [State.dvfs]
  have hmgmt := State.mgmt_of_mask (State.mask_dvfsFailed hc h) (by decide)
  have hclk := State.clk_of_mask (State.mask_dvfsFailed hc h) (by decide)
  rw [hdvfs]
  exact State.logged_log (by rw [hmgmt]; exact hq) (by rw [hmgmt]) (by rw [hclk]) (by rw [hclk]) s

theorem exec_dvfsDone (hph : s.pwr.phase = .relocking ∨ s.pwr.phase = .lowering) (hlk : s.hasLk = true)
    (hc : s.clk.coast = false) (hlock : s.clk.plle = .locked) : exec .dvfsDone s = .next (State.arbitrate s s.reachGoal) := by
  have hphase : (s.pwr.phase == .relocking || s.pwr.phase == .lowering) = true := by rcases hph with h | h <;> rw [h] <;> rfl
  simp only [exec, execDvfsDone, hphase, hlk, hc, hlock]
  rfl

end

/-- Settles O40: a write of DVFS starts the change (State.startChange_raise, State.startChange_lower), and each later event is the
one branch that the phase and EN choose, with the end of State.reachGoal_last. -/
theorem operatingPointsComplete : Obligations.OperatingPointsComplete := by
  unfold Obligations.OperatingPointsComplete
  refine ⟨fun s v h hph hc => ⟨fun hlt => ?raise, fun hlt => ?lower⟩,
    fun s hph hlk hc => ⟨fun hover hen => ?settled, fun hover hen hgoal => ?direct, fun hlate hgoal hq => ?fail⟩,
    fun s hph hlk hc hlock hgoal => ?done⟩
  case raise =>
    refine .answer (congrArg (answer s) (State.hostWrite_dvfs h v)) ?_
    have hchange := State.startChange_raise (s := s.modPwr fun p => { p with opReq := v }) hph hc hlt
    rw [hchange]
    simp [State.driveVid, State.stampPhase, hc, Same]
  case lower =>
    refine .answer (congrArg (answer s) (State.hostWrite_dvfs h v)) ?_
    have hchange := State.startChange_lower (s := s.modPwr fun p => { p with opReq := v }) hph hc hlt
    obtain ⟨hpwr, hhold, htsc⟩ := ((s.modPwr fun p => { p with opReq := v }).modPwr fun p =>
      { p with busy := true, phase := .lowering, goal := p.opReq }).relockPllE_facts
    rw [hchange]
    simp only [State.arbitrate_pwr, State.arbitrate_clk, State.finishWrite_pwr, State.finishWrite_clk]
    refine ⟨hpwr, hhold, htsc, by simp [Same]⟩
  case settled =>
    refine ⟨_, exec_dvfsSettled (by simp [Pwr.awaitsSupply, hph]) hlk hc hover, ?_⟩
    obtain ⟨hpwr, hhold, -⟩ := (s.modPwr fun p => { p with phase := .relocking }).relockPllE_facts
    rw [if_pos hen]
    simp only [State.arbitrate_pwr, State.arbitrate_clk]
    exact ⟨hpwr, hhold hen, by simp [Same]⟩
  case direct =>
    refine ⟨_, exec_dvfsSettled (by simp [Pwr.awaitsSupply, hph]) hlk hc hover, ?_⟩
    obtain ⟨hpwr, -⟩ := State.reachGoal_last hc hgoal
    rw [if_neg (by rw [hen]; decide)]
    simp only [State.arbitrate_pwr, hpwr]
    exact ⟨trivial, trivial, trivial, trivial, by simp [Same]⟩
  case fail =>
    refine ⟨_, exec_dvfsFail hph hlk hc hlate, ?_⟩
    have hlast := State.dvfsFailed_last hc hgoal
    have hpwr : s.dvfsFailed.pwr = _ := congrArg State.pwr hlast
    have hhost : s.dvfsFailed.host = _ := congrArg State.host hlast
    simp only [State.arbitrate_pwr, State.arbitrate_host, State.log_pwr, State.log_host, hpwr, hhost]
    have hmask := State.mask_mono (qs := [.pwr, .host, .mgmt, .int]) (State.mask_dvfsFailed hc hgoal) (by decide)
    refine ⟨rfl, rfl, rfl, rfl, rfl, rfl, ?_, State.dvfsFailed_logged hc hgoal hq, by simp [Same, hmask]⟩
    simp
  case done =>
    refine ⟨_, exec_dvfsDone hph hlk hc hlock, ?_⟩
    obtain ⟨hpwr, hclk⟩ := State.reachGoal_last hc hgoal
    simp only [State.arbitrate_pwr, State.arbitrate_clk, hpwr, hclk, hlock]
    exact ⟨trivial, by simp, by simp [Same]⟩

end Sys2Proof.Machine
end

section
/-!
PROOFS. Supply dips and a loss of power (R447 to R449, R452, R587).
-/

namespace Sys2Proof.Machine

open Sys2Proof

section
variable {s : State}

/-- The state of a dip that begins (R448). -/
def State.dipped (r : Rails) (s : State) : State :=
  ((s.modPwr fun p =>
    { p with
      opCur := 0#2
      busy := true
      phase := .dip
      dipRails := railBits r
      brownEvt := true
      railsLow := p.railsLow ||| railBits r
      vanaDips := if (railBits r).getLsbD 1 && !p.railsLow.getLsbD 1 then (s.clk.tsc, none) :: p.vanaDips else p.vanaDips
      lowTicks := 0#12 }).stick 3).modClk fun c => { c with holdClk := c.holdClk || s.isOn .en }

theorem exec_brownWarn (h : s.pwr.phase ≠ .dip) (r : Rails) : exec (.brownWarn r) s = Machine.answer s (s.dipped r) := by
  have hbeq : (s.pwr.phase == .dip) = false := beq_false_of_ne h
  simp only [exec, execBrownWarn, hbeq, State.dipped]
  simp

/-- The state of a dip that is over, before OP_REQ is restored (R448, R449, R452). -/
def State.dipOver (depth : BitVec 2) (duration : BitVec 12) (s : State) : State :=
  (s.modPwr fun p =>
    { p with
      rail := p.dipRails
      depth := depth
      duration := duration
      dips := satInc p.dips
      goal := p.opReq
      lowTicks := 0#12 }).modMgmt fun m => { m with pfail := false }

/-- The state of a dip that is over, with its log record. -/
def State.dipLogged (depth : BitVec 2) (duration : BitVec 12) (s : State) : State :=
  (s.dipOver depth duration).log 0x02#8 0x03#8 0#32 (s.dipOver depth duration).pwr.brown (s.dipOver depth duration).dvfs

/-- The restore of an operating point after a dip begins (R448). -/
def State.restoreStarts (op : BitVec 2) (s : State) : State :=
  ((s.modPwr fun p => { p with phase := .restoring }).driveVid op).stampPhase

theorem State.restoreStarts_pwr (op : BitVec 2) (s : State) : (s.restoreStarts op).pwr =
    { s.pwr with
      phase := .restoring, vidPt := op, vid := if s.clk.coast then s.pwr.vid else vidOf op s.pwr.margin,
      phaseAt := s.clk.tsc } := rfl

theorem State.restoreStarts_mgmt (op : BitVec 2) (s : State) : (s.restoreStarts op).mgmt = s.mgmt := rfl

theorem exec_brownRestore (hph : s.pwr.phase = .dip) (hlk : s.hasLk = true) (hst : s.railsStable = true)
    {dur : BitVec 12} (hdur : dur = s.pwr.lowTicks) (depth : BitVec 2) :
    exec (.brownRestore depth dur) s = .next (State.arbitrate s
      (if s.pwr.opReq = 0#2 then (s.dipLogged depth dur).reachGoal
       else (s.dipLogged depth dur).restoreStarts s.pwr.opReq)) := by
  subst hdur
  simp only [exec, execBrownRestore, hph, hlk, hst, State.dipLogged, State.dipOver, State.restoreStarts]
  simp

/-- The record of a dip, whatever the restore does to the power and the clock part (R449, R571). -/
theorem State.logged_dip (hq : s.mgmt.logQ.length < 16) {depth : BitVec 2} {dur : BitVec 12} {t : State}
    (hm : t.mgmt = (s.dipLogged depth dur).mgmt) :
    s.Logged t 0x02#8 0x03#8 0#32 (s.dipOver depth dur).pwr.brown (s.dipOver depth dur).dvfs := by
  have hlog := State.log_logQ (s := s.dipOver depth dur) hq 0x02#8 0x03#8 0#32 (s.dipOver depth dur).pwr.brown
    (s.dipOver depth dur).dvfs
  unfold State.Logged
  rw [hm]
  exact hlog

theorem State.dipLogged_pwr (depth : BitVec 2) (dur : BitVec 12) (s : State) :
    (s.dipLogged depth dur).pwr = (s.dipOver depth dur).pwr := State.log_pwr ..

theorem State.dipLogged_pfail (depth : BitVec 2) (dur : BitVec 12) (s : State) :
    (s.dipLogged depth dur).mgmt.pfail = false := by
  unfold State.dipLogged State.log
  split <;> rfl

/-- What the end of a dip leaves where OP0 is what OP_REQ asks for (R442, R448). -/
theorem State.reachGoal_pwr (h : s.pwr.opReq = s.pwr.goal) :
    s.reachGoal.pwr = { s.pwr with
      opCur := s.pwr.goal, vidPt := s.pwr.goal, vid := (s.driveVid s.pwr.goal).pwr.vid, busy := false, doneEvt := true,
      phase := .idle } := by
  have hlast : (((s.modPwr fun p => { p with opCur := p.goal }).driveVid s.pwr.goal).leaveHold).pwr.opReq =
      (((s.modPwr fun p => { p with opCur := p.goal }).driveVid s.pwr.goal).leaveHold).pwr.goal := h
  unfold State.reachGoal
  dsimp only
  rw [State.endChange_last hlast]
  rfl

theorem exec_powerFail (h : s.isOn .mc = true) (held : Bool) : exec (.powerFail held) s =
    Machine.answer s ((s.modMgmt fun m => { m with pfail := true }).modMgmt fun m => m.holdUp held) := by
  simp only [exec, execPowerFail, h, if_true]

end

/-- Settles O41: a warning is State.dipped, the restore State.dipOver with its record, then the end or the restore of
OP_REQ; a loss of power keeps the log queue where the supply is held (Mgmt.holdUp). -/
theorem supplyEventsComplete : Obligations.SupplyEventsComplete := by
  unfold Obligations.SupplyEventsComplete
  refine ⟨fun s r hph => ?warn, fun s depth dur hph hlk hst hdur hq => ⟨fun hop => ?atRest, fun hop => ?restore⟩,
    fun s hon hne => ⟨?held, ?lost⟩⟩
  case warn =>
    refine .answer (exec_brownWarn hph r) ?_
    simp only [State.arbitrate_pwr, State.arbitrate_host, State.arbitrate_clk]
    refine ⟨rfl, ?_, fun hen => ?_, rfl, by simp [State.dipped, Same]⟩
    · simp [State.dipped]
    · simp [State.dipped, hen]
  case atRest =>
    refine ⟨_, exec_brownRestore hph hlk hst hdur depth, ?_⟩
    rw [if_pos hop]
    have hpwr := State.reachGoal_pwr (s := s.dipLogged depth dur) (by rw [State.dipLogged_pwr]; rfl)
    rw [State.dipLogged_pwr] at hpwr
    have hmgmt : (s.dipLogged depth dur).reachGoal.mgmt = (s.dipLogged depth dur).mgmt :=
      State.mgmt_of_mask (ps := [.clk, .pwr]) (by simp) (by decide)
    have hbrown : (s.dipLogged depth dur).reachGoal.pwr.brown = (s.dipOver depth dur).pwr.brown := by
      rw [hpwr]
      rfl
    simp only [State.arbitrate_pwr, State.arbitrate_mgmt, hmgmt, State.dipLogged_pfail, hbrown]
    refine ⟨by rw [hpwr]; rfl, by rw [hpwr]; rfl, by rw [hpwr]; rfl, by rw [hpwr]; rfl, by rw [hpwr]; exact hop,
      by rw [hpwr], by rw [hpwr], trivial, ⟨_, State.logged_dip hq (by simp [hmgmt])⟩, ?_⟩
    simp [Same, State.dipLogged, State.dipOver]
  case restore =>
    refine ⟨_, exec_brownRestore hph hlk hst hdur depth, ?_⟩
    rw [if_neg hop]
    simp only [State.arbitrate_pwr, State.arbitrate_mgmt, State.restoreStarts_mgmt, State.restoreStarts_pwr,
      State.dipLogged_pwr]
    refine ⟨rfl, rfl, rfl, rfl, rfl, trivial, trivial, State.dipLogged_pfail depth dur s, ⟨_, State.logged_dip hq ?_⟩, ?_⟩
    · exact (State.arbitrate_mgmt ..).trans (State.restoreStarts_mgmt ..)
    · simp [Same, State.restoreStarts, State.dipLogged, State.dipOver]
  case held =>
    refine .answer (exec_powerFail hon true) ?_
    simp [Mgmt.holdUp, hne, Same]
  case lost =>
    refine .answer (exec_powerFail hon false) ?_
    simp [Mgmt.holdUp, hne, Same]

end Sys2Proof.Machine
end

section
/-!
PROOFS. Accesses through the window (R469 to R473).
-/

namespace Sys2Proof.Machine

open Sys2Proof

section
variable {s : State} {a : Nat}

/-! ### An access that touches a domain reads the same word -/

@[simp] theorem State.isOn_touch (d e : Dom) (s : State) : (s.touch d).isOn e = s.isOn e := by
  simp only [State.isOn, State.touch, State.dom_modDom]
  split
  · next h => rw [h]
  · rfl

theorem State.convRuns_touch (d : Dom) (c : Fin 4) (s : State) : (s.touch d).convRuns c = s.convRuns c := by
  have hfree : (s.touch d).convFree = s.convFree := by
    unfold State.convFree
    rw [State.isOn_touch]
    rfl
  have hscans : (s.touch d).convScans c = s.convScans c := by
    unfold State.convScans
    rw [hfree]
    rfl
  unfold State.convRuns
  rw [hscans]
  rfl

theorem State.convStat_touch (d : Dom) (c : Fin 4) (s : State) : (s.touch d).convStat c = s.convStat c := by
  have hphase : (s.touch d).scanPhase c = s.scanPhase c := by
    unfold State.scanPhase
    rw [State.convRuns_touch]
    rfl
  have hstep : (s.touch d).convStep c = s.convStep c := by
    unfold State.convStep
    rw [hphase]
    rfl
  have hslot (k : Nat) : (s.touch d).slotSuppressed c k = s.slotSuppressed c k := rfl
  unfold State.convStat
  rw [State.convRuns_touch, hstep, hslot, hslot, hslot, hslot, State.touch_aux]

theorem State.readAux_touch (d : Dom) (o : Nat) (s : State) : (s.touch d).readAux o = s.readAux o := by
  unfold State.readAux
  simp only [State.convStat_touch, State.touch_aux]

/-- The word at an address does not depend on the idle timer that an access to it starts again (R429, R470). -/
theorem State.tsWord_touch {d : Dom} (h : tsDom a = some d) (s : State) : (s.touch d).tsWord a = s.tsWord a := by
  have hpage : a / 4096 ≠ 0 ∧ a / 4096 ≠ 7 ∧ a / 4096 ≠ 8 := by
    refine ⟨fun hp => ?_, fun hp => ?_, fun hp => ?_⟩ <;> simp [tsDom, hp] at h
  unfold State.tsWord
  dsimp only
  split
  case h_1 hp => exact absurd hp hpage.1
  case h_2 => exact State.readAux_touch d _ s
  case h_8 hp => exact absurd hp hpage.2.1
  case h_9 hp => exact absurd hp hpage.2.2
  all_goals rfl

theorem State.tsWord_touchReg (s : State) (b : Nat) (hb : b = s.winAt) : (s.touchReg 57).tsWord b = s.tsWord b := by
  subst hb
  unfold State.touchReg
  split
  · next d hd => exact State.tsWord_touch hd s
  · rfl

/-! ### The row of R462 for WIN_DATA -/

@[simp] theorem State.touchReg_host (i : Nat) (s : State) : (s.touchReg i).host = s.host := by
  unfold State.touchReg
  split <;> rfl

@[simp] theorem State.winAt_touchReg (i : Nat) (s : State) : (s.touchReg i).winAt = s.winAt := by
  rw [State.winAt, State.touchReg_host]
  rfl

/-- An access of WIN_DATA that is executed finds a mapped word (R472). -/
theorem State.tsMapped_of_resolve (h : s.resolve 57 = .executed) : s.tsMapped s.winAt = true := by
  unfold State.resolve at h
  split at h
  · cases h
  · unfold State.resolveOpen at h
    split at h
    · cases h
    · split at h
      · cases h
      · next hnot =>
        by_contra hm
        exact hnot ⟨rfl, by simp [hm]⟩

theorem State.resolve_unmapped (hend : s.host.atEnd = false) (hm : s.tsMapped s.winAt = false) (hg : s.tsGated s.winAt = false) :
    s.resolve 57 = .unmapped := by
  have hopen : s.regGated 57 = false := by simp [State.regGated, winData, hg]
  simp [State.resolve, State.resolveOpen, hopen, winData, hend, hm]

/-- WIN_DATA is not stopped unless AT_END is 1 (R473). -/
theorem State.resolve_ne_stopped (h : s.host.atEnd = false) (i : Nat) : s.resolve i ≠ .stopped := by
  unfold State.resolve State.resolveOpen
  rw [if_neg (by simp [h] : ¬(i = winData ∧ s.host.atEnd = true))]
  (repeat' split) <;> simp

/-! ### What an access of WIN_DATA leaves -/

theorem State.advance_facts (s : State) :
    s.winNext.host.winAddr = s.host.winAddr + 1#24 ∧ s.winNext.host.atEnd = regionLast s.winAt := ⟨rfl, rfl⟩

/-- A read of WIN_DATA that the window executes moves ADDR on (R471, R473). -/
theorem State.winRead_advance (s : State) : s.winRead.2.host.winAddr = s.host.winAddr + 1#24 ∧
    s.winRead.2.host.atEnd = regionLast s.winAt := by
  have hhost : (s.tsReadEffect s.winAt).host = s.host :=
    State.host_of_mask (ps := [.recog, .smc]) (by simp) (by decide)
  unfold State.winRead
  dsimp only
  split
  · exact ⟨rfl, rfl⟩
  · split
    · exact ⟨(congrArg (fun h : HostIf => h.winAddr + 1#24) hhost :),
        (congrArg (fun h : HostIf => regionLast h.winAddr.toNat) hhost :)⟩
    · exact ⟨(congrArg (fun h : HostIf => h.winAddr + 1#24) hhost :),
        (congrArg (fun h : HostIf => regionLast h.winAddr.toNat) hhost :)⟩

theorem State.winWrite_advance (w : Word) (s : State) : (s.winWrite w).host.winAddr = s.host.winAddr + 1#24 ∧
    (s.winWrite w).host.atEnd = regionLast s.winAt := by
  have hhost : (s.tsWrite s.winAt w).host = s.host :=
    State.host_of_mask (ps := [.harrow, .arr, .aux, .recog, .cap, .scar, .spec, .smc, .buf, .pwr, .mgmt]) (by simp) (by decide)
  exact ⟨congrArg (fun h : HostIf => h.winAddr + 1#24) hhost, congrArg (fun h : HostIf => regionLast h.winAddr.toNat) hhost⟩

/-- An access of WIN_DATA that is not executed nor stopped moves ADDR on (R471). -/
theorem State.skipped_advance {p : Path462} (h : p ≠ .stopped) (s : State) :
    (s.skipped 57 p).host.winAddr = s.host.winAddr + 1#24 ∧ (s.skipped 57 p).host.atEnd = regionLast s.winAt := by
  cases p
  case stopped => exact absurd rfl h
  all_goals exact ⟨rfl, rfl⟩

/-- A read of WIN_DATA that no wake stalls ends on the bus (R462). -/
theorem State.hostRead_window (hb : s.busOpen = true) (hrest : ∀ d, s.resolve 57 ≠ .resting d) :
    s.hostRead 57 = State.finishRead (s.readAs (s.resolve 57) 57 true) := by
  obtain ⟨hlk, hopen⟩ := State.withdraw_open hb
  rw [State.hostRead, if_pos hlk, hopen]
  unfold State.busRead
  split
  · next d hd => exact absurd hd (hrest d)
  · rfl

theorem State.hostWrite_window (hb : s.busOpen = true) (hrest : ∀ d, s.resolve 57 ≠ .resting d) (w : Word) :
    s.hostWrite 57 w = (s.writeAs (s.resolve 57) 57 w 0#12).finishWrite := by
  obtain ⟨hlk, hopen⟩ := State.withdraw_open hb
  rw [State.hostWrite, State.hostWriteBusy, if_pos hlk, hopen]
  unfold State.busWrite
  split
  · next d hd => exact absurd hd (hrest d)
  · rfl

theorem State.readAs_advance {p : Path462} (h : p ≠ .stopped) (s : State) :
    (s.readAs p 57 true).2.host.winAddr = s.host.winAddr + 1#24 ∧
      (s.readAs p 57 true).2.host.atEnd = regionLast s.winAt := by
  cases p
  case executed =>
    have hread := (s.touchReg 57).winRead_advance
    rwa [State.touchReg_host, State.winAt_touchReg] at hread
  all_goals exact State.skipped_advance h s

theorem State.writeAs_advance {p : Path462} (h : p ≠ .stopped) (w : Word) (s : State) :
    (s.writeAs p 57 w 0#12).host.winAddr = s.host.winAddr + 1#24 ∧
      (s.writeAs p 57 w 0#12).host.atEnd = regionLast s.winAt := by
  cases p
  case executed =>
    have hwrite := (s.touchReg 57).winWrite_advance w
    rwa [State.touchReg_host, State.winAt_touchReg] at hwrite
  all_goals exact State.skipped_advance h s

theorem State.hostRead_winData (h : s.Reaches 57) : s.hostRead 57 = State.finishRead ((s.touchReg 57).winRead) :=
  State.hostRead_reaches (i := 57) h

/-- A read of the word itself (R471, R472). -/
theorem State.winRead_word (h : s.host.latched = false) :
    s.winRead.1 = (s.tsWord s.winAt).getD 0#32 ∧ s.winRead.2.host.latched = s.tsLow64 s.winAt := by
  have hhost : (s.tsReadEffect s.winAt).host = s.host :=
    State.host_of_mask (ps := [.recog, .smc]) (by simp) (by decide)
  unfold State.winRead
  dsimp only
  rw [if_neg (by simp [h])]
  refine ⟨rfl, ?_⟩
  cases hlow : s.tsLow64 s.winAt
  · exact (congrArg HostIf.latched hhost).trans h
  · rfl

theorem State.tsLow64_touchReg (i b : Nat) (s : State) : (s.touchReg i).tsLow64 b = s.tsLow64 b := by
  unfold State.touchReg
  split <;> rfl

/-! ### A write of a program word -/

theorem State.tsWrite_program (h1 : 0x5000 ≤ a) (h2 : a < 0x5800) (w : Word) (s : State) :
    s.tsWrite a w = s.writeProgram (a - 0x5000) w := by
  have hpage : a / 4096 = 5 := by omega
  have hoff : a % 4096 = a - 0x5000 := by omega
  simp only [State.tsWrite, hpage, hoff]

theorem State.writeProgram_idle {o : Nat} (h : (s.machine (o / 256)).running = false) (w : Word) :
    s.writeProgram o w = s.modSmc fun x => { x with prog := Mem.put 0#32 x.prog o w } := by
  simp [State.writeProgram, h]

theorem State.touchReg_smc (i : Nat) (s : State) : (s.touchReg i).smc = s.smc := by
  unfold State.touchReg
  split <;> rfl

end

/-- Settles O42: an access of WIN_DATA takes the row of R462 that State.resolve names, and each row moves ADDR on
(State.readAs_advance, State.writeAs_advance); an executed read gives the word at ADDR, which does not depend on the idle timer
that the access starts (State.tsWord_touchReg), or the word held. -/
theorem windowAccessesComplete : Obligations.WindowAccessesComplete := by
  unfold Obligations.WindowAccessesComplete
  refine ⟨fun s w h => ?addr, fun s w h hl => ?word, fun s w h hl hat => ?held, fun s w h h1 h2 hrun hwf => ?write,
    fun s b w hb hend hrest => ?advance, fun s w hb hend hm hg => ?unmapped⟩
  case addr =>
    refine .answer (congrArg (answer s) (State.hostWrite_plain (i := 56) h rfl w)) ?_
    simp [State.writeReg, State.writeWinAddr, Same]
  case word =>
    refine .answer (congrArg (answer s) (State.hostRead_winData h)) ?_
    have hl' : (s.touchReg 57).host.latched = false := by rw [State.touchReg_host, hl]
    obtain ⟨hword, hlatched⟩ := State.winRead_word hl'
    obtain ⟨haddr, hatEnd⟩ := (s.touchReg 57).winRead_advance
    obtain ⟨v, hv⟩ := Option.isSome_iff_exists.mp (State.tsMapped_of_resolve h.2)
    rw [State.winAt_touchReg, State.tsWord_touchReg s _ rfl, hv] at hword
    rw [State.touchReg_host] at haddr
    rw [State.winAt_touchReg] at hatEnd
    rw [State.winAt_touchReg, State.tsLow64_touchReg] at hlatched
    simp only [State.arbitrate_host, State.finishRead_host]
    refine ⟨?_, haddr, hatEnd, hlatched, by simp [Same]⟩
    exact (congrArg some hword).trans hv.symm
  case held =>
    refine .answer (congrArg (answer s) (State.hostRead_winData h)) ?_
    have hread : (s.touchReg 57).winRead = (s.host.winLatch, ((s.touchReg 57).modHost fun h => { h with latched := false }).winNext) := by
      unfold State.winRead
      dsimp only
      rw [State.touchReg_host, State.winAt_touchReg, if_pos ⟨hl, hat⟩]
    rw [hread]
    simp only [State.arbitrate_host, State.finishRead_host]
    refine ⟨trivial, rfl, ?_, by simp [Same]⟩
    rw [(State.advance_facts _).1]
    simp
  case write =>
    refine .answer (congrArg (answer s) (State.hostWrite_reaches (i := 57) h w)) ?_
    have hidle : ((s.touchReg 57).machine ((s.winAt - 0x5000) / 256)).running = false := by
      rw [State.machine, State.touchReg_smc]
      exact hrun
    have hwrite : (s.touchReg 57).writeReg 57 w 0#12 =
        ((s.touchReg 57).modSmc fun x => { x with prog := Mem.put 0#32 x.prog (s.winAt - 0x5000) w }).winNext := by
      change ((s.touchReg 57).tsWrite (s.touchReg 57).winAt w).winNext = _
      rw [State.winAt_touchReg, State.tsWrite_program h1 h2, State.writeProgram_idle hidle]
    have hval : (57 : Fin 64).val = 57 := rfl
    rw [hval, hwrite]
    simp only [State.arbitrate_smc, State.arbitrate_host, State.finishWrite_smc, State.finishWrite_host, State.winNext_smc,
      State.modSmc_smc, State.touchReg_smc]
    refine ⟨fun o => ?_, trivial, trivial, ?_, by simp [Same]⟩
    · exact Mem.get_put _ _ _ hwf
    · rw [(State.advance_facts _).1]
      simp
  case advance =>
    have hp := State.resolve_ne_stopped hend 57
    cases b
    case false =>
      refine .answer (congrArg (answer s) (State.hostRead_window hb hrest)) ?_
      simp only [State.arbitrate_host, State.finishRead_host]
      exact State.readAs_advance hp s
    case true =>
      refine .answer (congrArg (answer s) (State.hostWrite_window hb hrest w)) ?_
      simp only [State.arbitrate_host, State.finishWrite_host]
      exact State.writeAs_advance hp w s
  case unmapped =>
    have hres := State.resolve_unmapped hend hm hg
    have hrest (d : Dom) : s.resolve 57 ≠ .resting d := by rw [hres]; simp
    refine ⟨.answer (congrArg (answer s) (State.hostRead_window hb hrest)) ?_,
      .answer (congrArg (answer s) (State.hostWrite_window hb hrest w)) ?_⟩
    · rw [hres]
      simp [State.readAs, State.skipped, State.winNext, State.setUnmapped, HostIf.advance, Same]
    · rw [hres]
      simp [State.writeAs, State.skipped, State.winNext, State.setUnmapped, HostIf.advance, Same]

end Sys2Proof.Machine
end

section
/-!
PROOFS. Writes of the channel configuration and of Harrow (R102, R103, R236, R238, R239, R242, R243, R246, R247).
-/

namespace Sys2Proof.Machine

open Sys2Proof

section
variable {s t : State} {ch : Nat}

/-! ### Channels -/

theorem State.chan_congr (h : t.harrow = s.harrow) (i : Nat) : t.chan i = s.chan i := by simp [State.chan, h]

theorem State.chan_modChan (i : Nat) (f : Chan → Chan) (s : State) :
    (s.modChan ch f).chan i = if i = ch ∧ ch < 24 then f (s.chan ch) else s.chan i := by
  by_cases hch : ch < 24
  · by_cases hi : i < 24
    · by_cases he : i = ch
      · subst he
        simp [State.chan, State.modChan, hi]
      · simp [State.chan, State.modChan, hch, hi, he, Vector.getElem_set_ne _ _ (Ne.symm he)]
    · have hne : i ≠ ch := fun he => hi (he ▸ hch)
      simp [State.chan, hi, hne]
  · simp [State.chan, State.modChan, hch]

theorem State.chan_modChan_self (h : ch < 24) (f : Chan → Chan) (s : State) : (s.modChan ch f).chan ch = f (s.chan ch) := by
  simp [State.chan_modChan, h]

theorem State.chan_modChan_ne {i : Nat} (h : i ≠ ch) (f : Chan → Chan) (s : State) : (s.modChan ch f).chan i = s.chan i := by
  simp [State.chan_modChan, h]

@[simp] theorem State.modChan_diagSel (f : Chan → Chan) (s : State) : (s.modChan ch f).harrow.diagSel = s.harrow.diagSel := by
  by_cases h : ch < 24 <;> simp [State.modChan, h]

theorem State.chan_mapChans (f : Nat → Chan → Chan) (i : Nat) (s : State) :
    (s.mapChans f).chan i = if i < 24 then f i (s.chan i) else s.chan i := by
  by_cases h : i < 24 <;> simp [State.chan, State.mapChans, h]

/-! ### The restart of paths -/

/-- A channel with its configuration kept: what its paths and filters hold may differ. -/
def Chan.SamePlan (c d : Chan) : Prop := d.range = c.range ∧ d.tsrc = c.tsrc ∧ d.linUser = c.linUser

theorem Chan.SamePlan.refl (c : Chan) : c.SamePlan c := ⟨rfl, rfl, rfl⟩

theorem Chan.SamePlan.trans {c d e : Chan} (h : c.SamePlan d) (k : d.SamePlan e) : c.SamePlan e :=
  ⟨k.1.trans h.1, k.2.1.trans h.2.1, k.2.2.trans h.2.2⟩

theorem Chan.modPath_plan (c : Chan) (k : PathKind) (f : Path → Path) : c.SamePlan (c.modPath k f) := by
  cases k <;> exact ⟨rfl, rfl, rfl⟩

theorem State.mapChans_diagSel (f : Nat → Chan → Chan) (s : State) : (s.mapChans f).harrow.diagSel = s.harrow.diagSel := by
  rw [State.mapChans, State.modHarrow_harrow]

theorem State.restart_facts (k : PathKind) (set : BitVec 24) (rephase : Bool) (s : State) :
    (s.restart k set rephase).harrow.diagSel = s.harrow.diagSel ∧
      (∀ i, (s.chan i).SamePlan ((s.restart k set rephase).chan i)) ∧
      ∀ i, (withTriads set).getLsbD i = false → (s.restart k set rephase).chan i = s.chan i := by
  unfold State.restart State.restartFrom
  dsimp only
  refine ⟨State.mapChans_diagSel .., fun i => ?_, fun i hi => ?_⟩ <;> rw [State.chan_mapChans]
  · split
    · split
      · exact Chan.modPath_plan ..
      · exact .refl _
    · exact .refl _
  · simp [hi]

theorem State.restartAll_facts (set : BitVec 24) (s : State) :
    (s.restartAll set).harrow.diagSel = s.harrow.diagSel ∧ (∀ i, (s.chan i).SamePlan ((s.restartAll set).chan i)) ∧
      ∀ i, (withTriads set).getLsbD i = false → (s.restartAll set).chan i = s.chan i := by
  obtain ⟨f1, f2, f3⟩ := s.restart_facts .fast set false
  obtain ⟨g1, g2, g3⟩ := (s.restart .fast set false).restart_facts .slow set false
  obtain ⟨h1, h2, h3⟩ := ((s.restart .fast set false).restart .slow set false).restart_facts .recog set false
  exact ⟨h1.trans (g1.trans f1), fun i => (f2 i).trans ((g2 i).trans (h2 i)),
    fun i hi => (h3 i hi).trans ((g3 i hi).trans (f3 i hi))⟩

/-- The triad of a channel of the array (R222). -/
theorem getLsbD_withTriads_ne (ch : Fin 6) {i : Nat} (h : i / 3 ≠ ch.val / 3) :
    (withTriads (putBit 0#24 ch.val true)).getLsbD i = false := by
  by_cases hi : i < 24
  · have hall : ∀ (c : Fin 6) (i : Fin 24), i.val / 3 ≠ c.val / 3 →
        (withTriads (putBit 0#24 c.val true)).getLsbD i.val = false := by decide
    exact hall ch ⟨i, hi⟩ h
  · exact BitVec.getLsbD_of_ge _ _ (Nat.not_lt.mp hi)

theorem getLsbD_withTriads_diag {i : Nat} (h : i ≠ 23) : (withTriads (putBit 0#24 23 true)).getLsbD i = false := by
  by_cases hi : i < 24
  · have hall : ∀ i : Fin 24, i ≠ 23 → (withTriads (putBit 0#24 23 true)).getLsbD i.val = false := by decide
    exact hall ⟨i, hi⟩ (fun he => h (congrArg Fin.val he))
  · exact BitVec.getLsbD_of_ge _ _ (Nat.not_lt.mp hi)

/-! ### RANGE -/

theorem State.tsWrite_range (h : ch < 6) (w : Word) (s : State) : s.tsWrite (64 * ch + 1) w = s.writeRange ch (bitAt w 0) := by
  have hpage : (64 * ch + 1) / 4096 = 0 := by omega
  have hoff : (64 * ch + 1) % 4096 = 64 * ch + 1 := by omega
  have hch : (64 * ch + 1) / 64 = ch := by omega
  have hword : (64 * ch + 1) % 64 = 1 := by omega
  simp only [State.tsWrite, hpage, hoff, State.writeChan, hch, hword, if_pos h]

theorem tsDom_chan (h : ch < 24) (k : Nat) (hk : k < 64) : tsDom (64 * ch + k) = none := by
  have hpage : (64 * ch + k) / 4096 = 0 := by omega
  simp [tsDom, hpage]

theorem State.writeRange_facts (c : Fin 6) (v : Bool) (s : State) :
    ((s.writeRange c.val v).chan c.val).range = v ∧
      (∀ i, i ≠ c.val → ((s.writeRange c.val v).chan i).range = (s.chan i).range) ∧
      (∀ i, i / 3 ≠ c.val / 3 → (s.writeRange c.val v).chan i = s.chan i) ∧
      (v = (s.chan c.val).range → (s.writeRange c.val v).harrow = s.harrow ∧ (s.writeRange c.val v).arr = s.arr) ∧
      (s.writeRange c.val v).mask [.harrow, .arr, .mgmt] = s.mask [.harrow, .arr, .mgmt] := by
  unfold State.writeRange
  split
  · next h => exact ⟨h, fun _ _ => rfl, fun _ _ => rfl, fun _ => ⟨rfl, rfl⟩, rfl⟩
  · next h =>
    dsimp only
    obtain ⟨-, hplan, hkept⟩ := ((s.modChan c.val fun x => { x with range := v }).voidAudit c.val false).restartAll_facts
      (putBit 0#24 c.val true)
    have hvoid (i : Nat) : ((s.modChan c.val fun x => { x with range := v }).voidAudit c.val false).chan i =
        (s.modChan c.val fun x => { x with range := v }).chan i :=
      State.chan_congr (State.harrow_of_mask (State.mask_voidAudit_arr (ps := [.arr]) (by decide) _ _ _) (by decide)) i
    have hsettle (u : State) (i : Nat) : (State.settleArray s u).chan i = u.chan i :=
      State.chan_congr (State.harrow_of_mask (State.mask_settleArray (ps := [.arr, .mgmt]) (by decide) (by decide) s u)
        (by decide)) i
    have hc : c.val < 24 := by omega
    refine ⟨?_, fun i hi => ?_, fun i hi => ?_, fun hv => absurd hv.symm h, ?_⟩
    · rw [hsettle, (hplan c.val).1, hvoid, State.chan_modChan_self hc]
    · rw [hsettle, (hplan i).1, hvoid, State.chan_modChan_ne hi]
    · rw [hsettle, hkept i (getLsbD_withTriads_ne c hi), hvoid, State.chan_modChan_ne (fun he => hi (by rw [he]))]
    · simp

/-! ### The Harrow word: TSRC, LIN_USER, APPLY and DIAG_SEL -/

theorem State.tsWrite_harrow (h : ch < 24) (w : Word) (s : State) : s.tsWrite (64 * ch + 2) w = s.writeHarrow ch w := by
  have hpage : (64 * ch + 2) / 4096 = 0 := by omega
  have hoff : (64 * ch + 2) % 4096 = 64 * ch + 2 := by omega
  have hch : (64 * ch + 2) / 64 = ch := by omega
  have hword : (64 * ch + 2) % 64 = 2 := by omega
  simp only [State.tsWrite, hpage, hoff, State.writeChan, hch, hword]

theorem State.bitAt_harrowWord (k : Nat) (s : State) :
    bitAt (s.harrowWord ch) k =
      (bitAt (fld (s.chan ch).tsrc 0) k || bitAt (flg (s.chan ch).linUser 8) k ||
        if ch = 23 then bitAt (fld s.harrow.diagSel 16) k else false) := by
  unfold State.harrowWord
  dsimp only
  rw [bitAt_or, bitAt_or]
  split
  · rfl
  · simp [bitAt]

theorem bitAt_fld_out {n : Nat} (x : BitVec n) {lo k : Nat} (h : k < lo ∨ lo + n ≤ k) : bitAt (fld x lo) k = false := by
  by_cases hk : k < 32
  · rw [bitAt_fld x hk]
    rcases h with h | h
    · simp [Nat.not_le.mpr h]
    · rw [BitVec.getLsbD_of_ge _ _ (by omega)]
      simp
  · unfold bitAt
    exact BitVec.getLsbD_of_ge _ _ (by omega)

theorem State.modChan_same {f : Chan → Chan} (h : f (s.chan ch) = s.chan ch) : s.modChan ch f = s := by
  by_cases hch : ch < 24
  · have hf : f s.harrow.chan[ch] = s.harrow.chan[ch] := by simpa [State.chan, hch] using h
    simp only [State.modChan, State.modHarrow, dif_pos hch, hf, Vector.set_getElem_self]
  · simp [State.modChan, State.modHarrow, hch]

/-- A change of a channel is what it makes of the channel as it is. -/
theorem State.modChan_congr {f g : Chan → Chan} (h : f (s.chan ch) = g (s.chan ch)) : s.modChan ch f = s.modChan ch g := by
  by_cases hch : ch < 24
  · have hf : f s.harrow.chan[ch] = g s.harrow.chan[ch] := by simpa [State.chan, hch] using h
    simp only [State.modChan, State.modHarrow, dif_pos hch, hf]
  · simp only [State.modChan, dif_neg hch]

/-- A write of a Harrow word that names the TSRC and the LIN_USER that stand (R236, R247). -/
theorem State.writeHarrow_same {w : Word} (htsrc : bits w 0 5 = (s.chan ch).tsrc) (hlin : bitAt w 8 = (s.chan ch).linUser) :
    s.writeHarrow ch w =
      (if ch = 23 ∧ bits w 16 2 ≠ s.harrow.diagSel then
        ((if bitAt w 9 then s.applyUser ch else s).modHarrow fun h => { h with diagSel := bits w 16 2 }).restartAll
          (putBit 0#24 23 true)
      else if bitAt w 9 then s.applyUser ch else s) := by
  have hsame : (bits w 0 5 != (s.chan ch).tsrc) = false := by simp [htsrc]
  have hchan : (s.modChan ch fun c => { c with tsrc := bits w 0 5, linUser := bitAt w 8 }) = s :=
    State.modChan_same (by rw [htsrc, hlin])
  unfold State.writeHarrow
  simp only [hsame, Bool.false_eq_true, if_false, hchan]

/-- A word that agrees with the Harrow word of a channel in its low bits names its TSRC and LIN_USER (R247). -/
theorem State.harrowWord_low {v : Word} (h : ∀ k < 9, bitAt v k = bitAt (s.harrowWord ch) k) :
    bits v 0 5 = (s.chan ch).tsrc ∧ bitAt v 8 = (s.chan ch).linUser := by
  have hdiag (k : Nat) (hk : k < 9) : (if ch = 23 then bitAt (fld s.harrow.diagSel 16) k else false) = false := by
    rw [bitAt_fld_out _ (by omega), ite_self]
  constructor
  · apply BitVec.eq_of_getLsbD_eq
    intro i hi
    have hlin : bitAt (flg (s.chan ch).linUser 8) i = false := bitAt_flg_ne (by omega) _
    rw [getLsbD_bits, Nat.zero_add, h i (by omega), State.bitAt_harrowWord, hlin, hdiag i (by omega), bitAt_fld _ (by omega)]
    simp [hi]
  · have htsrc : bitAt (fld (s.chan ch).tsrc 0) 8 = false := bitAt_fld_out _ (by omega)
    rw [h 8 (by omega), State.bitAt_harrowWord, htsrc, hdiag 8 (by omega), bitAt_flg_self _ _ (by omega)]
    simp

/-- One that agrees with it in the bits of DIAG_SEL names that (R247). -/
theorem State.harrowWord_diagSel {v : Word} (hch : ch = 23) (h : ∀ k < 2, bitAt v (16 + k) = bitAt (s.harrowWord ch) (16 + k)) :
    bits v 16 2 = s.harrow.diagSel := by
  apply BitVec.eq_of_getLsbD_eq
  intro i hi
  have hlin : bitAt (flg (s.chan ch).linUser 8) (16 + i) = false := bitAt_flg_ne (by omega) _
  have htsrc : bitAt (fld (s.chan ch).tsrc 0) (16 + i) = false := bitAt_fld_out _ (by omega)
  rw [getLsbD_bits, h i hi, State.bitAt_harrowWord, hlin, htsrc, if_pos hch, bitAt_fld _ (by omega)]
  simp [hi]

theorem State.writeHarrow_apply (s : State) : s.writeHarrow ch (s.harrowWord ch ||| flg true 9) = s.applyUser ch := by
  have hsame (k : Nat) (hk : k ≠ 9) : bitAt (s.harrowWord ch ||| flg true 9) k = bitAt (s.harrowWord ch) k := by
    rw [bitAt_or, bitAt_flg_ne hk, Bool.or_false]
  obtain ⟨htsrc, hlin⟩ := State.harrowWord_low (s := s) fun k hk => hsame k (by omega)
  have h9 : bitAt (s.harrowWord ch ||| flg true 9) 9 = true := by
    rw [bitAt_or, bitAt_flg_self _ _ (by omega), Bool.or_true]
  rw [State.writeHarrow_same htsrc hlin, if_pos h9]
  exact if_neg fun h => h.2 (State.harrowWord_diagSel h.1 fun k _ => hsame _ (by omega))

theorem bitAt_setField {n : Nat} (w : Word) (lo : Nat) (v : BitVec n) {k : Nat} (hk : k < 32) :
    bitAt (setField w lo v) k = if lo ≤ k ∧ k < lo + n then v.getLsbD (k - lo) else bitAt w k := by
  have hones : bitAt (fld (BitVec.allOnes n) lo) k = (decide (lo ≤ k) && decide (k - lo < n)) := by
    rw [bitAt_fld _ hk, BitVec.getLsbD_allOnes]
  have hsplit : bitAt (setField w lo v) k =
      ((bitAt w k && !bitAt (fld (BitVec.allOnes n) lo) k) || bitAt (fld v lo) k) := by
    simp [setField, bitAt, hk]
  rw [hsplit, hones, bitAt_fld _ hk]
  by_cases h1 : lo ≤ k
  · by_cases h2 : k < lo + n
    · simp [h1, h2, show k - lo < n by omega]
    · simp [h1, h2, show ¬(k - lo < n) by omega, BitVec.getLsbD_of_ge v (k - lo) (by omega)]
  · simp [h1]

theorem State.writeHarrow_diagSel (sel : BitVec 2) (s : State) :
    s.writeHarrow 23 (setField (s.harrowWord 23) 16 sel) =
      if sel ≠ s.harrow.diagSel then (s.modHarrow fun h => { h with diagSel := sel }).restartAll (putBit 0#24 23 true) else s := by
  have hlow (k : Nat) (hk : k < 16) : bitAt (setField (s.harrowWord 23) 16 sel) k = bitAt (s.harrowWord 23) k := by
    rw [bitAt_setField _ _ _ (by omega), if_neg (by omega)]
  have hsel : bits (setField (s.harrowWord 23) 16 sel) 16 2 = sel := by
    apply BitVec.eq_of_getLsbD_eq
    intro i hi
    rw [getLsbD_bits, bitAt_setField _ _ _ (by omega), if_pos (by omega)]
    simp [hi]
  obtain ⟨htsrc, hlin⟩ := State.harrowWord_low (s := s) fun k hk => hlow k (by omega)
  have h9 : bitAt (setField (s.harrowWord 23) 16 sel) 9 = false := by
    have htsrc9 : bitAt (fld (s.chan 23).tsrc 0) 9 = false := bitAt_fld_out _ (by omega)
    have hdiag9 : bitAt (fld s.harrow.diagSel 16) 9 = false := bitAt_fld_out _ (by omega)
    have hlin9 : bitAt (flg (s.chan 23).linUser 8) 9 = false := bitAt_flg_ne (by omega) _
    rw [hlow 9 (by omega), State.bitAt_harrowWord, htsrc9, hdiag9, hlin9]
    rfl
  rw [State.writeHarrow_same htsrc hlin, hsel, h9]
  simp

/-! ### APPLY -/

theorem anyUpto_eq_true {p : Nat → Bool} {n : Nat} : anyUpto p n = true ↔ ∃ k, k < n ∧ p k = true := by
  induction n with
  | zero => simp [anyUpto]
  | succ n ih =>
    simp only [anyUpto, Bool.or_eq_true, ih, Nat.lt_succ_iff_lt_or_eq, or_and_right, exists_or, exists_eq_left]

theorem anyUpto_eq_false {p : Nat → Bool} {n : Nat} (h : ∀ k, k < n → p k = false) : anyUpto p n = false := by
  rw [Bool.eq_false_iff]
  intro htrue
  obtain ⟨k, hk, hp⟩ := anyUpto_eq_true.mp htrue
  rw [h k hk] at hp
  cases hp

theorem State.applyUser_error (h : anyUpto (fun k => fNonFinite ((s.chan ch).userStage.getD k 0#32)) 16 = true) :
    s.applyUser ch = s.modChan ch fun c => { c with coefErr := true } := by
  simp only [State.applyUser, h, if_true]

/-- APPLY of a finite set puts it first in the list of sets, from the next multiple of 4096 ticks on (R236). -/
theorem State.applyUser_finite (h : anyUpto (fun k => fNonFinite ((s.chan ch).userStage.getD k 0#32)) 16 = false) :
    ∃ base rest, s.applyUser ch = s.modChan ch fun c =>
      { c with
        userAct := base
        userSets := (s.clk.tsc + (4096#64 - s.clk.tsc % 4096#64), c.userStage) :: rest } := by
  unfold State.applyUser
  dsimp only
  rw [if_neg (by rw [h]; decide)]
  exact ⟨_, _, rfl⟩

/-! ### Biquads -/

theorem State.tsWrite_bqCtrl (h : ch < 24) (g : Group) (w : Word) (s : State) :
    s.tsWrite (bqCtrl ch g) w = s.modChan ch fun c =>
      if bitAt w 8 then (c.modBiquads g fun b => { b with stageEn := bits w 0 4 }).commitBiquads g
      else c.modBiquads g fun b => { b with stageEn := bits w 0 4 } := by
  cases g
  case fast =>
    have hpage : (0x3000 + 64 * ch + 0 + 31) / 4096 = 3 := by omega
    have hoff : (0x3000 + 64 * ch + 0 + 31) % 4096 = 64 * ch + 31 := by omega
    have hch : (64 * ch + 31) / 64 = ch := by omega
    have hblock : (64 * ch + 31) / 32 % 2 = 0 := by omega
    have hword : (64 * ch + 31) % 32 = 31 := by omega
    simp only [bqCtrl, State.tsWrite, hpage, hoff, State.writeBiquad, hch, blockGroup, hblock, hword, if_true]
  case slow =>
    have hpage : (0x3000 + 64 * ch + 32 + 31) / 4096 = 3 := by omega
    have hoff : (0x3000 + 64 * ch + 32 + 31) % 4096 = 64 * ch + 63 := by omega
    have hch : (64 * ch + 63) / 64 = ch := by omega
    have hblock : (64 * ch + 63) / 32 % 2 ≠ 0 := by omega
    have hword : (64 * ch + 63) % 32 = 31 := by omega
    simp only [bqCtrl, State.tsWrite, hpage, hoff, State.writeBiquad, hch, blockGroup, if_neg hblock, hword, if_true]

theorem Chan.biquads_modBiquads (c : Chan) (g : Group) (f : Biquads → Biquads) : (c.modBiquads g f).biquads g = f (c.biquads g) := by
  cases g <;> rfl

theorem Chan.modBiquads_coefErr (c : Chan) (g : Group) (f : Biquads → Biquads) : (c.modBiquads g f).coefErr = c.coefErr := by
  cases g <;> rfl

theorem Chan.modBiquads_same (c : Chan) (g : Group) (n : BitVec 4) (h : n = (c.biquads g).stageEn) :
    (c.modBiquads g fun b => { b with stageEn := n }) = c := by
  subst h
  cases g <;> rfl

/-- A commit that leaves the enables as they are (R242, R243). -/
theorem State.tsWrite_bqCommit (h : ch < 24) (g : Group) {w : Word} (hen : bits w 0 4 = ((s.chan ch).biquads g).stageEn)
    (hbit : bitAt w 8 = true) : s.tsWrite (bqCtrl ch g) w = s.modChan ch fun _ => (s.chan ch).commitBiquads g := by
  rw [State.tsWrite_bqCtrl h, hbit, hen]
  refine State.modChan_congr ?_
  rw [if_pos rfl, Chan.modBiquads_same _ g _ rfl]

/-- The word that biquadCommit writes: the enables that stand and the commit bit. -/
theorem State.tsWrite_bqCommit_fld (h : ch < 24) (g : Group) {en : BitVec 4} (hen : en = ((s.chan ch).biquads g).stageEn) :
    s.tsWrite (bqCtrl ch g) (fld en 0 ||| flg true 8) = s.modChan ch fun _ => (s.chan ch).commitBiquads g := by
  refine State.tsWrite_bqCommit h g ?_ ?_
  · rw [← hen]
    apply BitVec.eq_of_getLsbD_eq
    intro i hi
    have hbit : bitAt (flg true 8) i = false := bitAt_flg_ne (by omega) _
    rw [getLsbD_bits, Nat.zero_add, bitAt_or, hbit, bitAt_fld _ (by omega)]
    simp [hi]
  · rw [bitAt_or, bitAt_flg_self _ _ (by omega), Bool.or_true]

theorem Chan.commitBiquads_bad {c : Chan} {g : Group}
    (h : anyUpto (fun k => (c.biquads g).stageEn.getLsbD k && badBiquad (c.biquads g).stage k) 4 = true) :
    c.commitBiquads g = { c with coefErr := true } := by
  simp only [Chan.commitBiquads, h, if_true]

theorem Chan.commitBiquads_good {c : Chan} {g : Group}
    (h : anyUpto (fun k => (c.biquads g).stageEn.getLsbD k && badBiquad (c.biquads g).stage k) 4 = false) :
    c.commitBiquads g = c.modBiquads g fun b => { b with pend := true, pendC := b.stage, pendEn := b.stageEn } := by
  simp only [Chan.commitBiquads, h, Bool.false_eq_true, if_false]

/-! ### The end of a suppression -/

theorem Chan.path_modPath (c : Chan) (k : PathKind) (f : Path → Path) :
    (c.modPath k f).path k = f (c.path k) ∧ ∀ j, j ≠ k → (c.modPath k f).path j = c.path j := by
  cases k <;> refine ⟨rfl, fun j hj => ?_⟩ <;> cases j <;> simp_all [Chan.modPath, Chan.path]

theorem exec_pathSettled {c : Fin 24} {k : PathKind} (hsup : ((s.chan c.val).path k).sup = true) (hon : s.isOn .en = true)
    (hsm : s.hasSm = true) (hover : s.latencyOver c.val k = true) :
    exec (.pathSettled c k) s = .next (State.arbitrate s (s.settlePath c.val k)) := by
  simp only [exec, execPathSettled, hsup, hon, hsm, hover]
  rfl

theorem State.chan_settlePath {c i : Nat} {k : PathKind} (hi : (withTriads (putBit 0#24 c true)).getLsbD i = true) :
    (s.settlePath c k).chan i = (s.chan i).modPath k fun p => { p with sup := false, rephasing := false } := by
  have hlt : i < 24 := BitVec.lt_of_getLsbD hi
  simp only [State.settlePath, State.chan_mapChans, if_pos hlt, hi, if_true]

theorem State.chan_settlePath_other {c i : Nat} {k : PathKind} (hi : (withTriads (putBit 0#24 c true)).getLsbD i = false) :
    (s.settlePath c k).chan i = s.chan i := by
  simp only [State.settlePath, State.chan_mapChans, hi, Bool.false_eq_true, if_false, ite_self]

@[simp] theorem State.chan_arbitrate (u : State) (i : Nat) : (State.arbitrate u s).chan i = s.chan i :=
  State.chan_congr (State.arbitrate_harrow u s) i

@[simp] theorem State.chan_atWord (a i : Nat) : (s.atWord a).chan i = s.chan i := rfl

@[simp] theorem State.chan_touchTs (a i : Nat) : (s.touchTs a).chan i = s.chan i := State.chan_congr (State.touchTs_harrow a s) i

@[simp] theorem State.chan_winNext (i : Nat) : s.winNext.chan i = s.chan i := rfl

@[simp] theorem State.chan_finishWrite (i : Nat) : s.finishWrite.chan i = s.chan i := rfl

end

/-- Settles O19: each write reaches its own row of table space and is State.writeRange, State.applyUser, the commit of a set of
biquads or the change of DIAG_SEL; the other fields of the word written are those that stand. -/
theorem harrowWritesComplete : Obligations.HarrowWritesComplete := by
  unfold Obligations.HarrowWritesComplete
  refine ⟨fun s ch v h => ?range, fun s ch h => ⟨fun hfin => ?apply, fun hbad => ?applyBad⟩,
    fun s ch g h => ⟨fun hgood => ?commit, fun hbad => ?commitBad⟩, fun s sel h => ?diag,
    fun s ch k hsup hon hsm hover => ?settled⟩
  case range =>
    have hbit : bitAt (flg v 0) 0 = v := bitAt_flg_self v 0 (by omega)
    refine .answer (congrArg (answer s) (State.hostTs_reaches h _)) ?_
    rw [State.touchTs_of_none (tsDom_chan (ch := ch.val) (by omega) 1 (by omega)), State.tsWrite_range ch.isLt, hbit]
    obtain ⟨hrange, hothers, htriad, hsame, hmask⟩ := (s.atWord (64 * ch.val + 1)).writeRange_facts ch v
    simp only [State.chan_arbitrate, State.chan_finishWrite, State.chan_winNext, State.arbitrate_harrow, State.arbitrate_arr,
      State.finishWrite_harrow, State.finishWrite_arr, State.winNext_harrow, State.winNext_arr]
    refine ⟨hrange, hothers, htriad, hsame, ?_⟩
    have hmask' := State.mask_mono (qs := [.harrow, .arr, .mgmt, .host, .int]) hmask (by decide)
    simp [Same, hmask']
  case apply =>
    refine .answer (congrArg (answer s) (State.hostTs_reaches h _)) ?_
    rw [State.touchTs_of_none (tsDom_chan ch.isLt 2 (by omega)), State.tsWrite_harrow ch.isLt]
    have happly := (s.atWord (64 * ch.val + 2)).writeHarrow_apply (ch := ch.val)
    obtain ⟨base, rest, hset⟩ := State.applyUser_finite (s := s.atWord (64 * ch.val + 2)) (anyUpto_eq_false hfin)
    rw [hset] at happly
    rw [show s.harrowWord ch.val = (s.atWord (64 * ch.val + 2)).harrowWord ch.val from rfl, happly]
    simp only [State.chan_arbitrate, State.chan_finishWrite, State.chan_winNext, State.arbitrate_harrow,
      State.finishWrite_harrow, State.winNext_harrow, State.chan_modChan_self ch.isLt]
    exact ⟨rfl, rfl, rfl, rfl, State.modChan_diagSel .., fun i hi => State.chan_modChan_ne hi .., by simp [Same]⟩
  case applyBad =>
    refine .answer (congrArg (answer s) (State.hostTs_reaches h _)) ?_
    rw [State.touchTs_of_none (tsDom_chan ch.isLt 2 (by omega)), State.tsWrite_harrow ch.isLt]
    have happly := (s.atWord (64 * ch.val + 2)).writeHarrow_apply (ch := ch.val)
    rw [State.applyUser_error (s := s.atWord (64 * ch.val + 2)) (anyUpto_eq_true.mpr hbad)] at happly
    rw [show s.harrowWord ch.val = (s.atWord (64 * ch.val + 2)).harrowWord ch.val from rfl, happly]
    simp only [State.chan_arbitrate, State.chan_finishWrite, State.chan_winNext, State.chan_modChan_self ch.isLt]
    exact ⟨rfl, fun i hi => State.chan_modChan_ne hi .., by simp [Same]⟩
  case commit =>
    refine .answer (congrArg (answer s) (State.hostTs_reaches h _)) ?_
    rw [State.tsWrite_bqCommit_fld ch.isLt g (by simp), Chan.commitBiquads_good (anyUpto_eq_false fun k hk => ?free)]
    case free =>
      simp only [State.chan_touchTs, State.chan_atWord, Bool.and_eq_false_iff]
      by_cases hen : ((s.chan ch.val).biquads g).stageEn.getLsbD k = true
      · exact .inr (hgood k hk hen)
      · exact .inl (Bool.eq_false_iff.mpr hen)
    simp only [State.chan_arbitrate, State.chan_finishWrite, State.chan_winNext, State.chan_modChan_self ch.isLt,
      Chan.biquads_modBiquads, Chan.modBiquads_coefErr, State.chan_touchTs, State.chan_atWord]
    refine ⟨trivial, trivial, fun i hi => ?_, by simp [Same]⟩
    rw [State.chan_modChan_ne hi, State.chan_touchTs, State.chan_atWord]
  case commitBad =>
    refine .answer (congrArg (answer s) (State.hostTs_reaches h _)) ?_
    obtain ⟨k, hk, hen, hb⟩ := hbad
    rw [State.tsWrite_bqCommit_fld ch.isLt g (by simp), Chan.commitBiquads_bad (anyUpto_eq_true.mpr ⟨k, hk, ?bad⟩)]
    case bad =>
      simp only [State.chan_touchTs, State.chan_atWord, Bool.and_eq_true]
      exact ⟨hen, hb⟩
    simp only [State.chan_arbitrate, State.chan_finishWrite, State.chan_winNext, State.chan_modChan_self ch.isLt,
      State.chan_touchTs, State.chan_atWord]
    refine ⟨trivial, by cases g <;> rfl, fun i hi => ?_, by simp [Same]⟩
    rw [State.chan_modChan_ne hi, State.chan_touchTs, State.chan_atWord]
  case diag =>
    refine .answer (congrArg (answer s) (State.hostTs_reaches h _)) ?_
    rw [State.touchTs_of_none (tsDom_chan (ch := 23) (by omega) 2 (by omega)), State.tsWrite_harrow (by omega),
      show s.harrowWord 23 = (s.atWord (64 * 23 + 2)).harrowWord 23 from rfl, State.writeHarrow_diagSel]
    simp only [State.chan_arbitrate, State.chan_finishWrite, State.chan_winNext, State.arbitrate_harrow,
      State.finishWrite_harrow, State.winNext_harrow]
    by_cases hsel : sel = (s.atWord (64 * 23 + 2)).harrow.diagSel
    · rw [if_neg (not_not.mpr hsel)]
      exact ⟨hsel.symm, rfl, rfl, fun i _ => rfl, by simp [Same]⟩
    · rw [if_pos hsel]
      obtain ⟨hdiag, hplan, hkept⟩ :=
        ((s.atWord (64 * 23 + 2)).modHarrow fun h => { h with diagSel := sel }).restartAll_facts (putBit 0#24 23 true)
      refine ⟨hdiag, (hplan 23).2.1, (hplan 23).2.2, fun i hi => hkept i (getLsbD_withTriads_diag hi), by simp [Same]⟩
  case settled =>
    refine ⟨_, exec_pathSettled hsup hon hsm hover, fun i hi => ?_, fun i hi => ?_, by simp [Same]⟩
    · obtain ⟨hself, hothers⟩ := (s.chan i).path_modPath k fun p => { p with sup := false, rephasing := false }
      rw [State.chan_arbitrate, State.chan_settlePath hi]
      exact ⟨hself, hothers⟩
    · rw [State.chan_arbitrate, State.chan_settlePath_other hi]

end Sys2Proof.Machine
end

section
/-!
PROOFS. Recognisers: their words, their reports and a restart (R250 to R259, R271).
-/

namespace Sys2Proof.Machine

open Sys2Proof

section
variable {s t : State} {x y : Rec} {p : Report} {r k : Nat}

/-! ### Words of the blocks -/

theorem Rec.param_setParam_self (hr : r < 6) (hk : k < 8) (w : Word) : (x.setParam r k w).param r k = w := by
  simp [Rec.setParam, Rec.param, Vector.getD, hr, hk]

theorem Rec.param_setParam_ne {q j : Nat} (h : q ≠ r ∨ j ≠ k) (w : Word) : (x.setParam r k w).param q j = x.param q j := by
  unfold Rec.setParam Rec.param
  by_cases hq : q = r
  · subst hq
    have hj : k ≠ j := (h.resolve_left (· rfl)).symm
    by_cases hq6 : q < 6
    · simp [Vector.getD, hq6, hj]
    · simp [Vector.getD, hq6]
  · simp [Vector.getD, Ne.symm hq]

theorem Rec.result_maskResult_self (hr : r < 6) (hk : k < 8) (m w : Word) :
    (x.maskResult r k m w).result r k = (x.result r k &&& ~~~m) ||| (w &&& m) := by
  simp [Rec.maskResult, Rec.setResult, Rec.result, Vector.getD, hr, hk]

theorem Rec.result_maskResult_ne {q j : Nat} (h : q ≠ r ∨ j ≠ k) (m w : Word) :
    (x.maskResult r k m w).result q j = x.result q j := by
  unfold Rec.maskResult Rec.setResult Rec.result
  by_cases hq : q = r
  · subst hq
    have hj : k ≠ j := (h.resolve_left (· rfl)).symm
    by_cases hq6 : q < 6
    · simp [Vector.getD, hq6, hj]
    · simp [Vector.getD, hq6]
  · simp [Vector.getD, Ne.symm hq]

theorem Rec.results_setResult_ne {q : Fin 6} (h : q.val ≠ r) (w : Word) : (x.setResult r k w).results[q] = x.results[q] := by
  simp [Rec.setResult, Ne.symm h]

/-! ### What a report writes -/

/-- Words and COUNT of a report are result words: it writes no other field (R257). -/
theorem Rec.writeReport_eq (x : Rec) (r : Nat) (p : Report) :
    x.writeReport r p = { x with results := (x.writeReport r p).results } := by
  have hfold : ∀ (l : List (Nat × Word × Word)) (y : Rec), ∃ v, l.foldl (fun y kw => y.maskResult r kw.1 kw.2.1 kw.2.2) y =
      { y with results := v } := by
    intro l
    induction l with
    | nil => exact fun y => ⟨y.results, rfl⟩
    | cons kw l ih =>
      intro y
      obtain ⟨v, hv⟩ := ih (y.maskResult r kw.1 kw.2.1 kw.2.2)
      exact ⟨v, hv⟩
  obtain ⟨v, hv⟩ := hfold p.words x
  unfold Rec.writeReport
  rw [hv]
  dsimp only
  split
  · rfl
  · split <;> rfl

theorem State.trigger_recog (source : BitVec 8) (at_ came : Tick) (r8 r9 : Word) (s : State) :
    (s.recogTrigger source at_ came r8 r9).recog = s.recog :=
  State.recog_of_mask (ps := [.cap]) (by simp) (by decide)

theorem State.queueEvent_recog (source : BitVec 6) (ts : Tick) (r8 r9 : Word) (ready : Tick) (s : State) :
    (s.queueEvent source ts r8 r9 ready).recog = s.recog :=
  State.recog_of_mask (ps := [.buf]) (by simp) (by decide)

/-- A report without an event writes its result words and nothing else (R257). -/
theorem State.report_quiet (h : p.evt = false) (r : Nat) (s : State) : s.report r p = s.modRecog fun x => x.writeReport r p := by
  simp [State.report, h]

/-- What a report at an event makes of the recognisers' state (R257, R258). -/
def Rec.evented (x : Rec) (r : Nat) (p : Report) : Rec :=
  { x.writeReport r p with evt := putBit x.evt r true, lost := x.lost || x.evt.getLsbD r }

theorem State.report_recog (h : p.evt = true) (r : Nat) (s : State) : (s.report r p).recog = s.recog.evented r p := by
  have hwrite := s.recog.writeReport_eq r p
  have hstart : ((s.modRecog fun x => x.writeReport r p).modRecog fun y =>
      { y with evt := putBit y.evt r true, lost := y.lost || y.evt.getLsbD r }).recog = s.recog.evented r p := by
    rw [Rec.evented, State.modRecog_recog, State.modRecog_recog, hwrite]
  unfold State.report
  rw [h]
  dsimp only
  rw [if_neg (by decide)]
  simp only [apply_ite State.recog, State.trigger_recog, State.queueEvent_recog, ite_self]
  exact hstart

/-- With neither EV_FRAME nor EV_CAPT a report reaches the recognisers and the machines' pulses alone (R258). -/
theorem State.report_bare (hf : s.recog.frame.getLsbD r = false) (hc : s.recog.capt.getLsbD r = false) {ps : List Part}
    (h1 : Part.recog ∈ ps) (h2 : Part.smc ∈ ps) : (s.report r p).mask ps = s.mask ps := by
  have hwrite := s.recog.writeReport_eq r p
  have hf' : (s.recog.writeReport r p).frame.getLsbD r = false := by rw [hwrite]; exact hf
  have hc' : (s.recog.writeReport r p).capt.getLsbD r = false := by rw [hwrite]; exact hc
  unfold State.report
  dsimp only
  rw [State.modRecog_recog, hf', hc']
  simp only [Bool.false_eq_true, if_false]
  split <;> simp [h1, h2]

/-! ### The fields that reports and restarts leave -/

/-- The enables, the parameters and the request for a reference are the same. -/
def Rec.SameControls (x y : Rec) : Prop :=
  y.en = x.en ∧ y.frame = x.frame ∧ y.capt = x.capt ∧ y.scarFr = x.scarFr ∧ y.params = x.params ∧ y.tilt.setRef = x.tilt.setRef

theorem Rec.SameControls.refl (x : Rec) : x.SameControls x := ⟨rfl, rfl, rfl, rfl, rfl, rfl⟩

theorem Rec.SameControls.trans {z : Rec} (h : x.SameControls y) (h' : y.SameControls z) : x.SameControls z := by
  obtain ⟨h1, h2, h3, h4, h5, h6⟩ := h
  obtain ⟨g1, g2, g3, g4, g5, g6⟩ := h'
  exact ⟨g1.trans h1, g2.trans h2, g3.trans h3, g4.trans h4, g5.trans h5, g6.trans h6⟩

theorem Rec.writeReport_controls (x : Rec) (r : Nat) (p : Report) : x.SameControls (x.writeReport r p) := by
  rw [x.writeReport_eq]
  exact ⟨rfl, rfl, rfl, rfl, rfl, rfl⟩

theorem State.report_controls (r : Nat) (p : Report) (s : State) : s.recog.SameControls (s.report r p).recog := by
  cases hevt : p.evt
  · rw [State.report_quiet hevt]
    exact s.recog.writeReport_controls r p
  · rw [State.report_recog hevt]
    exact s.recog.writeReport_controls r p

theorem Rec.idle_controls (x : Rec) (r : Nat) : x.SameControls (x.idle r) := by
  unfold Rec.idle
  split <;> exact ⟨rfl, rfl, rfl, rfl, rfl, rfl⟩

/-- The report of a field that may hold one, after its field has been emptied. -/
def State.reportDue (due : Rec → Option Report) (clear : Rec → Rec) (r : Nat) (s : State) : State :=
  match due s.recog with
  | some p => (s.modRecog clear).report r p
  | none => s

/-- TRANSIENT_REARM where it is owed (R269). -/
def State.rearmDue (s : State) : State :=
  if s.recog.trans.rearm then s.modRecog fun x => { x with trans := { x.trans with rearm := false } }.maskResult 3 0 1#32 0#32
  else s

theorem State.reportDue_controls {clear : Rec → Rec} (h : ∀ x : Rec, x.SameControls (clear x)) (due : Rec → Option Report)
    (r : Nat) (hs : x.SameControls s.recog) : x.SameControls (s.reportDue due clear r).recog := by
  refine hs.trans ?_
  unfold State.reportDue
  split
  · exact (h s.recog).trans ((s.modRecog clear).report_controls r _)
  · exact .refl _

theorem State.rearmDue_controls (hs : x.SameControls s.recog) : x.SameControls s.rearmDue.recog := by
  refine hs.trans ?_
  unfold State.rearmDue
  split
  · exact ⟨rfl, rfl, rfl, rfl, rfl, rfl⟩
  · exact .refl _

theorem State.reportDue_none {due : Rec → Option Report} (h : due s.recog = none) (clear : Rec → Rec) (r : Nat) :
    s.reportDue due clear r = s := by simp only [State.reportDue, h]

/-- flushReports through reportDue: the same steps in the same order. -/
theorem State.flushReports_eq (s : State) : s.flushReports =
    State.reportDue (·.tilt.due) (fun x => { x with tilt := { x.tilt with due := none } }) 4 (State.rearmDue
    (State.reportDue (·.trans.due) (fun x => { x with trans := { x.trans with due := none } }) 3
    (State.reportDue (·.fall.due) (fun x => { x with fall := { x.fall with due := none } }) 2
    (State.reportDue (·.cadence.due) (fun x => { x with cadence := { x.cadence with due := none } }) 1
    (State.reportDue (·.cadence.endDue) (fun x => { x with cadence := { x.cadence with endDue := none } }) 1
    (State.reportDue (·.impact.winDue) (fun x => { x with impact := { x.impact with winDue := none } }) 0
    (State.reportDue (·.impact.due) (fun x => { x with impact := { x.impact with due := none } }) 0 s))))))) := rfl

theorem State.flushReports_controls (s : State) : s.recog.SameControls s.flushReports.recog := by
  rw [State.flushReports_eq]
  refine State.reportDue_controls (by exact fun x => ⟨rfl, rfl, rfl, rfl, rfl, rfl⟩) _ _ (State.rearmDue_controls ?_)
  refine State.reportDue_controls (by exact fun x => ⟨rfl, rfl, rfl, rfl, rfl, rfl⟩) _ _ ?_
  refine State.reportDue_controls (by exact fun x => ⟨rfl, rfl, rfl, rfl, rfl, rfl⟩) _ _ ?_
  refine State.reportDue_controls (by exact fun x => ⟨rfl, rfl, rfl, rfl, rfl, rfl⟩) _ _ ?_
  refine State.reportDue_controls (by exact fun x => ⟨rfl, rfl, rfl, rfl, rfl, rfl⟩) _ _ ?_
  refine State.reportDue_controls (by exact fun x => ⟨rfl, rfl, rfl, rfl, rfl, rfl⟩) _ _ ?_
  exact State.reportDue_controls (by exact fun x => ⟨rfl, rfl, rfl, rfl, rfl, rfl⟩) _ _ (.refl _)

/-- Where no report is owed none is made (R258). -/
theorem State.flushReports_of_noReports (h : s.recog.noReports = true) : s.flushReports = s := by
  simp only [Rec.noReports, Bool.and_eq_true, Option.isNone_iff_eq_none, Bool.not_eq_true'] at h
  obtain ⟨⟨⟨⟨⟨⟨⟨h1, h2⟩, h3⟩, h4⟩, h5⟩, h6⟩, h7⟩, h8⟩ := h
  have hrearm : s.rearmDue = s := by rw [State.rearmDue, h7, if_neg Bool.false_ne_true]
  rw [State.flushReports_eq, State.reportDue_none (due := (·.impact.due)) h1, State.reportDue_none (due :=
      (·.impact.winDue)) h2, State.reportDue_none (due := (·.cadence.endDue)) h4,
    State.reportDue_none (due := (·.cadence.due)) h3, State.reportDue_none (due := (·.fall.due)) h5, State.reportDue_none
        (due := (·.trans.due)) h6, hrearm, State.reportDue_none (due := (·.tilt.due)) h8]

/-! ### A restart -/

/-- The recognisers that begin to run. -/
def State.recogFresh (s : State) : BitVec 6 := s.recogWant &&& ~~~s.recog.live

theorem State.refreshRecog_recog (s : State) : s.refreshRecog.recog =
    { foldUpto (fun y r => if s.recogFresh.getLsbD r then y.idle r else y)
        (if s.recogFresh = 0#6 then s else s.flushReports).recog 6 with live := s.recogWant } := rfl

theorem State.refreshRecog_controls (s : State) : s.recog.SameControls s.refreshRecog.recog := by
  rw [State.refreshRecog_recog]
  have hfold := foldUpto_keeps
    (s.recog.SameControls) (f := fun y r => if s.recogFresh.getLsbD r then y.idle r else y) (fun y r hy => ?_)
    (a := (if s.recogFresh = 0#6 then s else s.flushReports).recog) ?_ 6
  · exact hfold
  · split
    · exact hy.trans (y.idle_controls r)
    · exact hy
  · split
    · exact .refl _
    · exact s.flushReports_controls

/-- A recogniser that starts touches no result word of another, and no event bit. -/
theorem Rec.idle_results (x : Rec) (r : Nat) :
    (x.idle r).evt = x.evt ∧ ∀ q : Fin 6, q.val ≠ r → r < 6 → (x.idle r).results[q] = x.results[q] := by
  unfold Rec.idle
  split
  case h_6 h0 h1 h2 h3 h4 =>
    refine ⟨rfl, fun q hq hr => ?_⟩
    have h5 : r = 5 := by
      have h0 : r ≠ 0 := h0
      have h1 : r ≠ 1 := h1
      have h2 : r ≠ 2 := h2
      have h3 : r ≠ 3 := h3
      have h4 : r ≠ 4 := h4
      omega
    subst h5
    exact (Rec.results_setResult_ne hq _).trans (Rec.results_setResult_ne hq _)
  case h_1 => exact ⟨rfl, fun q _ _ => rfl⟩
  all_goals exact ⟨rfl, fun q hq _ => Rec.results_setResult_ne hq _⟩

/-- With no report owed a refresh leaves the event bits and the results of what does not begin to run. -/
theorem State.refreshRecog_results (h : s.recog.noReports = true) :
    s.refreshRecog.recog.evt = s.recog.evt ∧
    (∀ q : Fin 6, s.recogFresh.getLsbD q.val = false → s.refreshRecog.recog.results[q] = s.recog.results[q]) ∧
    s.refreshRecog.mask [.recog] = s.mask [.recog] := by
  have hflush : (if s.recogFresh = 0#6 then s else s.flushReports) = s := by
    rw [State.flushReports_of_noReports h, ite_self]
  refine ⟨?evt, fun q hq => ?results, ?mask⟩
  case evt =>
    rw [State.refreshRecog_recog, hflush]
    refine foldUpto_keeps (fun y : Rec => y.evt = s.recog.evt) (fun y r hy => ?_) rfl 6
    split
    · exact (y.idle_results r).1.trans hy
    · exact hy
  case results =>
    rw [State.refreshRecog_recog, hflush]
    refine foldUpto_keeps (fun y : Rec => y.results[q] = s.recog.results[q]) (fun y r hy => ?_) rfl 6
    split
    · next hr =>
      have hne : q.val ≠ r := fun e => by rw [e, hr] at hq; exact Bool.noConfusion hq
      exact ((y.idle_results r).2 q hne (BitVec.lt_of_getLsbD hr)).trans hy
    · exact hy
  case mask =>
    have hstep : s.refreshRecog = (if s.recogFresh = 0#6 then s else s.flushReports).modRecog fun x =>
        { foldUpto (fun y r => if s.recogFresh.getLsbD r then y.idle r else y) x 6 with live := s.recogWant } := rfl
    rw [hstep, hflush]
    simp

end
end Sys2Proof.Machine
end

section
/-!
PROOFS. Writes and reads of the recognisers' registers, and their reports (R251, R253, R254, R257 to R259, R269, R271).
-/

namespace Sys2Proof.Machine

open Sys2Proof

section
variable {s t : State} {x y : Rec} {p : Report} {r k : Nat}

/-! ### Checks and abandoned detections -/

/-- Parameters and enables after a change of CFG_ERR, states of detectors and result words alone. -/
theorem Rec.abandon_controls (x : Rec) (r : Nat) : x.SameControls (x.abandon r) ∧ (x.abandon r).evt = x.evt := by
  unfold Rec.abandon
  split <;> (try split) <;> exact ⟨⟨rfl, rfl, rfl, rfl, rfl, rfl⟩, rfl⟩

theorem Rec.abandon_noReports (h : x.noReports = true) (r : Nat) : (x.abandon r).noReports = true := by
  unfold Rec.abandon
  split <;> (try split) <;> exact h

/-! ### EVT_CTRL -/

/-- EVT_CTRL with its fields taken and the enables that rise checked (R251, R253). -/
def Rec.takeCtrl (w : Word) (x : Rec) : Rec :=
  foldUpto (fun y r => if (bits w 0 6).getLsbD r && !x.en.getLsbD r then y.check r else y)
    { x with en := bits w 0 6, frame := bits w 8 6, capt := bits w 16 6, scarFr := bitAt w 22 } 6

theorem State.writeEvtCtrl_eq (w : Word) (s : State) : s.writeEvtCtrl w = (s.modRecog (Rec.takeCtrl w)).refreshRecog := rfl

theorem State.hostWrite_evtCtrl (h : s.Reaches 33) (w : Word) : s.hostWrite 33 w = (s.writeEvtCtrl w).finishWrite :=
  State.hostWrite_plain (i := 33) h rfl w

/-- A check of enables that rise changes CFG_ERR alone. -/
theorem Rec.takeCtrl_eq (w : Word) (x : Rec) : ∃ e, x.takeCtrl w =
    { x with en := bits w 0 6, frame := bits w 8 6, capt := bits w 16 6, scarFr := bitAt w 22, cfgErr := e } := by
  refine foldUpto_keeps (fun y : Rec => ∃ e, y =
    { x with en := bits w 0 6, frame := bits w 8 6, capt := bits w 16 6, scarFr := bitAt w 22, cfgErr := e }) ?_ ⟨x.cfgErr, rfl⟩ 6
  rintro y r ⟨e, rfl⟩
  split
  · exact ⟨_, rfl⟩
  · exact ⟨e, rfl⟩

/-- A recogniser whose enable is 0, or that runs already, does not begin to run. -/
theorem State.recogFresh_false (h : s.recog.live.getLsbD k = true ∨ s.recog.en.getLsbD k = false) :
    s.recogFresh.getLsbD k = false := by
  rcases h with hlive | hen
  · simp [State.recogFresh, hlive]
  · have hwant : s.recogWant.getLsbD k = false := by
      unfold State.recogWant
      split
      · simp [hen]
      · simp
    simp [State.recogFresh, hwant]

theorem State.writeEvtCtrl_facts (w : Word) (s : State) :
    let t := s.writeEvtCtrl w
    t.recog.en = bits w 0 6 ∧ t.recog.frame = bits w 8 6 ∧ t.recog.capt = bits w 16 6 ∧ t.recog.scarFr = bitAt w 22 ∧
    (s.recog.noReports = true → t.recog.evt = s.recog.evt ∧ t.recog.params = s.recog.params ∧
      (∀ q : Fin 6, s.recog.live.getLsbD q.val = true ∨ bitAt w q.val = false → t.recog.results[q] = s.recog.results[q]) ∧
      t.mask [.recog] = s.mask [.recog]) := by
  obtain ⟨e, htake⟩ := s.recog.takeCtrl_eq w
  obtain ⟨hen, hframe, hcapt, hscar, hparams, -⟩ := (s.modRecog (Rec.takeCtrl w)).refreshRecog_controls
  dsimp only
  rw [State.writeEvtCtrl_eq]
  rw [State.modRecog_recog, htake] at hen hframe hcapt hscar hparams
  refine ⟨hen, hframe, hcapt, hscar, fun hno => ?_⟩
  have hno' : (s.modRecog (Rec.takeCtrl w)).recog.noReports = true := by
    rw [State.modRecog_recog, htake]
    exact hno
  obtain ⟨hevt, hresults, hmask⟩ := State.refreshRecog_results hno'
  refine ⟨hevt.trans ?_, hparams, fun q hq => (hresults q (State.recogFresh_false ?_)).trans ?_, hmask.trans (by simp)⟩
  · rw [State.modRecog_recog, htake]
  · rw [State.modRecog_recog, htake]
    exact hq.imp_right fun hb => by rw [getLsbD_bits, Nat.zero_add, hb, Bool.and_false]
  · rw [State.modRecog_recog, htake]

/-! ### Parameter words -/

/-- A parameter word as it stands after a write, with the detection in progress abandoned and the configuration checked. -/
def Rec.takeParam (r k : Nat) (w : Word) (x : Rec) : Rec :=
  let y := (x.setParam r k (w &&& paramMask r k)).abandon r
  let y := if r = 4 ∧ k = 0 ∧ bitAt w 4 then { y with tilt := { y.tilt with setRef := true } } else y
  y.check r

theorem State.writeRecParam_eq (h : paramMask r k ≠ 0#32) (w : Word) (s : State) :
    s.writeRecParam r k w = (s.modRecog (Rec.takeParam r k w)).refreshRecog := by
  rw [State.writeRecParam, if_neg h]
  rfl

theorem Rec.takeParam_facts (r k : Nat) (w : Word) (x : Rec) :
    (x.takeParam r k w).params = (x.setParam r k (w &&& paramMask r k)).params ∧ (x.takeParam r k w).en = x.en ∧
    (x.takeParam r k w).evt = x.evt ∧ (x.noReports = true → (x.takeParam r k w).noReports = true) ∧
    (r = 4 → k = 0 → bitAt w 4 = true → (x.takeParam r k w).tilt.setRef = true) := by
  obtain ⟨⟨hen, -, -, -, hparams, -⟩, hevt⟩ := (x.setParam r k (w &&& paramMask r k)).abandon_controls r
  have hno : x.noReports = true → ((x.setParam r k (w &&& paramMask r k)).abandon r).noReports = true :=
    fun h => Rec.abandon_noReports (x := x.setParam r k (w &&& paramMask r k)) h r
  unfold Rec.takeParam
  dsimp only
  split
  · exact ⟨hparams, hen, hevt, hno, fun _ _ _ => rfl⟩
  · next hne => exact ⟨hparams, hen, hevt, hno, fun hr hk hw => absurd ⟨hr, hk, hw⟩ hne⟩

theorem Rec.param_congr (h : y.params = x.params) (q j : Nat) : y.param q j = x.param q j := by
  rw [Rec.param, Rec.param, h]

theorem State.writeRecParam_facts (hr : r < 6) (hk : k < 8) (h : paramMask r k ≠ 0#32) (w : Word) (s : State) :
    let t := s.writeRecParam r k w
    t.recog.param r k = w &&& paramMask r k ∧ (∀ q j, q ≠ r ∨ j ≠ k → t.recog.param q j = s.recog.param q j) ∧
    t.recog.en = s.recog.en ∧ (r = 4 → k = 0 → bitAt w 4 = true → t.recog.tilt.setRef = true) ∧
    (s.recog.noReports = true → t.recog.evt = s.recog.evt ∧ t.mask [.recog] = s.mask [.recog]) := by
  obtain ⟨htparams, hten, htevt, htno, htref⟩ := s.recog.takeParam_facts r k w
  obtain ⟨hen, -, -, -, hparams, href⟩ := (s.modRecog (Rec.takeParam r k w)).refreshRecog_controls
  rw [State.modRecog_recog] at hen hparams href
  dsimp only
  rw [State.writeRecParam_eq h]
  have hparam := Rec.param_congr (hparams.trans htparams)
  refine ⟨(hparam r k).trans (Rec.param_setParam_self hr hk _), fun q j hqj => (hparam q j).trans (Rec.param_setParam_ne hqj _),
    hen.trans hten, fun h4 h0 hw => href.trans (htref h4 h0 hw), fun hno => ?_⟩
  obtain ⟨hevt, -, hmask⟩ := State.refreshRecog_results (s := s.modRecog (Rec.takeParam r k w)) (htno hno)
  exact ⟨hevt.trans htevt, hmask.trans (by simp)⟩

theorem State.tsWrite_recParam (hr : r < 6) (hk : k < 8) (w : Word) (s : State) :
    s.tsWrite (0x4000 + 16 * r + k) w = s.writeRecParam r k w := by
  have hpage : (0x4000 + 16 * r + k) / 4096 = 4 := by omega
  have hoff : (0x4000 + 16 * r + k) % 4096 = 16 * r + k := by omega
  have hr' : (16 * r + k) / 16 = r := by omega
  have hk' : (16 * r + k) % 16 = k := by omega
  unfold State.tsWrite
  rw [hpage, hoff]
  simp only [State.writeRecog, hr', hk', if_pos hk, if_pos (show 16 * r + k < 0x60 by omega)]

/-! ### The snapshot -/

theorem State.winRead_result (hr : r < 6) (hat : s.winAt = 0x4008 + 16 * r) (hl : s.host.latched = false) :
    s.winRead = (s.recog.result r 0, (s.modRecog fun x => x.snapRead r).winNext) := by
  have hpage : (0x4008 + 16 * r) / 4096 = 4 := by omega
  have hoff : (0x4008 + 16 * r) % 4096 = 16 * r + 8 := by omega
  have hr' : (16 * r + 8) / 16 = r := by omega
  have hk' : (16 * r + 8) % 16 = 8 := by omega
  have hin : 16 * r + 8 < 0x60 := by omega
  have hword : s.tsWord (0x4008 + 16 * r) = some (s.recog.result r 0) := by
    unfold State.tsWord
    rw [hpage, hoff]
    simp [State.readRecog, hr', hk', hin]
  have heffect : s.tsReadEffect (0x4008 + 16 * r) = s.modRecog fun x => x.snapRead r := by
    unfold State.tsReadEffect
    rw [hpage, hoff]
    simp only [hr', hin, show (0x4008 + 16 * r) % 16 = 8 by omega, and_self, if_true]
  have hlow : s.tsLow64 (0x4008 + 16 * r) = false := by
    unfold State.tsLow64
    rw [hpage]
    simp [show (0x4008 + 16 * r) % 16 = 8 by omega]
  unfold State.winRead
  rw [hat]
  simp only [hl, hword, heffect, hlow, Bool.false_eq_true, false_and, if_false, Option.getD_some]

@[simp] theorem State.finishRead_recog (q : Word × State) : (State.finishRead q).recog = q.2.recog := rfl

theorem Rec.snapRead_facts (r : Fin 6) (x : Rec) : (x.snapRead r).snap[r] = x.results[r] ∧
    (x.snapRead r).results = x.results ∧ ∀ q : Fin 6, q ≠ r → (x.snapRead r).snap[q] = x.snap[q] := by
  refine ⟨by simp [Rec.snapRead, Vector.getD], rfl, fun q hq => ?_⟩
  have hne : r.val ≠ q.val := fun e => hq (Fin.ext e.symm)
  simp [Rec.snapRead, hne]

end

/-- Settles O21: EVT_CTRL and the parameter words through Rec.takeCtrl and Rec.takeParam, each with State.refreshRecog; the
snapshot through the window's read of offset 8. -/
theorem recogniserWritesComplete : Obligations.RecogniserWritesComplete := by
  unfold Obligations.RecogniserWritesComplete
  refine ⟨fun s w h => ?ctrl, fun s r k w h hm => ?param, fun s r k w h hm => ?reserved, fun s h => ?setRef, fun s r h => ?snap⟩
  case ctrl =>
    refine .answer (congrArg (answer s) (State.hostWrite_evtCtrl h w)) ?_
    obtain ⟨hen, hframe, hcapt, hscar, hquiet⟩ := s.writeEvtCtrl_facts w
    have hhost : (s.writeEvtCtrl w).host = s.host := State.host_of_mask (ps := [.recog, .cap, .smc, .buf]) (by simp) (by decide)
    simp only [State.arbitrate_recog, State.finishWrite_recog, State.arbitrate_host]
    refine ⟨hen, hframe, hcapt, hscar, fun hno => ?_, ?_, by simp [Same]⟩
    · obtain ⟨hevt, hparams, hresults, hmask⟩ := hquiet hno
      have hmask' := State.mask_mono (qs := [.recog, .host, .int]) hmask (by decide)
      exact ⟨hevt, hparams, hresults, by simp [Same, hmask']⟩
    · exact congrArg (fun h : HostIf => { h with done := true, valid := false }) hhost
  case param =>
    refine .answer (congrArg (answer s) (State.hostTs_reaches h w)) ?_
    rw [State.tsWrite_recParam r.isLt k.isLt]
    obtain ⟨hself, hothers, hen, -, hquiet⟩ :=
      ((s.atWord (0x4000 + 16 * r.val + k.val)).touchTs (0x4000 + 16 * r.val + k.val)).writeRecParam_facts r.isLt k.isLt hm w
    simp only [State.arbitrate_recog, State.finishWrite_recog, State.winNext_recog]
    rw [State.touchTs_recog] at hothers hen hquiet
    refine ⟨hself, hothers, hen, fun hno => ?_, by simp [Same]⟩
    obtain ⟨hevt, hmask⟩ := hquiet hno
    have hmask' := State.mask_mono (qs := [.recog, .pwr, .host, .int]) hmask (by decide)
    exact ⟨hevt, by simp [Same, hmask']⟩
  case reserved =>
    refine .answer (congrArg (answer s) (State.hostTs_reaches h w)) ?_
    rw [State.tsWrite_recParam r.isLt k.isLt, State.writeRecParam, if_pos hm]
    exact ⟨by simp, by simp [Same]⟩
  case setRef =>
    refine .answer (congrArg (answer s) (State.hostTs_reaches h _)) ?_
    rw [show 0x4040 = 0x4000 + 16 * 4 + 0 from rfl, State.tsWrite_recParam (by omega) (by omega)]
    have hbit : bitAt (s.recog.param 4 0 ||| flg true 4) 4 = true := by
      rw [bitAt_or, bitAt_flg_self _ _ (by omega), Bool.or_true]
    obtain ⟨-, hothers, -, href, -⟩ :=
      ((s.atWord (0x4000 + 16 * 4 + 0)).touchTs (0x4000 + 16 * 4 + 0)).writeRecParam_facts (by omega) (by omega)
        (by decide : paramMask 4 0 ≠ 0#32) (s.recog.param 4 0 ||| flg true 4)
    simp only [State.arbitrate_recog, State.finishWrite_recog, State.winNext_recog]
    rw [State.touchTs_recog] at hothers
    exact ⟨href rfl rfl hbit, hothers, by simp [Same]⟩
  case snap =>
    refine .answer (congrArg (answer s) (State.hostTsRead_reaches h)) ?_
    rw [State.winRead_result r.isLt (State.winAt_touchTs h.2.1) (by simp [State.atWord])]
    simp only [State.arbitrate_recog, State.arbitrate_host, State.finishRead_recog, State.finishRead_host]
    obtain ⟨hself, hresults, hothers⟩ := s.recog.snapRead_facts r
    refine ⟨by simp, ?_, ?_, ?_, by simp [Same]⟩
    all_goals simp only [State.winNext_recog, State.modRecog_recog, State.touchTs_recog]
    · exact hself
    · exact hresults
    · exact hothers

section
variable {s : State} {x y : Rec} {p : Report} {r : Nat} {clear : Rec → Rec}

/-! ### Reports that are due -/

theorem State.makeReport_due (hsm : s.hasSm = true) (hon : s.isOn .en = true) (p : Report) (r : Nat) (clear : Rec → Rec) :
    s.makeReport r (some p) clear = event true s ((s.modRecog clear).report r p) := by
  rw [State.makeReport, hsm, hon]
  rfl

theorem Rec.result_congr (h : y.results = x.results) (q j : Nat) : y.result q j = x.result q j := by
  rw [Rec.result, Rec.result, h]

theorem Rec.setResult_results (h : y.results = x.results) (q j : Nat) (w : Word) :
    (y.setResult q j w).results = (x.setResult q j w).results := by
  simp only [Rec.setResult, h]

theorem Rec.maskResult_results (h : y.results = x.results) (q j : Nat) (m w : Word) :
    (y.maskResult q j m w).results = (x.maskResult q j m w).results := by
  rw [Rec.maskResult, Rec.maskResult, Rec.result_congr h]
  exact Rec.setResult_results h ..

theorem Rec.foldl_maskResult_results (r : Nat) (l : List (Nat × Word × Word)) (h : y.results = x.results) :
    (l.foldl (fun y kw => y.maskResult r kw.1 kw.2.1 kw.2.2) y).results =
      (l.foldl (fun y kw => y.maskResult r kw.1 kw.2.1 kw.2.2) x).results := by
  induction l generalizing x y with
  | nil => exact h
  | cons kw l ih => exact ih (Rec.maskResult_results h ..)

/-- A report's result words follow from the result words before it. -/
theorem Rec.writeReport_results (h : y.results = x.results) (r : Nat) (p : Report) :
    (y.writeReport r p).results = (x.writeReport r p).results := by
  have hwords := Rec.foldl_maskResult_results r p.words h
  unfold Rec.writeReport
  dsimp only
  rw [Rec.result_congr hwords]
  split
  · exact hwords
  · split
    · exact Rec.maskResult_results (Rec.setResult_results hwords ..) ..
    · exact Rec.setResult_results hwords ..

/-- clear empties the field of a report, and nothing that a report reads or the host sees. -/
structure Rec.Empties (clear : Rec → Rec) (x : Rec) : Prop where
  frame : (clear x).frame = x.frame
  capt : (clear x).capt = x.capt
  results : (clear x).results = x.results
  evt : (clear x).evt = x.evt
  lost : (clear x).lost = x.lost

/-- What a report at an event leaves with no enable in EVT_CTRL; part is a part of the state that no report reaches. -/
theorem State.event_report {c : Instr} {α : Type} {part : Rec → α} (hexec : exec c s = s.makeReport r (some p) clear)
    (hsm : s.hasSm = true) (hon : s.isOn .en = true) (hframe : s.recog.frame = 0#6) (hcapt : s.recog.capt = 0#6)
    (hevt : p.evt = true) (hclear : s.recog.Empties clear)
    (hpart : ∀ (x : Rec) v e l, part { x with results := v, evt := e, lost := l } = part x) :
    Completes c s fun t =>
      t.recog.results = (s.recog.writeReport r p).results ∧ t.recog.evt = putBit s.recog.evt r true ∧
      t.recog.lost = (s.recog.lost || s.recog.evt.getLsbD r) ∧ part t.recog = part (clear s.recog) ∧
      Same [.recog, .smc, .int] s t := by
  have hmask : ((s.modRecog clear).report r p).mask [.recog, .smc, .int] = (s.modRecog clear).mask [.recog, .smc, .int] :=
    State.report_bare (by rw [State.modRecog_recog, hclear.frame, hframe]; simp)
      (by rw [State.modRecog_recog, hclear.capt, hcapt]; simp) (by decide) (by decide)
  refine ⟨_, hexec.trans (State.makeReport_due hsm hon p r clear), ?_⟩
  dsimp only
  rw [State.arbitrate_recog, State.report_recog hevt, State.modRecog_recog]
  refine ⟨Rec.writeReport_results hclear.results r p, ?_, ?_, ?_, by simp [Same, hmask]⟩
  · rw [Rec.evented, hclear.evt]
  · rw [Rec.evented, hclear.evt, hclear.lost]
  · rw [Rec.evented, Rec.writeReport_eq]
    exact hpart (clear s.recog) _ _ _

/-- What a report without an event leaves (R257). -/
theorem State.quiet_report {c : Instr} {α : Type} {part : Rec → α} (hexec : exec c s = s.makeReport r (some p) clear)
    (hsm : s.hasSm = true) (hon : s.isOn .en = true) (hevt : p.evt = false) (hclear : s.recog.Empties clear)
    (hpart : ∀ (x : Rec) v, part { x with results := v } = part x) :
    Completes c s fun t =>
      t.recog.results = (s.recog.writeReport r p).results ∧ t.recog.evt = s.recog.evt ∧ part t.recog = part (clear s.recog) ∧
      Same [.recog, .int] s t := by
  refine ⟨_, hexec.trans (State.makeReport_due hsm hon p r clear), ?_⟩
  rw [State.report_quiet hevt]
  simp only [State.arbitrate_recog, State.modRecog_recog]
  refine ⟨Rec.writeReport_results hclear.results r p, ?_, ?_, by simp [Same]⟩
  · rw [Rec.writeReport_eq]
    exact hclear.evt
  · rw [Rec.writeReport_eq]
    exact hpart ..

/-- An EVENT frame joins the queue as one more (R258, R370). -/
theorem placeByOrder_facts (e : EventFrame) (l : List EventFrame) :
    e ∈ placeByOrder e l ∧ (placeByOrder e l).length = l.length + 1 := by
  induction l with
  | nil => exact ⟨List.mem_singleton.mpr rfl, rfl⟩
  | cons f fs ih =>
    obtain ⟨hmem, hlen⟩ := ih
    unfold placeByOrder
    split
    · exact ⟨List.mem_cons_self, rfl⟩
    · exact ⟨List.mem_cons_of_mem _ hmem, congrArg (· + 1) hlen⟩

theorem State.queueEvent_writing (h : s.buf.writing = true) (source : BitVec 6) (ts : Tick) (r8 r9 : Word) (ready : Tick) :
    s.queueEvent source ts r8 r9 ready =
      s.modBuf fun b => { b with events := placeByOrder ⟨source, ts, r8, r9, s.untimedAt ts, ready⟩ b.events } := by
  rw [State.queueEvent, if_pos h]

/-- With EV_FRAME alone, while the writer runs, a report at an event queues its EVENT frame (R258, R259). -/
theorem State.report_frame (hevt : p.evt = true) (hf : s.recog.frame.getLsbD r = true) (hc : s.recog.capt.getLsbD r = false)
    (hw : s.buf.writing = true) :
    (∃ e ∈ (s.report r p).buf.events, e.source = BitVec.ofNat 6 (9 + r) ∧ e.ts = p.ts ∧
      e.r8 = (s.report r p).recog.result r 0 ∧ e.r9 = (s.report r p).recog.result r 1) ∧
    (s.report r p).buf.events.length = s.buf.events.length + 1 ∧ Same [.recog, .smc, .buf] s (s.report r p) := by
  have hwrite := s.recog.writeReport_eq r p
  have hrec := State.report_recog hevt r s
  have hf' : (s.recog.writeReport r p).frame.getLsbD r = true := by rw [hwrite]; exact hf
  have hc' : (s.recog.writeReport r p).capt.getLsbD r = false := by rw [hwrite]; exact hc
  rw [hrec]
  have hres : ∀ q j, (s.recog.evented r p).result q j = (s.recog.writeReport r p).result q j := fun _ _ => rfl
  simp only [hres]
  unfold State.report
  simp only [State.modRecog_recog, hevt, hf', hc', Bool.not_true, Bool.false_eq_true, if_false, if_true]
  rw [State.queueEvent_writing (by exact hw)]
  obtain ⟨hmem, hlen⟩ := placeByOrder_facts
    ⟨BitVec.ofNat 6 (9 + r), p.ts, (s.recog.writeReport r p).result r 0, (s.recog.writeReport r p).result r 1,
        s.untimedAt p.ts, p.ready⟩
    s.buf.events
  exact ⟨⟨_, hmem, rfl, rfl, rfl, rfl⟩, hlen, by simp [Same, State.pulseMachines]⟩

end

/-- Settles O22: each report is State.makeReport on its own field; what it writes is Rec.evented at an event and
Rec.writeReport without one. -/
theorem recogniserReportsComplete : Obligations.RecogniserReportsComplete := by
  unfold Obligations.RecogniserReportsComplete
  refine ⟨fun s p hsm hon hframe hcapt hevt => ⟨fun hd => ?impact, fun hd => ?win, fun hd => ?cadence, fun hd => ?cadenceEnd,
    fun hd => ?fall, fun hd => ?trans, fun hd => ?tilt⟩, fun s p hsm hon hevt => ⟨fun hd => ?peak, fun hd => ?block⟩,
    fun s p hsm hon hevt hframe hcapt hw hd => ?frame, fun s hre hsm hon => ?rearm⟩
  case impact =>
    exact State.event_report (part := Rec.impact) (clear := fun x => { x with impact := { x.impact with due := none } })
      (by rw [exec, execImpactEvent, hd]) hsm hon hframe hcapt hevt ⟨rfl, rfl, rfl, rfl, rfl⟩ fun _ _ _ _ => rfl
  case win =>
    exact State.event_report (part := Rec.impact) (clear := fun x => { x with impact := { x.impact with winDue := none } })
      (by rw [exec, execImpactWinExpiry, hd]) hsm hon hframe hcapt hevt ⟨rfl, rfl, rfl, rfl, rfl⟩ fun _ _ _ _ => rfl
  case cadence =>
    exact State.event_report (part := Rec.cadence) (clear := fun x => { x with cadence := { x.cadence with due := none } })
      (by rw [exec, execCadenceEvent, hd]) hsm hon hframe hcapt hevt ⟨rfl, rfl, rfl, rfl, rfl⟩ fun _ _ _ _ => rfl
  case cadenceEnd =>
    exact State.event_report (part := Rec.cadence) (clear := fun x => { x with cadence := { x.cadence with endDue := none } })
      (by rw [exec, execCadenceEnd, hd]) hsm hon hframe hcapt hevt ⟨rfl, rfl, rfl, rfl, rfl⟩ fun _ _ _ _ => rfl
  case fall =>
    exact State.event_report (part := Rec.fall) (clear := fun x => { x with fall := { x.fall with due := none } })
      (by rw [exec, execFreefallEvent, hd]) hsm hon hframe hcapt hevt ⟨rfl, rfl, rfl, rfl, rfl⟩ fun _ _ _ _ => rfl
  case trans =>
    exact State.event_report (part := Rec.trans) (clear := fun x => { x with trans := { x.trans with due := none } })
      (by rw [exec, execTransientEvent, hd]) hsm hon hframe hcapt hevt ⟨rfl, rfl, rfl, rfl, rfl⟩ fun _ _ _ _ => rfl
  case tilt =>
    exact State.event_report (part := Rec.tilt) (clear := fun x => { x with tilt := { x.tilt with due := none } })
      (by rw [exec, execTiltBlockEnd, hd]) hsm hon hframe hcapt hevt ⟨rfl, rfl, rfl, rfl, rfl⟩ fun _ _ _ _ => rfl
  case peak =>
    exact State.quiet_report (part := Rec.cadence) (clear := fun x => { x with cadence := { x.cadence with due := none } })
      (by rw [exec, execCadenceEvent, hd]) hsm hon hevt ⟨rfl, rfl, rfl, rfl, rfl⟩ fun _ _ => rfl
  case block =>
    exact State.quiet_report (part := Rec.tilt) (clear := fun x => { x with tilt := { x.tilt with due := none } })
      (by rw [exec, execTiltBlockEnd, hd]) hsm hon hevt ⟨rfl, rfl, rfl, rfl, rfl⟩ fun _ _ => rfl
  case frame =>
    have hexec : exec .impactEvent s = s.makeReport 0 (some p) fun x => { x with impact := { x.impact with due := none } } := by
      rw [exec, execImpactEvent, hd]
    obtain ⟨hevent, hlen, hsame⟩ := State.report_frame
      (s := s.modRecog fun x => { x with impact := { x.impact with due := none } }) (r := 0) hevt hframe
      (by rw [State.modRecog_recog, hcapt]; rfl) hw
    refine ⟨_, hexec.trans (State.makeReport_due hsm hon p 0 _), ?_⟩
    dsimp only
    rw [State.arbitrate_buf, State.arbitrate_recog]
    refine ⟨hevent, hlen, ?_⟩
    have hmask := State.mask_mono (qs := [.recog, .smc, .buf, .int]) hsame (by decide)
    simpa [Same] using hmask
  case rearm =>
    refine .event (by rw [exec, execTransientRearm]) (by rw [hre, hsm, hon]; rfl) ?_
    simp only [State.arbitrate_recog, State.modRecog_recog]
    refine ⟨?_, fun k hk => Rec.result_maskResult_ne (.inr hk) _ _, rfl, rfl, by simp [Same]⟩
    rw [Rec.result_maskResult_self (by omega) (by omega), BitVec.zero_and, BitVec.or_zero]
    rfl

end Sys2Proof.Machine
end

section
/-!
PROOFS. START and STOP of the state machines (R343 to R346).
-/

namespace Sys2Proof.Machine

open Sys2Proof

section
variable {s t : State} {m n : Nat}

/-! ### Machines -/

theorem State.machine_congr (h : t.smc = s.smc) (m : Nat) : t.machine m = s.machine m := by rw [State.machine, State.machine, h]

theorem State.machine_modMachine_self (h : m < 8) (f : Smc → Smc) (s : State) : (s.modMachine m f).machine m = f
    (s.machine m) := by
  simp [State.machine, State.modMachine, h]

theorem State.machine_modMachine_ne (h : n ≠ m) (f : Smc → Smc) (s : State) : (s.modMachine m f).machine n = s.machine n := by
  unfold State.machine State.modMachine
  by_cases hn : n < 8
  · by_cases hm : m < 8
    · simp [hn, hm, Ne.symm h]
    · simp [hn, hm]
  · simp [hn]

/-- The programs, the event bits and the shared flags are the same. -/
def State.SameShared (s t : State) : Prop :=
  t.smc.prog = s.smc.prog ∧ t.smc.evt = s.smc.evt ∧ t.smc.flags = s.smc.flags

theorem State.modMachine_shared (m : Nat) (f : Smc → Smc) (s : State) : s.SameShared (s.modMachine m f) := by
  unfold State.SameShared State.modMachine
  rw [State.modSmc_smc]
  split <;> exact ⟨rfl, rfl, rfl⟩

/-- The check at a start reads the machine and its program alone (R344). -/
theorem State.smCheck_congr (hmach : t.machine m = s.machine m)
    (hprog : t.smc.prog = s.smc.prog) : t.smCheck m = s.smCheck m := by
  unfold State.smCheck State.program
  rw [hmach, hprog]

/-! ### A write of SM_CTRL -/

/-- A machine after a start whose check answered so (R344, R345). -/
def Smc.started (q : Smc) : Option (BitVec 3 × BitVec 6) → Smc
  | some (code, st) => { q with cfgErr := true, errCode := code, errState := st }
  | none => { q with running := true, halted := false, startReq := true, cfgErr := false, errCode := 0#3, errState := 0#6 }

/-- A machine that is stopped (R346). -/
def Smc.stopped (q : Smc) : Smc := { q with running := false, halted := false, startReq := false }

/-- Machine m after a write of SM_CTRL. -/
def State.controlled (s : State) (w : Word) (m : Nat) : Smc :=
  if bitAt w (8 + m) then (s.machine m).stopped
  else if bitAt w m then (s.machine m).started (s.smCheck m)
  else s.machine m

/-- The share of machine m in a write of SM_CTRL. -/
def State.smCtrlOne (w : Word) (s : State) (m : Nat) : State :=
  if bitAt w (8 + m) then s.smStopOne m else if bitAt w m then s.smStartOne m else s

theorem State.smCtrlOne_facts (w : Word) (h : m < 8) (s : State) :
    (s.smCtrlOne w m).machine m = s.controlled w m ∧ (∀ j, j ≠ m → (s.smCtrlOne w m).machine j = s.machine j) ∧
    s.SameShared (s.smCtrlOne w m) := by
  unfold State.smCtrlOne State.controlled
  split
  · exact ⟨State.machine_modMachine_self h .., fun j hj => State.machine_modMachine_ne hj .., State.modMachine_shared ..⟩
  · split
    · unfold State.smStartOne
      split
      · next hcheck =>
        rw [hcheck]
        exact ⟨State.machine_modMachine_self h .., fun j hj => State.machine_modMachine_ne hj .., State.modMachine_shared ..⟩
      · next hcheck =>
        rw [hcheck]
        exact ⟨State.machine_modMachine_self h .., fun j hj => State.machine_modMachine_ne hj .., State.modMachine_shared ..⟩
    · exact ⟨rfl, fun j _ => rfl, rfl, rfl, rfl⟩

theorem State.controlled_congr (hmach : t.machine m = s.machine m) (hprog : t.smc.prog = s.smc.prog) (w : Word) :
    t.controlled w m = s.controlled w m := by
  unfold State.controlled
  rw [hmach, State.smCheck_congr hmach hprog]

/-- Every machine takes its own bits, whatever the machines before it took. -/
theorem State.smCtrl_fold (w : Word) (s : State) (hn : n ≤ 8) :
    (∀ m < n, (foldUpto (State.smCtrlOne w) s n).machine m = s.controlled w m) ∧
    (∀ m, n ≤ m → (foldUpto (State.smCtrlOne w) s n).machine m = s.machine m) ∧
    s.SameShared (foldUpto (State.smCtrlOne w) s n) := by
  induction n with
  | zero => exact ⟨fun m hm => absurd hm (Nat.not_lt_zero m), fun m _ => rfl, rfl, rfl, rfl⟩
  | succ n ih =>
    obtain ⟨hbefore, hafter, hprog, hevt, hflags⟩ := ih (by omega)
    obtain ⟨hself, hothers, hprog', hevt', hflags'⟩ := (foldUpto (State.smCtrlOne w) s n).smCtrlOne_facts w (m := n) (by omega)
    refine ⟨fun m hm => ?_, fun m hm => ?_, hprog'.trans hprog, hevt'.trans hevt, hflags'.trans hflags⟩
    · rcases Nat.lt_succ_iff_lt_or_eq.mp hm with hlt | rfl
      · exact (hothers m (by omega)).trans (hbefore m hlt)
      · exact hself.trans (State.controlled_congr (hafter m (Nat.le_refl m)) hprog w)
    · exact (hothers m (by omega)).trans (hafter m (by omega))

theorem State.writeSmCtrl_facts (w : Word) (s : State) :
    (∀ m < 8, (s.writeSmCtrl w).machine m = s.controlled w m) ∧ s.SameShared (s.writeSmCtrl w) := by
  have heq : s.writeSmCtrl w = foldUpto (State.smCtrlOne w) s 8 := rfl
  rw [heq]
  obtain ⟨hmach, -, hshared⟩ := s.smCtrl_fold w (Nat.le_refl 8)
  exact ⟨hmach, hshared⟩

theorem State.tsWrite_smCtrl (w : Word) (s : State) : s.tsWrite 0x6080 w = s.writeSmCtrl w := rfl

/-- What every write of SM_CTRL through the window leaves, machine by machine. -/
theorem State.smCtrl_window (h : s.ReachesTs 0x6080) (w : Word) (c : Instr) (hexec : exec c s = answer s (s.hostTs 0x6080 w)) :
    Completes c s fun t => (∀ m < 8, t.machine m = s.controlled w m) ∧ t.smc.prog = s.smc.prog ∧ t.smc.evt = s.smc.evt ∧
      t.smc.flags = s.smc.flags ∧ Same [.smc, .pwr, .host, .int] s t := by
  refine .answer (hexec.trans (congrArg (answer s) (State.hostTs_reaches h w))) ?_
  rw [State.tsWrite_smCtrl]
  obtain ⟨hmach, hprog, hevt, hflags⟩ := ((s.atWord 0x6080).touchTs 0x6080).writeSmCtrl_facts w
  have hsmc : ((s.atWord 0x6080).touchTs 0x6080).smc = s.smc := State.touchTs_smc 0x6080 (s.atWord 0x6080)
  simp only [State.arbitrate_smc, State.finishWrite_smc, State.winNext_smc]
  rw [hsmc] at hprog hevt hflags
  refine ⟨fun m hm => ?_, hprog, hevt, hflags, by simp [Same]⟩
  refine (State.machine_congr ?_ m).trans
    ((hmach m hm).trans (State.controlled_congr (State.machine_congr hsmc m) (congrArg Smcs.prog hsmc) w))
  simp

end

/-- Settles O27: START and STOP write one half of SM_CTRL each; every machine takes its own bits (State.smCtrl_fold). -/
theorem machinesStartAndStop : Obligations.MachinesStartAndStop := by
  unfold Obligations.MachinesStartAndStop
  refine ⟨fun s mask h => ?start, fun s mask h => ?stop⟩
  case start =>
    have hstop : ∀ m : Fin 8, bitAt (fld mask 0) (8 + m.val) = false := fun m => bitAt_fld_out mask (by omega)
    have hstart : ∀ m : Fin 8, bitAt (fld mask 0) m.val = mask.getLsbD m.val := fun m => by
      rw [bitAt_fld _ (by omega)]; simp
    obtain ⟨t, hexec, hmach, hrest⟩ := State.smCtrl_window h (fld mask 0) (.smStart mask) rfl
    refine ⟨t, hexec, fun m hm hcheck => ?_, fun m c st hm hcheck => ?_, fun m hm => ?_, hrest⟩
    all_goals rw [hmach m m.isLt, State.controlled, hstop, hstart, hm, if_neg Bool.false_ne_true]
    · rw [if_pos rfl, hcheck]
      rfl
    · rw [if_pos rfl, hcheck]
      rfl
    · rw [if_neg Bool.false_ne_true]
  case stop =>
    have hstop : ∀ m : Fin 8, bitAt (fld mask 8) (8 + m.val) = mask.getLsbD m.val := fun m => by
      rw [bitAt_fld _ (by omega)]; simp
    have hstart : ∀ m : Fin 8, bitAt (fld mask 8) m.val = false := fun m => bitAt_fld_out mask (by omega)
    obtain ⟨t, hexec, hmach, hrest⟩ := State.smCtrl_window h (fld mask 8) (.smStop mask) rfl
    refine ⟨t, hexec, fun m hm => ?_, fun m hm => ?_, hrest⟩
    all_goals rw [hmach m m.isLt, State.controlled, hstop, hstart, hm]
    · rw [if_pos rfl]
      rfl
    · rw [if_neg Bool.false_ne_true, if_neg Bool.false_ne_true]

end Sys2Proof.Machine
end

section
/-!
PROOFS. The writer: what placing units, reports and its start and stop keep of the buffer's controls (R352 to R356, R369).
-/

namespace Sys2Proof.Machine

open Sys2Proof

section
variable {s t u : State} {b c d : Buf} {g h : Grp}

/-! ### What placing a unit keeps -/

/-- The layout and the rate of a group, and its changes that are pending, are the same. -/
structure Grp.Kept (g h : Grp) : Prop where
  mask : h.mask = g.mask
  rate : h.rate = g.rate
  olds : h.olds = g.olds

/-- The controls of the writer and of the buffer are the same, and so are the layouts of the groups. -/
structure Buf.Kept (b c : Buf) : Prop where
  run : c.run = b.run
  enable : c.enable = b.enable
  alignEp : c.alignEp = b.alignEp
  timeEvery : c.timeEvery = b.timeEvery
  minPhase : c.minPhase = b.minPhase
  writing : c.writing = b.writing
  armedGate : c.armedGate = b.armedGate
  thresh : c.thresh = b.thresh
  fast : b.fast.Kept c.fast
  slow : b.slow.Kept c.slow

theorem Grp.Kept.refl (g : Grp) : g.Kept g := ⟨rfl, rfl, rfl⟩

theorem Grp.Kept.trans {k : Grp} (h1 : g.Kept h) (h2 : h.Kept k) : g.Kept k :=
  ⟨h2.mask.trans h1.mask, h2.rate.trans h1.rate, h2.olds.trans h1.olds⟩

/-- A start overwrites all of a group but its layout and its rate (R356). -/
theorem Grp.Kept.start (hk : g.Kept h) (at_ : Tick) : h.start at_ = g.start at_ := by
  rw [Grp.start, Grp.start, hk.mask, hk.rate]

theorem Buf.Kept.refl (b : Buf) : b.Kept b := ⟨rfl, rfl, rfl, rfl, rfl, rfl, rfl, rfl, .refl _, .refl _⟩

theorem Buf.Kept.trans (h1 : b.Kept c) (h2 : c.Kept d) : b.Kept d :=
  ⟨h2.run.trans h1.run, h2.enable.trans h1.enable, h2.alignEp.trans h1.alignEp, h2.timeEvery.trans h1.timeEvery,
    h2.minPhase.trans h1.minPhase, h2.writing.trans h1.writing, h2.armedGate.trans h1.armedGate, h2.thresh.trans h1.thresh,
    h1.fast.trans h2.fast, h1.slow.trans h2.slow⟩

theorem Buf.Kept.of_eq (h : c = b) : b.Kept c := h ▸ .refl b

theorem State.publish_buf (ws : List BufWord) (s : State) : ∃ hit, (s.publish ws).buf =
    { s.buf with words := s.buf.words ++ ws, wp := s.buf.wp + BitVec.ofNat 22 ws.length, threshHit := hit } :=
  ⟨_, State.threshEdge_buf _ _⟩

theorem State.publish_kept (ws : List BufWord) (s : State) : s.buf.Kept (s.publish ws).buf := by
  obtain ⟨hit, heq⟩ := s.publish_buf ws
  rw [heq]
  exact ⟨rfl, rfl, rfl, rfl, rfl, rfl, rfl, rfl, .refl _, .refl _⟩

theorem State.oweTime_kept (g : Group) (since : Option Tick) (s : State) : s.buf.Kept (s.oweTime g since).buf := by
  cases g <;> cases since <;> exact ⟨rfl, rfl, rfl, rfl, rfl, rfl, rfl, rfl, ⟨rfl, rfl, rfl⟩, ⟨rfl, rfl, rfl⟩⟩

theorem State.oweTimes_kept (since : Option Tick) (s : State) : s.buf.Kept (s.oweTimes since).buf :=
  (s.oweTime_kept .fast since).trans ((s.oweTime .fast since).oweTime_kept .slow since)

theorem State.modBuf_kept {f : Buf → Buf} (hf : ∀ b : Buf, b.Kept (f b)) (s : State) : s.buf.Kept (s.modBuf f).buf := hf _

theorem State.placeUnit_kept (own : List Frame) (lost : Nat) (s : State) : s.buf.Kept (s.placeUnit own lost).1.buf := by
  unfold State.placeUnit
  split
  · exact (Buf.Kept.of_eq (s.demand_buf .sb)).trans ⟨rfl, rfl, rfl, rfl, rfl, rfl, rfl, rfl, .refl _, .refl _⟩
  · dsimp only
    split
    · exact ⟨rfl, rfl, rfl, rfl, rfl, rfl, rfl, rfl, .refl _, .refl _⟩
    · refine (s.publish_kept (frameWords (s.pendingGaps ++ own) s.buf.seq).1).trans ?_
      split
      · exact ⟨rfl, rfl, rfl, rfl, rfl, rfl, rfl, rfl, .refl _, .refl _⟩
      · refine .trans ?_ (State.oweTimes_kept _ _)
        exact ⟨rfl, rfl, rfl, rfl, rfl, rfl, rfl, rfl, .refl _, .refl _⟩

theorem State.placeFill_kept (s : State) : s.buf.Kept s.placeFill.buf := by
  unfold State.placeFill
  split
  · exact .refl _
  · next cause _ =>
    have hplace := (s.modBuf fun b => { b with fillOwed := none }).placeUnit_kept [fillFrame (!s.clk.epochValid) cause] 1
    dsimp only
    refine (State.modBuf_kept (by exact fun _ => ⟨rfl, rfl, rfl, rfl, rfl, rfl, rfl, rfl, .refl _, .refl _⟩) s).trans
        (hplace.trans ?_)
    split
    · exact ⟨rfl, rfl, rfl, rfl, rfl, rfl, rfl, rfl, .refl _, .refl _⟩
    · exact .refl _

theorem State.placeEvent_kept (s : State) : s.buf.Kept s.placeEvent.buf := by
  unfold State.placeEvent
  split
  · exact .refl _
  · next e rest _ =>
    have hplace := (s.modBuf fun b => { b with events := rest }).placeUnit_kept [eventFrame e] 1
    exact (State.modBuf_kept (by exact fun _ => ⟨rfl, rfl, rfl, rfl, rfl, rfl, rfl, rfl, .refl _, .refl _⟩) s).trans hplace

theorem State.modGroup_kept {f : Grp → Grp} (hf : ∀ x : Grp, x.Kept (f x)) (g : Group) (s : State) :
    s.buf.Kept (s.modGroup g f).buf := by
  cases g
  · exact ⟨rfl, rfl, rfl, rfl, rfl, rfl, rfl, rfl, hf _, .refl _⟩
  · exact ⟨rfl, rfl, rfl, rfl, rfl, rfl, rfl, rfl, .refl _, hf _⟩

theorem State.placeData_kept (g : Group) (s : State) : s.buf.Kept (s.placeData g).buf := by
  unfold State.placeData
  split
  · exact .refl _
  · next o rest _ =>
    have hplace := (s.setOuts g rest).placeUnit_kept (s.dataFrames g o) (if s.timeDue g o then 2 else 1)
    rw [State.setOuts_buf] at hplace
    dsimp only
    generalize (if s.timeDue g o then 2 else 1) = lost at hplace ⊢
    generalize (s.setOuts g rest).placeUnit (s.dataFrames g o) lost = r at hplace ⊢
    refine hplace.trans ?_
    split
    · refine .trans ?_ (State.oweTime_kept _ _ _)
      refine State.modGroup_kept (fun _ => ?_) g _
      exact ⟨rfl, rfl, rfl⟩
    · refine State.modGroup_kept (fun _ => ?_) g _
      exact ⟨rfl, rfl, rfl⟩

theorem State.placeReady_kept (s : State) : s.buf.Kept s.placeReady.buf := by
  refine foldUpto_keeps (fun t : State => s.buf.Kept t.buf) (fun t k ht => ?_) (.refl _) _
  split
  · exact ht.trans t.placeEvent_kept
  · split
    · exact ht.trans (t.placeData_kept .fast)
    · split
      · exact ht.trans (t.placeData_kept .slow)
      · exact ht

/-- With no unit waiting none is placed (R370). -/
theorem State.placeReady_of_noUnits (h : s.noUnits = true) : s.placeReady = s := by
  simp only [State.noUnits, Bool.and_eq_true, List.isEmpty_iff] at h
  obtain ⟨⟨hev, hfast⟩, hslow⟩ := h
  simp [State.placeReady, State.outs, hev, hfast, hslow, foldUpto]

theorem State.placeFill_of_none (h : s.buf.fillOwed = none) : s.placeFill = s := by rw [State.placeFill, h]

/-! ### Reports -/

theorem State.queueEvent_kept (source : BitVec 6) (ts : Tick) (r8 r9 : Word) (ready : Tick) (s : State) :
    s.buf.Kept (s.queueEvent source ts r8 r9 ready).buf := by
  unfold State.queueEvent
  split
  · exact ⟨rfl, rfl, rfl, rfl, rfl, rfl, rfl, rfl, .refl _, .refl _⟩
  · exact .refl _

theorem State.recogTrigger_buf (source : BitVec 8) (at_ came : Tick) (r8 r9 : Word) (s : State) :
    (s.recogTrigger source at_ came r8 r9).buf = s.buf :=
  State.buf_of_mask (ps := [.cap]) (by simp) (by decide)

theorem State.report_kept (r : Nat) (p : Report) (s : State) : s.buf.Kept (s.report r p).buf := by
  unfold State.report
  dsimp only
  split
  · exact .refl _
  · simp only [apply_ite State.buf, State.recogTrigger_buf, ite_self]
    split
    · refine .trans (.of_eq ?_) (State.queueEvent_kept ..)
      rfl
    · exact .refl _

theorem State.reportDue_kept (due : Rec → Option Report) (clear : Rec → Rec) (r : Nat) (s : State) :
    s.buf.Kept (s.reportDue due clear r).buf := by
  unfold State.reportDue
  split
  · exact (s.modRecog clear).report_kept r _
  · exact .refl _

theorem State.rearmDue_buf (s : State) : s.rearmDue.buf = s.buf := by
  unfold State.rearmDue
  split <;> rfl

theorem State.flushReports_kept (s : State) : s.buf.Kept s.flushReports.buf := by
  rw [State.flushReports_eq]
  refine .trans ?_ (State.reportDue_kept ..)
  rw [State.rearmDue_buf]
  iterate 5 refine .trans ?_ (State.reportDue_kept ..)
  exact State.reportDue_kept ..

theorem State.reportsFirst_kept (stops : Bool) (s : State) : s.buf.Kept (s.reportsFirst stops).buf := by
  unfold State.reportsFirst
  split
  · exact s.flushReports_kept
  · exact .refl _

theorem State.reportsFirst_of_noReports (h : s.recog.noReports = true) (stops : Bool) : s.reportsFirst stops = s := by
  unfold State.reportsFirst
  split
  · exact State.flushReports_of_noReports h
  · rfl

/-! ### Start and stop -/

theorem State.isOn_of_pwr (h : t.pwr = s.pwr) (d : Dom) : t.isOn d = s.isOn d := by
  rw [State.isOn, State.isOn, State.dom, State.dom, h]

theorem State.isOn_placeUnit (own : List Frame) (lost : Nat) (d : Dom) (s : State) :
    (s.placeUnit own lost).1.isOn d = s.isOn d := by
  unfold State.placeUnit
  dsimp only
  split
  · exact State.isOn_demand ..
  · refine State.isOn_of_pwr (State.pwr_of_mask (ps := [.buf]) ?_ (by decide)) d
    split
    · rfl
    · dsimp only
      split <;> simp

theorem State.isOn_placeFill (d : Dom) (s : State) : s.placeFill.isOn d = s.isOn d := by
  unfold State.placeFill
  split
  · rfl
  · next cause _ =>
    have hplace := (s.modBuf fun b => { b with fillOwed := none }).isOn_placeUnit [fillFrame (!s.clk.epochValid) cause] 1 d
    dsimp only
    split
    · exact hplace
    · exact hplace

theorem State.writerMay_congr (hrun : t.buf.run = s.buf.run) (hen : t.buf.enable = s.buf.enable) (hclk : t.clk = s.clk)
    (hon : t.isOn .en = s.isOn .en) : t.writerMay = s.writerMay := by
  rw [State.writerMay, State.writerMay, hrun, hen, hon, State.clken, State.clken, hclk]

theorem Buf.Kept.group (hk : s.buf.Kept t.buf) (g : Group) : (s.group g).Kept (t.group g) := by
  cases g
  · exact hk.fast
  · exact hk.slow

/-- What a start of the writer makes of the buffer's controls, its groups and its contents (R354, R356). -/
structure State.Started (s t : State) : Prop where
  run : t.buf.run = s.buf.run
  enable : t.buf.enable = s.buf.enable
  alignEp : t.buf.alignEp = s.buf.alignEp
  timeEvery : t.buf.timeEvery = s.buf.timeEvery
  minPhase : t.buf.minPhase = s.buf.minPhase
  thresh : t.buf.thresh = s.buf.thresh
  writing : t.buf.writing = true
  armedGate : t.buf.armedGate = false
  starts : ∀ g, (s.group g).mask ≠ 0#24 → t.group g = (s.group g).start s.clk.tsc
  layouts : ∀ g, (t.group g).mask = (s.group g).mask ∧ (t.group g).rate = (s.group g).rate
  outs : ∀ g, t.outs g = []
  on : t.isOn .en = s.isOn .en
  clk : t.clk = s.clk
  quiet : s.buf.fillOwed = none →
    t.buf.seq = s.buf.seq ∧ t.buf.words = s.buf.words ∧ t.mask [.harrow, .buf] = s.mask [.harrow, .buf]
  same : t.mask [.harrow, .buf, .pwr] = s.mask [.harrow, .buf, .pwr]

theorem State.startWriter_group (g : Group) (s : State) : s.startWriter.group g =
    if (s.placeFill.group g).mask = 0#24 then s.placeFill.group g else (s.placeFill.group g).start s.clk.tsc := by
  cases g <;> rfl

theorem State.startWriter_started (s : State) : s.Started s.startWriter := by
  have hkept := s.placeFill_kept
  have hmask : s.startWriter.mask [.harrow, .buf, .pwr] = s.mask [.harrow, .buf, .pwr] := by simp
  refine ⟨hkept.run, hkept.enable, hkept.alignEp, hkept.timeEvery, hkept.minPhase, hkept.thresh, rfl, rfl, fun g hg => ?starts,
    fun g => ?layouts, fun g => ?outs, s.isOn_placeFill .en, State.clk_of_mask hmask (by decide), fun hnone => ?quiet, hmask⟩
  case starts =>
    have hgroup := hkept.group g
    rw [State.startWriter_group, if_neg (by rw [hgroup.mask]; exact hg), hgroup.start]
  case layouts =>
    have hgroup := hkept.group g
    rw [State.startWriter_group]
    split
    · exact ⟨hgroup.mask, hgroup.rate⟩
    · exact ⟨hgroup.mask, hgroup.rate⟩
  case outs => cases g <;> rfl
  case quiet =>
    have hfill := State.placeFill_of_none hnone
    unfold State.startWriter
    rw [hfill]
    exact ⟨rfl, rfl, by simp⟩

/-! ### The writer after a change of its conditions -/

theorem State.refreshWriter_starts (hmay : s.writerMay = true) (hw : s.buf.writing = false) (harm : s.buf.armedGate = false)
    (hgate : s.gateOpen = true) : s.refreshWriter = s.startWriter := by
  simp [State.refreshWriter, hmay, hw, harm, hgate]

theorem State.refreshWriter_waits (hmay : s.writerMay = true) (hw : s.buf.writing = false) (harm : s.buf.armedGate = false)
    (hgate : s.gateOpen = false) : s.refreshWriter = s.modBuf fun b => { b with armedGate := true } := by
  simp [State.refreshWriter, hmay, hw, harm, hgate]

theorem State.refreshWriter_writes (hmay : s.writerMay = true) (hw : s.buf.writing = true) : s.refreshWriter = s := by
  simp [State.refreshWriter, hmay, hw]

theorem State.refreshWriter_stops (hmay : s.writerMay = false) (hw : s.buf.writing = true) :
    s.refreshWriter = s.stopWriter.refreshPaths := by
  simp [State.refreshWriter, hmay, hw]

theorem State.refreshWriter_rests (hmay : s.writerMay = false) (hw : s.buf.writing = false) (harm : s.buf.armedGate = false) :
    s.refreshWriter = s := by
  simp [State.refreshWriter, hmay, hw, harm]

@[simp] theorem State.isOn_refreshPaths (d : Dom) (s : State) : s.refreshPaths.isOn d = s.isOn d :=
  State.isOn_of_pwr (State.pwr_of_mask (ps := [.harrow]) (by simp) (by decide)) d

@[simp] theorem State.refreshPaths_clk (s : State) : s.refreshPaths.clk = s.clk :=
  State.clk_of_mask (ps := [.harrow]) (by simp) (by decide)

theorem State.writerMay_refreshPaths (s : State) : s.refreshPaths.writerMay = s.writerMay :=
  State.writerMay_congr (by rw [State.refreshPaths_buf]) (by rw [State.refreshPaths_buf]) s.refreshPaths_clk
      (s.isOn_refreshPaths .en)

theorem State.gateOpen_refreshPaths (s : State) : s.refreshPaths.gateOpen = s.gateOpen := by
  rw [State.gateOpen, State.gateOpen, State.refreshPaths_buf, State.refreshPaths_clk]

theorem State.writerSettled_congr (hbuf : s.buf.Kept t.buf) (hclk : t.clk = s.clk) (hon : t.isOn .en = s.isOn .en) :
    t.writerSettled = s.writerSettled := by
  have hmay := State.writerMay_congr hbuf.run hbuf.enable hclk hon
  rw [State.writerSettled, State.writerSettled, hmay, hbuf.armedGate, hbuf.alignEp, hbuf.writing]

/-- A refresh at a settled writer brings the paths alone to what the state asks for. -/
theorem State.refresh_of_settled (h : s.writerSettled = true) : s.refresh = s.refreshPaths := by
  have hsettled : s.refreshPaths.writerSettled = true :=
    (State.writerSettled_congr (.of_eq s.refreshPaths_buf) s.refreshPaths_clk (s.isOn_refreshPaths .en)).trans h
  rw [State.refresh, State.refreshWriter_of_settled hsettled]

end
end Sys2Proof.Machine
end

section
/-!
PROOFS. The controls of the writer: STREAM_CTRL, BUF_CTRL, STREAM_FAST and STREAM_SLOW (R351 to R357, R369, R618).
-/

namespace Sys2Proof.Machine

open Sys2Proof

section
variable {s t u : State} {w : Word}

/-! ### Fields of STREAM_CTRL -/

/-- A word with bit 0 taken out. -/
theorem bitAt_clear_zero (w : Word) (k : Nat) : bitAt (w &&& ~~~flg true 0) k = (bitAt w k && decide (k ≠ 0)) := by
  by_cases hk : k < 32
  · have hflag : (flg true 0).getLsbD k = decide (k = 0) := by
      have h := bitAt_flg true 0 k
      simpa [bitAt, hk] using h
    rw [bitAt, BitVec.getLsbD_and, BitVec.getLsbD_not, hflag]
    simp [bitAt, hk]
  · have hhigh : ∀ v : Word, bitAt v k = false := fun v => BitVec.getLsbD_of_ge v k (by omega)
    rw [hhigh, hhigh, Bool.false_and]

theorem Buf.bitAt_streamCtrl (b : Buf) {k : Nat} (hk : k < 32) : bitAt b.streamCtrl k =
    (((b.run && decide (k = 0) || b.alignEp && decide (k = 1)) || (decide (4 ≤ k) && b.timeEvery.getLsbD (k - 4))) ||
      b.minPhase && decide (k = 8)) := by
  simp only [Buf.streamCtrl, bitAt_or, bitAt_flg, bitAt_fld _ hk, hk, decide_true, Bool.and_true]

/-- A word that agrees with STREAM_CTRL at the bits of ALIGN_EP and TIME_EVERY holds them. -/
theorem Buf.streamCtrl_held {b : Buf} (h : ∀ k, k = 1 ∨ (4 ≤ k ∧ k < 8) → bitAt w k = bitAt b.streamCtrl k) :
    bitAt w 1 = b.alignEp ∧ bits w 4 4 = b.timeEvery := by
  constructor
  · rw [h 1 (.inl rfl), Buf.bitAt_streamCtrl b (by omega)]
    simp
  · apply BitVec.eq_of_getLsbD_eq
    intro i hi
    rw [getLsbD_bits, h (4 + i) (.inr (by omega)), Buf.bitAt_streamCtrl b (by omega)]
    simp [hi, show ¬(4 + i = 1) by omega, show ¬(4 + i = 8) by omega]

/-! ### STREAM_CTRL -/

/-- The paths of both stream groups restart, and the engine's stream-mode average is given up, at a write of PHASE (R222,
R311). -/
def State.phaseRestart (s : State) : State :=
  ((s.restart .fast (BitVec.allOnes 24) false).restart .slow (BitVec.allOnes 24) false).modSpec fun x => x.abandonStream false

/-- A write of STREAM_CTRL that stops nothing, ALIGN_EP and TIME_EVERY as they stand. -/
theorem State.writeStreamCtrl_runs (hstop : (s.buf.run && !bitAt w 0 && s.buf.writing) = false) (h1 : bitAt w 1 = s.buf.alignEp)
    (h4 : bits w 4 4 = s.buf.timeEvery) : s.writeStreamCtrl w =
      (if (bitAt w 8 != s.buf.minPhase) = true then
        (s.modBuf fun b => { b with run := bitAt w 0, minPhase := bitAt w 8 }).phaseRestart
       else s.modBuf fun b => { b with run := bitAt w 0, minPhase := bitAt w 8 }).refresh := by
  unfold State.writeStreamCtrl
  simp only [hstop, Bool.false_eq_true, if_false, h1, h4]
  rfl

/-- A write of STREAM_CTRL that stops the writer: the units that are ready are placed, and a FILL frame is owed (R369). -/
theorem State.writeStreamCtrl_stops (hstop : (s.buf.run && !bitAt w 0 && s.buf.writing) = true)
    (h8 : bitAt w 8 = s.placeReady.buf.minPhase) : s.writeStreamCtrl w =
      (s.placeReady.modBuf fun b => { b with
        run := bitAt w 0, alignEp := bitAt w 1, timeEvery := bits w 4 4, minPhase := bitAt w 8,
            fillOwed := some 1#4 }).refresh := by
  unfold State.writeStreamCtrl
  simp only [hstop, if_true, h8, bne_self_eq_false, Bool.false_eq_true, if_false]

/-! ### BUF_CTRL -/

/-- A write of BUF_CTRL that sets ENABLE, KEEP as it stands. -/
theorem State.writeBufCtrl_enables (h0 : bitAt w 0 = true) (h1 : bitAt w 1 = false) (h2 : bitAt w 2 = false)
    (h3 : bitAt w 3 = s.buf.keep) : s.writeBufCtrl w = (s.modBuf fun b => { b with enable := true }).refreshWriter := by
  unfold State.writeBufCtrl
  simp only [h0, h1, h2, h3, Bool.not_true, Bool.and_false, Bool.false_and, Bool.false_eq_true, if_false]
  rfl

/-- A write of BUF_CTRL that stops the writer: the units that are ready are placed, and a FILL frame is owed (R369). -/
theorem State.writeBufCtrl_stops (hen : s.buf.enable = true) (hw : s.buf.writing = true) (h0 : bitAt w 0 = false)
    (h1 : bitAt w 1 = false) (h2 : bitAt w 2 = false) : s.writeBufCtrl w =
      (s.placeReady.modBuf fun b => { b with enable := false, keep := bitAt w 3, fillOwed := some 2#4 }).refreshWriter := by
  unfold State.writeBufCtrl
  simp only [h0, h1, h2, hen, hw, Bool.not_false, Bool.and_true, Bool.false_eq_true, if_false, if_true]

theorem State.writerSettled_of_writing (hmay : s.writerMay = true) (hw : s.buf.writing = true) (harm : s.buf.armedGate = false) :
    s.writerSettled = true := by
  simp [State.writerSettled, hmay, hw, harm]

theorem State.group_congr (h : t.buf.fast = s.buf.fast ∧ t.buf.slow = s.buf.slow) (g : Group) : t.group g = s.group g := by
  cases g
  · exact h.1
  · exact h.2

/-! ### The two registers on the bus -/

theorem State.reportsFirst_false (s : State) : s.reportsFirst false = s := rfl

theorem State.reaches_streamCtrl (hb : s.busOpen = true) (hclk : t.clk = s.clk) (hstall : t.host.stall = s.host.stall) :
    t.Reaches 26 := by
  refine ⟨?_, rfl⟩
  rw [State.busOpen, State.hasLk, hclk, hstall]
  exact hb

theorem State.hostWrite_streamCtrl (h : s.Reaches 26) (w : Word) :
    s.hostWrite 26 w = ((s.reportsFirst !(bitAt w 0)).writeStreamCtrl w).finishWrite :=
  State.hostWrite_plain (i := 26) h rfl w

theorem State.hostWrite_bufCtrl (h : s.Reaches 30) (w : Word) :
    s.hostWrite 30 w = ((s.reportsFirst !(bitAt w 0)).writeBufCtrl w).finishWrite :=
  State.hostWrite_plain (i := 30) h rfl w

theorem State.clken_of_bufCtrl (h : s.Reaches 30) : s.clken 6 = true := by
  by_contra hc
  have hgated : s.resolve 30 = .gated := by
    rw [State.resolve, if_pos]
    simpa [State.regGated, regGate, winData] using hc
  rw [h.2] at hgated
  cases hgated

/-- With RUN and ENABLE set, and BUF clocked, the writer may run while EN is On (R354). -/
theorem State.writerMay_of (hrun : s.buf.run = true) (hen : s.buf.enable = true) (hck : s.clken 6 = true)
    (hon : s.isOn .en = true) : s.writerMay = true := by
  rw [State.writerMay, hrun, hen, hck, hon]
  rfl

/-- The fields of STREAM_CTRL, STREAM_FAST and STREAM_SLOW are the same. -/
structure State.SameStream (s t : State) : Prop where
  alignEp : t.buf.alignEp = s.buf.alignEp
  timeEvery : t.buf.timeEvery = s.buf.timeEvery
  minPhase : t.buf.minPhase = s.buf.minPhase
  run : t.buf.run = s.buf.run
  layouts : ∀ g, (t.group g).mask = (s.group g).mask ∧ (t.group g).rate = (s.group g).rate

theorem State.SameStream.of_buf (h : t.buf = s.buf) : s.SameStream t := by
  have hgroup : ∀ g, t.group g = s.group g := State.group_congr (by rw [h]; exact ⟨rfl, rfl⟩)
  exact ⟨by rw [h], by rw [h], by rw [h], by rw [h], fun g => by rw [hgroup]; exact ⟨rfl, rfl⟩⟩

theorem State.SameStream.trans (h1 : s.SameStream t) (h2 : t.SameStream u) : s.SameStream u :=
  ⟨h2.alignEp.trans h1.alignEp, h2.timeEvery.trans h1.timeEvery, h2.minPhase.trans h1.minPhase, h2.run.trans h1.run,
    fun g => ⟨(h2.layouts g).1.trans (h1.layouts g).1, (h2.layouts g).2.trans (h1.layouts g).2⟩⟩

theorem State.startWriter_stream (s : State) : s.SameStream s.startWriter :=
  have h := s.startWriter_started
  ⟨h.alignEp, h.timeEvery, h.minPhase, h.run, h.layouts⟩

theorem State.stopWriter_stream (s : State) : s.SameStream s.stopWriter :=
  ⟨rfl, rfl, rfl, rfl, fun g => by cases g <;> exact ⟨rfl, rfl⟩⟩

theorem State.refreshWriter_stream (s : State) : s.SameStream s.refreshWriter := by
  unfold State.refreshWriter
  split
  · split
    · exact s.stopWriter_stream.trans (.of_buf (State.refreshPaths_buf _))
    · exact .of_buf rfl
  · split
    · exact .of_buf rfl
    · split
      · split
        · exact .of_buf rfl
        · exact s.startWriter_stream
      · split
        · exact s.startWriter_stream
        · exact ⟨rfl, rfl, rfl, rfl, fun g => by cases g <;> exact ⟨rfl, rfl⟩⟩

theorem State.refresh_stream (s : State) : s.SameStream s.refresh :=
  (State.SameStream.of_buf s.refreshPaths_buf).trans s.refreshPaths.refreshWriter_stream

theorem State.enable_group (g : Group) (s : State) : (s.modBuf fun b => { b with enable := true }).group g = s.group g := by
  cases g <;> rfl

/-! ### STREAM_START: ENABLE, then RUN -/

/-- The state with ENABLE set and the writer brought to what that asks for, the first write of STREAM_START done. -/
def State.enabled (s : State) : State := (s.modBuf fun b => { b with enable := true }).refreshWriter.finishWrite

theorem State.enabled_stream (s : State) : s.SameStream s.enabled := by
  have henable : s.SameStream (s.modBuf fun b => { b with enable := true }) :=
    ⟨rfl, rfl, rfl, rfl, fun g => by cases g <;> exact ⟨rfl, rfl⟩⟩
  refine henable.trans ((s.modBuf fun b => { b with enable := true }).refreshWriter_stream.trans ?_)
  exact .of_buf rfl

theorem State.enabled_bus (s : State) : s.enabled.clk = s.clk ∧ s.enabled.host.stall = s.host.stall := by
  have hmask : (s.modBuf fun b => { b with enable := true }).refreshWriter.mask [.harrow, .buf, .pwr] =
      s.mask [.harrow, .buf, .pwr] := by simp
  have hclk : (s.modBuf fun b => { b with enable := true }).refreshWriter.clk = s.clk := State.clk_of_mask hmask (by decide)
  have hhost : (s.modBuf fun b => { b with enable := true }).refreshWriter.host = s.host := State.host_of_mask hmask (by decide)
  refine ⟨hclk, ?_⟩
  rw [← hhost]
  rfl

theorem State.streamStart_writes (h : s.Reaches 30) :
    (s.hostWrite 30 (s.buf.ctrl ||| flg true 0)).hostWrite 26 (s.buf.streamCtrl ||| flg true 0) =
      (s.enabled.modBuf fun b => { b with run := true }).refresh.finishWrite := by
  have hctrl : ∀ k, bitAt (s.buf.ctrl ||| flg true 0) k =
      (((s.buf.enable && decide (k = 0) || s.buf.keep && decide (k = 3)) && decide (k < 32)) || (decide (k = 0) && decide
          (k < 32))) :=
    fun k => by rw [bitAt_or, Buf.bitAt_ctrl, bitAt_flg, Bool.true_and]
  have hfirst : s.hostWrite 30 (s.buf.ctrl ||| flg true 0) = s.enabled := by
    have h0 : bitAt (s.buf.ctrl ||| flg true 0) 0 = true := by simp [hctrl]
    rw [State.hostWrite_bufCtrl h, h0, Bool.not_true, State.reportsFirst_false,
      State.writeBufCtrl_enables h0 (by simp [hctrl]) (by simp [hctrl]) (by simp [hctrl])]
    rfl
  have hstream := s.enabled_stream
  have hreach : s.enabled.Reaches 26 := State.reaches_streamCtrl h.1 s.enabled_bus.1 s.enabled_bus.2
  have hrest : ∀ k, k ≠ 0 → bitAt (s.buf.streamCtrl ||| flg true 0) k = bitAt s.buf.streamCtrl k := fun k hk => by
    rw [bitAt_or, bitAt_flg]
    simp [hk]
  have h0 : bitAt (s.buf.streamCtrl ||| flg true 0) 0 = true := by rw [bitAt_or, bitAt_flg]; simp
  have h8 : bitAt (s.buf.streamCtrl ||| flg true 0) 8 = s.enabled.buf.minPhase := by
    rw [hrest 8 (by omega), Buf.bitAt_streamCtrl _ (by omega)]
    simpa using hstream.minPhase.symm
  obtain ⟨h1, h4⟩ := Buf.streamCtrl_held (b := s.buf) fun k hk => hrest k (by omega)
  rw [hfirst, State.hostWrite_streamCtrl hreach, h0, Bool.not_true, State.reportsFirst_false,
    State.writeStreamCtrl_runs (by rw [h0]; simp) (h1.trans hstream.alignEp.symm) (h4.trans hstream.timeEvery.symm), h8, h0,
        bne_self_eq_false,
    if_neg Bool.false_ne_true]
  rfl

/-- What STREAM_START leaves where the writer starts by it: every condition holds, the gate of R355 open. -/
structure State.StreamStarted (s t : State) : Prop where
  run : t.buf.run = true
  enable : t.buf.enable = true
  writing : t.buf.writing = true
  thresh : t.buf.thresh = s.buf.thresh
  starts : ∀ g, (s.group g).mask ≠ 0#24 → t.group g = (s.group g).start s.clk.tsc
  quiet : s.buf.fillOwed = none →
    t.buf.seq = s.buf.seq ∧ t.buf.words = s.buf.words ∧ t.mask [.harrow, .buf, .host] = s.mask [.harrow, .buf, .host]

theorem State.streamStart_starts (hck : s.clken 6 = true) (hon : s.isOn .en = true) (hw : s.buf.writing = false)
    (harm : s.buf.armedGate = false) (hgate : s.gateOpen = true) :
    s.StreamStarted (s.enabled.modBuf fun b => { b with run := true }).refresh := by
  cases hrun : s.buf.run
  case true =>
    have hmay : (s.modBuf fun b => { b with enable := true }).writerMay = true := State.writerMay_of hrun rfl hck hon
    have hstart := (s.modBuf fun b => { b with enable := true }).startWriter_started
    have hfirst : s.enabled = (s.modBuf fun b => { b with enable := true }).startWriter.finishWrite := by
      rw [State.enabled, State.refreshWriter_starts hmay hw harm hgate]
    rw [hfirst]
    generalize (s.modBuf fun b => { b with enable := true }).startWriter = m at hstart ⊢
    have hmay' : (m.finishWrite.modBuf fun b => { b with run := true }).writerMay = true :=
      State.writerMay_of rfl hstart.enable ((congrArg (fun c : Clk => c.clken.getLsbD 6) hstart.clk).trans hck)
        (hstart.on.trans hon)
    rw [State.refresh_of_settled (State.writerSettled_of_writing hmay' hstart.writing hstart.armedGate)]
    have hgroup : ∀ g, (m.finishWrite.modBuf fun b => { b with run := true }).refreshPaths.group g = m.group g :=
      State.group_congr (by rw [State.refreshPaths_buf]; exact ⟨rfl, rfl⟩)
    refine ⟨?run, ?enable, ?writing, ?thresh, fun g hg => (hgroup g).trans (hstart.starts g ((s.enable_group g).symm ▸ hg)),
      fun hnone => ?quiet⟩
    case quiet =>
      obtain ⟨hseq, hwords, hmask⟩ := hstart.quiet hnone
      rw [State.refreshPaths_buf]
      have hmask' := State.mask_mono (qs := [.harrow, .buf, .host]) hmask (by decide)
      exact ⟨hseq, hwords, by simpa using hmask'⟩
    all_goals rw [State.refreshPaths_buf]
    · rfl
    · exact hstart.enable
    · exact hstart.writing
    · exact hstart.thresh
  case false =>
    have hmay : (s.modBuf fun b => { b with enable := true }).writerMay = false := by
      simp [State.writerMay, hrun]
    have hfirst : s.enabled = (s.modBuf fun b => { b with enable := true }).finishWrite := by
      rw [State.enabled, State.refreshWriter_rests hmay hw harm]
    rw [hfirst, State.refresh]
    have hbuf := ((s.modBuf fun b => { b with enable := true }).finishWrite.modBuf fun b => { b with run := true }).refreshPaths_buf
    have hclk := ((s.modBuf fun b => { b with enable := true }).finishWrite.modBuf fun b => { b with run := true }).refreshPaths_clk
    have hon' := ((s.modBuf fun b => { b with enable := true }).finishWrite.modBuf
      fun b => { b with run := true }).isOn_refreshPaths .en
    have hmask : ((s.modBuf fun b => { b with enable := true }).finishWrite.modBuf
      fun b => { b with run := true }).refreshPaths.mask [.harrow, .buf, .host] = s.mask [.harrow, .buf, .host] := by simp
    generalize ((s.modBuf fun b => { b with enable := true }).finishWrite.modBuf fun b => { b with run := true }).refreshPaths = m
      at hbuf hclk hon' hmask ⊢
    have hmay' : m.writerMay = true := State.writerMay_of (by rw [hbuf]; rfl) (by rw [hbuf]; rfl)
      ((congrArg (fun c : Clk => c.clken.getLsbD 6) hclk).trans hck) (hon'.trans hon)
    have hgate' : m.gateOpen = true := by
      rw [State.gateOpen, hbuf, hclk]
      exact hgate
    have hstart := m.startWriter_started
    rw [State.refreshWriter_starts hmay' (by rw [hbuf]; exact hw) (by rw [hbuf]; exact harm) hgate']
    have hgroup : ∀ g, m.group g = s.group g := State.group_congr (by rw [hbuf]; exact ⟨rfl, rfl⟩)
    refine ⟨?_, ?_, hstart.writing, ?_, fun g hg => ?_, fun hnone => ?_⟩
    · rw [hstart.run, hbuf]; rfl
    · rw [hstart.enable, hbuf]; rfl
    · rw [hstart.thresh, hbuf]; rfl
    · rw [hstart.starts g (by rw [hgroup]; exact hg), hgroup, hclk]
      rfl
    · obtain ⟨hseq, hwords, hmask'⟩ := hstart.quiet (by rw [hbuf]; exact hnone)
      refine ⟨?_, ?_, ?_⟩
      · rw [hseq, hbuf]; rfl
      · rw [hwords, hbuf]; rfl
      · exact (State.mask_mono (qs := [.harrow, .buf, .host]) hmask' (by decide)).trans hmask

/-- With the gate of R355 closed STREAM_START leaves a writer that waits. -/
theorem State.streamStart_waits (hck : s.clken 6 = true) (hon : s.isOn .en = true) (hw : s.buf.writing = false)
    (harm : s.buf.armedGate = false) (hgate : s.gateOpen = false) :
    (s.enabled.modBuf fun b => { b with run := true }).refresh.buf =
      { s.buf with run := true, enable := true, armedGate := true } ∧
    (s.enabled.modBuf fun b => { b with run := true }).refresh.mask [.harrow, .buf, .host] = s.mask [.harrow, .buf, .host] := by
  have halign : s.buf.alignEp = true := by
    cases h : s.buf.alignEp
    · rw [State.gateOpen, h] at hgate
      cases hgate
    · rfl
  cases hrun : s.buf.run
  case true =>
    have hmay : (s.modBuf fun b => { b with enable := true }).writerMay = true := State.writerMay_of hrun rfl hck hon
    rw [State.enabled, State.refreshWriter_waits hmay hw harm hgate]
    have hmay' : ((((s.modBuf fun b => { b with enable := true }).modBuf fun b => { b with armedGate := true }).finishWrite).modBuf
        fun b => { b with run := true }).writerMay = true := State.writerMay_of rfl rfl hck hon
    rw [State.refresh_of_settled (by simp [State.writerSettled, hmay', hw, halign]), State.refreshPaths_buf]
    exact ⟨rfl, by simp⟩
  case false =>
    have hmay : (s.modBuf fun b => { b with enable := true }).writerMay = false := by
      simp [State.writerMay, hrun]
    rw [State.enabled, State.refreshWriter_rests hmay hw harm, State.refresh]
    have hmay' : ((s.modBuf fun b => { b with enable := true }).finishWrite.modBuf fun b => { b with run := true }).writerMay = true :=
      State.writerMay_of rfl rfl hck hon
    rw [State.refreshWriter_waits ((State.writerMay_refreshPaths _).trans hmay') (by rw [State.refreshPaths_buf]; exact hw)
      (by rw [State.refreshPaths_buf]; exact harm) ((State.gateOpen_refreshPaths _).trans hgate), State.modBuf_buf,
      State.refreshPaths_buf]
    exact ⟨rfl, by simp⟩

/-! ### A stop -/

/-- The buffer of a writer that has stopped. -/
def Buf.stopped (b : Buf) : Buf :=
  { b with writing := false, armedGate := false, events := [], fast := { b.fast with olds := [] }, slow := { b.slow with olds := [] } }

theorem State.refreshWriter_stopped (hmay : s.writerMay = false) (hw : s.buf.writing = true) :
    s.refreshWriter.buf = s.buf.stopped ∧ s.refreshWriter.mask [.harrow, .buf] = s.mask [.harrow, .buf] := by
  rw [State.refreshWriter_stops hmay hw, State.refreshPaths_buf]
  exact ⟨rfl, by simp⟩

/-- A stop through BUF_CTRL. -/
theorem State.writeBufCtrl_stopped (hen : s.buf.enable = true) (hw : s.buf.writing = true) (h0 : bitAt w 0 = false)
    (h1 : bitAt w 1 = false) (h2 : bitAt w 2 = false) :
    (s.writeBufCtrl w).buf = { s.placeReady.buf with enable := false, keep := bitAt w 3, fillOwed := some 2#4 }.stopped ∧
    (s.writeBufCtrl w).mask [.harrow, .buf, .pwr] = s.mask [.harrow, .buf, .pwr] ∧
    (s.noUnits = true → (s.writeBufCtrl w).mask [.harrow, .buf] = s.mask [.harrow, .buf]) := by
  rw [State.writeBufCtrl_stops hen hw h0 h1 h2]
  obtain ⟨hbuf, hmask⟩ := State.refreshWriter_stopped
    (s := s.placeReady.modBuf fun b => { b with enable := false, keep := bitAt w 3, fillOwed := some 2#4 })
    (by simp [State.writerMay]) (s.placeReady_kept.writing.trans hw)
  have hmask' := State.mask_mono (qs := [.harrow, .buf, .pwr]) hmask (by decide)
  refine ⟨hbuf, hmask'.trans (by simp), fun hno => hmask.trans ?_⟩
  rw [State.placeReady_of_noUnits hno]
  simp

/-- A stop through STREAM_CTRL. -/
theorem State.writeStreamCtrl_stopped (hrun : s.buf.run = true) (hw : s.buf.writing = true) (h0 : bitAt w 0 = false)
    (h8 : bitAt w 8 = s.buf.minPhase) :
    (s.writeStreamCtrl w).buf = { s.placeReady.buf with
      run := false, alignEp := bitAt w 1, timeEvery := bits w 4 4, minPhase := bitAt w 8, fillOwed := some 1#4 }.stopped ∧
    (s.writeStreamCtrl w).mask [.harrow, .buf, .pwr] = s.mask [.harrow, .buf, .pwr] ∧
    (s.noUnits = true → (s.writeStreamCtrl w).mask [.harrow, .buf] = s.mask [.harrow, .buf]) := by
  rw [State.writeStreamCtrl_stops (by rw [hrun, h0, hw]; rfl) (h8.trans s.placeReady_kept.minPhase.symm), h0, State.refresh]
  have hbuf' := (s.placeReady.modBuf fun b => { b with
    run := false, alignEp := bitAt w 1, timeEvery := bits w 4 4, minPhase := bitAt w 8, fillOwed := some 1#4 }).refreshPaths_buf
  obtain ⟨hbuf, hmask⟩ := State.refreshWriter_stopped (s := (s.placeReady.modBuf fun b => { b with
      run := false, alignEp := bitAt w 1, timeEvery := bits w 4 4, minPhase := bitAt w 8, fillOwed := some 1#4 }).refreshPaths)
    ((State.writerMay_refreshPaths _).trans (by simp [State.writerMay]))
    (by rw [hbuf']; exact s.placeReady_kept.writing.trans hw)
  have hmask' := State.mask_mono (qs := [.harrow, .buf, .pwr]) hmask (by decide)
  refine ⟨hbuf.trans (congrArg Buf.stopped hbuf'), hmask'.trans (by simp), fun hno => hmask.trans ?_⟩
  rw [State.placeReady_of_noUnits hno]
  simp

/-! ### STREAM_FAST and STREAM_SLOW -/

theorem State.hostWrite_group (g : Group) (h : s.Reaches (groupReg g).val) (w : Word) :
    s.hostWrite (groupReg g) w = (s.writeStreamGroup g w).finishWrite := by
  cases g
  · exact State.hostWrite_plain (i := 24) h rfl w
  · exact State.hostWrite_plain (i := 25) h rfl w

/-- A write of a group without a new rate, before paths and writer follow (R357). -/
def State.layoutChanged (g : Group) (w : Word) (s : State) : State :=
  let x := s.group g
  let t := s.modGroup g fun y => { y with mask := bits w 0 24, rate := bits w 24 4 }
  if bits w 0 24 ≠ x.mask ∧ s.buf.writing then
    if x.mask = 0#24 ∧ x.olds = [] then t.modGroup g (Grp.start s.clk.tsc)
    else (t.modGroup g fun y => { y with olds := y.olds ++ [(s.clk.tsc, x.mask)] }).readd g (bits w 0 24 &&& ~~~x.mask)
  else t

theorem State.writeStreamGroup_layout {g : Group} (h : rateCode (bits w 24 4) = rateCode (s.group g).rate) :
    s.writeStreamGroup g w = (s.layoutChanged g w).refresh := by
  rw [State.writeStreamGroup, if_neg (not_not.mpr h)]
  rfl

theorem State.writeStreamGroup_rate {g : Group} (h : rateCode (bits w 24 4) ≠ rateCode (s.group g).rate) :
    s.writeStreamGroup g w =
      ((s.modGroup g fun y => { y with mask := bits w 0 24, rate := bits w 24 4 }).rateChange g).refresh := by
  rw [State.writeStreamGroup, if_pos h]

/-- t holds group g changed to x, and nothing else of the buffer changed. -/
def State.GroupIs (s t : State) (g : Group) (x : Grp) : Prop := t.buf = (s.modGroup g fun _ => x).buf

theorem State.GroupIs.group {g : Group} {x : Grp} (h : s.GroupIs t g x) : t.group g = x ∧ t.group (otherGroup g) = s.group
    (otherGroup g) := by
  rw [State.GroupIs] at h
  cases g <;> simp only [State.group, otherGroup, h] <;> exact ⟨rfl, rfl⟩

theorem State.GroupIs.settled {g : Group} {x : Grp} (h : s.GroupIs t g x) (hclk : t.clk = s.clk) (hon : t.isOn .en = s.isOn .en) :
    t.writerMay = s.writerMay ∧ t.writerSettled = s.writerSettled ∧ t.buf.writing = s.buf.writing ∧
        t.buf.words = s.buf.words := by
  have hctrl : t.buf.run = s.buf.run ∧ t.buf.enable = s.buf.enable ∧ t.buf.writing = s.buf.writing ∧
      t.buf.armedGate = s.buf.armedGate ∧ t.buf.alignEp = s.buf.alignEp ∧ t.buf.words = s.buf.words := by
    rw [h]
    cases g <;> exact ⟨rfl, rfl, rfl, rfl, rfl, rfl⟩
  obtain ⟨hrun, hen, hw, harm, halign, hwords⟩ := hctrl
  have hmay := State.writerMay_congr hrun hen hclk hon
  exact ⟨hmay, by rw [State.writerSettled, State.writerSettled, hmay, hw, harm, halign], hw, hwords⟩

@[simp] theorem State.readd_buf (g : Group) (set : BitVec 24) (s : State) : (s.readd g set).buf = s.buf :=
  State.buf_of_mask (ps := [.harrow]) (by simp) (by decide)

/-- A write of a group at its rate: the layout written, and the layout before it pending where the group runs (R357). -/
theorem State.layoutChanged_is (g : Group) (w : Word) (s : State) : ∃ x, s.GroupIs (s.layoutChanged g w) g x ∧
    x.mask = bits w 0 24 ∧ x.rate = bits w 24 4 ∧
    (s.buf.writing = true → bits w 0 24 ≠ (s.group g).mask → (s.group g).mask ≠ 0#24 ∨ (s.group g).olds ≠ [] →
      x.olds = (s.group g).olds ++ [(s.clk.tsc, (s.group g).mask)]) ∧
    (s.layoutChanged g w).mask [.harrow, .buf] = s.mask [.harrow, .buf] := by
  unfold State.layoutChanged
  dsimp only
  split
  · split
    · next hnew =>
      refine ⟨({ s.group g with mask := bits w 0 24, rate := bits w 24 4 } : Grp).start s.clk.tsc, by cases g <;> rfl, rfl, rfl,
        fun _ _ hold => ?_, by simp⟩
      rcases hold with hne | hne
      · exact absurd hnew.1 hne
      · exact absurd hnew.2 hne
    · refine ⟨{ s.group g with
          mask := bits w 0 24, rate := bits w 24 4, olds := (s.group g).olds ++ [(s.clk.tsc, (s.group g).mask)] },
        ?_, rfl, rfl, fun _ _ _ => rfl, by simp⟩
      rw [State.GroupIs, State.readd_buf]
      cases g <;> rfl
  · next hsame =>
    exact ⟨{ s.group g with mask := bits w 0 24, rate := bits w 24 4 }, by cases g <;> rfl, rfl, rfl,
      fun hw hne _ => absurd ⟨hne, hw⟩ hsame, by simp⟩

/-! ### Outputs -/

theorem State.outs_congr (h : t.harrow.fastOut = s.harrow.fastOut ∧ t.harrow.slowOut = s.harrow.slowOut) (g : Group) :
    t.outs g = s.outs g := by
  cases g
  · exact h.1
  · exact h.2

theorem State.outs_mapChans (f : Nat → Chan → Chan) (g : Group) (s : State) : (s.mapChans f).outs g = s.outs g := by
  refine State.outs_congr ?_ g
  rw [State.mapChans, State.modHarrow_harrow]
  exact ⟨rfl, rfl⟩

theorem State.outs_modNext (k : PathKind) (f : Tick → Tick) (g : Group) (s : State) : (s.modNext k f).outs g = s.outs g := by
  refine State.outs_congr ?_ g
  rw [State.modNext, State.modHarrow_harrow]
  cases k <;> exact ⟨rfl, rfl⟩

theorem State.outs_refreshKind (k : PathKind) (g : Group) (s : State) : (s.refreshKind k).outs g = s.outs g := by
  unfold State.refreshKind
  dsimp only
  split
  · exact (State.outs_modNext ..).trans (State.outs_mapChans ..)
  · exact State.outs_mapChans ..

theorem State.outs_refreshPaths (g : Group) (s : State) : s.refreshPaths.outs g = s.outs g := by
  rw [State.refreshPaths, State.outs_refreshKind, State.outs_refreshKind, State.outs_refreshKind]

theorem State.outs_modBuf (f : Buf → Buf) (g : Group) (s : State) : (s.modBuf f).outs g = s.outs g := by
  cases g <;> rfl

theorem State.outs_setOuts (g : Group) (l : List GroupOut) (s : State) : (s.setOuts g l).outs g = l := by
  cases g <;> rfl

theorem State.outs_stopWriter (g : Group) (s : State) : s.stopWriter.outs g = [] := by
  cases g <;> rfl

theorem State.outs_refresh (g : Group) (h : s.outs g = []) : s.refresh.outs g = [] := by
  have hpaths := (State.outs_refreshPaths g s).trans h
  rw [State.refresh, State.refreshWriter]
  split
  · split
    · rw [State.outs_refreshPaths]
      exact State.outs_stopWriter g _
    · exact hpaths
  · split
    · exact hpaths
    · split
      · split
        · exact hpaths
        · exact s.refreshPaths.startWriter_started.outs g
      · split
        · exact s.refreshPaths.startWriter_started.outs g
        · rw [State.outs_modBuf]
          exact hpaths

/-- The group after a change of its rate code, before captures and the engine follow. -/
def State.rateStart (g : Group) (s : State) : State :=
  let q := ((s.restart (groupKind g) (BitVec.allOnes 24) false).startGrid (groupKind g)).setOuts g []
  if q.buf.writing then q.modGroup g (Grp.start q.clk.tsc) else q

theorem State.rateChange_eq (g : Group) (s : State) : (∃ f, s.rateChange g = ((s.rateStart g).modSpec f).capRateChange) ∨
    s.rateChange g = s.rateStart g := by
  cases g
  · exact .inl ⟨_, rfl⟩
  · exact .inr rfl

/-- A change of the rate code: the group's outputs are gone, and a running group owes LAYOUT and TIME (R357). -/
theorem State.rateStart_is (g : Group) (s : State) : ∃ x, s.GroupIs (s.rateStart g) g x ∧
    x.mask = (s.group g).mask ∧ x.rate = (s.group g).rate ∧ (s.buf.writing = true → x.layout = true ∧ x.timeOwed = true) ∧
    (s.rateStart g).outs g = [] := by
  have hbuf : (((s.restart (groupKind g) (BitVec.allOnes 24) false).startGrid (groupKind g)).setOuts g []).buf = s.buf :=
    State.buf_of_mask (ps := [.harrow]) (by simp) (by decide)
  have houts := ((s.restart (groupKind g) (BitVec.allOnes 24) false).startGrid (groupKind g)).outs_setOuts g []
  unfold State.rateStart
  dsimp only
  generalize ((s.restart (groupKind g) (BitVec.allOnes 24) false).startGrid (groupKind g)).setOuts g [] = q at hbuf houts ⊢
  split
  · refine ⟨(s.group g).start q.clk.tsc, ?_, rfl, rfl, fun _ => ⟨rfl, rfl⟩, (State.outs_modBuf ..).trans houts⟩
    rw [State.GroupIs, State.modGroup, State.modBuf_buf, hbuf]
    cases g <;> rfl
  · next hw =>
    refine ⟨s.group g, ?_, rfl, rfl, fun hs => absurd (by rw [hbuf]; exact hs) hw, houts⟩
    rw [State.GroupIs, hbuf]
    cases g <;> rfl

theorem State.outs_capRateChange (g : Group) (f : Spec → Spec) (s : State) :
    (s.modSpec f).capRateChange.buf = s.buf ∧ (s.modSpec f).capRateChange.outs g = s.outs g := by
  have hmask : (s.modSpec f).capRateChange.mask [.cap, .spec, .fresh] = s.mask [.cap, .spec, .fresh] := by simp
  have hharrow := State.harrow_of_mask hmask (by decide)
  exact ⟨State.buf_of_mask hmask (by decide), State.outs_congr (by rw [hharrow]; exact ⟨rfl, rfl⟩) g⟩

theorem State.rateChange_is (g : Group) (s : State) : ∃ x, s.GroupIs (s.rateChange g) g x ∧
    x.mask = (s.group g).mask ∧ x.rate = (s.group g).rate ∧ (s.buf.writing = true → x.layout = true ∧ x.timeOwed = true) ∧
    (s.rateChange g).outs g = [] := by
  obtain ⟨x, hx, hmask, hrate, howed, houts⟩ := s.rateStart_is g
  rcases s.rateChange_eq g with ⟨f, heq⟩ | heq
  · obtain ⟨hbuf, hsame⟩ := (s.rateStart g).outs_capRateChange g f
    rw [heq]
    exact ⟨x, hbuf.trans hx, hmask, hrate, howed, hsame.trans houts⟩
  · rw [heq]
    exact ⟨x, hx, hmask, hrate, howed, houts⟩

/-! ### PHASE -/

/-- The word that PHASE_CHANGE writes holds STREAM_CTRL but for bit 8. -/
theorem Buf.phaseWord (b : Buf) (v : Bool) :
    bitAt (setField b.streamCtrl 8 (BitVec.ofBool v)) 0 = b.run ∧ bitAt (setField b.streamCtrl 8
        (BitVec.ofBool v)) 1 = b.alignEp ∧
    bits (setField b.streamCtrl 8 (BitVec.ofBool v)) 4 4 = b.timeEvery ∧
    bitAt (setField b.streamCtrl 8 (BitVec.ofBool v)) 8 = v := by
  have hrest : ∀ k, k < 8 → bitAt (setField b.streamCtrl 8 (BitVec.ofBool v)) k = bitAt b.streamCtrl k := fun k hk => by
    rw [bitAt_setField _ _ _ (by omega), if_neg (by omega)]
  obtain ⟨h1, h4⟩ := Buf.streamCtrl_held (b := b) fun k hk => hrest k (by omega)
  refine ⟨?_, h1, h4, ?_⟩
  · rw [hrest 0 (by omega), Buf.bitAt_streamCtrl _ (by omega)]
    simp
  · rw [bitAt_setField _ _ _ (by omega), if_pos (by omega)]
    cases v <;> rfl

theorem State.phaseRestart_buf (s : State) : s.phaseRestart.buf = s.buf := by
  unfold State.phaseRestart
  exact State.buf_of_mask (ps := [.harrow, .spec]) (by simp) (by decide)

@[simp] theorem State.mask_phaseRestart {ps : List Part} (h0 : Part.harrow ∈ ps) (h1 : Part.spec ∈ ps) (s : State) :
    s.phaseRestart.mask ps = s.mask ps := by
  simp [State.phaseRestart, h0, h1]

/-- The state right after the fields of a write of PHASE, before paths and writer follow. -/
def State.phaseSet (v : Bool) (s : State) : State :=
  if (v != s.buf.minPhase) = true then (s.modBuf fun b => { b with minPhase := v }).phaseRestart
  else s.modBuf fun b => { b with minPhase := v }

theorem State.phaseSet_facts (v : Bool) (s : State) : (s.phaseSet v).buf = { s.buf with minPhase := v } ∧
    (v = s.buf.minPhase → (s.phaseSet v).spec = s.spec) ∧
    (s.phaseSet v).mask [.harrow, .spec, .buf] = s.mask [.harrow, .spec, .buf] := by
  unfold State.phaseSet
  split
  · next hne => exact ⟨State.phaseRestart_buf _, fun he => absurd he (bne_iff_ne.mp hne), by simp⟩
  · exact ⟨rfl, fun _ => rfl, by simp⟩

theorem State.writeStreamCtrl_phase (h0 : bitAt w 0 = s.buf.run) (h1 : bitAt w 1 = s.buf.alignEp)
    (h4 : bits w 4 4 = s.buf.timeEvery) : s.writeStreamCtrl w = (s.phaseSet (bitAt w 8)).refresh := by
  rw [State.writeStreamCtrl_runs (by rw [h0]; simp) h1 h4, h0]
  rfl

/-- STREAM_CTRL written as it stands but for PHASE. -/
theorem State.writePhase_eq (v : Bool) (s : State) :
    (s.reportsFirst !s.buf.run).writeStreamCtrl (setField s.buf.streamCtrl 8 (BitVec.ofBool v)) =
      ((s.reportsFirst !s.buf.run).phaseSet v).refresh := by
  obtain ⟨h0, h1, h4, h8⟩ := s.buf.phaseWord v
  have hkept := s.reportsFirst_kept !s.buf.run
  rw [State.writeStreamCtrl_phase (h0.trans hkept.run.symm) (h1.trans hkept.alignEp.symm) (h4.trans hkept.timeEvery.symm), h8]

theorem State.reportsFirst_run_of_settled (h : s.writerSettled = true) : s.reportsFirst (!s.buf.run) = s := by
  unfold State.reportsFirst
  cases hw : s.buf.writing with
  | false => simp
  | true =>
    have hmay : s.writerMay = true := by
      unfold State.writerSettled at h
      cases harmed : s.buf.armedGate with
      | true => simp [harmed, hw] at h
      | false => simpa [harmed, hw] using h
    have hrun : s.buf.run = true := by
      simp only [State.writerMay, Bool.and_eq_true] at hmay
      exact hmay.1.1.1
    simp [hrun]

theorem State.writePhase_facts (v : Bool) (s : State) :
    let t := (s.reportsFirst !(bitAt (setField s.buf.streamCtrl 8 (BitVec.ofBool v)) 0)).writeStreamCtrl
      (setField s.buf.streamCtrl 8 (BitVec.ofBool v))
    t.buf.alignEp = s.buf.alignEp ∧ t.buf.timeEvery = s.buf.timeEvery ∧ t.buf.minPhase = v ∧ t.buf.run = s.buf.run ∧
    (v = s.buf.minPhase → t.spec = s.spec) ∧
    (s.writerSettled = true → t.buf = { s.buf with minPhase := v } ∧
      t.mask [.harrow, .spec, .buf, .host, .int] = s.mask [.harrow, .spec, .buf, .host, .int]) ∧
    t.mask [.harrow, .recog, .cap, .spec, .smc, .buf, .pwr, .host, .int] =
      s.mask [.harrow, .recog, .cap, .spec, .smc, .buf, .pwr, .host, .int] := by
  dsimp only
  rw [(s.buf.phaseWord v).1, State.writePhase_eq]
  have hkept := s.reportsFirst_kept !s.buf.run
  have hspec : (s.reportsFirst !s.buf.run).spec = s.spec :=
    State.spec_of_mask (ps := [.recog, .cap, .smc, .buf]) (by simp) (by decide)
  obtain ⟨hbuf, hsame, hmask⟩ := (s.reportsFirst !s.buf.run).phaseSet_facts v
  have hstream := ((s.reportsFirst !s.buf.run).phaseSet v).refresh_stream
  have hspec' : ((s.reportsFirst !s.buf.run).phaseSet v).refresh.spec = ((s.reportsFirst !s.buf.run).phaseSet v).spec :=
    State.spec_of_mask (ps := [.harrow, .buf, .pwr]) (by simp) (by decide)
  refine ⟨?_, ?_, ?_, ?_, fun he => hspec'.trans ((hsame (he.trans hkept.minPhase.symm)).trans hspec), fun hs => ?settled, ?same⟩
  · rw [hstream.alignEp, hbuf]
    exact hkept.alignEp
  · rw [hstream.timeEvery, hbuf]
    exact hkept.timeEvery
  · rw [hstream.minPhase, hbuf]
  · rw [hstream.run, hbuf]
    exact hkept.run
  case settled =>
    rw [State.reportsFirst_run_of_settled hs] at hbuf hmask ⊢
    have hset : (s.phaseSet v).writerSettled = true := by
      have hmay := State.writerMay_congr (t := s.phaseSet v) (s := s) (by rw [hbuf]) (by rw [hbuf])
        (State.clk_of_mask hmask (by decide)) (State.isOn_of_pwr (State.pwr_of_mask hmask (by decide)) .en)
      rw [State.writerSettled, hmay, hbuf]
      exact hs
    rw [State.refresh_of_settled hset, State.refreshPaths_buf]
    have hmask' := State.mask_mono (qs := [.harrow, .spec, .buf, .host, .int]) hmask (by decide)
    exact ⟨hbuf, by simp [hmask']⟩
  case same =>
    have hmask' := State.mask_mono (qs := [.harrow, .recog, .cap, .spec, .smc, .buf, .pwr, .host, .int]) hmask (by decide)
    simp [hmask']

end

/-- Settles O29: STREAM_START is two writes (State.streamStart_writes), the gate State.startWriter, a stop places what is ready
and owes a FILL frame, a layout or a rate changes one group (State.layoutChanged_is, State.rateChange_is); State.refresh brings
paths and writer to what the state asks for. -/
theorem streamControlsComplete : Obligations.StreamControlsComplete := by
  unfold Obligations.StreamControlsComplete
  refine ⟨fun s h hon hw harm => ⟨fun hgate => ?start, fun hgate => ?wait⟩, fun s harm hmay hgate hsm => ?gate,
    fun s h hw hen => ?bufStop, fun s h hw hrun => ?streamStop,
    fun s g w h => ⟨fun hrate => ?layout, fun hrate => ?rate⟩, fun s v h => ?phase⟩
  case start =>
    refine .answer (congrArg (answer s) (State.streamStart_writes h)) ?_
    have hstart := State.streamStart_starts (State.clken_of_bufCtrl h) hon hw harm hgate
    simp only [State.arbitrate_buf, State.finishWrite_buf]
    refine ⟨hstart.run, hstart.enable, hstart.writing, hstart.starts .fast, hstart.starts .slow, hstart.thresh, fun hnone => ?_,
      by simp [Same, State.enabled]⟩
    obtain ⟨hseq, hwords, hmask⟩ := hstart.quiet hnone
    have hmask' := State.mask_mono (qs := [.harrow, .buf, .host, .int]) hmask (by decide)
    exact ⟨hseq, hwords, by simp [Same, hmask']⟩
  case wait =>
    refine .answer (congrArg (answer s) (State.streamStart_writes h)) ?_
    obtain ⟨hbuf, hmask⟩ := State.streamStart_waits (State.clken_of_bufCtrl h) hon hw harm hgate
    simp only [State.arbitrate_buf, State.finishWrite_buf, hbuf]
    have hmask' := State.mask_mono (qs := [.harrow, .buf, .host, .int]) hmask (by decide)
    exact ⟨trivial, trivial, hw, trivial, trivial, by simp [Same, hmask']⟩
  case gate =>
    have hstart := s.startWriter_started
    refine .event (by rw [exec, execWriterGateOpen]) (by rw [harm, hmay, hgate, hsm]; rfl) ?_
    simp only [State.arbitrate_buf]
    refine ⟨hstart.writing, hstart.armedGate, hstart.starts .fast, hstart.starts .slow, fun hnone => ?_, by simp [Same]⟩
    obtain ⟨-, hwords, hmask⟩ := hstart.quiet hnone
    have hmask' := State.mask_mono (qs := [.harrow, .buf, .int]) hmask (by decide)
    exact ⟨hwords, by simp [Same, hmask']⟩
  case bufStop =>
    refine .answer (congrArg (answer s) (State.hostWrite_bufCtrl h _)) ?_
    have h0 : bitAt (s.buf.ctrl &&& ~~~flg true 0) 0 = false := by rw [bitAt_clear_zero]; simp
    have hzero : ∀ k, k ≠ 3 → bitAt (s.buf.ctrl &&& ~~~flg true 0) k = false := fun k hk => by
      rw [bitAt_clear_zero, Buf.bitAt_ctrl]
      by_cases hk0 : k = 0 <;> simp [hk, hk0]
    have hkept := s.reportsFirst_kept true
    obtain ⟨hbuf, hmask, hquiet⟩ := State.writeBufCtrl_stopped (s := s.reportsFirst true) (hkept.enable.trans hen)
      (hkept.writing.trans hw) h0 (hzero 1 (by omega)) (hzero 2 (by omega))
    have hplaced := hkept.trans (s.reportsFirst true).placeReady_kept
    have hmask' := State.mask_mono (qs := [.harrow, .recog, .cap, .smc, .buf, .pwr, .host, .int]) hmask (by decide)
    rw [h0, Bool.not_false]
    simp only [State.arbitrate_buf, State.finishWrite_buf, hbuf]
    refine ⟨rfl, hplaced.run, rfl, rfl, fun hno hrep => ?_, by simp [Same, hmask']⟩
    rw [State.reportsFirst_of_noReports hrep] at hquiet ⊢
    have hquiet' := State.mask_mono (qs := [.harrow, .buf, .host, .int]) (hquiet hno) (by decide)
    rw [State.placeReady_of_noUnits hno]
    exact ⟨rfl, rfl, by simp [Same, hquiet']⟩
  case streamStop =>
    refine .answer (congrArg (answer s) (State.hostWrite_streamCtrl h _)) ?_
    have h0 : bitAt (s.buf.streamCtrl &&& ~~~flg true 0) 0 = false := by rw [bitAt_clear_zero]; simp
    have h8 : bitAt (s.buf.streamCtrl &&& ~~~flg true 0) 8 = s.buf.minPhase := by
      rw [bitAt_clear_zero, Buf.bitAt_streamCtrl _ (by omega)]
      simp
    have hkept := s.reportsFirst_kept true
    obtain ⟨hbuf, hmask, hquiet⟩ := State.writeStreamCtrl_stopped (s := s.reportsFirst true) (hkept.run.trans hrun)
      (hkept.writing.trans hw) h0 (h8.trans hkept.minPhase.symm)
    have hplaced := hkept.trans (s.reportsFirst true).placeReady_kept
    have hmask' := State.mask_mono (qs := [.harrow, .recog, .cap, .smc, .buf, .pwr, .host, .int]) hmask (by decide)
    rw [h0, Bool.not_false]
    simp only [State.arbitrate_buf, State.finishWrite_buf, hbuf]
    refine ⟨rfl, hplaced.enable, rfl, rfl, fun hno hrep => ?_, by simp [Same, hmask']⟩
    rw [State.reportsFirst_of_noReports hrep] at hquiet ⊢
    have hquiet' := State.mask_mono (qs := [.harrow, .buf, .host, .int]) (hquiet hno) (by decide)
    rw [State.placeReady_of_noUnits hno]
    exact ⟨rfl, rfl, by simp [Same, hquiet']⟩
  case layout =>
    refine .answer (congrArg (answer s) (State.hostWrite_group g h w)) ?_
    rw [State.writeStreamGroup_layout hrate]
    obtain ⟨x, hx, hxmask, hxrate, hxolds, hmask⟩ := s.layoutChanged_is g w
    have hstream := (s.layoutChanged g w).refresh_stream
    obtain ⟨hself, hother⟩ := hx.group
    obtain ⟨hmay, hset, hwr, hwords⟩ := hx.settled (State.clk_of_mask hmask (by decide))
      (State.isOn_of_pwr (State.pwr_of_mask hmask (by decide)) .en)
    have hgroup : ∀ (t : State) j, (State.arbitrate s t.finishWrite).group j = t.group j := fun t =>
      State.group_congr (by rw [State.arbitrate_buf]; exact ⟨rfl, rfl⟩)
    have hpaths : ∀ j, (s.layoutChanged g w).refreshPaths.group j = (s.layoutChanged g w).group j :=
      State.group_congr (by rw [State.refreshPaths_buf]; exact ⟨rfl, rfl⟩)
    have hmask' := State.mask_mono (qs := [.harrow, .buf, .pwr, .host, .int]) hmask (by decide)
    simp only [hgroup, State.arbitrate_buf, State.finishWrite_buf]
    refine ⟨(hstream.layouts g).1.trans (by rw [hself, hxmask]), (hstream.layouts g).2.trans (by rw [hself, hxrate]),
      fun hw hmw hne hold => ?_, fun hs => ?_, by simp [Same, hmask']⟩
    · rw [State.refresh, State.refreshWriter_writes ((State.writerMay_refreshPaths _).trans (hmay.trans hmw))
        (by rw [State.refreshPaths_buf]; exact hwr.trans hw), hpaths, hself, hxolds hw hne hold]
    · rw [State.refresh_of_settled (hset.trans hs), hpaths, State.refreshPaths_buf]
      have hmask'' := State.mask_mono (qs := [.harrow, .buf, .host, .int]) hmask (by decide)
      exact ⟨hother, hwords, by simp [Same, hmask'']⟩
  case rate =>
    refine .answer (congrArg (answer s) (State.hostWrite_group g h w)) ?_
    rw [State.writeStreamGroup_rate hrate]
    have hwritten : ((s.modGroup g fun y => { y with mask := bits w 0 24, rate := bits w 24 4 }).group g).mask = bits w 0 24 ∧
        ((s.modGroup g fun y => { y with mask := bits w 0 24, rate := bits w 24 4 }).group g).rate = bits w 24 4 := by
      cases g <;> exact ⟨rfl, rfl⟩
    obtain ⟨x, hx, hxmask, hxrate, howed, houts⟩ :=
      (s.modGroup g fun y => { y with mask := bits w 0 24, rate := bits w 24 4 }).rateChange_is g
    have hx' : s.GroupIs ((s.modGroup g fun y => { y with mask := bits w 0 24, rate := bits w 24 4 }).rateChange g) g x := by
      rw [State.GroupIs, hx]
      cases g <;> rfl
    have hw' : (s.modGroup g fun y => { y with mask := bits w 0 24, rate := bits w 24 4 }).buf.writing = s.buf.writing := by
      cases g <;> rfl
    have hmask : ((s.modGroup g fun y => { y with mask := bits w 0 24, rate := bits w 24 4 }).rateChange g).mask
        [.harrow, .cap, .spec, .buf, .fresh] = s.mask [.harrow, .cap, .spec, .buf, .fresh] := by simp
    rw [hwritten.1] at hxmask
    rw [hwritten.2] at hxrate
    rw [hw'] at howed
    generalize (s.modGroup g fun y => { y with mask := bits w 0 24, rate := bits w 24 4 }).rateChange g = m at hx' houts hmask ⊢
    obtain ⟨hself, -⟩ := hx'.group
    obtain ⟨hmay, hset, hwr, hwords⟩ := hx'.settled (State.clk_of_mask hmask (by decide))
      (State.isOn_of_pwr (State.pwr_of_mask hmask (by decide)) .en)
    have hgroup : ∀ (t : State) j, (State.arbitrate s t.finishWrite).group j = t.group j := fun t =>
      State.group_congr (by rw [State.arbitrate_buf]; exact ⟨rfl, rfl⟩)
    have hpaths : ∀ j, m.refreshPaths.group j = m.group j :=
      State.group_congr (by rw [State.refreshPaths_buf]; exact ⟨rfl, rfl⟩)
    have houts' : ∀ t : State, (State.arbitrate s t.finishWrite).outs g = t.outs g := fun t =>
      State.outs_congr (by rw [State.arbitrate_harrow]; exact ⟨rfl, rfl⟩) g
    have hmask' := State.mask_mono (qs := [.harrow, .cap, .spec, .buf, .pwr, .host, .int, .fresh]) hmask (by decide)
    simp only [hgroup, houts', State.arbitrate_buf, State.finishWrite_buf]
    refine ⟨(m.refresh_stream.layouts g).1.trans (by rw [hself, hxmask]), (m.refresh_stream.layouts g).2.trans (by rw [hself,
        hxrate]),
      State.outs_refresh g houts, fun hw hmw => ?_, fun hs => ?_, by simp [Same, hmask']⟩
    · rw [State.refresh, State.refreshWriter_writes ((State.writerMay_refreshPaths _).trans (hmay.trans hmw))
        (by rw [State.refreshPaths_buf]; exact hwr.trans hw), hpaths, hself]
      exact howed hw
    · rw [State.refresh_of_settled (hset.trans hs), State.refreshPaths_buf]
      have hmask'' := State.mask_mono (qs := [.harrow, .cap, .spec, .buf, .host, .int, .fresh]) hmask (by decide)
      exact ⟨hwords, by simp [Same, hmask'']⟩
  case phase =>
    refine .answer (congrArg (answer s) (State.hostWrite_streamCtrl h _)) ?_
    obtain ⟨halign, hevery, hphase, hrun, hspec, hsettled, hmask⟩ := s.writePhase_facts v
    simp only [State.arbitrate_buf, State.finishWrite_buf, State.arbitrate_spec, State.finishWrite_spec]
    refine ⟨hphase, hrun, halign, hevery, hspec, fun hs => ?_, by simp [Same, hmask]⟩
    obtain ⟨hbuf, hquiet⟩ := hsettled hs
    exact ⟨hbuf, by simp [Same, hquiet]⟩

end Sys2Proof.Machine
end

section
/-!
PROOFS. Authenticated commands: the state their step 9 finds, and what their end leaves (R557, R582 to R584).
-/

namespace Sys2Proof.Machine

open Sys2Proof

section
variable {s t u : State} {code : BitVec 8}

/-! ### The end of a sequence of the port -/

/-- The management part but for what Zoruimen keeps in flash 0, which a program or an erase may touch (R558). -/
def Mgmt.noStores (m : Mgmt) : Mgmt :=
  { m with logRing := [], slotA := {}, slotB := {}, cfgA := none, cfgB := none, authCtr := 0#32, spills := [] }

@[simp] theorem State.noStores_endSeq (s : State) : s.endSeq.mgmt.noStores = s.mgmt.noStores := by
  have hover : ∀ (e : Bool) (a n : Nat) (t : State), (t.overwritten e a n).mgmt.noStores = t.mgmt.noStores := fun _ _ _ _ => rfl
  unfold State.endSeq
  dsimp only
  split
  · unfold State.changedBy
    split
    · exact hover _ _ _ _
    · exact hover _ _ _ _
    · rfl
  · rfl

/-! ### The state that step 9 finds -/

/-- The state that step 9 of a command finds: the sequence of the port ended, the counters of R585 cleared, CTR stored (R583). -/
def State.atStep9 (s : State) : State := (s.storeWork.modMgmt Mgmt.passed).modMgmt fun m => { m with authCtr := m.ctr }

/-- Step 8 changes the counters of R585 and the stored counter alone. -/
theorem State.atStep9_mgmt (s : State) : ∃ store, s.atStep9.mgmt =
    { s.endSeq.mgmt with
      consec := 0#5, lockStep := 0#3, lockLate := false, lockStore := store, authCtr := s.endSeq.mgmt.ctr } := by
  have hkeep : ∀ m : Mgmt, ∃ store, m.keepLock = { m with lockStore := store } := by
    intro m
    unfold Mgmt.keepLock
    split
    · exact ⟨_, rfl⟩
    · exact ⟨_, rfl⟩
  obtain ⟨store, hstore⟩ := hkeep { s.endSeq.mgmt with consec := 0#5, lockStep := 0#3, lockLate := false }
  refine ⟨store, ?_⟩
  have heq : s.atStep9.mgmt =
      { ({ s.endSeq.mgmt with consec := 0#5, lockStep := 0#3, lockLate := false } : Mgmt).keepLock with
        authCtr := ({ s.endSeq.mgmt with consec := 0#5, lockStep := 0#3, lockLate := false } : Mgmt).keepLock.ctr } := rfl
  rw [heq, hstore]

/-- The management part but for what Zoruimen keeps in flash 0 and the counters of R585. -/
def Mgmt.noWork (m : Mgmt) : Mgmt :=
  { m.noStores with consec := 0#5, lockStep := 0#3, lockLate := false, lockStore := { newest := (0#3, false, false) } }

/-- q is what step 9 of a command finds (R583, R585): the sequence of the port has ended, the counters of R585 are cleared, CTR is
the stored counter, and all else is as it was. -/
structure State.Step9 (s q : State) : Prop where
  authCtr : q.mgmt.authCtr = s.mgmt.ctr
  consec : q.mgmt.consec = 0#5
  stores : q.mgmt.cfgA = s.endSeq.mgmt.cfgA ∧ q.mgmt.cfgB = s.endSeq.mgmt.cfgB ∧
    q.mgmt.spills = s.endSeq.mgmt.spills ∧ q.mgmt.logRing = s.endSeq.mgmt.logRing
  slots : q.mgmt.slotA = s.endSeq.mgmt.slotA ∧ q.mgmt.slotB = s.endSeq.mgmt.slotB
  rest : q.mgmt.noWork = s.mgmt.noWork
  arr : q.arr.noCopies = s.arr.noCopies
  idle : q.mport.seq = none ∧ q.mport.waiting = false
  flash : q.mport.flash = s.endSeq.mport.flash
  mask : q.mask [.mgmt, .mport] = s.endSeq.mask [.mgmt, .mport]

/-- Where the bus is free no sequence is left in progress. -/
theorem State.endSeq_idle (h : s.flashFree = true) : s.endSeq.mport.seq = none ∧ s.endSeq.mport.waiting = false := by
  have hw : s.mport.waiting = false := by
    simp only [State.flashFree, Bool.and_eq_true, Bool.not_eq_true'] at h
    exact h.1.2
  rw [State.endSeq_mport]
  unfold Mport.endSeq
  rw [hw, if_neg Bool.false_ne_true]
  split
  · next hs => exact ⟨hs, hw⟩
  · next q _ =>
    refine ⟨rfl, ?_⟩
    cases q with
    | program b a bs => cases b <;> exact hw
    | erase b a n => cases b <;> exact hw

theorem State.atStep9_is (h : s.flashFree = true) : s.Step9 s.atStep9 := by
  obtain ⟨store, heq⟩ := s.atStep9_mgmt
  have hkept : s.endSeq.mgmt.noWork = s.mgmt.noWork := congrArg (fun m : Mgmt =>
    { m with consec := 0#5, lockStep := 0#3, lockLate := false, lockStore := { newest := (0#3, false, false) } }) s.noStores_endSeq
  have hmask : s.atStep9.mask [.mgmt, .mport] = s.endSeq.mask [.mgmt, .mport] := by
    simp [State.atStep9, State.storeWork]
  have hport : s.atStep9.mport =
      { s.endSeq.mport with repoll := false, sent := s.endSeq.mport.sentPoll ++ Config.storeSent s.clk.tsc } := by
    simp [State.atStep9, State.storeWork]
  have harr : s.atStep9.arr = s.endSeq.arr := by simp [State.atStep9, State.storeWork]
  refine ⟨?_, ?_, ⟨?_, ?_, ?_, ?_⟩, ⟨?_, ?_⟩, ?_, by rw [harr]; exact s.noCopies_endSeq, by rw [hport]; exact State.endSeq_idle h,
    by rw [hport], hmask⟩
  all_goals rw [heq]
  · exact (congrArg Mgmt.ctr hkept :)
  · exact hkept

section
variable {q : State}

theorem State.Step9.events (h : s.Step9 q) : q.mgmt.doneEvt = s.mgmt.doneEvt ∧ q.mgmt.rejEvt = s.mgmt.rejEvt :=
  ⟨(congrArg Mgmt.doneEvt h.rest :), (congrArg Mgmt.rejEvt h.rest :)⟩

theorem State.Step9.args (h : s.Step9 q) : q.mgmt.args = s.mgmt.args := (congrArg Mgmt.args h.rest :)

theorem State.Step9.arg (h : s.Step9 q) (k : Nat) : q.mgmt.arg k = s.mgmt.arg k := by
  rw [Mgmt.arg, Mgmt.arg, h.args]

theorem State.Step9.unitArg (h : s.Step9 q) : q.mgmt.unitArg = s.mgmt.unitArg := by
  rw [Mgmt.unitArg, Mgmt.unitArg, h.arg]

theorem State.Step9.unit (h : s.Step9 q) (k : Nat) : q.unit k = s.unit k := State.unit_congr (State.noCopies_facts h.arr).1 k

theorem State.Step9.auditOf (h : s.Step9 q) (k : Nat) : q.auditOf k = s.auditOf k := by
  rw [State.auditOf, State.auditOf, State.rotation_congr (State.noCopies_facts h.arr).2.2]

/-- What a command's step 9 leaves alone outside the management part and the port, the command leaves alone. -/
theorem State.Step9.same (h : s.Step9 q) (ht : t.mask [.mgmt, .int] = u.mask [.mgmt, .int])
    (hu : u.mask [.mgmt, .mport, .int] = q.mask [.mgmt, .mport, .int]) : Same [.mgmt, .mport, .int] s.endSeq t := by
  have ht' := State.mask_mono (qs := [.mgmt, .mport, .int]) ht (by decide)
  exact ht'.trans (hu.trans (State.mask_mono h.mask (by decide)))

/-- The same for a command that moves the array too, in which the end of a sequence may have lost a copy of the map. -/
theorem State.Step9.same_arr {ps : List Part} (h : s.Step9 q) (hps : [Part.arr, .mgmt, .mport, .int] ⊆ ps)
    (ht : t.mask [.mgmt, .int] = u.mask [.mgmt, .int]) (hu : u.mask ps = q.mask ps) : Same ps s t := by
  have hmem : ∀ p, p ∈ [Part.arr, .mgmt, .mport, .int] → p ∈ ps := fun p hp => hps hp
  have hend : s.endSeq.mask ps = s.mask ps := by
    simp [hmem .arr (by decide), hmem .mgmt (by decide), hmem .mport (by decide)]
  have hsub : ∀ p, p ∈ [Part.mgmt, .int] → p ∈ ps := fun p hp => hmem p (by revert hp; cases p <;> decide)
  have hsub' : ∀ p, p ∈ [Part.mgmt, .mport] → p ∈ ps := fun p hp => hmem p (by revert hp; cases p <;> decide)
  exact (State.mask_mono ht hsub).trans (hu.trans ((State.mask_mono h.mask hsub').trans hend))

end

/-! ### The end of a command -/

/-- The management part but for what the end of a command writes: the command's own registers and the queue of the log (R492,
R571). -/
def Mgmt.noCommand (m : Mgmt) : Mgmt :=
  { m with args := [], tagLo := 0#32, tagHi := 0#32, result := 0#8, busy := false, doneEvt := false, rejEvt := false,
           logQ := [], logDrop := 0#16, logOvf := 0 }

theorem State.log_mgmt_eq (cls c : BitVec 8) (d0 d1 d2 : Word) (s : State) : ∃ q d o,
    (s.log cls c d0 d1 d2).mgmt = { s.mgmt with logQ := q, logDrop := d, logOvf := o } := by
  unfold State.log
  split
  · exact ⟨_, _, _, rfl⟩
  · exact ⟨_, _, _, rfl⟩

theorem State.endCommand_mgmt (r : BitVec 8) (s : State) : ∃ q d o, (s.endCommand r).mgmt =
    { s.mgmt with
      args := [], tagLo := 0#32, tagHi := 0#32, result := r, busy := false
      doneEvt := s.mgmt.doneEvt || r == 0#8, rejEvt := s.mgmt.rejEvt || !(r == 0#8), logQ := q, logDrop := d, logOvf := o } := by
  unfold State.endCommand
  dsimp only
  obtain ⟨q, d, o, heq⟩ := State.log_mgmt_eq 0x06#8 s.mgmt.code s.mgmt.ctr (fld r 0) 0#32
    (if (r == 0#8) = true then s.modMgmt fun m => { m with
        args := [], tagLo := 0#32, tagHi := 0#32, result := r, busy := false
        doneEvt := m.doneEvt || r == 0#8, rejEvt := m.rejEvt || !(r == 0#8) }
      else (s.modMgmt fun m => { m with
        args := [], tagLo := 0#32, tagHi := 0#32, result := r, busy := false
        doneEvt := m.doneEvt || r == 0#8, rejEvt := m.rejEvt || !(r == 0#8) }).stick 13)
  refine ⟨q, d, o, heq.trans ?_⟩
  split <;> rfl

theorem State.noCommand_endCommand (r : BitVec 8) (s : State) : (s.endCommand r).mgmt.noCommand = s.mgmt.noCommand := by
  obtain ⟨q, d, o, heq⟩ := s.endCommand_mgmt r
  rw [heq]
  rfl

/-- Where the event bits stand as before, the end of the command is one of R492. -/
theorem State.endCommand_ended (h : t.mgmt.doneEvt = s.mgmt.doneEvt ∧ t.mgmt.rejEvt = s.mgmt.rejEvt) (r : BitVec 8) (u : State) :
    s.CmdEnded (State.arbitrate u (t.endCommand r)) r := by
  obtain ⟨q, d, o, heq⟩ := t.endCommand_mgmt r
  rw [State.CmdEnded, State.arbitrate_mgmt, heq, ← h.1, ← h.2]
  exact ⟨rfl, rfl, rfl, rfl, rfl, rfl, rfl⟩

/-- A command that ends well touches the bus no more (R492). -/
theorem State.mask_endCommand_ok {ps : List Part} (h0 : Part.mgmt ∈ ps) (s : State) : (s.endCommand 0#8).mask ps = s.mask ps := by
  unfold State.endCommand
  simp [h0]

theorem State.endCommand_sticky {r : BitVec 8} (h : r ≠ 0#8) (s : State) : (s.endCommand r).host.sticky.getLsbD 13 = true := by
  unfold State.endCommand
  have hbeq : (r == 0#8) = false := beq_eq_false_iff_ne.mpr h
  simp [hbeq, State.stick, getLsbD_putBit]

@[simp] theorem State.endCommand_arr (r : BitVec 8) (s : State) : (s.endCommand r).arr = s.arr :=
  State.arr_of_mask (ps := [.host, .mgmt]) (by simp) (by decide)

@[simp] theorem State.unit_endCommand (r : BitVec 8) (k : Nat) (s : State) : (s.endCommand r).unit k = s.unit k :=
  State.unit_congr (by simp) k

/-- A command that is ready runs its step 9 on a state of State.Step9, ends with its RESULT, and goes on to what follows its end. -/
theorem State.command_follows (h : s.CmdReady code) : ∃ q, s.Step9 q ∧ ∀ c f after, exec c s = s.command code true f after →
    ∀ u r P, f q = (u, r) → P (State.arbitrate s (if r = 0#8 then after (u.endCommand r) else u.endCommand r)) →
      Completes c s P := by
  obtain ⟨-, -, -, -, hfree⟩ := id h
  refine ⟨s.atStep9, State.atStep9_is hfree, fun c f after hexec u r P hf hP => ?_⟩
  refine .answer (u := s) (t := if r = 0#8 then after (u.endCommand r) else u.endCommand r) (hexec.trans ?_) hP
  rw [State.command_ready h]
  have hf' : f ((s.storeWork.modMgmt Mgmt.passed).modMgmt fun m => { m with authCtr := m.ctr }) = (u, r) := hf
  rw [hf']

/-- A command that nothing follows: one that ends well leaves what its step 9 leaves, but for its own registers and the log
queue. -/
theorem State.command_runs (h : s.CmdReady code) : ∃ q, s.Step9 q ∧ ∀ c f, exec c s = s.command code true f id →
    (∀ u r P, f q = (u, r) → P (State.arbitrate s (u.endCommand r)) → Completes c s P) ∧
    (∀ u, f q = (u, 0#8) → u.mgmt.doneEvt = s.mgmt.doneEvt ∧ u.mgmt.rejEvt = s.mgmt.rejEvt →
      ∃ t, exec c s = .next t ∧ s.CmdEnded t 0#8 ∧ t.mgmt.noCommand = u.mgmt.noCommand ∧
        t.mask [.mgmt, .int] = u.mask [.mgmt, .int]) := by
  obtain ⟨q, h9, hfollows⟩ := State.command_follows h
  refine ⟨q, h9, fun c f hexec => ?_⟩
  have hrun : ∀ u r P, f q = (u, r) → P (State.arbitrate s (u.endCommand r)) → Completes c s P := fun u r P hf hP =>
    hfollows c f id hexec u r P hf (by rw [id, ite_self]; exact hP)
  refine ⟨hrun, fun u hf hev => ?_⟩
  have hdone := hrun u 0#8 (fun t => s.CmdEnded t 0#8 ∧ t.mgmt.noCommand = u.mgmt.noCommand ∧
      t.mask [.mgmt, .int] = u.mask [.mgmt, .int]) hf
    ⟨State.endCommand_ended hev _ _, by rw [State.arbitrate_mgmt, State.noCommand_endCommand], by simp [State.mask_endCommand_ok]⟩
  exact hdone

end
end Sys2Proof.Machine
end

section
/-!
PROOFS. The commands on configuration, calibration, units and the log (R155, R507, R564, R574, R583, R584).
-/

namespace Sys2Proof.Machine

open Sys2Proof

section
variable {s t u : State} {ps : List Part}

/-! ### What logs and nothing else of the management part -/

/-- The management part but for the queue of the log (R571, R572). -/
def Mgmt.noLog (m : Mgmt) : Mgmt := { m with logQ := [], logDrop := 0#16, logOvf := 0 }

@[simp] theorem State.noLog_log (cls c : BitVec 8) (d0 d1 d2 : Word) (s : State) :
    (s.log cls c d0 d1 d2).mgmt.noLog = s.mgmt.noLog := by
  obtain ⟨q, d, o, heq⟩ := State.log_mgmt_eq cls c d0 d1 d2 s
  rw [heq]
  rfl

@[simp] theorem State.noLog_settleArray (s t : State) : (State.settleArray s t).mgmt.noLog = t.mgmt.noLog := by
  have htrims : (s.trimsAfter t).mgmt = t.mgmt := State.mgmt_of_mask (ps := [.arr]) (by simp) (by decide)
  have hlogs : ∀ (l : List Nat) (f : Nat → Word × Word × Word) (u : State),
      (l.foldl (fun u i => u.log 0x04#8 0x02#8 (f i).1 (f i).2.1 (f i).2.2) u).mgmt.noLog = u.mgmt.noLog := by
    intro l f u
    exact foldl_keeps (fun v : State => v.mgmt.noLog = u.mgmt.noLog) (fun v i h => (v.noLog_log ..).trans h) _ rfl
  have hfold := hlogs ((List.range 39).filter fun i => s.clusterState i != t.clusterState i)
    (fun i => (BitVec.ofNat 32 i, t.clusterWord i, s.clusterWord i)) (s.trimsAfter t)
  unfold State.settleArray
  dsimp only
  split
  · exact hfold.trans (congrArg Mgmt.noLog htrims)
  · exact hfold.trans (congrArg Mgmt.noLog htrims)

@[simp] theorem State.noLog_setUnit (k : Nat) (quiet commit : Bool) (f : UnitHealth → UnitHealth) (s : State) :
    (s.setUnit k quiet commit f).mgmt.noLog = s.mgmt.noLog := by
  have hmap : ∀ v : State, v.mapChanged.mgmt = v.mgmt := fun v => State.mgmt_of_mask (ps := [.arr, .pwr]) (by simp) (by decide)
  unfold State.setUnit
  dsimp only
  split
  · rw [State.noLog_log, hmap]
    split <;> rfl
  · split <;> rfl

theorem Mgmt.events_of_noLog {m n : Mgmt} (h : m.noLog = n.noLog) : m.doneEvt = n.doneEvt ∧ m.rejEvt = n.rejEvt :=
  ⟨(congrArg Mgmt.doneEvt h :), (congrArg Mgmt.rejEvt h :)⟩

/-! ### Configuration -/

/-- A staged list is written to one of the two stores, and the other stands (R564). -/
theorem State.commitConfig_some {l : List (Nat × Word)} (h : s.mgmt.staged = some l) : ∃ c : CfgStore, c.list = l ∧
    c.auto = bitAt (s.mgmt.arg 0) 0 ∧
    (s.commitConfig = (s.modMgmt fun m => { m with cfgA := some c }, 0#8) ∨
      s.commitConfig = (s.modMgmt fun m => { m with cfgB := some c }, 0#8)) := by
  have hcases : ∀ (b : Bool) (c : CfgStore),
      (s.modMgmt fun m => if b then { m with cfgA := some c } else { m with cfgB := some c }) =
        (s.modMgmt fun m => { m with cfgA := some c }) ∨
      (s.modMgmt fun m => if b then { m with cfgA := some c } else { m with cfgB := some c }) =
        (s.modMgmt fun m => { m with cfgB := some c }) := by
    intro b c
    cases b
    · exact .inr rfl
    · exact .inl rfl
  unfold State.commitConfig
  dsimp only
  rw [h]
  dsimp only
  refine ⟨{ seq := match s.mgmt.newerCfg with | some c => c.seq + 1#32 | none => 1#32, auto := bitAt (s.mgmt.arg 0) 0, list := l },
    rfl, rfl, ?_⟩
  rcases hcases _ _ with heq | heq
  · exact .inl (congrArg (·, 0#8) heq)
  · exact .inr (congrArg (·, 0#8) heq)

theorem State.commitConfig_none (h : s.mgmt.staged = none) : s.commitConfig = (s, 0x06#8) := by
  unfold State.commitConfig
  dsimp only
  rw [h]

/-! ### The log region -/

theorem mem_flashErase {a n : Nat} {m : List Host.Cell} {c : Host.Cell} :
    c ∈ flashErase a n m ↔ c ∈ m ∧ (c.1 < a ∨ a + n ≤ c.1) := by
  simp [flashErase]

/-- Blocks erased one after the other: no cell of theirs is left. -/
theorem mem_eraseBlocks {c : Host.Cell} {a : Nat} (ks : List Nat) (x : Mport)
    (h : c ∈ ((ks.map fun k => PortSeq.erase false (a + 4096 * k) 4096).foldl Mport.applySeq x).flash) :
    c ∈ x.flash ∧ ∀ k ∈ ks, c.1 < a + 4096 * k ∨ a + 4096 * k + 4096 ≤ c.1 := by
  induction ks generalizing x with
  | nil => exact ⟨h, fun k hk => absurd hk List.not_mem_nil⟩
  | cons k ks ih =>
    obtain ⟨hmem, hks⟩ := ih _ h
    obtain ⟨hx, hk⟩ := mem_flashErase.mp hmem
    refine ⟨hx, fun j hj => ?_⟩
    rcases List.mem_cons.mp hj with rfl | hj
    · exact hk
    · exact hks j hj

theorem flashGet_of_absent {m : List Host.Cell} {b : Nat} (h : ∀ c ∈ m, c.1 ≠ b) : flashGet m b = 0xFF#8 := by
  induction m with
  | nil => rfl
  | cons c m ih =>
    obtain ⟨a, w⟩ := c
    have ha : a ≠ b := h (a, w) List.mem_cons_self
    rw [flashGet, if_neg ha]
    split
    · rfl
    · exact ih fun c hc => h c (List.mem_cons_of_mem _ hc)

/-- The 256 blocks of the log erased read 0xFF (R544, R574). -/
theorem eraseLog_reads (x : Mport) {b : Nat} (h1 : logBase ≤ b) (h2 : b < spillBase) :
    flashGet ((eraseBlocks logBase 256).foldl Mport.applySeq x).flash b = 0xFF#8 := by
  have hl : logBase = 0x241000 := rfl
  have hs : spillBase = 0x341000 := rfl
  refine flashGet_of_absent fun c hc hcb => ?_
  obtain ⟨-, hblocks⟩ := mem_eraseBlocks (List.range 256) x hc
  have hk := hblocks ((b - logBase) / 4096) (List.mem_range.mpr (by omega))
  omega

/-! ### UNIT_ADMIT and UNIT_RETIRE -/

theorem State.noLog_fillCluster (i : Nat) (s : State) : (s.fillCluster i).mgmt.noLog = s.mgmt.noLog :=
  congrArg Mgmt.noLog (State.mgmt_of_mask (ps := [.arr]) (by simp) (by decide))

theorem State.cmdAdmit_facts {k : Nat} (hk : s.mgmt.unitArg = k) (hlt : k < 648) (hlast : (s.unit k).lasting = false)
    (haud : s.auditOf k = none) (hstate : (s.unit k).state = .fallow ∨ (s.unit k).state = .dead) : ∃ t, s.cmdAdmit = (t, 0#8) ∧
    ((t.unit k).state = .spare ∨ (t.unit k).state = .active) ∧ t.arr.dirtySince.isSome = true ∧
    t.mgmt.noLog = s.mgmt.noLog ∧ t.mask [.arr, .pwr, .mgmt] = s.mask [.arr, .pwr, .mgmt] := by
  have hdone : s.cmdAdmit = (s.admitUnit k, 0#8) := by
    unfold State.cmdAdmit
    dsimp only
    rw [hk, if_neg (by omega), hlast, if_neg Bool.false_ne_true, State.standing, haud]
    rcases hstate with h | h <;> rw [h]
  refine ⟨_, hdone, ?_⟩
  have hadmit : s.admitUnit k = State.settleArray s ((((s.unschedule k).setUnit k false true fun h =>
      { h with state := .spare, passes := 0#5, fails := 0#2 })).fillCluster (clusterOf k)) := by
    unfold State.admitUnit
    simp only [haud, Option.isSome_none, Bool.false_eq_true, if_false, if_neg (show ¬648 ≤ k by omega)]
  rw [hadmit]
  have hunit := State.unit_setUnit_self (show k < 660 by omega) false true
    (fun h => { h with state := UnitState.spare, passes := 0#5, fails := 0#2 }) (s.unschedule k)
  have hdirty : ((s.unschedule k).setUnit k false true fun h =>
      { h with state := .spare, passes := 0#5, fails := 0#2 }).arr.dirtySince.isSome = true := by simp
  have hlog := (s.unschedule k).noLog_setUnit k false true fun h => { h with state := .spare, passes := 0#5, fails := 0#2 }
  have hmask : ((s.unschedule k).setUnit k false true fun h => { h with state := .spare, passes := 0#5, fails := 0#2 }).mask
      [.arr, .pwr, .mgmt] = s.mask [.arr, .pwr, .mgmt] := by simp
  generalize (s.unschedule k).setUnit k false true (fun h => { h with state := .spare, passes := 0#5, fails := 0#2 }) = m
    at hunit hdirty hlog hmask ⊢
  refine ⟨?_, ?_, ?_, ?_⟩
  · rw [State.unit_settleArray]
    rcases m.unit_fill (clusterOf k) 18 k with h | ⟨-, h⟩
    · exact .inl (by rw [State.fillCluster, h, hunit])
    · exact .inr (by rw [State.fillCluster, h])
  · exact ((State.fillCluster_kept _ _).trans (State.settleArray_kept _ _)).2.2.2 hdirty
  · rw [State.noLog_settleArray, State.noLog_fillCluster]
    exact hlog
  · simp [hmask]

/-- A unit that UNIT_RETIRE makes Dead. -/
def State.retired (k : Nat) (s : State) : State :=
  s.setUnit k false true fun h => { h with state := .dead, ret := .active, lasting := true, standin := false, cause := 6#3 }

/-- UNIT_RETIRE's unit is Dead for good, and the map has changed (R155). -/
structure State.HasRetired (s t : State) (k : Nat) : Prop where
  state : (t.unit k).state = .dead
  lasting : (t.unit k).lasting = true
  cause : (t.unit k).cause = 6#3
  dirty : t.arr.dirtySince.isSome = true
  log : t.mgmt.noLog = s.mgmt.noLog
  mask : t.mask [.arr, .pwr, .mgmt] = s.mask [.arr, .pwr, .mgmt]

theorem State.retired_facts {k : Nat} (hk : k < 660) (hlog : t.mgmt.noLog = s.mgmt.noLog)
    (hmask : t.mask [.arr, .pwr, .mgmt] = s.mask [.arr, .pwr, .mgmt]) : s.HasRetired (t.retired k) k := by
  have hunit := State.unit_setUnit_self hk false true
    (fun h => { h with state := UnitState.dead, ret := .active, lasting := true, standin := false, cause := 6#3 }) t
  have hunit' : (t.retired k).unit k =
      { t.unit k with state := .dead, ret := .active, lasting := true, standin := false, cause := 6#3 } := hunit
  refine ⟨by rw [hunit'], by rw [hunit'], by rw [hunit'], by simp [State.retired], ?_, by simp [State.retired, hmask]⟩
  exact (State.noLog_setUnit ..).trans hlog

/-- What stays a retired unit: a step within the array that leaves the unit, and takes no mark of the map back. -/
theorem State.HasRetired.step {k : Nat} (h : s.HasRetired t k) (hunit : u.unit k = t.unit k) (hkept : t.ArrKept u)
    (hmask : u.mask [.arr] = t.mask [.arr]) : s.HasRetired u k := by
  refine ⟨by rw [hunit]; exact h.state, by rw [hunit]; exact h.lasting, by rw [hunit]; exact h.cause, hkept.2.2.2 h.dirty, ?_, ?_⟩
  · exact (congrArg Mgmt.noLog (State.mgmt_of_mask hmask (by decide))).trans h.log
  · exact (State.mask_mono (qs := [.arr, .pwr, .mgmt]) hmask (by decide)).trans h.mask

theorem State.HasRetired.fill {k : Nat} (h : s.HasRetired t k) (i : Nat) : s.HasRetired (t.fillCluster i) k :=
  h.step (State.unit_fillCluster_of_not_spare (by rw [h.state]; simp) i) (State.fillCluster_kept i t) (by simp)

theorem State.HasRetired.retrim {k : Nat} (h : s.HasRetired t k) (i : Nat) : s.HasRetired (t.startRetrim i) k :=
  h.step (State.unit_congr (State.startRetrim_units i t) k) (State.startRetrim_kept i t) (by simp)

theorem State.HasRetired.settle {k : Nat} (h : s.HasRetired t k) : s.HasRetired (State.settleArray u t) k := by
  have hunit : (State.settleArray u t).unit k = t.unit k := State.unit_settleArray ..
  refine ⟨by rw [hunit]; exact h.state, by rw [hunit]; exact h.lasting, by rw [hunit]; exact h.cause,
    (State.settleArray_kept u t).2.2.2 h.dirty, (State.noLog_settleArray u t).trans h.log, ?_⟩
  simp [h.mask]

theorem State.HasRetired.remove {k : Nat} {a : Audit} (h : s.HasRetired t k) (hu : a.unit.val = k)
    (hne : a.standin.map Fin.val ≠ some k) : s.HasRetired (t.removeUnit a) k := by
  have hne' : a.standin ≠ some a.unit := fun he => hne (by rw [he, ← hu]; rfl)
  obtain ⟨hunit, hkept⟩ := t.leaveStandin_facts hne'
  rw [State.removeUnit_eq]
  have hleft : s.HasRetired (t.leaveStandin a) k := h.step (by rw [← hu]; exact hunit) hkept (by
    unfold State.leaveStandin
    split
    · simp
    · split <;> simp)
  refine State.HasRetired.fill ?_ _
  exact hleft.step (State.unit_endAudit ..) (State.endAudit_kept ..) (by simp)

theorem State.retireUnit_facts {k : Nat} (hk : k < 660)
    (haud : ∀ a, s.auditOf k = some a → a.standin.map Fin.val ≠ some k) : s.HasRetired (s.retireUnit k) k := by
  have hself : s.HasRetired (s.retired k) k := State.retired_facts hk rfl rfl
  have hplain : s.HasRetired ((if decide ((s.unit k).state = .active) = true then (s.retired k).startRetrim (clusterOf k)
      else s.retired k).fillCluster (clusterOf k)) k := by
    refine State.HasRetired.fill ?_ _
    split
    · exact hself.retrim _
    · exact hself
  have hsched : ∀ t : State, s.HasRetired t k → s.HasRetired (t.unschedule k) k := fun t h =>
    h.step (State.unit_modRotation ..) (State.modRotation_kept ..) (by simp)
  unfold State.retireUnit
  dsimp only
  refine State.HasRetired.settle (hsched _ ?_)
  split
  · next a ha =>
    split
    · next hu =>
      have hof : s.auditOf k = some a := by rw [State.auditOf, ha]; exact if_pos hu
      refine State.HasRetired.remove ?_ hu (haud a hof)
      exact State.retired_facts hk rfl (by simp)
    · split
      · refine State.HasRetired.fill ?_ _
        exact State.retired_facts hk (congrArg Mgmt.noLog (State.mgmt_of_mask (ps := [.arr])
          (State.mask_voidAudit_arr (by decide) _ _ _) (by decide))) (State.mask_voidAudit_arr (by decide) _ _ _)
      · exact hplain
  · exact hplain

/-! ### CAL_SESSION -/

theorem State.calSession_opens (h : s.mgmt.calOpen = false) (hbit : bitAt (s.mgmt.arg 0) 0 = true) :
    s.calSession = (s.modMgmt fun m => { m with calOpen := true }, 0#8) := by
  unfold State.calSession
  simp [h, hbit]

theorem State.calSession_closes (h : s.mgmt.calOpen = true) (hbit : bitAt (s.mgmt.arg 0) 0 = false) : ∃ t,
    s.calSession = (t, 0#8) ∧ t.mgmt.calOpen = false ∧ t.mgmt.calAct = s.mgmt.calStage ∧
    t.mgmt.doneEvt = s.mgmt.doneEvt ∧ t.mgmt.rejEvt = s.mgmt.rejEvt ∧ t.mask [.arr, .mgmt] = s.mask [.arr, .mgmt] := by
  have hdone : s.calSession = (State.settleArray s (State.trimsOfRegion s ((s.modMgmt fun m =>
      { m with calAct := m.calStage, calStore := m.calStore.write m.calStage, calOpen := false }).calCheck)), 0#8) := by
    unfold State.calSession
    simp [h, hbit]
  have htrims : (State.trimsOfRegion s ((s.modMgmt fun m =>
      { m with calAct := m.calStage, calStore := m.calStore.write m.calStage, calOpen := false }).calCheck)).mgmt =
      ((s.modMgmt fun m => { m with calAct := m.calStage, calStore := m.calStore.write m.calStage, calOpen := false }).calCheck).mgmt :=
    State.mgmt_of_mask (ps := [.arr]) (by simp) (by decide)
  have hlog := (State.noLog_settleArray s (State.trimsOfRegion s ((s.modMgmt fun m =>
      { m with calAct := m.calStage, calStore := m.calStore.write m.calStage, calOpen := false }).calCheck))).trans
    (congrArg Mgmt.noLog htrims)
  exact ⟨_, hdone, (congrArg Mgmt.calOpen hlog :), (congrArg Mgmt.calAct hlog :), (congrArg Mgmt.doneEvt hlog :),
    (congrArg Mgmt.rejEvt hlog :), by simp⟩

/-! ### LOG_ERASE -/

theorem State.endSeq_mgmt_of_idle (h : s.mport.seq = none) : s.endSeq.mgmt = s.mgmt := by
  simp [State.endSeq, h]

/-- Step 9 of LOG_ERASE. -/
def State.logErased (s : State) : State :=
  (s.flashWork (eraseBlocks logBase 256)).modMgmt fun m => { m with logRing := [], logAck := m.logNext }

theorem State.logErased_facts (h : s.mport.seq = none) :
    s.logErased.mgmt = { s.mgmt with logRing := [], logAck := s.mgmt.logNext } ∧
    (∀ a, logBase ≤ a → a < spillBase → flashGet s.logErased.mport.flash a = 0xFF#8) ∧
    s.logErased.mask [.mgmt, .mport] = s.mask [.mgmt, .mport] := by
  have hidle := State.endSeq_mgmt_of_idle h
  have hmgmt : s.logErased.mgmt = { s.endSeq.mgmt with logRing := [], logAck := s.endSeq.mgmt.logNext } := rfl
  have harr : s.endSeq.mask [.mgmt, .mport] = s.mask [.mgmt, .mport] := by
    simp [State.endSeq, h]
  refine ⟨by rw [hmgmt, hidle], fun a h1 h2 => ?_, ?_⟩
  · have hflash : s.logErased.mport.flash = ((eraseBlocks logBase 256).foldl Mport.applySeq s.endSeq.mport).flash := by
      simp only [State.logErased, State.flashWork, State.modMgmt_mport, State.modMport_mport]
    rw [hflash, eraseLog_reads _ h1 h2]
  simp [State.logErased, State.flashWork, harr]

/-! ### The commands -/

theorem State.configCommit_completes {l : List (Nat × Word)} (h : s.CmdReady 0x01#8) (hst : s.mgmt.staged = some l) :
    Completes (.configCommit true) s fun t =>
      s.CmdEnded t 0#8 ∧ t.mgmt.authCtr = s.mgmt.ctr ∧ t.mgmt.consec = 0#5 ∧
      (∃ c, c.list = l ∧ c.auto = bitAt (s.mgmt.arg 0) 0 ∧
      (t.mgmt.cfgA = some c ∧ t.mgmt.cfgB = s.endSeq.mgmt.cfgB ∨
      t.mgmt.cfgB = some c ∧ t.mgmt.cfgA = s.endSeq.mgmt.cfgA)) ∧
      Same [.mgmt, .mport, .int] s.endSeq t := by
  obtain ⟨q, h9, hrun⟩ := State.command_runs h
  obtain ⟨c, hlist, hauto, hdone⟩ := State.commitConfig_some (s := q) ((congrArg Mgmt.staged h9.rest :).trans hst)
  rw [h9.arg] at hauto
  obtain ⟨hA, hB, -, -⟩ := h9.stores
  rcases hdone with hdone | hdone
  · obtain ⟨t, hexec, hend, hmgmt, hmask⟩ := (hrun (.configCommit true) _ rfl).2 _ hdone h9.events
    exact ⟨t, hexec, hend, (congrArg Mgmt.authCtr hmgmt :).trans h9.authCtr, (congrArg Mgmt.consec hmgmt :).trans h9.consec,
      ⟨c, hlist, hauto, .inl ⟨(congrArg Mgmt.cfgA hmgmt :), (congrArg Mgmt.cfgB hmgmt :).trans hB⟩⟩, h9.same hmask (by simp)⟩
  · obtain ⟨t, hexec, hend, hmgmt, hmask⟩ := (hrun (.configCommit true) _ rfl).2 _ hdone h9.events
    exact ⟨t, hexec, hend, (congrArg Mgmt.authCtr hmgmt :).trans h9.authCtr, (congrArg Mgmt.consec hmgmt :).trans h9.consec,
      ⟨c, hlist, hauto, .inr ⟨(congrArg Mgmt.cfgB hmgmt :), (congrArg Mgmt.cfgA hmgmt :).trans hA⟩⟩, h9.same hmask (by simp)⟩

theorem State.configCommit_unstaged (h : s.CmdReady 0x01#8) (hst : s.mgmt.staged = none) :
    Completes (.configCommit true) s fun t =>
      s.CmdEnded t 0x06#8 ∧ t.mgmt.cfgA = s.endSeq.mgmt.cfgA ∧ t.mgmt.cfgB = s.endSeq.mgmt.cfgB ∧
      t.host.sticky.getLsbD 13 = true ∧ Same [.mgmt, .mport, .host, .int] s.endSeq t := by
  obtain ⟨q, h9, hrun⟩ := State.command_runs h
  obtain ⟨hA, hB, -, -⟩ := h9.stores
  have hmgmt := q.noCommand_endCommand 0x06#8
  refine (hrun (.configCommit true) _ rfl).1 _ _ _ (State.commitConfig_none ((congrArg Mgmt.staged h9.rest :).trans hst))
    ⟨State.endCommand_ended h9.events _ _, ?_, ?_, ?_, ?_⟩
  · rw [State.arbitrate_mgmt]
    exact (congrArg Mgmt.cfgA hmgmt :).trans hA
  · rw [State.arbitrate_mgmt]
    exact (congrArg Mgmt.cfgB hmgmt :).trans hB
  · rw [State.arbitrate_host]
    exact State.endCommand_sticky (by decide) _
  · have hmask := State.mask_mono (qs := [.mgmt, .mport, .host, .int]) h9.mask (by decide)
    simp [Same, hmask]

theorem State.configErase_completes (h : s.CmdReady 0x02#8) :
    Completes (.configErase true) s fun t =>
      s.CmdEnded t 0#8 ∧ t.mgmt.authCtr = s.mgmt.ctr ∧ t.mgmt.cfgA = none ∧ t.mgmt.cfgB = none ∧
      t.mgmt.spills = s.endSeq.mgmt.spills ∧ t.mgmt.logRing = s.endSeq.mgmt.logRing ∧
      Same [.mgmt, .mport, .int] s.endSeq t := by
  obtain ⟨q, h9, hrun⟩ := State.command_runs h
  obtain ⟨-, -, hspills, hring⟩ := h9.stores
  obtain ⟨t, hexec, hend, hmgmt, hmask⟩ := (hrun (.configErase true) (fun t => (t.eraseConfig,
      0#8)) rfl).2 q.eraseConfig rfl h9.events
  exact ⟨t, hexec, hend, (congrArg Mgmt.authCtr hmgmt :).trans h9.authCtr, (congrArg Mgmt.cfgA hmgmt :),
    (congrArg Mgmt.cfgB hmgmt :), (congrArg Mgmt.spills hmgmt :).trans hspills, (congrArg Mgmt.logRing hmgmt :).trans hring,
    h9.same hmask (by simp [State.eraseConfig])⟩

theorem State.calSession_opened (h : s.CmdReady 0x03#8) (hne : bitAt (s.mgmt.arg 0) 0 ≠ s.mgmt.calOpen)
    (hc : s.mgmt.calOpen = false) :
    Completes (.calSession true) s fun t =>
      s.CmdEnded t 0#8 ∧ t.mgmt.calOpen = true ∧ t.mgmt.calAct = s.mgmt.calAct ∧
      Same [.mgmt, .mport, .int] s.endSeq t := by
  obtain ⟨q, h9, hrun⟩ := State.command_runs h
  have hbit : bitAt (s.mgmt.arg 0) 0 = true := by rw [hc] at hne; simpa using hne
  obtain ⟨t, hexec, hend, hmgmt, hmask⟩ := (hrun (.calSession true) _ rfl).2 _ (State.calSession_opens (s := q)
      ((congrArg Mgmt.calOpen h9.rest :).trans hc) (by rw [h9.arg]; exact hbit)) h9.events
  exact ⟨t, hexec, hend, (congrArg Mgmt.calOpen hmgmt :), (congrArg Mgmt.calAct hmgmt :).trans (congrArg Mgmt.calAct h9.rest :),
    h9.same hmask (by simp)⟩

theorem State.calSession_closed (h : s.CmdReady 0x03#8) (hne : bitAt (s.mgmt.arg 0) 0 ≠ s.mgmt.calOpen)
    (hc : s.mgmt.calOpen = true) :
    Completes (.calSession true) s fun t =>
      s.CmdEnded t 0#8 ∧ t.mgmt.calOpen = false ∧ t.mgmt.calAct = s.mgmt.calStage ∧
      Same [.arr, .mgmt, .mport, .int] s t := by
  obtain ⟨q, h9, hrun⟩ := State.command_runs h
  have hbit : bitAt (s.mgmt.arg 0) 0 = false := by rw [hc] at hne; simpa using hne
  obtain ⟨u, hdone, hopen, hact, hd, hr, hsame⟩ := State.calSession_closes (s := q)
    ((congrArg Mgmt.calOpen h9.rest :).trans hc) (by rw [h9.arg]; exact hbit)
  obtain ⟨t, hexec, hend, hmgmt, hmask⟩ := (hrun (.calSession true) _ rfl).2 _ hdone
    ⟨hd.trans h9.events.1, hr.trans h9.events.2⟩
  refine ⟨t, hexec, hend, (congrArg Mgmt.calOpen hmgmt :).trans hopen,
    (congrArg Mgmt.calAct hmgmt :).trans (hact.trans (congrArg Mgmt.calStage h9.rest :)), ?_⟩
  exact h9.same_arr (by decide) hmask
    (State.mask_mono (qs := [.arr, .mgmt, .mport, .int]) hsame (by decide))

theorem State.unitAdmit_completes (h : s.CmdReady 0x04#8) (hlt : s.mgmt.unitArg < 648) (hlast :
    (s.unit s.mgmt.unitArg).lasting = false)
    (haud : s.auditOf s.mgmt.unitArg = none)
    (hstate : (s.unit s.mgmt.unitArg).state = .fallow ∨ (s.unit s.mgmt.unitArg).state = .dead) :
    Completes (.unitAdmit true) s fun t =>
      s.CmdEnded t 0#8 ∧ ((t.unit s.mgmt.unitArg).state = .spare ∨ (t.unit s.mgmt.unitArg).state = .active) ∧
      t.arr.dirtySince.isSome = true ∧ Same [.arr, .pwr, .mgmt, .mport, .int] s t := by
  obtain ⟨q, h9, hrun⟩ := State.command_runs h
  obtain ⟨u, hdone, hst, hdirty, hlog, hsame⟩ := State.cmdAdmit_facts (s := q) h9.unitArg hlt (by rw [h9.unit]; exact hlast)
    ((h9.auditOf _).trans haud) (by rw [h9.unit]; exact hstate)
  have hev := Mgmt.events_of_noLog hlog
  obtain ⟨t, hexec, hend, -, hmask⟩ := (hrun (.unitAdmit true) _ rfl).2 _ hdone
    ⟨hev.1.trans h9.events.1, hev.2.trans h9.events.2⟩
  have harr : t.arr = u.arr := State.arr_of_mask hmask (by decide)
  refine ⟨t, hexec, hend, ?_, by rw [harr]; exact hdirty, ?_⟩
  · rw [State.unit_congr (congrArg Arr.units harr)]
    exact hst
  · exact h9.same_arr (by decide) hmask
      (State.mask_mono (qs := [.arr, .pwr, .mgmt, .mport, .int]) hsame (by decide))

theorem State.unitRetire_completes (h : s.CmdReady 0x05#8) (hlt : s.mgmt.unitArg < 660) (hlast :
    (s.unit s.mgmt.unitArg).lasting = false)
    (haud : ∀ a, s.auditOf s.mgmt.unitArg = some a → a.standin.map Fin.val ≠ some s.mgmt.unitArg) :
    Completes (.unitRetire true) s fun t =>
      s.CmdEnded t 0#8 ∧ (t.unit s.mgmt.unitArg).state = .dead ∧ (t.unit s.mgmt.unitArg).lasting = true ∧
      (t.unit s.mgmt.unitArg).cause = 6#3 ∧ t.arr.dirtySince.isSome = true ∧ Same [.arr, .pwr, .mgmt, .mport, .int] s t := by
  obtain ⟨q, h9, hrun⟩ := State.command_runs h
  have hret := State.retireUnit_facts (s := q) hlt fun a ha => haud a ((h9.auditOf _).symm.trans ha)
  have hdone : q.cmdRetire = (q.retireUnit s.mgmt.unitArg, 0#8) := by
    unfold State.cmdRetire
    dsimp only
    rw [h9.unitArg, h9.unit, hlast, if_neg (by omega), if_neg Bool.false_ne_true]
  have hev := Mgmt.events_of_noLog hret.log
  obtain ⟨t, hexec, hend, -, hmask⟩ := (hrun (.unitRetire true) _ rfl).2 _ hdone
    ⟨hev.1.trans h9.events.1, hev.2.trans h9.events.2⟩
  have harr : t.arr = (q.retireUnit s.mgmt.unitArg).arr := State.arr_of_mask hmask (by decide)
  have hunit' : t.unit s.mgmt.unitArg = (q.retireUnit s.mgmt.unitArg).unit s.mgmt.unitArg :=
    State.unit_congr (congrArg Arr.units harr) _
  refine ⟨t, hexec, hend, by rw [hunit']; exact hret.state, by rw [hunit']; exact hret.lasting, by rw [hunit']; exact hret.cause,
    by rw [harr]; exact hret.dirty, ?_⟩
  exact h9.same_arr (by decide) hmask
    (State.mask_mono (qs := [.arr, .pwr, .mgmt, .mport, .int]) hret.mask (by decide))

theorem State.logErase_completes (h : s.CmdReady 0x06#8) :
    Completes (.logErase true) s fun t =>
      s.CmdEnded t 0#8 ∧ t.mgmt.authCtr = s.mgmt.ctr ∧ t.mgmt.logRing = [] ∧ t.mgmt.logAck = s.mgmt.logNext ∧
      t.mgmt.logNext = s.mgmt.logNext ∧ t.mgmt.cfgA = s.endSeq.mgmt.cfgA ∧
      (∀ a, logBase ≤ a → a < spillBase → flashGet t.mport.flash a = 0xFF#8) ∧
      Same [.mgmt, .mport, .int] s.endSeq t := by
  obtain ⟨q, h9, hrun⟩ := State.command_runs h
  obtain ⟨hM, hflash, hsame⟩ := State.logErased_facts h9.idle.1
  obtain ⟨hA, -, -, -⟩ := h9.stores
  obtain ⟨t, hexec, hend, hmgmt, hmask⟩ := (hrun (.logErase true) (fun t => (t.logErased, 0#8)) rfl).2 q.logErased rfl
      (by rw [hM]; exact h9.events)
  rw [hM] at hmgmt
  refine ⟨t, hexec, hend, (congrArg Mgmt.authCtr hmgmt :).trans h9.authCtr, (congrArg Mgmt.logRing hmgmt :),
    (congrArg Mgmt.logAck hmgmt :).trans (congrArg Mgmt.logNext h9.rest :),
    (congrArg Mgmt.logNext hmgmt :).trans (congrArg Mgmt.logNext h9.rest :), (congrArg Mgmt.cfgA hmgmt :).trans hA,
    fun a h1 h2 => ?_, h9.same hmask (State.mask_mono (qs := [.mgmt, .mport, .int]) hsame (by decide))⟩
  rw [State.mport_of_mask hmask (by decide)]
  exact hflash a h1 h2

end

/-- Settles O45: each command is ready, so that its step 9 runs on a state of State.Step9 (State.command_runs); what it does
there its
own lemma says, and State.endCommand ends it. -/
theorem storeCommandsComplete : Obligations.StoreCommandsComplete := by
  unfold Obligations.StoreCommandsComplete
  exact ⟨fun s l h hst => State.configCommit_completes h hst, fun s h hst => State.configCommit_unstaged h hst,
    fun s h => State.configErase_completes h,
    fun s h hne => ⟨fun hc => State.calSession_opened h hne hc, fun hc => State.calSession_closed h hne hc⟩,
    fun s h hlt hlast haud hstate => State.unitAdmit_completes h hlt hlast haud hstate,
    fun s h hlt hlast haud => State.unitRetire_completes h hlt hlast haud, fun s h => State.logErase_completes h⟩

end Sys2Proof.Machine
end

section
/-!
PROOFS. UPDATE_COMMIT: the log drained into flash, COMMIT programmed, MC restarted (R572, R575, R584).
-/

namespace Sys2Proof.Machine

open Sys2Proof

section
variable {s t u : State}

/-! ### What a program in the log region leaves of the stores -/

/-- The port is at rest, or its sequence in progress programs a record of the log; no mode fault waits. -/
def Mport.LogIdle (x : Mport) : Prop :=
  x.waiting = false ∧ ∀ q, x.seq = some q → ∃ n bs, q = .program false (recordAddr n) bs ∧ bs.length = 32

/-- The command's registers, the stored counter and the slots are the same. -/
structure Mgmt.SameCommand (m n : Mgmt) : Prop where
  busy : n.busy = m.busy
  result : n.result = m.result
  args : n.args = m.args
  tags : n.tagLo = m.tagLo ∧ n.tagHi = m.tagHi
  events : n.doneEvt = m.doneEvt ∧ n.rejEvt = m.rejEvt
  authCtr : n.authCtr = m.authCtr
  slots : n.slotA = m.slotA ∧ n.slotB = m.slotB
  runSlot : n.runSlot = m.runSlot

theorem Mgmt.SameCommand.refl (m : Mgmt) : m.SameCommand m := ⟨rfl, rfl, rfl, ⟨rfl, rfl⟩, ⟨rfl, rfl⟩, rfl, ⟨rfl, rfl⟩, rfl⟩

theorem Mgmt.SameCommand.trans {m n k : Mgmt} (h : m.SameCommand n) (g : n.SameCommand k) : m.SameCommand k :=
  ⟨g.busy.trans h.busy, g.result.trans h.result, g.args.trans h.args, ⟨g.tags.1.trans h.tags.1, g.tags.2.trans h.tags.2⟩,
    ⟨g.events.1.trans h.events.1, g.events.2.trans h.events.2⟩, g.authCtr.trans h.authCtr,
    ⟨g.slots.1.trans h.slots.1, g.slots.2.trans h.slots.2⟩, g.runSlot.trans h.runSlot⟩

theorem Mgmt.SameCommand.of_eq {m n : Mgmt} (h : n = m) : m.SameCommand n := h ▸ .refl m

theorem Mgmt.SameCommand.of_noLog {m n : Mgmt} (h : n.noLog = m.noLog) : m.SameCommand n :=
  ⟨(congrArg Mgmt.busy h :), (congrArg Mgmt.result h :), (congrArg Mgmt.args h :),
    ⟨(congrArg Mgmt.tagLo h :), (congrArg Mgmt.tagHi h :)⟩, ⟨(congrArg Mgmt.doneEvt h :), (congrArg Mgmt.rejEvt h :)⟩,
    (congrArg Mgmt.authCtr h :), ⟨(congrArg Mgmt.slotA h :), (congrArg Mgmt.slotB h :)⟩, (congrArg Mgmt.runSlot h :)⟩

/-- A record of the log lies past the control sectors of the images and past the counter's sectors (R558, R573, R575). -/
theorem recordAddr_apart (n : Word) {b : Nat} (hb : b + 4096 ≤ logBase) : meets (recordAddr n) 32 b 4096 = false := by
  refine decide_eq_false fun hmeets => ?_
  obtain ⟨hlow, -⟩ := hmeets
  rw [recordAddr] at hlow
  omega

theorem State.overwritten_log (n : Word) (s : State) : s.mgmt.SameCommand (s.overwritten false (recordAddr n) 32).mgmt := by
  have hslot : ∀ b, meets (recordAddr n) 32 (controlBase b) 4096 = false := fun b =>
    recordAddr_apart n (by cases b <;> decide)
  have hctr : ∀ b, meets (recordAddr n) 32 (configBase b + 0xF000) 4096 = false := fun b =>
    recordAddr_apart n (by cases b <;> decide)
  unfold State.overwritten
  refine ⟨rfl, rfl, rfl, ⟨rfl, rfl⟩, ⟨rfl, rfl⟩, ?_, ⟨?_, ?_⟩, rfl⟩
  · simp only [State.modArr_mgmt, State.modMgmt_mgmt, hctr, Bool.or_false, Bool.false_eq_true, if_false]
  · simp only [State.modArr_mgmt, State.modMgmt_mgmt, hslot, Bool.false_eq_true, if_false]
  · simp only [State.modArr_mgmt, State.modMgmt_mgmt, hslot, Bool.false_eq_true, if_false]

/-- The sequence of the log that may be in progress ends, and nothing of the command or the slots changes. -/
theorem State.endSeq_log (h : s.mport.LogIdle) : s.mgmt.SameCommand s.endSeq.mgmt ∧ s.endSeq.mport.waiting = false ∧
    s.endSeq.mport.seq = none := by
  obtain ⟨hw, hseq⟩ := h
  have hport : s.endSeq.mport.waiting = false ∧ s.endSeq.mport.seq = none := by
    rw [State.endSeq_mport]
    unfold Mport.endSeq
    rw [hw, if_neg Bool.false_ne_true]
    cases hs : s.mport.seq with
    | none => exact ⟨hw, hs⟩
    | some q =>
      obtain ⟨n, bs, rfl, -⟩ := hseq q hs
      exact ⟨hw, rfl⟩
  refine ⟨?_, hport⟩
  cases hs : s.mport.seq with
  | none => exact .of_eq (State.endSeq_mgmt_of_idle hs)
  | some q =>
    obtain ⟨n, bs, rfl, hlen⟩ := hseq q hs
    have heq : s.endSeq.mgmt = ((s.modMport fun x => { x.endSeq with single := if x.waiting then x.single else none }).overwritten
        false (recordAddr n) 32).mgmt := by
      simp only [State.endSeq, hw, hs, State.changedBy, hlen]
    rw [heq]
    refine .trans (.of_eq ?_) (State.overwritten_log n _)
    rfl

theorem Mport.LogIdle.of_none {x : Mport} (hw : x.waiting = false) (hs : x.seq = none) : x.LogIdle :=
  ⟨hw, fun q hq => by rw [hs] at hq; cases hq⟩

theorem LogRec.bytes_length (r : LogRec) : r.bytes.length = 32 := rfl

/-! ### The log is drained -/

theorem State.flashWork_log (h : s.mport.LogIdle) (qs : List PortSeq) :
    s.mgmt.SameCommand (s.flashWork qs).mgmt ∧ (s.flashWork qs).mport.LogIdle := by
  obtain ⟨hsame, hw, hseq⟩ := State.endSeq_log h
  have hfold : ∀ (l : List PortSeq) (x : Mport), (l.foldl Mport.applySeq x).waiting = x.waiting ∧
      (l.foldl Mport.applySeq x).seq = x.seq := by
    intro l
    induction l with
    | nil => exact fun x => ⟨rfl, rfl⟩
    | cons q l ih =>
      intro x
      obtain ⟨h1, h2⟩ := ih (x.applySeq q)
      have hq : (x.applySeq q).waiting = x.waiting ∧ (x.applySeq q).seq = x.seq := by
        cases q with
        | program b a bs => cases b <;> exact ⟨rfl, rfl⟩
        | erase b a n => cases b <;> exact ⟨rfl, rfl⟩
      exact ⟨h1.trans hq.1, h2.trans hq.2⟩
  obtain ⟨h1, h2⟩ := hfold qs s.endSeq.mport
  exact ⟨hsame, .of_none (h1.trans hw) (h2.trans hseq)⟩

theorem Mgmt.writeRec_command (m : Mgmt) (r : LogRec) : m.SameCommand (m.writeRec r) := by
  unfold Mgmt.writeRec Mgmt.eraseAhead
  dsimp only
  split <;> exact ⟨rfl, rfl, rfl, ⟨rfl, rfl⟩, ⟨rfl, rfl⟩, rfl, ⟨rfl, rfl⟩, rfl⟩

theorem State.putRec_log (h : s.mport.LogIdle) (r : LogRec) :
    s.mgmt.SameCommand (s.putRec r).mgmt ∧ (s.putRec r).mport.LogIdle := by
  have hstart : ∀ t : State, s.mgmt.SameCommand t.mgmt → t.mport.LogIdle → ∀ (n : Word) bs, bs.length = 32 →
      s.mgmt.SameCommand ((t.modMgmt fun m => m.writeRec r).startSeq (.program false (recordAddr n) bs)).mgmt ∧
      ((t.modMgmt fun m => m.writeRec r).startSeq (.program false (recordAddr n) bs)).mport.LogIdle := by
    intro t hst hidle n bs hlen
    obtain ⟨hsame, hw, hseq⟩ := State.endSeq_log (s := t.modMgmt fun m => m.writeRec r) hidle
    refine ⟨(hst.trans (Mgmt.writeRec_command t.mgmt r)).trans hsame, hw, fun q hq => ⟨n, bs, ?_, hlen⟩⟩
    exact (Option.some.inj hq).symm
  unfold State.putRec
  dsimp only
  split
  · obtain ⟨hsame, hidle⟩ := State.flashWork_log h [.erase false (logBase + 4096 * ((logSector s.mgmt.logNext + 1) % 256)) 4096]
    exact hstart _ hsame hidle _ _ (LogRec.bytes_length _)
  · obtain ⟨hsame, hw, hseq⟩ := State.endSeq_log h
    exact hstart _ hsame (.of_none hw hseq) _ _ (LogRec.bytes_length _)

theorem State.writeLog_log (h : s.mport.LogIdle) : s.mgmt.SameCommand s.writeLog.mgmt ∧ s.writeLog.mport.LogIdle := by
  have hqueue : ∀ m : Mgmt, ∀ o, m.SameCommand { m with logOvf := o } := fun m o =>
    ⟨rfl, rfl, rfl, ⟨rfl, rfl⟩, ⟨rfl, rfl⟩, rfl, ⟨rfl, rfl⟩, rfl⟩
  have hqueue' : ∀ m : Mgmt, ∀ l, m.SameCommand { m with logQ := l } := fun m l =>
    ⟨rfl, rfl, rfl, ⟨rfl, rfl⟩, ⟨rfl, rfl⟩, rfl, ⟨rfl, rfl⟩, rfl⟩
  unfold State.writeLog
  split
  · obtain ⟨hsame, hidle⟩ := State.putRec_log h s.overflowRec
    exact ⟨hsame.trans (hqueue _ _), hidle⟩
  · split
    · next r rs _ =>
      obtain ⟨hsame, hidle⟩ := State.putRec_log h r
      exact ⟨hsame.trans (hqueue' _ _), hidle⟩
    · exact ⟨.refl _, h⟩

theorem State.drainLog_log (n : Nat) (h : s.mport.LogIdle) :
    s.mgmt.SameCommand (s.drainLog n).mgmt ∧ (s.drainLog n).mport.LogIdle := by
  induction n generalizing s with
  | zero => exact ⟨.refl _, h⟩
  | succ n ih =>
    obtain ⟨hsame, hidle⟩ := State.writeLog_log h
    obtain ⟨hrest, hidle'⟩ := ih hidle
    exact ⟨hsame.trans hrest, hidle'⟩

theorem State.programControl_log (h : s.mport.LogIdle) (b : Bool) (x y : Slot) :
    s.mgmt.SameCommand (s.programControl b x y).mgmt := by
  unfold State.programControl
  dsimp only
  split
  · exact .refl _
  · exact (State.flashWork_log h _).1

/-! ### The restart of MC -/

theorem State.noLog_voidAudits (p : Nat → Bool) (s : State) : (s.voidAudits p).mgmt = s.mgmt :=
  State.mgmt_of_mask (ps := [.arr]) (State.mask_voidAudits_arr (by decide) p s) (by decide)

theorem State.mcLeaves_command (s : State) : s.mgmt.SameCommand s.mcLeaves.mgmt := by
  have hsettled : s.mgmt.SameCommand (State.settleArray s (s.voidAudits fun _ => true)).mgmt :=
    .of_noLog ((State.noLog_settleArray ..).trans (congrArg Mgmt.noLog (s.noLog_voidAudits _)))
  refine hsettled.trans ?_
  exact ⟨rfl, rfl, rfl, ⟨rfl, rfl⟩, ⟨rfl, rfl⟩, rfl, ⟨rfl, rfl⟩, rfl⟩

theorem State.mcOff_facts (s : State) : s.mgmt.SameCommand s.mcOff.mgmt ∧ s.mcOff.mgmt.zor = false ∧
    s.mcOff.pwr = { s.pwr with booted := false } :=
  ⟨⟨rfl, rfl, rfl, ⟨rfl, rfl⟩, ⟨rfl, rfl⟩, rfl, ⟨rfl, rfl⟩, rfl⟩, rfl, rfl⟩

theorem State.restartMc_facts (s : State) : s.mgmt.SameCommand s.restartMc.mgmt ∧ s.restartMc.mgmt.zor = false ∧
    (s.restartMc.dom .mc).st = .waking ∧ (s.restartMc.dom .mc).target = .on ∧ s.restartMc.pwr.booted = false := by
  have heq : s.restartMc = ((s.mcLeaves.modDom .mc fun x => { x with st := .off }).mcOff).startWake .mc .on
      (s.dom .mc).demand := rfl
  obtain ⟨hoff, hzor, hpwr⟩ := (s.mcLeaves.modDom .mc fun x => { x with st := .off }).mcOff_facts
  have hmgmt := ((s.mcLeaves.modDom .mc fun x => { x with st := .off }).mcOff).startWake_mgmt .mc .on (s.dom .mc).demand
  have hdom := ((s.mcLeaves.modDom .mc fun x => { x with st := .off }).mcOff).dom_startWake .mc .mc .on (s.dom .mc).demand
  rw [heq]
  generalize (s.mcLeaves.modDom .mc fun x => { x with st := .off }).mcOff = m at hoff hzor hpwr hmgmt hdom ⊢
  refine ⟨?_, ?_, ?_, ?_, ?_⟩
  · rw [hmgmt]
    exact s.mcLeaves_command.trans hoff
  · rw [hmgmt]
    exact hzor
  · rw [hdom, if_pos rfl]
    rfl
  · rw [hdom, if_pos rfl]
    rfl
  · rw [State.startWake_pwr]
    exact congrArg Pwr.booted hpwr

/-! ### The end of UPDATE_COMMIT -/

theorem Mgmt.slot_modSlot (m : Mgmt) (b : Bool) (f : Slot → Slot) : (m.modSlot b f).slot b = f (m.slot b) := by
  cases b <;> rfl

theorem Mgmt.SameCommand.slot {m n : Mgmt} (h : m.SameCommand n) (b : Bool) : n.slot b = m.slot b := by
  cases b
  · exact h.slots.1
  · exact h.slots.2

theorem Mgmt.modSlot_registers (m : Mgmt) (b : Bool) (f : Slot → Slot) :
    (m.modSlot b f).busy = m.busy ∧ (m.modSlot b f).result = m.result ∧ (m.modSlot b f).args = m.args ∧
    ((m.modSlot b f).tagLo = m.tagLo ∧ (m.modSlot b f).tagHi = m.tagHi) ∧
    ((m.modSlot b f).doneEvt = m.doneEvt ∧ (m.modSlot b f).rejEvt = m.rejEvt) ∧ (m.modSlot b f).authCtr = m.authCtr := by
  cases b <;> exact ⟨rfl, rfl, rfl, ⟨rfl, rfl⟩, ⟨rfl, rfl⟩, rfl⟩

/-- The registers of the command and the stored counter stand, COMMIT of the slot that does not run is programmed, and MC
restarts. -/
structure State.Committed (s t : State) : Prop where
  busy : t.mgmt.busy = s.mgmt.busy
  result : t.mgmt.result = s.mgmt.result
  args : t.mgmt.args = s.mgmt.args
  tags : t.mgmt.tagLo = s.mgmt.tagLo ∧ t.mgmt.tagHi = s.mgmt.tagHi
  events : t.mgmt.doneEvt = s.mgmt.doneEvt ∧ t.mgmt.rejEvt = s.mgmt.rejEvt
  authCtr : t.mgmt.authCtr = s.mgmt.authCtr
  commit : (t.mgmt.slot (!s.mgmt.runSlot)).commit = true
  zor : t.mgmt.zor = false
  waking : (t.dom .mc).st = .waking ∧ (t.dom .mc).target = .on
  booted : t.pwr.booted = false
  link : t.link = s.link
  pending : t.pending = s.pending

theorem State.commitUpdate_committed (h : s.mport.LogIdle) : s.Committed s.commitUpdate := by
  obtain ⟨hdrain, hidle⟩ := State.drainLog_log 17 h
  obtain ⟨hend, hw, hseq⟩ := State.endSeq_log hidle
  have hbefore := hdrain.trans hend
  have hlink : s.commitUpdate.link = s.link := State.link_of_mask
    (ps := [.clk, .harrow, .arr, .therm, .aux, .recog, .cap, .spec, .smc, .buf, .pwr, .host, .mport, .mgmt, .fresh])
    (by simp) (by decide)
  have hpending : s.commitUpdate.pending = s.pending := State.pending_of_mask
    (ps := [.clk, .harrow, .arr, .therm, .aux, .recog, .cap, .spec, .smc, .buf, .pwr, .host, .mport, .mgmt, .fresh]) (by simp)
  have heq : s.commitUpdate = (((s.drainLog 17).endSeq.programControl (!(s.drainLog 17).endSeq.mgmt.runSlot)
      ((s.drainLog 17).endSeq.mgmt.slot (!(s.drainLog 17).endSeq.mgmt.runSlot))
      { (s.drainLog 17).endSeq.mgmt.slot (!(s.drainLog 17).endSeq.mgmt.runSlot) with commit := true }).modMgmt fun m =>
        m.modSlot (!(s.drainLog 17).endSeq.mgmt.runSlot) fun x => { x with commit := true }).restartMc := rfl
  rw [heq] at hlink hpending ⊢
  generalize (s.drainLog 17).endSeq = t at hbefore hw hseq hlink hpending ⊢
  have hprog := hbefore.trans (State.programControl_log (.of_none hw hseq) (!t.mgmt.runSlot) (t.mgmt.slot (!t.mgmt.runSlot))
    { t.mgmt.slot (!t.mgmt.runSlot) with commit := true })
  rw [hbefore.runSlot] at hprog hlink hpending ⊢
  generalize t.programControl (!s.mgmt.runSlot) (t.mgmt.slot (!s.mgmt.runSlot))
    { t.mgmt.slot (!s.mgmt.runSlot) with commit := true } = v at hprog hlink hpending ⊢
  obtain ⟨hrest, hzor, hst, htarget, hbooted⟩ :=
    (v.modMgmt fun m => m.modSlot (!s.mgmt.runSlot) fun x => { x with commit := true }).restartMc_facts
  generalize (v.modMgmt fun m => m.modSlot (!s.mgmt.runSlot) fun x => { x with commit := true }).restartMc = u
    at hrest hzor hst htarget hbooted hlink hpending ⊢
  have hcommit : (u.mgmt.slot (!s.mgmt.runSlot)).commit = true := by
    rw [hrest.slot, State.modMgmt_mgmt, Mgmt.slot_modSlot]
  have hregs := v.mgmt.modSlot_registers (!s.mgmt.runSlot) fun x => { x with commit := true }
  obtain ⟨hbusy, hresult, hargs, htags, hevents, hctr⟩ := hregs
  exact ⟨hrest.busy.trans (hbusy.trans hprog.busy), hrest.result.trans (hresult.trans hprog.result),
    hrest.args.trans (hargs.trans hprog.args),
    ⟨hrest.tags.1.trans (htags.1.trans hprog.tags.1), hrest.tags.2.trans (htags.2.trans hprog.tags.2)⟩,
    ⟨hrest.events.1.trans (hevents.1.trans hprog.events.1), hrest.events.2.trans (hevents.2.trans hprog.events.2)⟩,
    hrest.authCtr.trans (hctr.trans hprog.authCtr), hcommit, hzor, ⟨hst, htarget⟩, hbooted, hlink, hpending⟩

end
end Sys2Proof.Machine
end

section
/-!
PROOFS. The commands on updates, the link address, the thermal limits, the key and the factory state (R120, R156, R497, R578,
R584, R586).
-/

namespace Sys2Proof.Machine

open Sys2Proof

section
variable {s t u : State}

/-! ### UPDATE_ARM -/

/-- The port's sequence in progress, where it has ended, leaves the working fields of the management part. -/
theorem State.noWork_endSeq (s : State) : s.endSeq.mgmt.noWork = s.mgmt.noWork :=
  congrArg (fun m : Mgmt =>
    { m with consec := 0#5, lockStep := 0#3, lockLate := false, lockStore := { newest := (0#3, false, false) } }) s.noStores_endSeq

theorem State.noWork_learn (b : Bool) (f : ImageFound) (s : State) : (s.learn b f).mgmt.noWork = s.mgmt.noWork := by
  unfold State.learn
  split
  · rfl
  · cases b <;> rfl

/-- A check of a slot's image rests on the flash, the slots and the fields that no work of the core writes (R576, R584). -/
theorem State.armOk_congr (hflash : t.mport.flash = s.mport.flash) (hrest : t.mgmt.noWork = s.mgmt.noWork)
    (hslots : t.mgmt.slotA = s.mgmt.slotA ∧ t.mgmt.slotB = s.mgmt.slotB) : t.armOk = s.armOk := by
  have hword : ∀ a k, t.mport.word a k = s.mport.word a k := fun a k => by simp only [Mport.word, hflash]
  have hbytes : ∀ b o n, t.imageBytes b o n = s.imageBytes b o n := fun b o n => by
    simp only [State.imageBytes, State.imageByte, hflash]
  have himage : ∀ b k, t.imageWord b k = s.imageWord b k := fun b k => hword _ k
  have hrun : t.mgmt.runSlot = s.mgmt.runSlot := (congrArg Mgmt.runSlot hrest :)
  have hargs : t.mgmt.args = s.mgmt.args := (congrArg Mgmt.args hrest :)
  have hmin : t.mgmt.minVer = s.mgmt.minVer := (congrArg Mgmt.minVer hrest :)
  have hhash : t.mgmt.keyHash = s.mgmt.keyHash := (congrArg Mgmt.keyHash hrest :)
  have hrunning : t.mgmt.running = s.mgmt.running := by
    rw [Mgmt.running, Mgmt.running, hrun, hslots.1, hslots.2]
  have hpasses : ∀ b, t.imagePasses b = s.imagePasses b := fun b => by
    simp only [State.imagePasses, Mgmt.otpHash, himage, hbytes, hhash]
  have hok : ∀ b, t.imageOk b = s.imageOk b := fun b => by
    rw [State.imageOk, State.imageOk, hpasses, Mgmt.minVersion, Mgmt.minVersion, hmin, State.imageSecVer, State.imageSecVer,
        himage]
  have hversion : ∀ b, t.imageVersion b = s.imageVersion b := fun b => himage b 2
  rw [State.armOk, State.armOk]
  rw [hrun, hok, hversion, hrunning, Mgmt.arg, Mgmt.arg, hargs]

theorem State.setUpd_mgmt (v : UpdState) (s : State) : (s.setUpd v).mgmt.upd = v ∧ (s.setUpd v).mgmt.slotA = s.mgmt.slotA ∧
    (s.setUpd v).mgmt.slotB = s.mgmt.slotB ∧ (s.setUpd v).mgmt.authCtr = s.mgmt.authCtr ∧
    ((s.setUpd v).mgmt.doneEvt = s.mgmt.doneEvt ∧ (s.setUpd v).mgmt.rejEvt = s.mgmt.rejEvt) := by
  unfold State.setUpd
  split
  · next h => exact ⟨h, rfl, rfl, rfl, rfl, rfl⟩
  · dsimp only
    obtain ⟨q, d, o, heq⟩ := State.log_mgmt_eq 0x07#8 (v.code.setWidth 8) (s.mgmt.slot (s.mgmt.updSlot v)).version
      (flg (s.mgmt.updSlot v) 0) 0#32 (s.modMgmt fun m => { m with upd := v, updEvt := true })
    rw [heq]
    exact ⟨rfl, rfl, rfl, rfl, rfl, rfl⟩

/-- What finding the contents of a slot leaves alone (R576). -/
theorem State.learn_facts {q : State} (b : Bool) (f : ImageFound) (h : s.Step9 q) :
    (q.learn b f).mgmt.slotA = (s.endSeq.learn b f).mgmt.slotA ∧ (q.learn b f).mgmt.slotB = (s.endSeq.learn b f).mgmt.slotB ∧
    (q.learn b f).mport.flash = (s.endSeq.learn b f).mport.flash ∧ (q.learn b f).mgmt.noWork = s.mgmt.noWork ∧
    (q.learn b f).mgmt.authCtr = s.mgmt.ctr ∧ (q.learn b f).armOk = (s.endSeq.learn b f).armOk := by
  obtain ⟨hA, hB⟩ := h.slots
  have hslot : q.mgmt.slot b = s.endSeq.mgmt.slot b := by simp only [Mgmt.slot, hA, hB]
  have hfound : ∀ t : State, (t.learn b f).mgmt = (if
      (t.mgmt.slot b).found then t.mgmt.modSlot b fun x => { x with found := false }
      else t.mgmt) ∧ (t.learn b f).mport.flash = (if (t.mgmt.slot b).found then
        flashProgram (flashErase (imageBase b) 0xFF000 t.mport.flash) (imageBase b) ((f.words.take 0x3FC00).flatMap leBytes)
      else t.mport.flash) := by
    intro t
    unfold State.learn
    cases (t.mgmt.slot b).found <;> exact ⟨rfl, rfl⟩
  obtain ⟨hq, hqflash⟩ := hfound q
  obtain ⟨hs, hsflash⟩ := hfound s.endSeq
  have hslotA : (q.learn b f).mgmt.slotA = (s.endSeq.learn b f).mgmt.slotA := by
    rw [hq, hs, hslot]
    cases (s.endSeq.mgmt.slot b).found <;> cases b <;> simp [Mgmt.modSlot, hA]
  have hslotB : (q.learn b f).mgmt.slotB = (s.endSeq.learn b f).mgmt.slotB := by
    rw [hq, hs, hslot]
    cases (s.endSeq.mgmt.slot b).found <;> cases b <;> simp [Mgmt.modSlot, hB]
  have hflash : (q.learn b f).mport.flash = (s.endSeq.learn b f).mport.flash := by
    rw [hqflash, hsflash, hslot, h.flash]
  have hrest : (q.learn b f).mgmt.noWork = s.mgmt.noWork := (q.noWork_learn b f).trans h.rest
  have hctr : (q.learn b f).mgmt.authCtr = q.mgmt.authCtr := by
    rw [hq]
    cases (q.mgmt.slot b).found <;> cases b <;> rfl
  have hends : (s.endSeq.learn b f).mgmt.noWork = s.mgmt.noWork := (State.noWork_learn b f _).trans s.noWork_endSeq
  exact ⟨hslotA, hslotB, hflash, hrest, hctr.trans h.authCtr,
    State.armOk_congr hflash (hrest.trans hends.symm) ⟨hslotA, hslotB⟩⟩

/-- An image that passes the checks arms its slot. -/
theorem State.updateArm_arms (f : ImageFound) (h : s.CmdReady 0x07#8)
    (hok : (s.endSeq.learn (!s.mgmt.runSlot) f).armOk = true) :
    Completes (.updateArm true f) s fun t =>
      s.CmdEnded t 0#8 ∧ t.mgmt.authCtr = s.mgmt.ctr ∧ t.mgmt.upd = .armed ∧
      (t.mgmt.slot (!s.mgmt.runSlot)).version = (s.endSeq.learn (!s.mgmt.runSlot) f).imageVersion (!s.mgmt.runSlot) ∧
      t.mgmt.slot s.mgmt.runSlot = (s.endSeq.learn (!s.mgmt.runSlot) f).mgmt.slot s.mgmt.runSlot ∧
      Same [.mgmt, .mport, .int] (s.endSeq.learn (!s.mgmt.runSlot) f) t := by
  obtain ⟨q, h9, hrun⟩ := State.command_runs h
  obtain ⟨hA, hB, hflash, hrest, hctr, harm⟩ := State.learn_facts (!s.mgmt.runSlot) f h9
  have hslotq : q.mgmt.runSlot = s.mgmt.runSlot := (congrArg Mgmt.runSlot h9.rest :)
  have hslotl : (q.learn (!s.mgmt.runSlot) f).mgmt.runSlot = s.mgmt.runSlot := (congrArg Mgmt.runSlot hrest :)
  have hdone : q.cmdArm f =
      (((q.learn (!s.mgmt.runSlot) f).noteImage (!s.mgmt.runSlot) true).setUpd .armed, 0#8) := by
    unfold State.cmdArm
    dsimp only
    rw [hslotq, hslotl, harm, hok, if_pos rfl]
  have hlearn : (q.learn (!s.mgmt.runSlot) f).mask [.mgmt, .mport, .int] =
      (s.endSeq.learn (!s.mgmt.runSlot) f).mask [.mgmt, .mport, .int] := by
    have hmask := State.mask_mono (qs := [.mgmt, .mport, .int]) h9.mask (by decide)
    simp [hmask]
  generalize s.endSeq.learn (!s.mgmt.runSlot) f = e at hA hB hflash harm hlearn ⊢
  generalize q.learn (!s.mgmt.runSlot) f = l at hA hB hflash hrest hctr hlearn hdone ⊢
  obtain ⟨hupd, hsA, hsB, hsctr, hsev⟩ := (l.noteImage (!s.mgmt.runSlot) true).setUpd_mgmt .armed
  have hnote : (l.noteImage (!s.mgmt.runSlot) true).mgmt = l.mgmt.modSlot (!s.mgmt.runSlot) fun x =>
    { x with passes := true, version := l.imageVersion (!s.mgmt.runSlot), secVer := l.imageSecVer (!s.mgmt.runSlot) } := rfl
  have hregs := l.mgmt.modSlot_registers (!s.mgmt.runSlot) fun x =>
    { x with passes := true, version := l.imageVersion (!s.mgmt.runSlot), secVer := l.imageSecVer (!s.mgmt.runSlot) }
  obtain ⟨-, -, -, -, hevents, hkept⟩ := hregs
  rw [← hnote] at hevents hkept
  obtain ⟨t, hexec, hend, hmgmt, hmask⟩ := (hrun (.updateArm true f) _ rfl).2 _ hdone
    ⟨hsev.1.trans (hevents.1.trans (congrArg Mgmt.doneEvt hrest :)),
      hsev.2.trans (hevents.2.trans (congrArg Mgmt.rejEvt hrest :))⟩
  have hslot : ∀ b, t.mgmt.slot b = (l.mgmt.modSlot (!s.mgmt.runSlot) fun x =>
      { x with passes := true, version := l.imageVersion (!s.mgmt.runSlot),
               secVer := l.imageSecVer (!s.mgmt.runSlot) }).slot b := by
    intro b
    rw [← hnote]
    cases b
    · exact (congrArg Mgmt.slotA hmgmt :).trans hsA
    · exact (congrArg Mgmt.slotB hmgmt :).trans hsB
  refine ⟨t, hexec, hend, (congrArg Mgmt.authCtr hmgmt :).trans (hsctr.trans (hkept.trans hctr)),
    (congrArg Mgmt.upd hmgmt :).trans hupd, ?_, ?_, ?_⟩
  · rw [hslot, Mgmt.slot_modSlot]
    simp only [State.imageVersion, State.imageWord, Mport.word, hflash]
  · rw [hslot]
    cases s.mgmt.runSlot
    · exact hA
    · exact hB
  · refine Eq.trans (State.mask_mono (qs := [.mgmt, .mport, .int]) hmask (by decide)) ?_
    simp [State.noteImage, hlearn]

/-- One that fails a check is refused with RESULT 0x07, and its slot is known from then on. -/
theorem State.updateArm_fails (f : ImageFound) (h : s.CmdReady 0x07#8)
    (hok : (s.endSeq.learn (!s.mgmt.runSlot) f).armOk = false) :
    Completes (.updateArm true f) s fun t =>
      s.CmdEnded t 0x07#8 ∧ t.mgmt.authCtr = s.mgmt.ctr ∧ t.mgmt.upd = s.mgmt.upd ∧
      t.mgmt.slotA = (s.endSeq.learn (!s.mgmt.runSlot) f).mgmt.slotA ∧
      t.mgmt.slotB = (s.endSeq.learn (!s.mgmt.runSlot) f).mgmt.slotB ∧
      Same [.mgmt, .mport, .host, .int] (s.endSeq.learn (!s.mgmt.runSlot) f) t := by
  obtain ⟨q, h9, hrun⟩ := State.command_runs h
  obtain ⟨hA, hB, -, hrest, hctr, harm⟩ := State.learn_facts (!s.mgmt.runSlot) f h9
  have hslotq : q.mgmt.runSlot = s.mgmt.runSlot := (congrArg Mgmt.runSlot h9.rest :)
  have hdone : q.cmdArm f = (q.learn (!s.mgmt.runSlot) f, 0x07#8) := by
    unfold State.cmdArm
    dsimp only
    rw [hslotq, harm, hok, if_neg Bool.false_ne_true]
  have hmgmt := (q.learn (!s.mgmt.runSlot) f).noCommand_endCommand 0x07#8
  refine (hrun (.updateArm true f) _ rfl).1 _ _ _ hdone
    ⟨State.endCommand_ended ⟨(congrArg Mgmt.doneEvt hrest :), (congrArg Mgmt.rejEvt hrest :)⟩ _ _, ?_, ?_, ?_, ?_, ?_⟩
  · rw [State.arbitrate_mgmt]
    exact (congrArg Mgmt.authCtr hmgmt :).trans hctr
  · rw [State.arbitrate_mgmt]
    exact (congrArg Mgmt.upd hmgmt :).trans (congrArg Mgmt.upd hrest :)
  · rw [State.arbitrate_mgmt]
    exact (congrArg Mgmt.slotA hmgmt :).trans hA
  · rw [State.arbitrate_mgmt]
    exact (congrArg Mgmt.slotB hmgmt :).trans hB
  · have hmask := State.mask_mono (qs := [.mgmt, .mport, .host, .int]) h9.mask (by decide)
    simp [Same, hmask]

/-! ### UPDATE_COMMIT -/

theorem State.updateCommit_completes (h : s.CmdReady 0x08#8) (harmed : s.mgmt.upd = .armed) :
    Completes (.updateCommit true) s fun t =>
      s.CmdEnded t 0#8 ∧ t.mgmt.authCtr = s.mgmt.ctr ∧ (t.mgmt.slot (!s.mgmt.runSlot)).commit = true ∧
      t.mgmt.zor = false ∧ (t.dom .mc).st = .waking ∧ (t.dom .mc).target = .on ∧ t.pwr.booted = false ∧
      t.link = s.link ∧ t.pending = s.pending := by
  obtain ⟨q, h9, hfollows⟩ := State.command_follows h
  have hended := State.endCommand_ended h9.events 0#8 s
  have hmgmt := q.noCommand_endCommand 0#8
  have hend : (q.endCommand 0#8).mask [.mgmt, .mport] = s.endSeq.mask [.mgmt, .mport] := by
    rw [State.mask_endCommand_ok (by decide)]
    exact h9.mask
  have hport : (q.endCommand 0#8).mport = q.mport :=
    State.mport_of_mask (ps := [.host, .mgmt]) (by simp) (by decide)
  have hidle : (q.endCommand 0#8).mport.LogIdle := by
    rw [hport]
    exact .of_none h9.idle.2 h9.idle.1
  have hcom := State.commitUpdate_committed hidle
  refine hfollows (.updateCommit true) (fun t => (t,
      if t.mgmt.upd = .armed then 0#8 else 0x08#8)) State.commitUpdate rfl q 0#8 _ (by
    rw [show q.mgmt.upd = .armed from (congrArg Mgmt.upd h9.rest :).trans harmed, if_pos rfl]) ?_
  rw [if_pos rfl]
  have hslot : (q.endCommand 0#8).mgmt.runSlot = s.mgmt.runSlot :=
    (congrArg Mgmt.runSlot hmgmt :).trans (congrArg Mgmt.runSlot h9.rest :)
  have hctr : (q.endCommand 0#8).mgmt.authCtr = s.mgmt.ctr := (congrArg Mgmt.authCtr hmgmt :).trans h9.authCtr
  have hlink : (q.endCommand 0#8).link = s.link := (State.link_of_mask hend (by decide)).trans
    (State.link_of_mask (s := s) (t := s.endSeq) (ps := [.arr, .mgmt, .mport]) (by simp) (by decide))
  have hpending : (q.endCommand 0#8).pending = s.pending := (State.pending_of_mask hend).trans
    (State.pending_of_mask (s := s) (t := s.endSeq) (ps := [.arr, .mgmt, .mport]) (by simp))
  rw [State.CmdEnded, State.arbitrate_mgmt] at hended
  generalize q.endCommand 0#8 = e at hended hidle hcom hslot hctr hlink hpending ⊢
  obtain ⟨h1, h2, h3, h4, h5, h6, h7⟩ := hended
  refine ⟨?_, ?_, ?_, ?_, ?_, ?_, ?_, ?_, ?_⟩
  · rw [State.CmdEnded, State.arbitrate_mgmt]
    exact ⟨hcom.busy.trans h1, hcom.result.trans h2, hcom.args.trans h3, hcom.tags.1.trans h4, hcom.tags.2.trans h5,
      hcom.events.1.trans h6, hcom.events.2.trans h7⟩
  · rw [State.arbitrate_mgmt]
    exact hcom.authCtr.trans hctr
  · rw [State.arbitrate_mgmt, ← hslot]
    exact hcom.commit
  · rw [State.arbitrate_mgmt]
    exact hcom.zor
  · rw [arbitrate_dom]
    exact hcom.waking.1
  · rw [arbitrate_dom]
    exact hcom.waking.2
  · rw [State.arbitrate_pwr]
    exact hcom.booted
  · rw [State.arbitrate_link]
    exact hcom.link.trans hlink
  · rw [State.arbitrate_pending]
    exact hcom.pending.trans hpending

/-! ### ADDR_LOCK, THERM_LIMITS and KEY_ROLL -/

/-- Outside the array, the management part and the port the state of a command's step 9 is the one before. -/
theorem State.Step9.outside {q : State} (h : s.Step9 q) : q.mask [.arr, .mgmt, .mport] = s.mask [.arr, .mgmt, .mport] := by
  have hend : s.endSeq.mask [.arr, .mgmt, .mport] = s.mask [.arr, .mgmt, .mport] := by simp
  exact (State.mask_mono h.mask (by decide)).trans hend

theorem State.addrLock_completes (h : s.CmdReady 0x09#8) (hassigned : bitAt (s.mgmt.arg 0) 0 = true → s.link.assigned = true) :
    Completes (.addrLock true) s fun t =>
      s.CmdEnded t 0#8 ∧ t.link = { s.link with locked := bitAt (s.mgmt.arg 0) 0 } ∧
      Same [.link, .mgmt, .mport, .int] s.endSeq t := by
  obtain ⟨q, h9, hrun⟩ := State.command_runs h
  have hlink : q.link = s.link := State.link_of_mask h9.outside (by decide)
  have hdone : q.cmdLock = (q.modLink fun x => { x with locked := bitAt (s.mgmt.arg 0) 0 }, 0#8) := by
    have hfree : (bitAt (s.mgmt.arg 0) 0 && !s.link.assigned) = false := by
      cases hb : bitAt (s.mgmt.arg 0) 0 with
      | false => rfl
      | true => simp [hassigned hb]
    unfold State.cmdLock
    dsimp only
    rw [h9.arg, hlink, hfree, if_neg Bool.false_ne_true]
  obtain ⟨t, hexec, hend, -, hmask⟩ := (hrun (.addrLock true) _ rfl).2 _ hdone h9.events
  refine ⟨t, hexec, hend, ?_, ?_⟩
  · rw [State.link_of_mask hmask (by decide), State.modLink_link, hlink]
  · have h9' := State.mask_mono (qs := [.link, .mgmt, .mport, .int]) h9.mask (by decide)
    refine Eq.trans (State.mask_mono (qs := [.link, .mgmt, .mport, .int]) hmask (by decide)) ?_
    simp [h9']

theorem State.setThermLimits_therm (c : BitVec 8) (p : BitVec 9) (s : State) :
    (s.setThermLimits c p).therm.maxCode = c ∧ (s.setThermLimits c p).therm.power = p ∧
    (s.setThermLimits c p).therm.enable = s.therm.enable ∧ (s.setThermLimits c p).therm.setpoint = s.therm.setpoint := by
  rw [State.setThermLimits, State.modTherm_therm]
  dsimp only
  split <;> exact ⟨rfl, rfl, rfl, rfl⟩

theorem State.thermLimits_completes (h : s.CmdReady 0x0A#8) (h1 : (bits (s.mgmt.arg 0) 0 8 : BitVec 8).toNat ≤ 110)
    (h2 : 20 ≤ (bits (s.mgmt.arg 0) 16 9 : BitVec 9).toNat) (h3 : (bits (s.mgmt.arg 0) 16 9 : BitVec 9).toNat ≤ 290) :
    Completes (.thermLimits true) s fun t =>
      s.CmdEnded t 0#8 ∧ t.therm.maxCode = bits (s.mgmt.arg 0) 0 8 ∧ t.therm.power = bits (s.mgmt.arg 0) 16 9 ∧
      t.therm.enable = s.therm.enable ∧ t.therm.setpoint = s.therm.setpoint ∧
      Same [.therm, .mgmt, .mport, .int] s.endSeq t := by
  obtain ⟨q, h9, hrun⟩ := State.command_runs h
  have htherm : q.therm = s.therm := State.therm_of_mask h9.outside (by decide)
  have hdone : q.cmdTherm = (q.setThermLimits (bits (s.mgmt.arg 0) 0 8) (bits (s.mgmt.arg 0) 16 9), 0#8) := by
    unfold State.cmdTherm
    dsimp only
    rw [h9.arg, if_neg (by omega)]
  obtain ⟨hc, hp, he, hs⟩ := q.setThermLimits_therm (bits (s.mgmt.arg 0) 0 8) (bits (s.mgmt.arg 0) 16 9)
  obtain ⟨t, hexec, hend, -, hmask⟩ := (hrun (.thermLimits true) _ rfl).2 _ hdone h9.events
  have ht := State.therm_of_mask hmask (by decide)
  rw [← ht] at hc hp he hs
  refine ⟨t, hexec, hend, hc, hp, he.trans (by rw [htherm]), hs.trans (by rw [htherm]), ?_⟩
  have h9' := State.mask_mono (qs := [.therm, .mgmt, .mport, .int]) h9.mask (by decide)
  refine Eq.trans (State.mask_mono (qs := [.therm, .mgmt, .mport, .int]) hmask (by decide)) ?_
  simp [h9']

theorem State.keyRoll_completes (h : s.CmdReady 0x0B#8) :
    Completes (.keyRoll true) s fun t =>
      s.CmdEnded t 0#8 ∧ t.mgmt.key = some s.mgmt.rolledKey ∧ t.mgmt.keyGen = s.mgmt.keyGen + 1 ∧ t.mgmt.authCtr = 0#32 ∧
      Same [.mgmt, .mport, .int] s.endSeq t := by
  obtain ⟨q, h9, hrun⟩ := State.command_runs h
  have hkey : q.mgmt.rolledKey = s.mgmt.rolledKey := (congrArg Mgmt.rolledKey h9.rest :)
  have hgen : q.mgmt.keyGen = s.mgmt.keyGen := (congrArg Mgmt.keyGen h9.rest :)
  obtain ⟨t, hexec, hend, hmgmt, hmask⟩ := (hrun (.keyRoll true) (fun t => (t.rollKey, 0#8)) rfl).2 q.rollKey rfl h9.events
  have hrolled : q.rollKey.mgmt.key = some q.mgmt.rolledKey ∧ q.rollKey.mgmt.keyGen = q.mgmt.keyGen + 1 ∧
      q.rollKey.mgmt.authCtr = 0#32 := ⟨rfl, rfl, rfl⟩
  obtain ⟨hk, hg, hc⟩ := hrolled
  refine ⟨t, hexec, hend, (congrArg Mgmt.key hmgmt :).trans (hk.trans (congrArg some hkey)),
    (congrArg Mgmt.keyGen hmgmt :).trans (hg.trans (congrArg (· + 1) hgen)), (congrArg Mgmt.authCtr hmgmt :).trans hc,
        h9.same hmask ?_⟩
  simp [State.rollKey]

/-! ### FACTORY_RESET -/

/-- The fill rule changes the state of a unit at most, and no seal. -/
theorem State.seals_fillAll (s : State) (k : Nat) : (s.fillAll.unit k).lasting = (s.unit k).lasting ∧
    (s.fillAll.unit k).flaps = (s.unit k).flaps := by
  refine foldl_keeps (fun t : State => (t.unit k).lasting = (s.unit k).lasting ∧ (t.unit k).flaps = (s.unit k).flaps)
    (fun t i ⟨hl, hf⟩ => ?_) _ ⟨rfl, rfl⟩
  rcases t.unit_fill i 18 k with h | ⟨-, h⟩
  · rw [State.fillCluster, h]
    exact ⟨hl, hf⟩
  · rw [State.fillCluster, h]
    exact ⟨hl, hf⟩

theorem State.mapChanged_facts (s : State) : s.mapChanged.arr.dirtySince.isSome = true ∧ s.mapChanged.mgmt = s.mgmt ∧
    s.mapChanged.arr.units = s.arr.units := by
  have hd : ∀ t : State, (t.demand .mc).arr = t.arr ∧ (t.demand .mc).mgmt = t.mgmt := fun t =>
    ⟨State.arr_of_mask (ps := [.pwr]) (by simp) (by decide), State.mgmt_of_mask (ps := [.pwr]) (by simp) (by decide)⟩
  unfold State.mapChanged
  dsimp only
  split
  · exact ⟨rfl, rfl, rfl⟩
  · rw [(hd _).1, (hd _).2]
    exact ⟨rfl, rfl, rfl⟩

theorem State.fillAll_kept (s : State) : s.ArrKept s.fillAll :=
  foldl_keeps (fun t : State => s.ArrKept t) (fun t i h => h.trans (State.fillCluster_kept i t)) _ (.refl s)

/-- The factory map: no unit is sealed, and a write of the map is due (R146, R156). -/
theorem State.factoryMap_facts (s : State) : (∀ k, k < 660 → (s.factoryMap.unit k).lasting = false ∧
      (s.factoryMap.unit k).flaps = 0#2) ∧ s.factoryMap.arr.dirtySince.isSome = true ∧
    s.factoryMap.mgmt.noLog = s.mgmt.noLog := by
  have hvoid : (s.voidAudits fun _ => true).mgmt = s.mgmt := s.noLog_voidAudits _
  unfold State.factoryMap
  dsimp only
  generalize s.voidAudits (fun _ => true) = v at hvoid ⊢
  generalize hm : (v.modArr fun a => { a with
    units := Vector.ofFn fun u =>
      { s.factoryUnit u.val with flaps := 0#2, fails := 0#2, passes := 0#5, lasting := false, standin := false }
    cl := a.cl.map fun c =>
      { retrim := c.retrim, owedTrim := c.owedTrim, driveExcl := c.driveExcl, rejoin := c.rejoin, rejoinAt := c.rejoinAt,
        iso := c.iso, trims := c.trims }
    rot := a.rot.map fun q => { q with due := [], resume := none } }) = m
  have hseals : ∀ k, k < 660 → (m.unit k).lasting = false ∧ (m.unit k).flaps = 0#2 := by
    intro k hk
    rw [← hm, State.unit, State.modArr_arr, dif_pos hk]
    simp
  have hmgmt : m.mgmt = s.mgmt := by rw [← hm, State.modArr_mgmt, hvoid]
  have hafter : ∀ w : State, w.arr.units = m.arr.units → w.mgmt = m.mgmt →
      (∀ k, k < 660 → ((State.settleArray s w.mapChanged.fillAll).unit k).lasting = false ∧
        ((State.settleArray s w.mapChanged.fillAll).unit k).flaps = 0#2) ∧
      (State.settleArray s w.mapChanged.fillAll).arr.dirtySince.isSome = true ∧
      (State.settleArray s w.mapChanged.fillAll).mgmt.noLog = s.mgmt.noLog := by
    intro w hunits hw
    obtain ⟨hd, hcm, hcu⟩ := w.mapChanged_facts
    refine ⟨fun k hk => ?_, ?_, ?_⟩
    · obtain ⟨hl, hf⟩ := w.mapChanged.seals_fillAll k
      rw [State.unit_settleArray, hl, hf, State.unit_congr (hcu.trans hunits)]
      exact hseals k hk
    · exact ((State.fillAll_kept _).trans (State.settleArray_kept s _)).2.2.2 hd
    · rw [State.noLog_settleArray]
      exact congrArg Mgmt.noLog ((State.mgmt_of_mask (ps := [.arr]) (State.mask_fillAll_arr (by decide) _) (by decide)).trans
        (hcm.trans (hw.trans hmgmt)))
  split
  · exact hafter _ rfl rfl
  · exact hafter _ rfl rfl

theorem State.factoryReset_completes (h : s.CmdReady 0x0C#8) :
    Completes (.factoryReset true) s fun t =>
      s.CmdEnded t 0#8 ∧ t.mgmt.cfgA = none ∧ t.mgmt.cfgB = none ∧ t.therm.maxCode = 90#8 ∧ t.therm.power = 290#9 ∧
      (∀ u, u < 660 → (t.unit u).lasting = false ∧ (t.unit u).flaps = 0#2) ∧ t.arr.dirtySince.isSome = true ∧
      t.mgmt.key = s.mgmt.key ∧ Same [.arr, .therm, .pwr, .mgmt, .mport, .int] s t := by
  obtain ⟨q, h9, hrun⟩ := State.command_runs h
  obtain ⟨hunits, hdirty, hlog⟩ := q.factoryMap_facts
  obtain ⟨hc, hp, -, -⟩ := q.factoryMap.eraseConfig.setThermLimits_therm 90#8 290#9
  have hmgmt : (q.factoryMap.eraseConfig.setThermLimits 90#8 290#9).mgmt = { q.factoryMap.mgmt with cfgA := none, cfgB := none } := rfl
  have harr : (q.factoryMap.eraseConfig.setThermLimits 90#8 290#9).arr = q.factoryMap.arr := rfl
  have hsame : (q.factoryMap.eraseConfig.setThermLimits 90#8 290#9).mask [.arr, .therm, .pwr, .mgmt, .mport, .int] =
      q.mask [.arr, .therm, .pwr, .mgmt, .mport, .int] := by
    simp [State.eraseConfig]
  have hev := Mgmt.events_of_noLog hlog
  have hended : (q.factoryMap.eraseConfig.setThermLimits 90#8 290#9).mgmt.doneEvt = s.mgmt.doneEvt ∧
      (q.factoryMap.eraseConfig.setThermLimits 90#8 290#9).mgmt.rejEvt = s.mgmt.rejEvt := by
    rw [hmgmt]
    exact ⟨hev.1.trans h9.events.1, hev.2.trans h9.events.2⟩
  obtain ⟨t, hexec, hend, hm, hmask⟩ := (hrun (.factoryReset true)
    (fun t => ((t.factoryMap.eraseConfig).setThermLimits 90#8 290#9, 0#8)) rfl).2 _ rfl hended
  rw [hmgmt] at hm
  have ha := (State.arr_of_mask hmask (by decide)).trans harr
  have ht := State.therm_of_mask hmask (by decide)
  refine ⟨t, hexec, hend, (congrArg Mgmt.cfgA hm :), (congrArg Mgmt.cfgB hm :), ?_, ?_, fun k hk => ?_, ?_, ?_, ?_⟩
  · rw [ht]
    exact hc
  · rw [ht]
    exact hp
  · rw [State.unit_congr (congrArg Arr.units ha)]
    exact hunits k hk
  · rw [ha]
    exact hdirty
  · exact (congrArg Mgmt.key hm :).trans ((congrArg Mgmt.key hlog :).trans (congrArg Mgmt.key h9.rest :))
  · exact h9.same_arr (by decide) hmask hsame

end

/-- Settles O46: as for O45, each command's step 9 runs on a state of State.Step9; UPDATE_COMMIT goes on to State.commitUpdate. -/
theorem updateAndKeyCommandsComplete : Obligations.UpdateAndKeyCommandsComplete := by
  unfold Obligations.UpdateAndKeyCommandsComplete
  exact ⟨fun s f q h hq => ⟨fun hok => by subst hq; exact State.updateArm_arms f h hok,
      fun hok => by subst hq; exact State.updateArm_fails f h hok⟩,
    fun s h ha => State.updateCommit_completes h ha, fun s h ha => State.addrLock_completes h ha,
    fun s h h1 h2 h3 => State.thermLimits_completes h h1 h2 h3, fun s h => State.keyRoll_completes h,
    fun s h => State.factoryReset_completes h⟩

end Sys2Proof.Machine
end

section
/-!
PROOFS. The flash-bus grant and the mode fault (R499, R500, R553 to R555, R571).
-/

namespace Sys2Proof.Machine

open Sys2Proof

section
variable {s t u : State}

/-! ### MPORT_CTRL -/

theorem bits_or (v w : Word) (lo n : Nat) : bits (v ||| w) lo n = bits v lo n ||| bits w lo n := by
  apply BitVec.eq_of_getLsbD_eq
  intro i hi
  rw [BitVec.getLsbD_or, getLsbD_bits, getLsbD_bits, getLsbD_bits, bitAt_or, Bool.and_or_distrib_left]

theorem bits_flg_apart (b : Bool) {k lo n : Nat} (h : k < lo) : bits (flg b k) lo n = 0#n := by
  apply BitVec.eq_of_getLsbD_eq
  intro i hi
  rw [getLsbD_bits, bitAt_flg_ne (by omega), Bool.and_false, BitVec.getLsbD_zero]

/-- Clearing a bit below a field leaves the field. -/
theorem bits_clear_apart (w : Word) (b : Bool) {k lo n : Nat} (h : k < lo) (hlt : lo + n ≤ 32) :
    bits (w &&& ~~~flg b k) lo n = bits w lo n := by
  apply BitVec.eq_of_getLsbD_eq
  intro i hi
  have hbit : bitAt (~~~flg b k) (lo + i) = true := by
    have hflg := bitAt_flg_ne (b := b) (k := lo + i) (j := k) (by omega)
    rw [bitAt] at hflg ⊢
    rw [BitVec.getLsbD_not, hflg]
    simp
    omega
  rw [getLsbD_bits, getLsbD_bits]
  rw [bitAt] at hbit ⊢
  rw [BitVec.getLsbD_and, hbit, Bool.and_true, bitAt]

/-- The fields of MPORT_CTRL read back as they stand (R499). -/
theorem Mport.bits_ctrl (x : Mport) : bits x.ctrl 8 4 = x.css ∧ bits x.ctrl 12 4 = x.csh ∧ bits x.ctrl 16 4 = x.csi ∧
    bits x.ctrl 20 2 = x.div := by
  refine ⟨?_, ?_, ?_, ?_⟩
  · rw [Mport.ctrl, bits_or, bits_or, bits_or, bits_or, bits_flg_apart _ (by decide), bits_fld_self _ (by decide),
      bits_fld_apart x.csh (by decide) (by decide), bits_fld_apart x.csi (by decide) (by decide),
      bits_fld_apart x.div (by decide) (by decide)]
    simp
  · rw [Mport.ctrl, bits_or, bits_or, bits_or, bits_or, bits_flg_apart _ (by decide), bits_fld_self _ (by decide),
      bits_fld_apart x.css (by decide) (by decide), bits_fld_apart x.csi (by decide) (by decide),
      bits_fld_apart x.div (by decide) (by decide)]
    simp
  · rw [Mport.ctrl, bits_or, bits_or, bits_or, bits_or, bits_flg_apart _ (by decide), bits_fld_self _ (by decide),
      bits_fld_apart x.css (by decide) (by decide), bits_fld_apart x.csh (by decide) (by decide),
      bits_fld_apart x.div (by decide) (by decide)]
    simp
  · rw [Mport.ctrl, bits_or, bits_or, bits_or, bits_or, bits_flg_apart _ (by decide), bits_fld_self _ (by decide),
      bits_fld_apart x.css (by decide) (by decide), bits_fld_apart x.csh (by decide) (by decide),
      bits_fld_apart x.csi (by decide) (by decide)]
    simp

/-- A write of MPORT_CTRL that changes HOST_TAKE alone. -/
def Mport.Takes (x : Mport) (w : Word) (b : Bool) : Prop :=
  bitAt w 0 = b ∧ bits w 8 4 = x.css ∧ bits w 12 4 = x.csh ∧ bits w 16 4 = x.csi ∧ bits w 20 2 = x.div

theorem Mport.takes (x : Mport) : x.Takes (x.ctrl ||| flg true 0) true := by
  obtain ⟨h1, h2, h3, h4⟩ := x.bits_ctrl
  refine ⟨by rw [bitAt_or, bitAt_flg_self _ _ (by decide), Bool.or_true], ?_, ?_, ?_, ?_⟩
  · rw [bits_or, bits_flg_apart _ (by decide), h1]; simp
  · rw [bits_or, bits_flg_apart _ (by decide), h2]; simp
  · rw [bits_or, bits_flg_apart _ (by decide), h3]; simp
  · rw [bits_or, bits_flg_apart _ (by decide), h4]; simp

theorem Mport.takes_not (x : Mport) : x.Takes (x.ctrl &&& ~~~(flg true 0)) false := by
  obtain ⟨h1, h2, h3, h4⟩ := x.bits_ctrl
  refine ⟨by rw [bitAt_clear_zero]; simp, ?_, ?_, ?_, ?_⟩
  · rw [bits_clear_apart _ _ (by decide) (by decide), h1]
  · rw [bits_clear_apart _ _ (by decide) (by decide), h2]
  · rw [bits_clear_apart _ _ (by decide) (by decide), h3]
  · rw [bits_clear_apart _ _ (by decide) (by decide), h4]

theorem State.writeMportCtrl_takes {w : Word} (h : s.mport.Takes w true) :
    s.writeMportCtrl w = s.modMport fun x => { x with take := true } := by
  obtain ⟨h0, h1, h2, h3, h4⟩ := h
  unfold State.writeMportCtrl
  dsimp only
  rw [h0, h1, h2, h3, h4]
  rfl

/-- The image slots are to be read again (R557). -/
def Mgmt.unfound (m : Mgmt) : Mgmt :=
  { m with slotA := { m.slotA with found := true }, slotB := { m.slotB with found := true } }

theorem State.writeMportCtrl_gives {w : Word} (h : s.mport.Takes w false) (hg : s.mport.granted = true) :
    s.writeMportCtrl w = ((s.modMport fun x => { x with take := false, granted := false, doneEvt := true, repoll := true }).modMgmt
      Mgmt.unfound).commitDemand := by
  obtain ⟨h0, h1, h2, h3, h4⟩ := h
  unfold State.writeMportCtrl
  dsimp only
  rw [h0, h1, h2, h3, h4, hg]
  rfl

theorem State.writeMportCtrl_withdraws {w : Word} (h : s.mport.Takes w false) (hg : s.mport.granted = false) :
    s.writeMportCtrl w = (s.modMport fun x => { x with take := false }).commitDemand := by
  obtain ⟨h0, h1, h2, h3, h4⟩ := h
  unfold State.writeMportCtrl
  dsimp only
  rw [h0, h1, h2, h3, h4, hg]
  rfl

theorem State.commitDemand_rests (h : s.isOn .mc = true ∨ s.arr.dirtySince = none) : s.commitDemand = s := by
  unfold State.commitDemand
  rcases h with h | h
  · simp [h]
  · simp [h]

theorem State.mask_commitDemand_pwr {ps : List Part} (h0 : Part.pwr ∈ ps) (s : State) : s.commitDemand.mask ps = s.mask ps := by
  unfold State.commitDemand
  split
  · simp [h0]
  · rfl

/-- HOST_TAKE = 0, whatever it does to the grant: the rest of the write is a demand for MC, where a map change waited. -/
theorem State.hostTakeClear_completes {v : State} (h : s.Reaches 52)
    (hw : s.writeMportCtrl (s.mport.ctrl &&& ~~~(flg true 0)) = v.commitDemand) (hisOn : v.isOn .mc = s.isOn .mc)
    (harr : v.arr = s.arr) {ps : List Part} (hps : [Part.host, .int] ⊆ ps) (hmask : v.mask ps = s.mask ps) :
    Completes .hostTakeClear s fun t => t.mport = v.mport ∧ t.mgmt = v.mgmt ∧
      (s.isOn .mc = true ∨ s.arr.dirtySince = none → Same ps s t) ∧ Same (.pwr :: ps) s t := by
  have hhost : Part.host ∈ ps := hps (by decide)
  have hint : Part.int ∈ ps := hps (by decide)
  refine .answer (congrArg (answer s) (State.hostWrite_plain (i := 52) h rfl _)) ?_
  have hreg : s.writeReg 52 (s.mport.ctrl &&& ~~~(flg true 0)) 0#12 = v.commitDemand := hw
  rw [show (52 : Fin 64).val = 52 from rfl, hreg]
  have hm : v.commitDemand.mport = v.mport :=
    State.mport_of_mask (State.mask_commitDemand_pwr (ps := [.pwr]) (by decide) v) (by decide)
  have hg : v.commitDemand.mgmt = v.mgmt :=
    State.mgmt_of_mask (State.mask_commitDemand_pwr (ps := [.pwr]) (by decide) v) (by decide)
  refine ⟨by rw [State.arbitrate_mport, State.finishWrite_mport, hm], by rw [State.arbitrate_mgmt, State.finishWrite_mgmt, hg],
    fun hrest => ?_, ?_⟩
  · rw [State.commitDemand_rests (by rw [hisOn, harr]; exact hrest)]
    simp [Same, hhost, hint, hmask]
  · have hmask' : v.mask (.pwr :: ps) = s.mask (.pwr :: ps) :=
      State.mask_mono (qs := .pwr :: ps) hmask fun p hp => List.mem_cons_of_mem _ hp
    simp [Same, hhost, hint, State.mask_commitDemand_pwr (ps := .pwr :: ps) (by simp), hmask']

/-! ### The grant -/

/-- What the grant leaves of a sequence in progress (R553, R555). -/
theorem State.grant_completes (ht : s.mport.take = true) (hg : s.mport.granted = false) (hlk : s.hasLk = true)
    (hfree : (s.mport.seq.isSome && (s.mport.waiting || s.mport.mssLow)) = false) :
    exec .grant s = Machine.event true s (s.endSeq.modMport fun x => { x with granted := true, doneEvt := true }) := by
  have hexec : exec .grant s = Machine.event (s.mport.take && !s.mport.granted && s.hasLk &&
      !(s.mport.seq.isSome && (s.mport.waiting || s.mport.mssLow))) s
      (s.endSeq.modMport fun x => { x with granted := true, doneEvt := true }) := rfl
  rw [hexec, ht, hg, hlk, hfree]
  rfl

/-- A mode fault, before its record (R553). -/
def State.modeFaulted (s : State) : State :=
  { s with fresh := s.fresh + 1 }.modMport fun x => { x with mfault := true, waiting := true, mssLow := true, opDone := s.opSent }

theorem Mport.endSeq_of_none {x : Mport} (h : x.seq = none) : x.endSeq = x := by
  unfold Mport.endSeq
  rw [h, ite_self]

theorem State.endSeq_of_none (h : s.mport.seq = none) : s.endSeq =
    s.modMport fun x => { x.endSeq with single := if x.waiting then x.single else none } := by
  unfold State.endSeq
  rw [h]
  cases s.mport.waiting <;> rfl

end

/-- Settles O54: a write of MPORT_CTRL is read by its fields (`Mport.Takes`); the grant ends a sequence in progress, and a mode
fault and its end are one event each. -/
theorem portGrantsComplete : Obligations.PortGrantsComplete := by
  unfold Obligations.PortGrantsComplete
  refine ⟨?take, fun s h => ⟨fun hg => ?gives, fun hg => ?withdraws⟩, ?grant, ?grantSeq, ?fault, ?resume⟩
  case take =>
    intro s h
    refine .answer (congrArg (answer s) (State.hostWrite_plain (i := 52) h rfl _)) ?_
    have hreg : s.writeReg 52 (s.mport.ctrl ||| flg true 0) 0#12 = s.modMport fun x => { x with take := true } :=
      State.writeMportCtrl_takes s.mport.takes
    rw [show (52 : Fin 64).val = 52 from rfl, hreg]
    exact ⟨by simp, by simp [State.finishWrite], by simp [Same]⟩
  case gives =>
    exact State.hostTakeClear_completes h (State.writeMportCtrl_gives s.mport.takes_not hg) rfl rfl (by decide) (by simp)
  case withdraws =>
    obtain ⟨t, hexec, hm, -, hsame, hsame'⟩ := State.hostTakeClear_completes (ps := [.mport, .host, .int]) h
      (State.writeMportCtrl_withdraws s.mport.takes_not hg) rfl rfl (by decide) (by simp)
    exact ⟨t, hexec, hm, hsame, hsame'⟩
  case grant =>
    intro s ht hg hlk hseq
    refine .event (State.grant_completes ht hg hlk (by rw [hseq]; rfl)) rfl ?_
    rw [State.endSeq_of_none hseq]
    refine ⟨?_, by simp [Same]⟩
    simp [Mport.endSeq_of_none hseq]
  case grantSeq =>
    intro s a bs ht hg hlk hw hlow hseq
    refine .event (State.grant_completes ht hg hlk (by rw [hw, hlow]; simp)) rfl ?_
    have hm : s.endSeq.mport = { (s.mport.applySeq (.program false a bs)) with seq := none, polling := false, single := none } := by
      rw [State.endSeq_mport]
      simp only [Mport.endSeq, hw, hseq, Bool.false_eq_true, if_false]
    refine ⟨?_, ?_, ?_, ?_, by simp [Same]⟩
    all_goals simp only [State.arbitrate_mport, State.modMport_mport, hm, Mport.applySeq]
  case fault =>
    intro s hbusy hg hw hlow hlk hq
    refine .event (u := s) (ok := (s.mport.single.isSome || s.mport.seq.isSome) && !s.mport.granted && !s.mport.waiting &&
      !s.mport.mssLow && s.hasLk) (t := s.modeFaulted.log 0x09#8 0x03#8 s.portAddress 0#32 0#32) rfl ?_
      ⟨?_, ?_, by simp [Same, State.modeFaulted]⟩
    · rw [hg, hw, hlow, hlk, (Bool.or_eq_true ..).mpr hbusy]
      rfl
    · rw [State.arbitrate_mport, State.log_mport]
      rfl
    · exact State.logged_log (t := s.modeFaulted) (by exact hq) rfl rfl rfl s
  case resume =>
    intro s hw hlow hus hlk
    refine .event (u := s) (ok := s.mport.waiting && !s.mport.mssLow && s.usSince s.mport.mssAt 1000 && s.hasLk) rfl ?_
      ⟨by simp, by simp [Same]⟩
    rw [hw, hlow, hus, hlk]
    rfl

end Sys2Proof.Machine
end

section
/-!
PROOFS. Frames of the link: discovery, addresses and errors (R498, R513, R515, R523, R529 to R533).
-/

namespace Sys2Proof.Machine

open Sys2Proof

section
variable {s t u : State}

/-! ### Rules of the link part -/

@[simp] theorem State.drive_link (l : List Word) (s : State) : (s.drive l).link = { s.link with ldo := l } := rfl

@[simp] theorem State.linkError_link (c : BitVec 4) (s : State) :
    (s.linkError c).link = { s.link with errEvt := true, lastErr := c } := rfl

@[simp] theorem State.noteAbort_link (s : State) :
    s.noteAbort.link = { s.link with aborts := satInc s.link.aborts, errEvt := true, lastErr := 3#4 } := rfl

@[simp] theorem State.noteAbort_sticky (s : State) : s.noteAbort.host.sticky.getLsbD 9 = true := by
  have h : s.noteAbort.host.sticky = putBit s.host.sticky 9 true := rfl
  rw [h, getLsbD_putBit]
  simp

@[simp] theorem State.cutWait_link (s : State) : s.cutWait.link =
    { s.link with wait := none, posted := if s.link.wait.any Wait.write then none else s.link.posted } := rfl

theorem State.conflict_link (s : State) : s.conflict.link =
    { s.link.assign 31#5 with locked := false, discEvt := true, errEvt := true, lastErr := 4#4 } := rfl

theorem State.conflict_sticky (s : State) : s.conflict.host.sticky.getLsbD 10 = true := by
  have h : s.conflict.host.sticky = putBit s.host.sticky 10 true := rfl
  rw [h, getLsbD_putBit]
  simp

theorem State.conflict_rdata (s : State) : s.conflict.host.rdata = s.host.rdata := rfl

/-! ### What a frame reaches -/

/-- A register that lies in no domain needs none (R518). -/
theorem State.needs_plain {i : Nat} (hd : s.regDom i = none) (hw : i ≠ winData) (flies : Bool) : s.needs flies i = none := by
  have hopen : s.resolveOpen i = .executed := by
    rw [State.resolveOpen, if_neg (fun h => hw h.1), if_neg (fun h => hw h.1), hd, ite_self]
  have hres : s.resolve i = .gated ∨ s.resolve i = .executed := by
    rw [State.resolve, hopen]
    split
    · exact .inl rfl
    · exact .inr rfl
  have hfly : s.resolveAs flies i = .gated ∨ s.resolveAs flies i = .executed := by
    rw [State.resolveAs]
    split
    · rw [State.resolveStalled, hopen]
      split
      · exact .inr rfl
      · exact hres
    · exact hres
  rw [State.needs]
  rcases hfly with h | h
  · rw [h]
  · rw [h]

theorem State.blockNeeds_one (flies : Bool) (index : BitVec 6) (s : State) :
    s.blockNeeds flies index 1 = (s.needs flies index.toNat).toList := by
  have hlt : index.toNat < 64 := index.isLt
  have hindex : blockIndex readFixed index 0 = index.toNat := by
    rw [blockIndex]
    split
    · rfl
    · omega
  rw [State.blockNeeds, List.range_one, List.filterMap_cons]
  dsimp only
  rw [hindex, if_neg (by omega)]
  cases s.needs flies index.toNat <;> rfl

theorem State.blockBusy_one (fixed : List Nat) (index : BitVec 6) (s : State) :
    s.blockBusy fixed index 1 = ((s.regDom index.toNat).isSome && !s.regGated index.toNat) := by
  have hlt : index.toNat < 64 := index.isLt
  have hindex : blockIndex fixed index 0 = index.toNat := by
    rw [blockIndex]
    split
    · rfl
    · omega
  rw [State.blockBusy, List.range_one, List.any_cons, List.any_nil, Bool.or_false]
  dsimp only
  rw [hindex, decide_eq_true hlt, Bool.true_and]

/-! ### Executions of the frames -/

theorem State.exec_read {addr : BitVec 5} (h : s.linkUp = true) (ho : s.own addr = true) (hp : s.link.posted = none)
    (index : BitVec 6) (count : BitVec 8) (words : Nat) (bus : List Word) :
    exec (.read addr index count words bus) s =
      Machine.event true s.newFrame (s.newFrame.linkRead index (count.toNat + 1) words bus) := by
  have hexec : exec (.read addr index count words bus) s = Machine.event
      (s.linkUp && s.own addr && s.link.posted.isNone) s.newFrame
      (s.newFrame.linkRead index (count.toNat + 1) words bus) := rfl
  rw [hexec, h, ho, hp]
  rfl

/-- A READ of one register in no domain begins its response at once (R517). -/
theorem State.linkRead_plain {index : BitVec 6} (hd : s.regDom index.toNat = none) (hw : index.toNat ≠ winData) (words : Nat)
    (bus : List Word) : s.linkRead index 1 words bus = s.readReady false false [] 0 index 1 words bus := by
  have hneeds : s.blockNeeds false index 1 = [] := by rw [State.blockNeeds_one, State.needs_plain hd hw]; rfl
  have hbusy : s.blockBusy readFixed index 1 = false := by rw [State.blockBusy_one, hd]; rfl
  rw [State.linkRead]
  dsimp only
  rw [hneeds, hbusy]
  rfl

theorem sendStatus_conflict {w b : Word} (h : conflicts w b = true) (n : Nat) (ws bus : List Word) :
    sendStatus (n + 1) (w :: ws) (b :: bus) = ([cutWord w b], false) := by
  unfold sendStatus
  exact if_pos h

/-- A word of a response that meets a conflict on LDO: the module gives up its address (R523, R532). -/
theorem State.readReady_conflicts {index : BitVec 6} {b : Word} (flies : Bool) (count n : Nat) (before bus : List Word)
    (h : conflicts (s.readyWord index) b = true) : ∃ l v,
      s.readReady flies false before 0 index count (n + 1) (b :: bus) = (State.drive l v).conflict ∧
      v.mask [.int] = s.mask [.int] := by
  have hready : ((s.modInt fun c => { c with gone0 := none, gone1 := none }).ready index false) = s.readyWord index := by
    have hflg : flg false 16 = 0#32 := rfl
    rw [State.ready, hflg, BitVec.or_zero]
    rfl
  have hsend := sendStatus_conflict h n [] bus
  generalize hw : s.readyWord index = w at hready hsend
  rw [State.readReady]
  dsimp only [List.replicate_zero, List.nil_append]
  simp only [hready, hsend, Bool.not_false, if_true]
  exact ⟨_, _, rfl, by simp⟩

theorem State.discover_completes {len : BitVec 8} {lo hi crc c : Word} (h : s.linkUp = true) (ha : s.link.assigned = false)
    (hcrc : crcOk [lo, hi] crc = true) (hlen : len.toNat ≤ 64) :
    Completes (.discover len [lo, hi, crc, c]) s fun t =>
      t.link = { s.link with
        ldo := if uidMatches len.toNat (joinWords lo hi) then [discoverWord len.toNat] else [], wait := none } ∧
      Same [.link, .int] s t := by
  refine .event (ok := s.linkUp && !s.link.assigned) (u := s.newFrame) rfl (by rw [h, ha]; rfl) ?_
  rw [State.discovered]
  dsimp only
  rw [hcrc, decide_eq_true hlen]
  cases uidMatches len.toNat (joinWords lo hi)
  · exact ⟨by simp, by simp [Same]⟩
  · exact ⟨by simp, by simp [Same]⟩

theorem State.assign_completes {lo hi a crc : Word} (h : s.linkUp = true) (hcrc : crcOk [lo, hi, a] crc = true) :
    (joinWords lo hi = Config.uid → s.link.locked = false → Completes (.assign [lo, hi, a, crc]) s fun t =>
      t.link.addr = bits a 0 5 ∧ t.link.assigned = (bits a 0 5 != 31#5) ∧ t.link.locked = false ∧
      t.link.aborts = s.link.aborts ∧ Same [.link, .int] s t) ∧
    (joinWords lo hi ≠ Config.uid ∨ s.link.locked = true → Completes (.assign [lo, hi, a, crc]) s fun t =>
      t.link = { s.link with wait := none, ldo := [] } ∧ Same [.link, .int] s t) := by
  have hexec : exec (.assign [lo, hi, a, crc]) s = Machine.event s.linkUp s.newFrame
      (if joinWords lo hi = Config.uid ∧ !s.link.locked then s.newFrame.modLink fun x => x.assign
          (bits a 0 5) else s.newFrame) := by
    have heq : exec (.assign [lo, hi, a, crc]) s = Machine.event s.linkUp s.newFrame
      (if !crcOk [lo, hi, a] crc then s.newFrame.linkError 2#4
       else if joinWords lo hi = Config.uid ∧ !s.link.locked then s.newFrame.modLink fun x => x.assign (bits a 0 5)
       else s.newFrame) := rfl
    rw [heq, hcrc]
    rfl
  refine ⟨fun huid hl => ?_, fun hno => ?_⟩
  · rw [if_pos ⟨huid, by rw [hl]; rfl⟩] at hexec
    refine .event hexec h ⟨?_, ?_, ?_, ?_, by simp [Same]⟩
    all_goals simp [Link.assign, hl]
  · rw [if_neg (by rcases hno with hne | hl <;> simp [*])] at hexec
    exact .event hexec h ⟨by simp, by simp [Same]⟩

theorem State.linkRelease_completes (h : s.Reaches 50) :
    (s.link.locked = false → Completes .linkRelease s fun t =>
      t.link.addr = 31#5 ∧ t.link.assigned = false ∧ (s.link.assigned = true → t.link.discEvt = true) ∧
      Same [.link, .host, .int] s t) ∧
    (s.link.locked = true → Completes .linkRelease s fun t => Same [.host, .int] s t) := by
  have hreg : s.writeReg 50 (flg true 8) 0#12 = s.modLink fun x => if x.locked then x else x.assign 31#5 := by
    have heq : s.writeReg 50 (flg true 8) 0#12 = s.modLink fun x =>
        if bitAt (flg true 8) 8 && !x.locked then x.assign 31#5 else x := rfl
    rw [heq, bitAt_flg_self _ _ (by decide)]
    congr 1
    funext x
    cases x.locked <;> rfl
  have hexec : exec .linkRelease s = answer s (s.modLink fun x => if x.locked then x else x.assign 31#5).finishWrite :=
    (congrArg (answer s) (State.hostWrite_plain (i := 50) h rfl _)).trans (by rw [show (50 : Fin 64).val = 50 from rfl, hreg])
  refine ⟨fun hl => .answer hexec ?_, fun hl => .answer hexec ?_⟩
  · have hlink : ((s.modLink fun x => if x.locked then x else x.assign 31#5).finishWrite).link = s.link.assign 31#5 := by
      simp [hl]
    refine ⟨?_, ?_, fun ha => ?_, by simp [Same]⟩
    all_goals rw [State.arbitrate_link, hlink]
    · rfl
    · rfl
    · simp [Link.assign, ha]
  · have hid : (s.modLink fun x => if x.locked then x else x.assign 31#5) = s := by
      have hsame : (fun x : Link => if x.locked then x else x.assign 31#5) s.link = s.link := by simp [hl]
      rw [State.modLink]
      dsimp only at hsame ⊢
      rw [hsame]
    rw [hid]
    simp [Same]

theorem State.readConflict_completes {addr : BitVec 5} {b : Word} (n : Nat) (h : s.linkUp = true) (ho : s.own addr = true)
    (hp : s.link.posted = none) (hb : conflicts (s.readyWord 61) b = true) :
    Completes (.read addr 61 0 (n + 1) [b]) s fun t =>
      t.link.addr = 31#5 ∧ t.link.assigned = false ∧ t.link.locked = false ∧ t.link.lastErr = 4#4 ∧
      t.host.sticky.getLsbD 10 = true ∧ t.host.rdata = s.host.rdata ∧ Same [.link, .host, .int] s t := by
  refine .event (State.exec_read h ho hp 61 0 (n + 1) [b]) rfl ?_
  have hplain := State.linkRead_plain (s := s.newFrame) (index := 61#6) rfl (by decide) (n + 1) [b]
  obtain ⟨l, v, hcut, hmask⟩ := State.readReady_conflicts (s := s.newFrame) (index := 61#6) false 1 n [] [] hb
  rw [show BitVec.toNat (0 : BitVec 8) + 1 = 1 from rfl, show (61 : BitVec 6) = 61#6 from rfl, hplain, hcut]
  have hhost : v.host = s.newFrame.host := State.host_of_mask hmask (by decide)
  refine ⟨?_, ?_, ?_, ?_, ?_, ?_, ?_⟩
  · rw [State.arbitrate_link, State.conflict_link]
    rfl
  · rw [State.arbitrate_link, State.conflict_link]
    rfl
  · rw [State.arbitrate_link, State.conflict_link]
  · rw [State.arbitrate_link, State.conflict_link]
  · rw [State.arbitrate_host]
    exact State.conflict_sticky _
  · rw [State.arbitrate_host, State.conflict_rdata]
    rw [State.drive, State.modLink_host, hhost]
    rfl
  · have hmask' := State.mask_mono (qs := [.link, .host, .int]) hmask (by decide)
    simp [Same, State.drive, hmask']

/-! ### Frames that are cut -/

theorem State.discovered_wait (len : Nat) (words : List Word) (s : State) : (s.discovered len words).link.wait = s.link.wait := by
  unfold State.discovered
  split
  · split
    · rfl
    · split <;> rfl
  · rfl

/-- A frame that is cut is over (R513). -/
theorem State.cutFrame_wait (h : LinkHead) (words bus : List Word) (hw : s.link.wait = none) :
    (s.cutFrame h words bus).link.wait = none := by
  unfold State.cutFrame
  dsimp only
  split
  · rfl
  · split
    · exact hw
    · rfl
  · exact (State.discovered_wait ..).trans hw
  · exact hw

theorem State.abort_facts {v : State} (hw : v.link.wait = none) (hp : v.pending = s.pending) :
    (State.arbitrate u v.noteAbort).link.errEvt = true ∧ (State.arbitrate u v.noteAbort).link.lastErr = 3#4 ∧
    (State.arbitrate u v.noteAbort).link.wait = none ∧ (State.arbitrate u v.noteAbort).host.sticky.getLsbD 9 = true ∧
    (State.arbitrate u v.noteAbort).pending = s.pending := by
  refine ⟨by simp, by simp, by simp [hw], ?_, ?_⟩
  · rw [State.arbitrate_host]
    exact v.noteAbort_sticky
  · rw [State.arbitrate_pending]
    exact hp

theorem State.exec_abortHeader (h : s.linkUp = true) (ws bus : List Word) :
    exec (.linkAbort .header ws bus) s = Machine.event true s.newFrame s.newFrame.noteAbort := by
  have hexec : exec (.linkAbort .header ws bus) s = Machine.event s.linkUp s.newFrame s.newFrame.noteAbort := rfl
  rw [hexec, h]

theorem State.exec_abortWaiting (h : s.linkUp = true) (hw : s.link.wait.isSome = true) (ws bus : List Word) :
    exec (.linkAbort .waiting ws bus) s = Machine.event true s s.cutWait.noteAbort := by
  have hexec : exec (.linkAbort .waiting ws bus) s = Machine.event (s.linkUp && s.link.wait.isSome) s s.cutWait.noteAbort := rfl
  rw [hexec, h, hw]
  rfl

theorem State.exec_abortFrame {f : LinkHead} (h : s.linkUp = true) (hf : s.isTarget f = true) (ws bus : List Word) :
    exec (.linkAbort (.frame f) ws bus) s = Machine.event true s.newFrame (s.newFrame.cutFrame f ws bus).noteAbort := by
  have hexec : exec (.linkAbort (.frame f) ws bus) s =
      Machine.event (s.linkUp && s.isTarget f) s.newFrame (s.newFrame.cutFrame f ws bus).noteAbort := rfl
  rw [hexec, h, hf]
  rfl

/-- A frame that acts at its end, cut before it (R513). -/
theorem State.cutFrame_idle {h : LinkHead} {ws : List Word} (bus : List Word)
    (hop : h.op = 0#3 ∨ h.op = 3#3 ∨ h.op = 4#3 ∨ h.op = 6#3 ∨ h.op = 7#3 ∨
      (h.op = 2#3 ∧ (s.own h.addr = false ∨ ws.length ≤ h.count.toNat + 1))) : s.cutFrame h ws bus = s := by
  unfold State.cutFrame
  rcases hop with h0 | h0 | h0 | h0 | h0 | ⟨h0, hshort⟩
  · rw [h0]
    rfl
  · rw [h0]
    rfl
  · rw [h0]
    rfl
  · rw [h0]
    rfl
  · rw [h0]
    rfl
  · rw [h0]
    dsimp only [show (2#3).toNat = 2 from rfl]
    refine if_pos ?_
    rcases hshort with h1 | h1
    · rw [h1]
      rfl
    · rw [decide_eq_true h1, Bool.or_true]

/-- What an abort of a frame that has done nothing leaves. -/
theorem State.abort_counts : (State.arbitrate u s.newFrame.noteAbort).link.aborts = satInc s.link.aborts ∧
    (State.arbitrate u s.newFrame.noteAbort).link.addr = s.link.addr ∧
    (State.arbitrate u s.newFrame.noteAbort).link.posted = s.link.posted ∧
    (State.arbitrate u s.newFrame.noteAbort).link.ldo = [] ∧
    Same [.link, .host, .int] s (State.arbitrate u s.newFrame.noteAbort) := by
  refine ⟨by simp, by simp, by simp, by simp, by simp [Same]⟩

end

/-- Settles O53: each frame is one event on the state of its frame's beginning (`State.newFrame`); what an abort leaves
`State.cutFrame_wait` and `State.cutFrame_idle` say. -/
theorem linkAddressesComplete : Obligations.LinkAddressesComplete := by
  unfold Obligations.LinkAddressesComplete
  refine ⟨fun s len lo hi crc c h ha hcrc hlen => ⟨fun hm => ?discovered, fun hm => ?silent⟩,
    fun s lo hi a crc h hcrc => State.assign_completes h hcrc, fun s h => State.linkRelease_completes h,
    fun s addr b n h ho hp hb => State.readConflict_completes n h ho hp hb, ?abort, ?idle, ?waiting, ?stats, ?header, ?attn⟩
  case discovered =>
    have hdone := State.discover_completes (c := c) h ha hcrc hlen
    rw [hm] at hdone
    exact hdone
  case silent =>
    have hdone := State.discover_completes (c := c) h ha hcrc hlen
    rw [hm] at hdone
    exact hdone
  case abort =>
    intro s c ws bus h hc
    rcases hc with rfl | ⟨rfl, hw⟩ | ⟨f, rfl, hf⟩
    · exact .event (State.exec_abortHeader h ws bus) rfl (State.abort_facts rfl rfl)
    · exact .event (State.exec_abortWaiting h hw ws bus) rfl (State.abort_facts rfl rfl)
    · have hp : (s.newFrame.cutFrame f ws bus).pending = s.pending := State.pending_of_mask (s := s)
        (ps := [.clk, .harrow, .arr, .therm, .aux, .recog, .cap, .scar, .spec, .smc, .buf, .int, .pwr, .host, .link, .mport,
            .mgmt,
          .fresh]) (by simp)
      exact .event (State.exec_abortFrame h hf ws bus) rfl (State.abort_facts (State.cutFrame_wait f ws bus rfl) hp)
  case idle =>
    intro s c ws bus h hc
    rcases hc with rfl | ⟨f, rfl, hf, hop⟩
    · exact .event (State.exec_abortHeader h ws bus) rfl State.abort_counts
    · refine .event (State.exec_abortFrame h hf ws bus) rfl ?_
      rw [State.cutFrame_idle (s := s.newFrame) bus hop]
      exact State.abort_counts
  case waiting =>
    intro s f ws bus h hw
    refine .event (State.exec_abortWaiting h (by rw [hw]; rfl) ws bus) rfl ⟨by simp, ?_, by simp, by simp [Same]⟩
    simp [hw]
  case stats =>
    intro s h
    refine .answer (congrArg (answer s) (State.hostWrite_plain (i := 51) h rfl _)) ?_
    have hreg : s.writeReg 51 (flg true 8) 0#12 = s.modLink fun x => { x with aborts := 0#16 } := by
      have heq : s.writeReg 51 (flg true 8) 0#12 = s.writeLinkStat (flg true 8) := rfl
      rw [heq, State.writeLinkStat, bitAt_flg_self _ _ (by decide)]
      simp [w1c, bitAt_flg]
    rw [show (51 : Fin 64).val = 51 from rfl, hreg]
    exact ⟨by simp, by simp [Same]⟩
  case header =>
    intro s h hl hcrc
    refine .event (ok := s.linkUp && crc8 h != bits h 0 8) (u := s.newFrame) (t := (s.newFrame.linkError 1#4).drive []) rfl ?_
      ⟨by simp, by simp [Same]⟩
    rw [hl, Bool.true_and]
    exact bne_iff_ne.mpr hcrc
  case attn =>
    intro s hdue
    refine .event (ok := s.attnDue) (u := s) (t := s.modLink fun x => { x with attnAt := some s.clk.ht, train := true }) rfl hdue
      ⟨by simp, ?_, by simp [Same]⟩
    have hlk : s.hasLk = true := by
      simp only [State.attnDue, Bool.and_eq_true] at hdue
      exact hdue.1.2
    have hlk' : (State.arbitrate s (s.modLink fun x => { x with attnAt := some s.clk.ht, train := true })).hasLk = true := by
      simpa [State.hasLk] using hlk
    simp [State.attnLow, hlk']

end Sys2Proof.Machine
end

section
/-!
PROOFS. Frames of the link: reads and writes (R515 to R523).
-/

namespace Sys2Proof.Machine

open Sys2Proof

section
variable {s t u : State}

/-! ### Status words -/

theorem bits_flg_below (b : Bool) {k lo n : Nat} (h : lo + n ≤ k) : bits (flg b k) lo n = 0#n := by
  apply BitVec.eq_of_getLsbD_eq
  intro i hi
  rw [getLsbD_bits, bitAt_flg_ne (by omega), Bool.and_false, BitVec.getLsbD_zero]

/-- READY in bits 0 to 7, WOKE in bit 16, ADDR from bit 24 on (R522). -/
theorem State.ready_fields (s : State) (index : BitVec 6) (woke : Bool) : bits (s.ready index woke) 0 8 = 0xA5#8 ∧
    bitAt (s.ready index woke) 16 = woke ∧ bits (s.ready index woke) 24 5 = s.link.addr := by
  refine ⟨?_, ?_, ?_⟩
  · rw [State.ready, State.readyWord, bits_or, bits_or, bits_or, bits_or, bits_or, bits_or, bits_or, bits_or, bits_or,
      bits_flg_below _ (by decide), bits_flg_below _ (by decide), bits_flg_below _ (by decide), bits_flg_below _ (by decide),
      bits_flg_below _ (by decide), bits_flg_below _ (by decide), bits_flg_below _ (by decide),
      bits_fld_apart _ (by decide) (by decide), bits_fld_apart _ (by decide) (by decide)]
    decide
  · rw [State.ready, State.readyWord, bitAt_or, bitAt_or, bitAt_or, bitAt_or, bitAt_or, bitAt_or, bitAt_or, bitAt_or, bitAt_or,
      bitAt_flg_self _ _ (by decide), bitAt_flg_ne (by decide), bitAt_flg_ne (by decide), bitAt_flg_ne (by decide),
      bitAt_flg_ne (by decide), bitAt_flg_ne (by decide), bitAt_flg_ne (by decide), bitAt_fld_out _ (by decide),
      bitAt_fld_out _ (by decide), show bitAt 0xA5#32 16 = false from by decide]
    simp
  · rw [State.ready, State.readyWord, bits_or, bits_or, bits_or, bits_or, bits_or, bits_or, bits_or, bits_or, bits_or,
      bits_flg_apart _ (by decide), bits_flg_apart _ (by decide), bits_flg_apart _ (by decide), bits_flg_apart _ (by decide),
      bits_flg_apart _ (by decide), bits_flg_apart _ (by decide), bits_flg_apart _ (by decide), bits_fld_self _ (by decide),
      bits_fld_apart _ (by decide) (by decide), show bits 0xA5#32 24 5 = 0#5 from by decide]
    simp

theorem State.ready_unwoken (s : State) (index : BitVec 6) : s.ready index false = s.readyWord index := by
  have hflg : flg false 16 = 0#32 := rfl
  rw [State.ready, hflg, BitVec.or_zero]

theorem conflicts_self (w : Word) : conflicts w w = false := by simp [conflicts]

/-- A status word that meets the level the module drives (R523). -/
theorem sendStatus_one (n : Nat) (w : Word) : sendStatus (n + 1) [w] [] = ([w], true) := by
  have hnext : sendStatus n [] [] = ([], true) := by cases n <;> rfl
  unfold sendStatus
  dsimp only [List.headD_nil, List.tail_nil]
  rw [conflicts_self, hnext]
  rfl

theorem State.sendAfter_one (before : List Word) (n : Nat) (w : Word) (s : State) :
    s.sendAfter before (n + 1) [w] [] = s.drive (before ++ [w]) := by
  rw [State.sendAfter, sendStatus_one]
  rfl

theorem State.sendAfter_zero (before l bus : List Word) (s : State) : s.sendAfter before 0 l bus = s.drive before := by
  have hsend : sendStatus 0 l bus = ([], true) := rfl
  rw [State.sendAfter, hsend]
  dsimp only
  rw [List.append_nil]
  rfl

/-- A response of READY, one data word and its CRC word (R517). -/
theorem State.readReady_one {index : BitVec 6} {flies woke : Bool} {w : Word} {v : State} (before : List Word)
    (hread : (s.modInt fun c => { c with gone0 := none, gone1 := none }).readAs
      ((s.modInt fun c => { c with gone0 := none, gone1 := none }).resolveAs flies index.toNat) index.toNat true = (w, v)) :
    s.readReady flies woke before 0 index 1 3 [] = v.drive
      (before ++ [(s.modInt fun c => { c with gone0 := none, gone1 := none }).ready index woke, w, fld (crc16 [w]) 0]) := by
  have hindex : blockIndex readFixed index 0 = index.toNat := by
    rw [blockIndex]
    split
    · rfl
    · have hlt := index.isLt
      omega
  rw [State.readReady]
  dsimp only [List.replicate_zero, List.nil_append]
  simp only [sendStatus_one]
  have hblock : State.readBlock flies index true 0 1 (s.modInt fun c => { c with gone0 := none, gone1 := none }) = ([w], v) := by
    unfold State.readBlock
    dsimp only
    rw [hindex, if_pos index.isLt, hread]
    rfl
  simp only [Bool.not_true, Bool.false_eq_true, if_false, List.length_singleton, decide_true,
    show min 1 (3 - 1) = 1 from rfl, hblock, show 1 < 3 - 1 from by decide, if_true, List.append_assoc,
    List.cons_append, List.nil_append]

/-! ### Writes -/

theorem State.exec_write {addr : BitVec 5} (h : s.linkUp = true) (hn : s.named addr = true) (hp : s.link.posted = none)
    (index : BitVec 6) (count : BitVec 8) (words : List Word) :
    exec (.write addr index count words) s =
      Machine.event true s.newFrame (s.newFrame.linkWrite (s.own addr) index (count.toNat + 1) words) := by
  have hexec : exec (.write addr index count words) s = Machine.event
      (s.linkUp && s.named addr && s.link.posted.isNone) s.newFrame
      (s.newFrame.linkWrite (s.own addr) index (count.toNat + 1) words) := rfl
  rw [hexec, h, hn, hp]
  rfl

theorem State.writeStatus_none (own : Bool) (l : List Word) (s : State) : s.writeStatus own 0 l [] = s.drive [] := by
  unfold State.writeStatus
  split
  · exact State.sendAfter_zero ..
  · rfl

theorem State.writeNeeds_one {index : BitVec 6} (hi : blockIndex writeFixed index 0 = index.toNat) (flies : Bool) (w : Word)
    (s : State) : State.writeNeeds flies index 0 [w] s = (s.needs flies index.toNat).toList := by
  unfold State.writeNeeds
  dsimp only
  rw [hi, if_pos index.isLt]
  exact List.append_nil _

theorem State.linkWrite_fails {w crc : Word} (hcrc : crcOk [w] crc = false) (own : Bool) (index : BitVec 6) :
    s.linkWrite own index 1 [w, crc] = (s.linkError 2#4).drive [] := by
  unfold State.linkWrite
  dsimp only [List.take, List.drop, List.length_cons, List.length_nil]
  rw [if_neg (by simp)]
  have hget : [w, crc].getD 1 0#32 = crc := rfl
  rw [hget, hcrc, Bool.not_false, if_pos rfl]
  exact State.writeStatus_none ..

theorem State.linkWrite_applies {w crc : Word} {index : BitVec 6} (hcrc : crcOk [w] crc = true)
    (hi : blockIndex writeFixed index 0 = index.toNat) (hneeds : s.needs false index.toNat = none) (own : Bool) :
    s.linkWrite own index 1 [w, crc] = (s.applyWord false index 0 w).drive [] := by
  have hnone : State.writeNeeds false index 0 [w] s = [] := by rw [State.writeNeeds_one hi, hneeds]; rfl
  unfold State.linkWrite
  dsimp only [List.take, List.drop, List.length_cons, List.length_nil]
  rw [if_neg (by simp)]
  have hget : [w, crc].getD 1 0#32 = crc := rfl
  rw [hget, hcrc, hnone]
  exact State.writeStatus_none ..

/-- A word that needs a resting domain: the write is posted and the domain is demanded (R518, R520). -/
theorem State.linkWrite_posts {w crc : Word} {index : BitVec 6} {d : Dom} (hcrc : crcOk [w] crc = true)
    (hi : blockIndex writeFixed index 0 = index.toNat) (hneeds : s.needs false index.toNat = some (d, false)) (own : Bool) :
    (s.linkWrite own index 1 [w, crc]).link.posted = some ⟨index, [w], [d], s.wakes [(d, false)]⟩ ∧
    (s.linkWrite own index 1 [w, crc]).pwr = (s.demand d).pwr ∧
    (s.linkWrite own index 1 [w, crc]).mask [.pwr, .link] = s.mask [.pwr, .link] := by
  have hsome : State.writeNeeds false index 0 [w] s = [(d, false)] := by rw [State.writeNeeds_one hi, hneeds]; rfl
  have heq : s.linkWrite own index 1 [w, crc] =
      (if own then ((((s.demand d).modLink fun x => { x with posted := some ⟨index, [w], [d], s.wakes [(d, false)]⟩ }).drive
          []).modLink fun x => { x with wait := some ⟨true, index, 1, 0 - 1, [], [d], s.wakes [(d, false)]⟩ })
      else ((s.demand d).modLink fun x => { x with posted := some ⟨index, [w], [d], s.wakes [(d, false)]⟩ }).drive []) := by
    unfold State.linkWrite
    dsimp only [List.take, List.drop, List.length_cons, List.length_nil]
    rw [if_neg (by simp)]
    have hget : [w, crc].getD 1 0#32 = crc := rfl
    rw [hget, hcrc, hsome]
    rfl
  rw [heq]
  cases own
  · exact ⟨rfl, rfl, by simp [State.drive]⟩
  · exact ⟨rfl, rfl, by simp [State.drive]⟩

/-! ### What a register in a domain needs -/

section
variable {i k : Nat} {d : Dom}

/-- A register of a resting domain, with its clock (R428, R518). -/
theorem State.needs_resting (hd : s.regDom i = some d) (hw : i ≠ winData) (h27 : i = 27 → s.level ≠ 0) (hg : regGate i = some k)
    (hk : s.clken k = true) (hst : (s.dom d).st = .retain) : s.needs false i = some (d, false) := by
  have hgated : s.regGated i = false := by
    rw [State.regGated, if_neg hw, hg]
    dsimp only
    rw [hk]
    rfl
  have hoff : s.isOn d = false := by rw [State.isOn, hst]; rfl
  have hres : s.resolveAs false i = .resting d := by
    rw [State.resolveAs, if_neg Bool.false_ne_true, State.resolve, hgated, if_neg Bool.false_ne_true, State.resolveOpen,
      if_neg (fun h => hw h.1), if_neg (fun h => hw h.1), if_neg (fun h => h27 h.1 h.2), hd]
    dsimp only
    rw [hoff, hst]
    rfl
  rw [State.needs, hres]

theorem State.resolveAs_executed (h : s.resolve i = .executed) (flies : Bool) : s.resolveAs flies i = .executed := by
  have hopen : s.resolveOpen i = .executed := by
    rw [State.resolve] at h
    split at h
    · cases h
    · exact h
  rw [State.resolveAs, State.resolveStalled, h, hopen, ite_self, ite_self]

theorem State.needs_executed (h : s.resolve i = .executed) (flies : Bool) : s.needs flies i = none := by
  rw [State.needs, State.resolveAs_executed h]

theorem State.wakes_resting (hst : (s.dom d).st = .retain) : s.wakes [(d, false)] = true := by
  have hstarts : s.demandStarts d = true := by rw [State.demandStarts, hst]
  rw [State.wakes, List.any_cons, hstarts, Bool.true_or, Bool.true_or]

theorem State.demand_resting (hst : (s.dom d).st = .retain) : s.demand d = s.modDom d fun x => { x with demandDue := true } := by
  rw [State.demand, hst]

end

/-! ### The frames of SCRATCH, and the write that is posted -/

theorem State.readScratch_completes {addr : BitVec 5} (h : s.linkUp = true) (ho : s.own addr = true)
    (hp : s.link.posted = none) : Completes (.read addr 61 0 3 []) s fun t =>
      t.link = { s.link with ldo := [s.readyWord 61, s.host.scratch, fld (crc16 [s.host.scratch]) 0], wait := none } ∧
      Same [.link, .int] s t := by
  have hres : ∀ v : State, v.resolveAs false 61 = .executed := fun v => State.resolveAs_executed rfl false
  have hread : (s.newFrame.modInt fun c => { c with gone0 := none, gone1 := none }).readAs
      ((s.newFrame.modInt fun c => { c with gone0 := none, gone1 := none }).resolveAs false (61#6).toNat) (61#6).toNat true =
      (s.host.scratch, s.newFrame.modInt fun c => { c with gone0 := none, gone1 := none }) := by
    rw [show (61#6).toNat = 61 from rfl, hres]
    rfl
  have hready : (s.newFrame.modInt fun c => { c with gone0 := none, gone1 := none }).ready 61#6 false = s.readyWord 61 :=
    (State.ready_unwoken ..).trans rfl
  have hdone := State.readReady_one (s := s.newFrame) (index := 61#6) (flies := false) (woke := false) [] hread
  rw [hready, List.nil_append] at hdone
  have hplain := State.linkRead_plain (s := s.newFrame) (index := 61#6) rfl (by decide) 3 []
  refine .event (State.exec_read h ho hp 61 0 3 []) rfl ?_
  rw [show BitVec.toNat (0 : BitVec 8) + 1 = 1 from rfl, show (61 : BitVec 6) = 61#6 from rfl, hplain, hdone]
  exact ⟨by simp, by simp [Same, State.drive]⟩

theorem State.readWaits_completes {addr : BitVec 5} (n : Nat) (h : s.linkUp = true) (ho : s.own addr = true)
    (hp : s.link.posted = none) (hclk : s.clken 6 = true) (hlevel : 0 < s.level) (hst : (s.dom .sb).st = .retain) :
    Completes (.read addr 27 0 (n + 1) []) s fun t =>
      (t.dom .sb).demandDue = true ∧ t.buf = s.buf ∧
      t.link = { s.link with ldo := [busyWord], wait := some ⟨false, 27, 1, n, [], [.sb], true⟩ } ∧
      Same [.pwr, .link, .int] s t := by
  have hneed : s.newFrame.needs false 27 = some (.sb, false) :=
    State.needs_resting (d := .sb) (k := 6) rfl (by decide) (fun _ => hlevel.ne') rfl hclk hst
  have hblock : s.newFrame.blockNeeds false 27#6 1 = [(.sb, false)] := by
    rw [State.blockNeeds_one, show (27#6).toNat = 27 from rfl, hneed]
    rfl
  have hwake : s.newFrame.wakes [(.sb, false)] = true := State.wakes_resting (s := s.newFrame) hst
  have hdemand : s.newFrame.wakeAll [(.sb, false)] = s.newFrame.modDom .sb fun x => { x with demandDue := true } :=
    State.demand_resting (s := s.newFrame) hst
  have hdone : s.newFrame.linkRead 27#6 1 (n + 1) [] =
      ((s.newFrame.modDom .sb fun x => { x with demandDue := true }).drive [busyWord]).modLink fun x =>
        { x with wait := some ⟨false, 27#6, 1, n, [], [.sb], true⟩ } := by
    unfold State.linkRead
    dsimp only
    rw [hblock]
    dsimp only [List.find?, List.isEmpty, Bool.not_false]
    rw [sendStatus_one, hwake, hdemand]
    rfl
  refine .event (State.exec_read h ho hp 27 0 (n + 1) []) rfl ?_
  rw [show BitVec.toNat (0 : BitVec 8) + 1 = 1 from rfl, show (27 : BitVec 6) = 27#6 from rfl, hdone]
  refine ⟨?_, by rw [State.arbitrate_buf]; rfl, by simp, by simp [Same, State.drive]⟩
  have hself := State.dom_modDom_self .sb (fun x => { x with demandDue := true }) s.newFrame
  rw [arbitrate_dom]
  exact congrArg Domain.demandDue hself

theorem State.writeFrames_complete {addr : BitVec 5} {w crc : Word} (h : s.linkUp = true) (hn : s.named addr = true)
    (hp : s.link.posted = none) :
    (crcOk [w] crc = true → Completes (.write addr 61 0 [w, crc]) s fun t =>
      t.host = { s.host with scratch := w } ∧ Same [.host, .link, .int] s t) ∧
    (crcOk [w] crc = false → Completes (.write addr 61 0 [w, crc]) s fun t =>
      t.link.lastErr = 2#4 ∧ t.link.errEvt = true ∧ t.link.addr = s.link.addr ∧ Same [.link, .int] s t) ∧
    (crcOk [w] crc = true → s.clken 5 = true → (s.dom .sp).st = .retain → Completes (.write addr 38 0 [w, crc]) s fun t =>
      (t.dom .sp).demandDue = true ∧ t.link.posted = some ⟨38, [w], [.sp], true⟩ ∧ t.spec = s.spec ∧
      Same [.pwr, .link, .int] s t) := by
  refine ⟨fun hcrc => ?_, fun hcrc => ?_, fun hcrc hclk hst => ?_⟩
  · refine .event (State.exec_write h hn hp 61 0 [w, crc]) rfl ?_
    have hdone := State.linkWrite_applies (s := s.newFrame) (index := 61#6) hcrc rfl
      (State.needs_plain (s := s.newFrame) (i := 61) rfl (by decide) false) (s.own addr)
    have happly : s.newFrame.applyWord false 61#6 0 w = s.newFrame.modHost fun x => { x with scratch := w } := by
      have hres : s.newFrame.resolveAs false 61 = .executed := State.resolveAs_executed rfl false
      have heq : s.newFrame.applyWord false 61#6 0 w = s.newFrame.writeAs (s.newFrame.resolveAs false 61) 61 w 0#12 := rfl
      rw [heq, hres]
      rfl
    rw [show BitVec.toNat (0 : BitVec 8) + 1 = 1 from rfl, show (61 : BitVec 6) = 61#6 from rfl, hdone, happly]
    exact ⟨by rw [State.arbitrate_host]; rfl, by simp [Same, State.drive]⟩
  · refine .event (State.exec_write h hn hp 61 0 [w, crc]) rfl ?_
    have hdone := State.linkWrite_fails (s := s.newFrame) hcrc (s.own addr) 61#6
    rw [show BitVec.toNat (0 : BitVec 8) + 1 = 1 from rfl, show (61 : BitVec 6) = 61#6 from rfl, hdone]
    exact ⟨by simp, by simp, by simp, by simp [Same, State.drive]⟩
  · refine .event (State.exec_write h hn hp 38 0 [w, crc]) rfl ?_
    have hneed : s.newFrame.needs false 38 = some (.sp, false) :=
      State.needs_resting (d := .sp) (k := 5) rfl (by decide) (fun h => absurd h (by decide)) rfl hclk hst
    obtain ⟨hposted, hpwr, hmask⟩ := State.linkWrite_posts (s := s.newFrame) (index := 38#6) hcrc rfl hneed (s.own addr)
    have hwake : s.newFrame.wakes [(.sp, false)] = true := State.wakes_resting (s := s.newFrame) hst
    have hdemand : s.newFrame.demand .sp = s.newFrame.modDom .sp fun x => { x with demandDue := true } :=
      State.demand_resting (s := s.newFrame) hst
    rw [show BitVec.toNat (0 : BitVec 8) + 1 = 1 from rfl, show (38 : BitVec 6) = 38#6 from rfl]
    generalize s.newFrame.linkWrite (s.own addr) 38#6 1 [w, crc] = v at hposted hpwr hmask ⊢
    refine ⟨?_, ?_, ?_, ?_⟩
    · rw [arbitrate_dom, State.dom, hpwr, hdemand]
      exact congrArg Domain.demandDue (State.dom_modDom_self ..)
    · rw [State.arbitrate_link, hposted, hwake]
    · rw [State.arbitrate_spec]
      exact State.spec_of_mask hmask (by decide)
    · have hmask' := State.mask_mono (qs := [.pwr, .link, .int]) hmask (by decide)
      simp [Same, hmask']

end
end Sys2Proof.Machine
end

section
/-!
PROOFS. Frames of the link that wait: a read that goes on with the wake, a posted write (R518, R520).
-/

namespace Sys2Proof.Machine

open Sys2Proof

section
variable {s t u : State}

/-! ### The link's clock -/

theorem State.linkUp_of_closing {c : Vector (Option Tick) 12}
    (h : t.clk = { s.clk with closing := c }) : t.linkUp = s.linkUp := by
  rw [State.linkUp, State.linkUp, State.hasLk, State.hasLk, h]

theorem State.endFlight_clk (gates : List Nat) (s : State) : ∃ c,
    (s.endFlight gates).clk = { s.clk with closing := c } := ⟨_, rfl⟩

@[simp] theorem State.endFlight_link (gates : List Nat) (s : State) : (s.endFlight gates).link = s.link := rfl

@[simp] theorem State.endFlight_buf (gates : List Nat) (s : State) : (s.endFlight gates).buf = s.buf := rfl

@[simp] theorem State.endFlight_spec (gates : List Nat) (s : State) : (s.endFlight gates).spec = s.spec := rfl

theorem State.hasLk_of_linkUp (h : s.linkUp = true) : s.hasLk = true := by
  simp only [State.linkUp, Bool.and_eq_true] at h
  exact h.1.1

/-- The spills that wait move the gates in flight and the management part (R90, R437). -/
theorem State.spillEnds_clk (h : s.mgmt.req = none) : ∃ c, s.spillEnds.clk = { s.clk with closing := c } := by
  have hspill : s.spilling = none := by rw [State.spilling, State.inHand, h]; rfl
  unfold State.spillEnds
  dsimp only
  rw [hspill]
  split
  · exact ⟨_, rfl⟩
  · split
    · next k _ =>
      have herr : ∀ a (v : State), (v.coreError a).clk = v.clk := fun a v =>
        State.clk_of_mask (ps := [.mgmt]) (by simp) (by decide)
      obtain ⟨c, hc⟩ := State.endFlight_clk dirGates ((s.coreError (dirAddr k)).modMgmt fun m => { m with autoWait := none })
      refine ⟨c, hc.trans ?_⟩
      rw [State.modMgmt_clk, herr]
    · exact ⟨_, rfl⟩

/-! ### A read that waits -/

/-- The read of BUF_DATA that a frame waits for, once SB is On: READY, the oldest word and its CRC word (R376, R518). -/
theorem State.endWait_bufData {w : BufWord} {ws : List BufWord} {k : Bool} (hup : s.linkUp = true)
    (ha : s.link.assigned = true) (hclk : s.clken 6 = true) (hst : (s.dom .sb).st = .on)
    (hwait : s.link.wait = some ⟨false, 27, 1, 3, [], [.sb], k⟩) (hw : s.buf.words = w :: ws) :
    ∃ r, bits r 0 8 = 0xA5#8 ∧ bitAt r 16 = k ∧ bits r 24 5 = s.link.addr ∧
      s.endWait.link = { s.link with wait := none, ldo := s.link.ldo ++ [r, w.data, fld (crc16 [w.data]) 0] } ∧
      s.endWait.buf = { s.buf with words := ws, rp := s.buf.rp + 1#22, last := w } ∧ (s.endWait.dom .sb).st = .on ∧
      s.endWait.mgmt = s.mgmt := by
  have hon : s.isOn .sb = true := by rw [State.isOn, hst]; rfl
  obtain ⟨u, hu, hulink, hubuf, hudom, humgmt, huclk, huon⟩ : ∃ u,
      (s.modLink fun x => { x with wait := none }).modInt (fun c => { c with gone0 := none, gone1 := none }) = u ∧
      u.link = { s.link with wait := none } ∧ u.buf = s.buf ∧ u.dom .sb = s.dom .sb ∧ u.mgmt = s.mgmt ∧
      u.clken 6 = s.clken 6 ∧ u.isOn .sb = s.isOn .sb := ⟨_, rfl, rfl, rfl, rfl, rfl, rfl, rfl⟩
  have hread : u.readAs (u.resolveAs true (27#6).toNat) (27#6).toNat true =
      (w.data, (u.touch .sb).modBuf fun b => { b with words := ws, rp := b.rp + 1#22, last := w }) := by
    rw [show (27#6).toNat = 27 from rfl, State.resolveAs, if_pos rfl,
      State.resolveStalled_bufData (huclk.trans hclk) (huon.trans hon) (by rw [hubuf]; exact hw)]
    exact State.popWord_cons (s := u.touch .sb) (by rw [State.touch_buf, hubuf]; exact hw)
  obtain ⟨h1, h2, h3⟩ := u.ready_fields 27#6 k
  have hone := State.readReady_one (s := s.modLink fun x => { x with wait := none }) (index := 27#6) (flies := true) (woke := k)
    (w := w.data) (v := (u.touch .sb).modBuf fun b => { b with words := ws, rp := b.rp + 1#22, last := w }) s.link.ldo
    (by rw [hu, hread])
  rw [hu] at hone
  have hfind : ([Dom.sb].find? fun d => (s.dom d).st == .failed) = none := by simp [hst]
  have hall : ([Dom.sb].all fun d => s.isOn d) = true := by simp [hon]
  have hend : s.endWait = ((s.modLink fun x => { x with wait := none }).readReady true k s.link.ldo 0 27#6 1 3 []).endFlight
      (s.blockGates readFixed 27 1) := by
    unfold State.endWait
    rw [hwait]
    dsimp only
    rw [hup, ha, Bool.false_or, if_neg (by decide), hfind, hall]
    dsimp only
    rw [if_pos rfl]
    rfl
  have hdom : ((u.touch .sb).dom .sb).st = .on := by simp [State.touch, hudom, hst]
  rw [hend, hone]
  refine ⟨u.ready 27#6 k, h1, h2, h3.trans (by rw [hulink]), ?_, ?_, hdom, humgmt⟩
  · rw [State.endFlight_link, State.drive_link, State.modBuf_link, State.touch_link, hulink]
  · rw [State.endFlight_buf, State.drive, State.modLink_buf, State.modBuf_buf, State.touch_buf, hubuf]

theorem State.wakeRead_completes {w : BufWord} {ws : List BufWord} {k : Bool} (hst : (s.dom .sb).st = .waking)
    (htarget : (s.dom .sb).target = .on) (hup : s.linkUp = true) (ha : s.link.assigned = true) (hover : s.wakeOver .sb = false)
    (hstall : s.host.stall = none) (hrestore : s.mgmt.restore = []) (hclk : s.clken 6 = true)
    (hwait : s.link.wait = some ⟨false, 27, 1, 3, [], [.sb], k⟩) (hw : s.buf.words = w :: ws) :
    Completes (.wakeReady .sb) s fun t =>
      t.buf.words = ws ∧ t.buf.rp = s.buf.rp + 1#22 ∧ t.buf.last = w ∧ t.link.wait = none ∧
      ∃ r : Word, bits r 0 8 = 0xA5#8 ∧ bitAt r 16 = k ∧ bits r 24 5 = s.link.addr ∧
        t.link.ldo = s.link.ldo ++ [r, w.data, fld (crc16 [w.data]) 0] := by
  refine ⟨_, exec_wakeReady (d := .sb) hst rfl (State.hasLk_of_linkUp hup) hover, ?_⟩
  rw [if_neg (by rw [htarget]; decide)]
  have hbecomes : s.becomesOn .sb =
      (((((s.modDom .sb fun x => { x with st := .on, touched := true }).endStalled .sb).endWait).takeUp
        .sb).mapDemand.restoreOn.stageOn.deliver) := rfl
  have hstalled : (s.modDom .sb fun x => { x with st := .on, touched := true }).endStalled .sb =
      s.modDom .sb fun x => { x with st := .on, touched := true } :=
    State.endStalled_of_none (s := s.modDom .sb fun x => { x with st := .on, touched := true }) hstall _
  rw [hbecomes, hstalled]
  obtain ⟨r, h1, h2, h3, hlink, hbuf, hst', hmgmt⟩ :=
    State.endWait_bufData (s := s.modDom .sb fun x => { x with st := .on, touched := true }) hup ha hclk (by simp) hwait hw
  generalize (s.modDom .sb fun x => { x with st := .on, touched := true }).endWait = v at hlink hbuf hst' hmgmt ⊢
  have hwait' : v.link.wait = none := by rw [hlink]
  have hrest := State.afterRead_facts hst' hwait' (by rw [hmgmt]; exact hrestore)
  rw [State.endWait_of_none hwait'] at hrest
  simp only [State.arbitrate_link, State.arbitrate_buf]
  rw [State.link_of_mask hrest (by decide), State.buf_of_mask hrest (by decide), hlink, hbuf]
  exact ⟨rfl, rfl, rfl, rfl, r, h1, h2, h3, rfl⟩

/-! ### A read whose domain fails -/

theorem State.fail_sb_mask (s : State) : (s.fail .sb).mask [.buf, .pwr, .host, .mgmt] = s.mask [.buf, .pwr, .host, .mgmt] := by
  rw [State.fail, if_neg (by decide), State.failOne_eq, State.mask_log (by decide), State.mask_endStall (by decide)]
  simp [State.lost, State.loses]

theorem State.fail_sb_noLog (s : State) : (s.fail .sb).mgmt.noLog = s.mgmt.noLog := by
  rw [State.fail, if_neg (by decide), State.failOne_eq, State.noLog_log, State.mgmt_of_mask (s.mask_endStall_lost .sb)
      (by decide)]
  rfl

theorem State.wakeRead_fails {n : Nat} {k : Bool} (hst : (s.dom .sb).st = .waking) (hup : s.linkUp = true)
    (ha : s.link.assigned = true) (hover : s.wakeOver .sb = true) (hrestore : s.mgmt.restore = []) (hreq : s.mgmt.req = none)
    (hwait : s.link.wait = some ⟨false, 27, 1, n + 1, [], [.sb], k⟩) : Completes (.wakeTimeout .sb) s fun t =>
      (t.dom .sb).st = .failed ∧
      t.link = { s.link with wait := none, ldo := s.link.ldo ++ [s.failWord 27 1#4 (failDomain .sb)] } := by
  have hexec : exec (.wakeTimeout .sb) s = Machine.event
      ((s.dom .sb).st == .waking && !s.waitsMap .sb && s.hasLk && s.wakeOver .sb) s
      (s.fail .sb).restoreOn.stageOn.spillEnds.endWait := rfl
  have hmap : s.waitsMap .sb = false := rfl
  refine .event hexec (by rw [hst, hmap, State.hasLk_of_linkUp hup, hover]; rfl) ?_
  have hlog := s.fail_sb_noLog
  have hmask := s.fail_sb_mask
  have hfailed : ((s.fail .sb).dom .sb).st = .failed := by
    rw [State.fail, if_neg (by decide), State.dom_failOne, if_pos rfl]
  rw [State.restoreOn_of_nil ((congrArg Mgmt.restore hlog :).trans hrestore),
    State.stageOn_of_none ((congrArg Mgmt.req hlog :).trans hreq)]
  obtain ⟨c, hc⟩ := State.spillEnds_clk (s := s.fail .sb) ((congrArg Mgmt.req hlog :).trans hreq)
  have hspills : (s.fail .sb).spillEnds.mask [.clk, .mgmt] = (s.fail .sb).mask [.clk, .mgmt] := by simp
  have hlink := (State.link_of_mask hspills (by decide)).trans (State.link_of_mask hmask (by decide))
  have hdom : ((s.fail .sb).spillEnds.dom .sb).st = .failed := by
    rw [State.dom, State.pwr_of_mask hspills (by decide)]
    exact hfailed
  have hup' : (s.fail .sb).spillEnds.linkUp = true :=
    (State.linkUp_of_closing (hc.trans (by rw [State.clk_of_mask hmask (by decide)]))).trans hup
  generalize (s.fail .sb).spillEnds = v at hlink hdom hup' ⊢
  have hend : ∃ gates, v.endWait = (State.drive (s.link.ldo ++ [s.failWord 27 1#4 (failDomain .sb)])
      (v.modLink fun x => { x with wait := none })).endFlight gates := by
    have hword : v.failWord 27 1#4 (failDomain .sb) = s.failWord 27 1#4 (failDomain .sb) := by
      rw [State.failWord, State.failWord, hlink]
    have hfind : ([Dom.sb].find? fun d => (v.dom d).st == .failed) = some .sb := by simp [hdom]
    refine ⟨v.blockGates readFixed 27 1, ?_⟩
    unfold State.endWait
    rw [hlink, hwait]
    dsimp only
    rw [hup', ha, Bool.false_or, if_neg (by decide), hfind]
    dsimp only
    rw [hword, State.sendAfter_one]
  obtain ⟨gates, hend⟩ := hend
  rw [hend]
  refine ⟨?_, ?_⟩
  · rw [arbitrate_dom]
    exact hdom
  · rw [State.arbitrate_link, State.endFlight_link, State.drive_link, State.modLink_link, hlink]

/-! ### A posted write -/

/-- The write of SPEC_STAT that a posted frame carries (R520). -/
theorem State.applyWord_specStat (h : s.resolve 38 = .executed) (w : Word) :
    s.applyWord true 38 0 w = (s.touch .sp).writeSpecStat w := by
  have hres := State.resolveAs_executed h true
  have heq : s.applyWord true 38 0 w = s.writeAs (s.resolveAs true 38) 38 w 0#12 := rfl
  rw [heq, hres]
  rfl

theorem State.exec_posted {p : Posted} (hp : s.link.posted = some p) (hlk : s.hasLk = true)
    (hd : (p.doms.all fun d => s.isOn d) = true ∨ (p.doms.any fun d => (s.dom d).st == .failed) = true) :
    exec .postedWriteCommit s = Machine.event true s (s.endPosted p) := by
  have hexec : exec .postedWriteCommit s = Machine.event
      (s.hasLk && ((p.doms.all fun d => s.isOn d) || (p.doms.any fun d => (s.dom d).st == .failed))) s (s.endPosted p) := by
    simp only [exec, execPostedWriteCommit, hp]
  have hor : ((p.doms.all fun d => s.isOn d) || (p.doms.any fun d => (s.dom d).st == .failed)) = true := by
    rcases hd with h | h
    · rw [h, Bool.true_or]
    · rw [h, Bool.or_true]
  rw [hexec, hlk, hor]
  rfl

/-- A posted write of SPEC_STAT whose domain is On is applied, with READY where the host still clocks (R520). -/
theorem State.endPosted_applies {p : Posted} {w : Word} (hon : ∀ d ∈ p.doms, s.isOn d = true) (hi : p.index = 38)
    (hw : p.words = [w]) (hres : s.resolve 38 = .executed) : ∃ gates,
    s.endPosted p = ((((s.modLink fun x => { x with posted := none, wait := none }).touch .sp).writeSpecStat w).endStatus s.link.wait
      s.link.ldo ((((s.modLink fun x => { x with posted := none, wait := none }).touch .sp).writeSpecStat w).ready 38 p.woke)).endFlight
      gates := by
  obtain ⟨index, words, doms, woke⟩ := p
  dsimp only at hon hi hw ⊢
  subst hi hw
  have hfind : (doms.find? fun d => (s.dom d).st == .failed) = none := by
    refine List.find?_eq_none.mpr fun d hd => ?_
    have hd' := hon d hd
    rw [State.isOn] at hd'
    intro hf
    rw [eq_of_beq hf] at hd'
    exact absurd hd' (by decide)
  have hneeds : State.writeNeeds true 38 0 [w] s = [] := by
    have hone := State.writeNeeds_one (index := 38#6) rfl true w s
    have hnone : s.needs true 38 = none := State.needs_executed hres true
    rw [show (38#6).toNat = 38 from rfl, hnone] at hone
    exact hone
  have happly : State.applyWords true 38 0 [w] (s.modLink fun x => { x with posted := none, wait := none }) =
      ((s.modLink fun x => { x with posted := none, wait := none }).touch .sp).writeSpecStat w :=
    State.applyWord_specStat (s := s.modLink fun x => { x with posted := none, wait := none }) hres w
  refine ⟨s.blockGates writeFixed 38 1, ?_⟩
  unfold State.endPosted
  dsimp only
  rw [hfind, hneeds]
  dsimp only [List.isEmpty]
  rw [if_pos rfl, happly]
  rfl

/-- A posted write one of whose domains is FAILED is dropped, with FAIL where the host still clocks (R520). -/
theorem State.endPosted_drops {p : Posted} (hd : ∃ d ∈ p.doms, (s.dom d).st = .failed) : ∃ d gates, d ∈ p.doms ∧
    s.endPosted p = ((s.modLink fun x => { x with posted := none, wait := none }).endStatus s.link.wait s.link.ldo
      (s.failWord p.index 1#4 (failDomain d))).endFlight gates := by
  obtain ⟨d, hmem, hst⟩ := hd
  cases hfind : p.doms.find? fun d => (s.dom d).st == .failed with
  | none => exact absurd (List.find?_eq_none.mp hfind d hmem) (by rw [hst]; decide)
  | some e =>
    refine ⟨e, s.blockGates writeFixed p.index p.words.length, List.mem_of_find?_eq_some hfind, ?_⟩
    unfold State.endPosted
    dsimp only
    rw [hfind]

theorem State.writeSpecStat_spec (w : Word) (s : State) : (s.writeSpecStat w).spec.doneEvt = (s.spec.doneEvt && !bitAt w 2) ∧
    (s.writeSpecStat w).spec.abortEvt = (s.spec.abortEvt && !bitAt w 3) ∧ (s.writeSpecStat w).mask [.spec] = s.mask [.spec] :=
  ⟨rfl, rfl, by simp [State.writeSpecStat]⟩

theorem State.endStatus_none (before : List Word) (w : Word) (s : State) : s.endStatus none before w = s := rfl

/-- The status word of a frame whose status phase the host still clocks. -/
theorem State.endStatus_one {index : BitVec 6} {count n : Nat} {doms : List Dom} {k : Bool} (hup : s.linkUp = true)
    (ha : s.link.assigned = true) (before : List Word) (w : Word) :
    s.endStatus (some ⟨true, index, count, n + 1, [], doms, k⟩) before w = s.drive (before ++ [w]) := by
  unfold State.endStatus
  dsimp only
  rw [hup, ha, if_pos (by decide), State.sendAfter_one]

theorem all_isOn {l : List Dom} (h : ∀ d ∈ l, s.isOn d = true) : (l.all fun d => s.isOn d) = true := List.all_eq_true.mpr h

theorem any_failed {l : List Dom} (h : ∃ d ∈ l, (s.dom d).st = .failed) : (l.any fun d => (s.dom d).st == .failed) = true := by
  obtain ⟨d, hmem, hst⟩ := h
  exact List.any_eq_true.mpr ⟨d, hmem, by rw [hst]; rfl⟩

theorem State.posted_commits {p : Posted} (hp : s.link.posted = some p) (hlk : s.hasLk = true) (hwait : s.link.wait = none) :
    ((∀ d ∈ p.doms, s.isOn d = true) → p.index = 38 → (∃ w, p.words = [w]) → s.Reaches 38 →
        Completes .postedWriteCommit s fun t =>
      t.link.posted = none ∧ (∀ w, p.words = [w] → t.spec.doneEvt = (s.spec.doneEvt && !bitAt w 2) ∧
        t.spec.abortEvt = (s.spec.abortEvt && !bitAt w 3)) ∧ t.clk = { s.clk with closing := t.clk.closing } ∧
      Same [.clk, .spec, .pwr, .link, .int] s t) ∧
    ((∃ d ∈ p.doms, (s.dom d).st = .failed) → Completes .postedWriteCommit s fun t =>
      t.link = { s.link with posted := none } ∧ t.clk = { s.clk with closing := t.clk.closing } ∧
      Same [.clk, .link, .int] s t) := by
  refine ⟨fun hon hi hw hr => ?_, fun hd => ?_⟩
  · obtain ⟨w, hw⟩ := hw
    refine .event (State.exec_posted hp hlk (.inl (all_isOn hon))) rfl ?_
    obtain ⟨gates, hend⟩ := State.endPosted_applies hon hi hw hr.2
    rw [hwait, State.endStatus_none] at hend
    have hstat := State.writeSpecStat_spec w ((s.modLink fun x => { x with posted := none, wait := none }).touch .sp)
    obtain ⟨hdone, habort, hmask⟩ := hstat
    have hlink : (((s.modLink fun x => { x with posted := none, wait := none }).touch .sp).writeSpecStat w).link.posted = none := rfl
    have hclk : (((s.modLink fun x => { x with posted := none, wait := none }).touch .sp).writeSpecStat w).clk = s.clk := rfl
    generalize ((s.modLink fun x => { x with posted := none, wait := none }).touch .sp).writeSpecStat w = v
      at hend hdone habort hmask hlink hclk
    obtain ⟨c, hc⟩ := v.endFlight_clk gates
    rw [hend]
    refine ⟨?_, fun w' hw' => ?_, ?_, ?_⟩
    · rw [State.arbitrate_link]
      exact hlink
    · rw [hw] at hw'
      cases hw'
      rw [State.arbitrate_spec]
      exact ⟨hdone, habort⟩
    · rw [State.arbitrate_clk, hc, hclk]
    · have hmask' := State.mask_mono (qs := [.clk, .spec, .pwr, .link, .int]) hmask (by decide)
      simp [Same, hmask', State.touch]
  · refine .event (State.exec_posted hp hlk (.inr (any_failed hd))) rfl ?_
    obtain ⟨d, gates, -, hend⟩ := State.endPosted_drops hd
    rw [hwait, State.endStatus_none] at hend
    rw [hend]
    refine ⟨?_, by rw [State.arbitrate_clk]; rfl, by simp [Same]⟩
    rw [State.arbitrate_link, State.endFlight_link, State.modLink_link, ← hwait]

theorem State.posted_answers {w : Word} {n : Nat} {k : Bool} (hp : s.link.posted = some ⟨38, [w], [.sp], k⟩)
    (hup : s.linkUp = true) (ha : s.link.assigned = true) (hwait : s.link.wait = some ⟨true, 38, 1, n + 1, [], [.sp], k⟩) :
    (s.isOn .sp = true → s.Reaches 38 → Completes .postedWriteCommit s fun t =>
      t.link.posted = none ∧ t.link.wait = none ∧ t.spec.doneEvt = (s.spec.doneEvt && !bitAt w 2) ∧
      ∃ r : Word, bits r 0 8 = 0xA5#8 ∧ bitAt r 16 = k ∧ t.link.ldo = s.link.ldo ++ [r]) ∧
    ((s.dom .sp).st = .failed → Completes .postedWriteCommit s fun t =>
      t.link = { s.link with posted := none, wait := none, ldo := s.link.ldo ++ [s.failWord 38 1#4 (failDomain .sp)] } ∧
      Same [.clk, .link, .int] s t) := by
  have hlk := State.hasLk_of_linkUp hup
  refine ⟨fun hon hr => ?_, fun hst => ?_⟩
  · have hall : ∀ d ∈ [Dom.sp], s.isOn d = true := fun d hd => by rw [List.mem_singleton.mp hd]; exact hon
    refine .event (State.exec_posted hp hlk (.inl (all_isOn hall))) rfl ?_
    obtain ⟨gates, hend⟩ := State.endPosted_applies (p := ⟨38, [w], [.sp], k⟩) hall rfl rfl hr.2
    have hdone := (State.writeSpecStat_spec w ((s.modLink fun x => { x with posted := none, wait := none }).touch .sp)).1
    have hlink : (((s.modLink fun x => { x with posted := none, wait := none }).touch .sp).writeSpecStat w).link =
      { s.link with posted := none, wait := none } := rfl
    have hup' : (((s.modLink fun x => { x with posted := none, wait := none }).touch .sp).writeSpecStat w).linkUp = true := hup
    generalize ((s.modLink fun x => { x with posted := none, wait := none }).touch .sp).writeSpecStat w = v
      at hend hdone hlink hup'
    obtain ⟨h1, h2, -⟩ := v.ready_fields 38 k
    rw [hwait, State.endStatus_one hup' (by rw [hlink]; exact ha)] at hend
    rw [hend]
    refine ⟨?_, ?_, ?_, v.ready 38 k, h1, h2, ?_⟩
    · rw [State.arbitrate_link, State.endFlight_link, State.drive_link, hlink]
    · rw [State.arbitrate_link, State.endFlight_link, State.drive_link, hlink]
    · rw [State.arbitrate_spec]
      exact hdone
    · rw [State.arbitrate_link, State.endFlight_link, State.drive_link]
  · have hd : ∃ d ∈ [Dom.sp], (s.dom d).st = .failed := ⟨.sp, List.mem_singleton_self _, hst⟩
    refine .event (State.exec_posted hp hlk (.inr (any_failed hd))) rfl ?_
    obtain ⟨d, gates, hmem, hend⟩ := State.endPosted_drops (p := ⟨38, [w], [.sp], k⟩) hd
    obtain rfl := List.mem_singleton.mp hmem
    rw [hwait, State.endStatus_one (by exact hup) (by exact ha)] at hend
    rw [hend]
    refine ⟨?_, by simp [Same, State.drive]⟩
    rw [State.arbitrate_link, State.endFlight_link, State.drive_link, State.modLink_link]

end

/-- Settles O52: a frame at once is one event (`State.readReady_one`, `State.linkWrite_posts`), one that waits goes on with
the wake of
its domain (`State.endWait_bufData`) or with the commit of the posted write (`State.endPosted_applies`). -/
theorem linkFramesComplete : Obligations.LinkFramesComplete := by
  unfold Obligations.LinkFramesComplete
  refine ⟨fun s addr n => ?nop, ?heads, fun s addr h ho hp => State.readScratch_completes h ho hp,
    fun s addr n h ho hp hclk hlevel hst => State.readWaits_completes n h ho hp hclk hlevel hst,
    fun s w ws k hst htarget hup ha hover hstall hrestore hreq hclk hwait hw =>
      State.wakeRead_completes hst htarget hup ha hover hstall hrestore hclk hwait hw,
    fun s n k hst hup ha hover hrestore hreq hclk hlevel hwait => State.wakeRead_fails hst hup ha hover hrestore hreq hwait,
    fun s addr w crc h hn hp => State.writeFrames_complete h hn hp,
    fun s p hp hlk hwait => State.posted_commits hp hlk hwait,
    fun s w n k hp hup ha hwait => State.posted_answers hp hup ha hwait⟩
  case nop => exact .answer (u := s) (t := s.newFrame) rfl ⟨by simp, by simp [Same]⟩
  case heads =>
    intro h ws bus hcrc
    have hframe : linkFrame h ws bus false = match (bits h 24 3 : BitVec 3).toNat with
        | 0 => .nop (bits h 27 5) ws.length
        | 1 => .read (bits h 27 5) (bits h 18 6) (bits h 10 8) bus.length bus
        | 2 => .write (bits h 27 5) (bits h 18 6) (bits h 10 8) (ws ++ bus)
        | 3 => .sync (bits h 27 5) ws
        | 4 => .wake ⟨bits h 27 5, ws.length⟩
        | 5 => if (bits h 27 5 : BitVec 5) = 31#5 then .discover (bits h 10 8) (ws ++ bus) else .nop (bits h 27 5) ws.length
        | 6 => if (bits h 27 5 : BitVec 5) = 31#5 then .assign ws else .nop (bits h 27 5) ws.length
        | _ => .park ⟨bits h 27 5, ws.length⟩ := by
      unfold linkFrame
      dsimp only
      rw [if_neg (not_not.mpr hcrc)]
      rfl
    refine ⟨fun hop => ?_, fun hop => ?_, fun hop => ?_, fun hop => ?_, fun hop => ?_, fun hop => ?_⟩
    all_goals rw [hframe, hop]
    all_goals rfl

end Sys2Proof.Machine
end

section
/-!
PROOFS. The services that read (R209, R217, R563, R566, R567).
-/

namespace Sys2Proof.Machine

open Sys2Proof

section
variable {s t u v : State} {r : Request} {code : BitVec 8}

/-! ### A request that is taken up -/

/-- v is a state of a service that works on the request r of s: MC is On, the message has left MBX_IN, the replies before it
stand. -/
structure State.TakenUp (s v : State) (r : Request) : Prop where
  req : v.mgmt.req = some r
  on : v.isOn .mc = true
  outQ : v.mgmt.outQ = s.mgmt.outQ
  inQ : v.mgmt.inQ = s.mgmt.inQ.drop (r.payload.length + 1)

theorem State.takeUpMessage_taken (h : s.Serves r code) : s.TakenUp (s.takeUpMessage r) r :=
  ⟨rfl, State.isOn_of_coreUp h.1, rfl, rfl⟩

/-- The state that a reply with room leaves (R561). -/
def State.replied (v : State) (hdr : Word) (st : BitVec 8) (p : List Word) : State :=
  v.modMgmt fun m => { m with outQ := m.outQ ++ replyWords hdr st p, reply := none, req := none, replyEvt := true }

@[simp] theorem State.mask_replied {ps : List Part} (h : Part.mgmt ∈ ps) (v : State) (hdr : Word) (st : BitVec 8)
    (p : List Word) :
    (v.replied hdr st p).mask ps = v.mask ps := by
  simp [State.replied, h]

theorem State.replied_mgmt (v : State) (hdr : Word) (st : BitVec 8) (p : List Word) : (v.replied hdr st p).mgmt =
    { v.mgmt with outQ := v.mgmt.outQ ++ replyWords hdr st p, reply := none, req := none, replyEvt := true } := rfl

theorem State.TakenUp.reply (h : s.TakenUp v r) (st : BitVec 8) {p : List Word} (hroom : s.mgmt.outQ.length +
    (p.length + 1) ≤ 64) :
    v.reply st p = v.replied r.hdr st p :=
  State.reply_fits h.req h.on st p (by rw [h.outQ]; exact hroom)

theorem State.TakenUp.replied (h : s.TakenUp v r) (st : BitVec 8) (p : List Word) (u : State) :
    s.Replied (State.arbitrate u (v.replied r.hdr st p)) r st p := by
  rw [State.Replied, State.arbitrate_mgmt, State.replied_mgmt]
  exact ⟨by rw [h.outQ], rfl, rfl, rfl, h.inQ⟩

/-- A service that answers at once. -/
theorem State.Serves.answers (h : s.Serves r code) {c : Instr} {f : Request → State → State}
    (hexec : exec c s = s.serveMessage code f)
    {st : BitVec 8} {p : List Word} (hf : f r (s.takeUpMessage r) = (s.takeUpMessage r).reply st p)
    (hroom : s.mgmt.outQ.length + (p.length + 1) ≤ 64) :
    Completes c s fun t => s.Replied t r st p ∧ t.mgmt.sens = s.mgmt.sens ∧ Same [.mgmt, .int] s t := by
  have htaken := State.takeUpMessage_taken h
  refine .answer (hexec.trans ((State.serveMessage_serves h f).trans (congrArg (answer s) hf))) ?_
  rw [htaken.reply st hroom]
  exact ⟨htaken.replied st p s, by rw [State.arbitrate_mgmt]; rfl, by simp [Same, State.takeUpMessage]⟩

/-- A payload of another length (R562). -/
theorem State.Serves.wrongLength (h : s.Serves r code) {c : Instr} {n : Nat} {f : Request → State → State}
    (hexec : exec c s = s.serveMessage code (withLen n f)) (hlen : r.payload.length ≠ n) (hroom : s.mgmt.outQ.length < 64) :
    Completes c s fun t => s.Replied t r 2#8 [] ∧ Same [.mgmt, .int] s t := by
  obtain ⟨t, ht, hrep, -, hsame⟩ := h.answers hexec (if_neg hlen) (st := 2#8) (p := []) (by simpa using hroom)
  exact ⟨t, ht, hrep, hsame⟩

theorem State.Serves.withLen (h : s.Serves r code) {n : Nat} (f : Request → State → State) (hlen : r.payload.length = n) :
    s.serveMessage code (withLen n f) = answer s (f r (s.takeUpMessage r)) :=
  (State.serveMessage_serves h _).trans (congrArg (answer s) (if_pos hlen))

/-! ### LOG_READ -/

theorem State.takeUpMessage_overwritten (r : Request) (e : Bool) (a n : Nat) (s : State) :
    (s.takeUpMessage r).overwritten e a n = (s.overwritten e a n).takeUpMessage r := by
  simp only [State.overwritten, State.takeUpMessage, State.modMgmt, State.modArr]
  rfl

theorem State.takeUpMessage_changedBy (r : Request) (q : PortSeq) (s : State) :
    (s.takeUpMessage r).changedBy q = (s.changedBy q).takeUpMessage r := by
  cases q with
  | program b a bs =>
    cases b
    · exact State.takeUpMessage_overwritten ..
    · rfl
  | erase b a n =>
    cases b
    · exact State.takeUpMessage_overwritten ..
    · rfl

/-- The end of a sequence leaves the mailbox alone. -/
theorem State.takeUpMessage_endSeq (r : Request) (s : State) : (s.takeUpMessage r).endSeq = s.endSeq.takeUpMessage r := by
  have hport : (s.takeUpMessage r).modMport (fun x => { x.endSeq with single := if x.waiting then x.single else none }) =
      (s.modMport fun x => { x.endSeq with single := if x.waiting then x.single else none }).takeUpMessage r := rfl
  unfold State.endSeq
  dsimp only
  rw [hport, show (s.takeUpMessage r).mport = s.mport from rfl]
  cases s.mport.waiting with
  | true => rfl
  | false =>
    cases s.mport.seq with
    | none => rfl
    | some q => exact State.takeUpMessage_changedBy r q _

theorem State.endSeq_mailbox (s : State) : s.endSeq.mgmt.outQ = s.mgmt.outQ ∧ s.endSeq.mgmt.inQ = s.mgmt.inQ ∧
    s.endSeq.mgmt.logAck = s.mgmt.logAck :=
  ⟨(congrArg Mgmt.outQ s.noStores_endSeq :), (congrArg Mgmt.inQ s.noStores_endSeq :), (congrArg Mgmt.logAck s.noStores_endSeq :)⟩

theorem State.isOn_endSeq (d : Dom) (s : State) : s.endSeq.isOn d = s.isOn d := by
  have hpwr : s.endSeq.pwr = s.pwr := State.pwr_of_mask (ps := [.arr, .mgmt, .mport]) (by simp) (by decide)
  rw [State.isOn, State.isOn, State.dom, State.dom, hpwr]

theorem State.endSeq_taken (h : s.Serves r code) : s.TakenUp (s.endSeq.takeUpMessage r) r := by
  obtain ⟨hout, hin, -⟩ := s.endSeq_mailbox
  refine ⟨rfl, ?_, hout, ?_⟩
  · rw [← State.takeUpMessage_endSeq, State.isOn_endSeq]
    exact State.isOn_of_coreUp h.1
  · have hdrop : (s.endSeq.takeUpMessage r).mgmt.inQ = s.endSeq.mgmt.inQ.drop (r.payload.length + 1) := rfl
    rw [hdrop, hin]

theorem State.TakenUp.of_mgmt (h : s.TakenUp v r) (hm : u.mgmt = v.mgmt) (hon : u.isOn .mc = v.isOn .mc) : s.TakenUp u r :=
  ⟨by rw [hm]; exact h.req, hon.trans h.on, by rw [hm]; exact h.outQ, by rw [hm]; exact h.inQ⟩

theorem Mgmt.readLog_length (m : Mgmt) (first : Word) (n : Nat) : (m.readLog first n).length ≤ n := by
  unfold Mgmt.readLog
  split
  · exact Nat.zero_le n
  · exact List.length_take_le ..

theorem flatMap_words_length (l : List LogRec) : (l.flatMap LogRec.words).length = 8 * l.length := by
  induction l with
  | nil => rfl
  | cons r l ih =>
    have hr : r.words.length = 8 := rfl
    rw [List.flatMap_cons, List.length_append, ih, hr, List.length_cons]
    omega

theorem State.exec_logRead (h : s.flashFree = true) : exec .logRead s = s.serveMessage 1#8 (Machine.withLen 2 State.logRead) :=
  if_pos h

/-- The first word of the reply to LOG_READ (R563). -/
def State.logNextRead (r : Request) (s : State) : Word :=
  match (s.endSeq.mgmt.readLog (r.arg 0) (bits (r.arg 1) 0 3 : BitVec 3).toNat).getLast? with
  | some x => x.seq + 1#32
  | none => Config.logReadEmpty (r.arg 0) s.mgmt.logNext

/-- LOG_READ without acknowledgement: the reads, then the reply. -/
theorem State.logRead_eq (hn : (bits (r.arg 1) 0 3 : BitVec 3) ≠ 0#3) (hack : bitAt (r.arg 1) 8 = false) (s : State) :
    s.logRead r = (s.flashReads ((s.endSeq.mgmt.readLog (r.arg 0) (bits (r.arg 1) 0 3 : BitVec 3).toNat).map fun x =>
      recordAddr x.seq)).reply 0#8
      (s.logNextRead r :: (s.endSeq.mgmt.readLog (r.arg 0) (bits (r.arg 1) 0 3 : BitVec 3).toNat).flatMap LogRec.words) := by
  have hn' : ¬ (bits (r.arg 1) 0 3 : BitVec 3).toNat = 0 := fun h0 => hn (BitVec.eq_of_toNat_eq h0)
  unfold State.logRead
  dsimp only
  rw [if_neg hn', hack]
  rfl

theorem State.logRead_completes (h : s.Serves r 1#8) (hfree : s.flashFree = true) (hroom : s.mgmt.outQ.length + 58 ≤ 64)
    (hlen : r.payload.length = 2) (hn : (bits (r.arg 1) 0 3 : BitVec 3) ≠ 0#3) (hack : bitAt (r.arg 1) 8 = false) :
    Completes .logRead s fun t =>
      (∃ w0, s.Replied t r 0#8
        (w0 :: (s.endSeq.mgmt.readLog (r.arg 0) (bits (r.arg 1) 0 3 : BitVec 3).toNat).flatMap LogRec.words) ∧
        ∀ x, (s.endSeq.mgmt.readLog (r.arg 0) (bits (r.arg 1) 0 3 : BitVec 3).toNat).getLast? = some x → w0 = x.seq + 1#32) ∧
      t.mgmt.logRing = s.endSeq.mgmt.logRing ∧ t.mgmt.logAck = s.mgmt.logAck ∧ t.mport.flash = s.endSeq.mport.flash ∧
      Same [.mgmt, .mport, .int] s.endSeq t := by
  refine .answer ((State.exec_logRead hfree).trans (h.withLen State.logRead hlen)) ?_
  have hrecs : (s.takeUpMessage r).endSeq.mgmt.readLog (r.arg 0) (bits (r.arg 1) 0 3 : BitVec 3).toNat =
      s.endSeq.mgmt.readLog (r.arg 0) (bits (r.arg 1) 0 3 : BitVec 3).toNat := by
    rw [State.takeUpMessage_endSeq]
    rfl
  have hw0 : (s.takeUpMessage r).logNextRead r = s.logNextRead r := by
    rw [State.logNextRead, State.logNextRead, hrecs]
    rfl
  have hcount := s.endSeq.mgmt.readLog_length (r.arg 0) (bits (r.arg 1) 0 3 : BitVec 3).toNat
  have hmax : (bits (r.arg 1) 0 3 : BitVec 3).toNat < 8 := (bits (r.arg 1) 0 3 : BitVec 3).isLt
  have hlast : ∀ x, (s.endSeq.mgmt.readLog (r.arg 0) (bits (r.arg 1) 0 3 : BitVec 3).toNat).getLast? = some x →
      s.logNextRead r = x.seq + 1#32 := by
    intro x hx
    rw [State.logNextRead, hx]
  rw [State.logRead_eq hn hack, hrecs, hw0]
  generalize s.logNextRead r = w0 at hlast ⊢
  generalize s.endSeq.mgmt.readLog (r.arg 0) (bits (r.arg 1) 0 3 : BitVec 3).toNat = recs at hcount hlast ⊢
  have hreads : (s.takeUpMessage r).flashReads (recs.map fun x => recordAddr x.seq) =
      (s.endSeq.takeUpMessage r).modMport fun x =>
        { x with repoll := false, sent := x.sentPoll ++ (recs.map fun x => recordAddr x.seq).map x.sentRead } := by
    rw [State.flashReads, State.takeUpMessage_endSeq]
  have htaken : s.TakenUp ((s.takeUpMessage r).flashReads (recs.map fun x => recordAddr x.seq)) r := by
    rw [hreads]
    exact (State.endSeq_taken h).of_mgmt rfl rfl
  have hfacts : ((s.takeUpMessage r).flashReads (recs.map fun x => recordAddr x.seq)).mgmt.logRing = s.endSeq.mgmt.logRing ∧
      ((s.takeUpMessage r).flashReads (recs.map fun x => recordAddr x.seq)).mgmt.logAck = s.endSeq.mgmt.logAck ∧
      ((s.takeUpMessage r).flashReads (recs.map fun x => recordAddr x.seq)).mport.flash = s.endSeq.mport.flash ∧
      ((s.takeUpMessage r).flashReads (recs.map fun x => recordAddr x.seq)).mask [.mgmt, .mport, .int] =
        s.endSeq.mask [.mgmt, .mport, .int] := by
    rw [hreads]
    exact ⟨rfl, rfl, rfl, by simp [State.takeUpMessage]⟩
  obtain ⟨hring, hlogAck, hflash, hmask⟩ := hfacts
  rw [htaken.reply 0#8 (by rw [List.length_cons, flatMap_words_length]; omega)]
  generalize (s.takeUpMessage r).flashReads (recs.map fun x => recordAddr x.seq) = v at htaken hring hlogAck hflash hmask ⊢
  refine ⟨⟨w0, htaken.replied .., hlast⟩, ?_, ?_, ?_, by simp [Same, hmask]⟩
  · rw [State.arbitrate_mgmt]
    exact hring
  · rw [State.arbitrate_mgmt]
    exact hlogAck.trans s.endSeq_mailbox.2.2
  · rw [State.arbitrate_mport]
    exact hflash

/-! ### AUX_DISCOVER and CAL_RUN -/

theorem State.calRun_starts (h : s.Serves r 5#8) (hlen : r.payload.length = 1) (hm : bits (r.arg 0) 0 4 ≠ 0#4)
    (hon : s.isOn .xf = true) (hclk : s.clken 2 = true) : Completes .calRun s fun t =>
      t.aux = { s.aux with
        calQueue := s.aux.calQueue ||| bits (r.arg 0) 0 4
        calNow := calFirst (s.aux.calQueue ||| bits (r.arg 0) 0 4) s.aux.calNow
        calDone := 0#4
        calTag := some r.hdr } ∧ t.mgmt.req = some r ∧ Same [.aux, .mgmt, .int] s t := by
  have hon' : (s.takeUpMessage r).isOn .xf = true := hon
  have hclk' : (s.takeUpMessage r).clken 2 = true := hclk
  have hrun : (s.takeUpMessage r).calRun r =
      ((s.takeUpMessage r).modAux fun a => { a with calDone := 0#4, calTag := some r.hdr }).calAdd (bits (r.arg 0) 0 4) := by
    unfold State.calRun
    dsimp only
    rw [hon', hclk', Bool.and_true, Bool.not_true, if_neg Bool.false_ne_true, if_neg hm]
  refine .answer ((show exec .calRun s = _ from rfl).trans ((h.withLen State.calRun hlen).trans (congrArg (answer s) hrun))) ?_
  exact ⟨by rw [State.arbitrate_aux]; rfl, by rw [State.arbitrate_mgmt]; rfl, by simp [Same, State.calAdd, State.takeUpMessage]⟩

theorem State.calRun_refused (h : s.Serves r 5#8) (hlen : r.payload.length = 1) (hoff : s.isOn .xf = false)
    (hroom : s.mgmt.outQ.length < 64) : Completes .calRun s fun t => s.Replied t r 4#8 [] ∧ Same [.mgmt, .int] s t := by
  have hoff' : (s.takeUpMessage r).isOn .xf = false := hoff
  have hrun : Machine.withLen 1 State.calRun r (s.takeUpMessage r) = (s.takeUpMessage r).reply 4#8 [] := by
    rw [Machine.withLen, if_pos hlen]
    unfold State.calRun
    dsimp only
    rw [hoff', Bool.false_and, Bool.not_false, if_pos rfl]
  obtain ⟨t, ht, hrep, -, hsame⟩ := h.answers (c := .calRun) rfl hrun (by simpa using hroom)
  exact ⟨t, ht, hrep, hsame⟩

end

/-- Settles O49: a request that a service takes up (`State.TakenUp`) is answered with a reply that fits
(`State.TakenUp.reply`), or sets
its work going. -/
theorem readServicesComplete : Obligations.ReadServicesComplete := by
  unfold Obligations.ReadServicesComplete
  refine ⟨fun s r h hfree hroom => ⟨fun hlen hn hack => State.logRead_completes h hfree hroom hlen hn hack,
      fun hlen => h.wrongLength (State.exec_logRead hfree) hlen (by omega)⟩,
    fun s r h hp hroom => ?health, fun s r v h hlen hroom => ?sensor, fun s v hup hdue => ?measure,
    fun s r h hlen => ?discover,
    fun s r h hlen hm => ⟨fun hon hclk => State.calRun_starts h hlen hm hon hclk,
      fun hoff hroom => State.calRun_refused h hlen hoff hroom⟩,
    fun s r v hroom => ⟨fun h hp => ?healthLength, fun h hlen => h.wrongLength rfl hlen hroom,
      fun h hlen => h.wrongLength rfl hlen hroom, fun h hlen => h.wrongLength rfl hlen hroom⟩⟩
  case health =>
    have hlen : r.payload.length = 0 := by rw [hp]; rfl
    have hwords : (s.healthWords ++ [s.uncommittedAge]).length = 10 := by simp [State.healthWords]
    obtain ⟨t, ht, hrep, -, hsame⟩ := h.answers (c := .healthReport) (f := withLen 0 fun _ t => t.reply 0#8 (t.healthWords ++
      [t.uncommittedAge])) rfl (st := 0#8) (p := s.healthWords ++ [s.uncommittedAge]) (if_pos hlen) (by rw [hwords]; exact hroom)
    exact ⟨t, ht, hrep, hsame⟩
  case sensor =>
    have hwords : (((List.range 16).filter fun k => bitAt (r.arg 0) k).map fun k => v.getD k 0#32).length ≤ 16 := by
      rw [List.length_map]
      exact (List.length_filter_le ..).trans (by simp)
    exact h.answers (c := .sensorRead v) rfl (st := 0#8) (if_pos hlen) (by omega)
  case measure =>
    refine .event (ok := s.coreUp && s.sensDue) (u := s) rfl (by rw [hup, hdue]; rfl) ⟨by simp, by simp [Same]⟩
  case discover =>
    refine .answer ((show exec .auxDiscover s = _ from rfl).trans (h.withLen _ hlen)) ?_
    exact ⟨by rw [State.arbitrate_aux]; rfl, by rw [State.arbitrate_mgmt]; rfl, by rw [State.arbitrate_mgmt]; rfl,
      by simp [Same, State.takeUpMessage]⟩
  case healthLength => exact h.wrongLength rfl (fun hlen => hp (List.eq_nil_of_length_eq_zero hlen)) hroom

end Sys2Proof.Machine
end

section
/-!
PROOFS. The core's own work: records of the log, the end of a trial, the boot (R539 to R541, R571 to R580, R613).
-/

namespace Sys2Proof.Machine

open Sys2Proof

section
variable {s t u v : State}

/-! ### LOG_WRITE -/

theorem State.waiting_of_free (h : s.flashFree = true) : s.mport.waiting = false := by
  simp only [State.flashFree, Bool.and_eq_true, Bool.not_eq_true'] at h
  exact h.1.2

theorem State.flashWork_idle (h : s.flashFree = true) (qs : List PortSeq) :
    (s.flashWork qs).mport.seq = none ∧ (s.flashWork qs).mport.waiting = false ∧ (s.flashWork qs).mgmt = s.endSeq.mgmt ∧
    (s.flashWork qs).mask [.mgmt, .mport] = s.endSeq.mask [.mgmt, .mport] := by
  obtain ⟨hseq, hw⟩ := State.endSeq_idle h
  have hfold : ∀ (l : List PortSeq) (x : Mport), (l.foldl Mport.applySeq x).waiting = x.waiting ∧
      (l.foldl Mport.applySeq x).seq = x.seq := by
    intro l
    induction l with
    | nil => exact fun x => ⟨rfl, rfl⟩
    | cons q l ih =>
      intro x
      obtain ⟨h1, h2⟩ := ih (x.applySeq q)
      have hq : (x.applySeq q).waiting = x.waiting ∧ (x.applySeq q).seq = x.seq := by
        cases q with
        | program b a bs => cases b <;> exact ⟨rfl, rfl⟩
        | erase b a n => cases b <;> exact ⟨rfl, rfl⟩
      exact ⟨h1.trans hq.1, h2.trans hq.2⟩
  obtain ⟨h1, h2⟩ := hfold qs s.endSeq.mport
  exact ⟨h2.trans hseq, h1.trans hw, rfl, by simp [State.flashWork]⟩

/-- A sequence that starts on a port at rest. -/
theorem State.startSeq_of_none (h : s.mport.seq = none) (q : PortSeq) : (s.startSeq q).mgmt = s.mgmt ∧
    (s.startSeq q).mport.seq = some q ∧ (s.startSeq q).mask [.mport] = s.mask [.mport] := by
  have heq : (s.startSeq q).mgmt = s.endSeq.mgmt := rfl
  refine ⟨heq.trans (State.endSeq_mgmt_of_idle h), rfl, ?_⟩
  rw [State.startSeq, State.mask_modMport (by decide), State.endSeq_of_none h, State.mask_modMport (by decide)]

/-- A record is one page program at its place, under the next number (R571, R572). -/
theorem State.putRec_facts (h : s.flashFree = true) (r : LogRec) :
    (s.putRec r).mgmt = s.endSeq.mgmt.writeRec r ∧
    (s.putRec r).mport.seq = some (.program false (recordAddr s.mgmt.logNext) ({ r with seq := s.mgmt.logNext } : LogRec).bytes) ∧
    (s.putRec r).mask [.mgmt, .mport] = s.endSeq.mask [.mgmt, .mport] := by
  have hstart : ∀ t : State, t.mport.seq = none → t.mgmt = s.endSeq.mgmt → t.mask [.mgmt, .mport] = s.endSeq.mask [.mgmt,
      .mport] →
      ∀ q, ((t.modMgmt fun m => m.writeRec r).startSeq q).mgmt = s.endSeq.mgmt.writeRec r ∧
        ((t.modMgmt fun m => m.writeRec r).startSeq q).mport.seq = some q ∧
        ((t.modMgmt fun m => m.writeRec r).startSeq q).mask [.mgmt, .mport] = s.endSeq.mask [.mgmt, .mport] := by
    intro t hseq hm hmask q
    obtain ⟨h1, h2, h3⟩ := State.startSeq_of_none (s := t.modMgmt fun m => m.writeRec r) hseq q
    refine ⟨h1.trans (by rw [State.modMgmt_mgmt, hm]), h2, ?_⟩
    exact (State.mask_mono h3 (by decide)).trans (by simp [hmask])
  unfold State.putRec
  dsimp only
  split
  · obtain ⟨h1, -, h2, h3⟩ := State.flashWork_idle h [.erase false (logBase + 4096 * ((logSector s.mgmt.logNext + 1) % 256)) 4096]
    exact hstart _ h1 h2 h3 _
  · exact hstart _ (State.endSeq_idle h).1 rfl rfl _

theorem Mgmt.eraseAhead_facts (m : Mgmt) : m.eraseAhead.logNext = m.logNext ∧ m.eraseAhead.logQ = m.logQ := by
  unfold Mgmt.eraseAhead
  dsimp only
  split <;> exact ⟨rfl, rfl⟩

theorem Mgmt.writeRec_facts (m : Mgmt) (r : LogRec) : (m.writeRec r).logNext = m.logNext + 1#32 ∧ (m.writeRec r).logQ = m.logQ ∧
    (m.writeRec r).logRing.getLast? = some { r with seq := m.logNext } := by
  obtain ⟨h1, h2⟩ := m.eraseAhead_facts
  refine ⟨?_, h2, ?_⟩
  · have heq : (m.writeRec r).logNext = m.eraseAhead.logNext + 1#32 := rfl
    rw [heq, h1]
  · have heq : (m.writeRec r).logRing = m.eraseAhead.logRing ++ [{ r with seq := m.eraseAhead.logNext }] := rfl
    rw [heq, List.getLast?_append, h1]
    rfl

theorem State.endSeq_log_fields (s : State) : s.endSeq.mgmt.logNext = s.mgmt.logNext ∧ s.endSeq.mgmt.logQ = s.mgmt.logQ :=
  ⟨(congrArg Mgmt.logNext s.noStores_endSeq :), (congrArg Mgmt.logQ s.noStores_endSeq :)⟩

theorem State.exec_logWrite (hup : s.coreUp = true) (hfree : s.flashFree = true)
    (hwork : s.mgmt.logOvf ≠ 0 ∨ s.mgmt.logQ ≠ []) : exec .logWrite s = Machine.event true s s.writeLog := by
  have hexec : exec .logWrite s =
      Machine.event (s.coreUp && s.flashFree && (s.mgmt.logOvf != 0 || !s.mgmt.logQ.isEmpty)) s s.writeLog := rfl
  have hany : (s.mgmt.logOvf != 0 || !s.mgmt.logQ.isEmpty) = true := by
    rcases hwork with h | h
    · rw [bne_iff_ne.mpr h, Bool.true_or]
    · rw [List.isEmpty_eq_false_iff.mpr h, Bool.not_false, Bool.or_true]
  rw [hexec, hup, hfree, hany]
  rfl

theorem State.logWrite_record {r : LogRec} {rs : List LogRec} (hup : s.coreUp = true) (hfree : s.flashFree = true)
    (hovf : s.mgmt.logOvf = 0) (hq : s.mgmt.logQ = r :: rs) : Completes .logWrite s fun t =>
      t.mgmt.logQ = rs ∧ t.mgmt.logNext = s.mgmt.logNext + 1#32 ∧
      t.mgmt.logRing.getLast? = some { r with seq := s.mgmt.logNext } ∧
      t.mport.seq = some (.program false (recordAddr s.mgmt.logNext) ({ r with seq := s.mgmt.logNext } : LogRec).bytes) ∧
      Same [.mgmt, .mport, .int] s.endSeq t := by
  refine .event (State.exec_logWrite hup hfree (.inr (by rw [hq]; exact List.cons_ne_nil _ _))) rfl ?_
  have hlog : s.writeLog = (s.putRec r).modMgmt fun m => { m with logQ := rs } := by
    rw [State.writeLog, if_neg (not_not.mpr hovf), hq]
  obtain ⟨hm, hseq, hmask⟩ := State.putRec_facts hfree r
  obtain ⟨hnext, -, hring⟩ := s.endSeq.mgmt.writeRec_facts r
  rw [s.endSeq_log_fields.1] at hnext hring
  rw [hlog]
  refine ⟨by rw [State.arbitrate_mgmt]; rfl, ?_, ?_, ?_, ?_⟩
  · rw [State.arbitrate_mgmt, State.modMgmt_mgmt, hm]
    exact hnext
  · rw [State.arbitrate_mgmt, State.modMgmt_mgmt, hm]
    exact hring
  · rw [State.arbitrate_mport, State.modMgmt_mport, hseq]
  · have hmask' := State.mask_mono (qs := [.mgmt, .mport, .int]) hmask (by decide)
    simp [Same, hmask']

theorem State.logWrite_overflow (hup : s.coreUp = true) (hfree : s.flashFree = true) (hovf : s.mgmt.logOvf ≠ 0) :
    Completes .logWrite s fun t =>
      t.mgmt.logQ = s.mgmt.logQ ∧ t.mgmt.logOvf = 0 ∧ t.mgmt.logNext = s.mgmt.logNext + 1#32 ∧
      (∃ x, t.mgmt.logRing.getLast? = some x ∧ x.cls = 0x0A#8 ∧ x.code = 0x01#8 ∧ x.d0 = BitVec.ofNat 32 s.mgmt.logOvf) ∧
      Same [.mgmt, .mport, .int] s.endSeq t := by
  refine .event (State.exec_logWrite hup hfree (.inl hovf)) rfl ?_
  have hlog : s.writeLog = (s.putRec s.overflowRec).modMgmt fun m => { m with logOvf := 0 } := if_pos hovf
  obtain ⟨hm, -, hmask⟩ := State.putRec_facts hfree s.overflowRec
  obtain ⟨hnext, hq, hring⟩ := s.endSeq.mgmt.writeRec_facts s.overflowRec
  rw [s.endSeq_log_fields.1] at hnext
  rw [s.endSeq_log_fields.2] at hq
  rw [hlog]
  refine ⟨?_, by rw [State.arbitrate_mgmt]; rfl, ?_, ⟨{ s.overflowRec with seq := s.endSeq.mgmt.logNext }, ?_, rfl, rfl, rfl⟩, ?_⟩
  · rw [State.arbitrate_mgmt, State.modMgmt_mgmt, hm]
    exact hq
  · rw [State.arbitrate_mgmt, State.modMgmt_mgmt, hm]
    exact hnext
  · rw [State.arbitrate_mgmt, State.modMgmt_mgmt, hm]
    exact hring
  · have hmask' := State.mask_mono (qs := [.mgmt, .mport, .int]) hmask (by decide)
    simp [Same, hmask']

/-! ### TRIAL_CONFIRM -/

theorem State.programControl_noStores (b : Bool) (x y : Slot) (s : State) :
    (s.programControl b x y).mgmt.noStores = s.mgmt.noStores := by
  unfold State.programControl
  dsimp only
  split
  · rfl
  · exact s.noStores_endSeq

theorem State.setUpd_changes {w : UpdState} (h : s.mgmt.upd ≠ w) : (s.setUpd w).mgmt.upd = w ∧ (s.setUpd w).mgmt.updEvt = true ∧
    (s.setUpd w).mgmt.minVer = s.mgmt.minVer ∧ (s.setUpd w).mgmt.running = s.mgmt.running := by
  unfold State.setUpd
  rw [if_neg h]
  dsimp only
  obtain ⟨q, d, o, heq⟩ := State.log_mgmt_eq 0x07#8 (w.code.setWidth 8) (s.mgmt.slot (s.mgmt.updSlot w)).version
    (flg (s.mgmt.updSlot w) 0) 0#32 (s.modMgmt fun m => { m with upd := w, updEvt := true })
  rw [heq]
  exact ⟨rfl, rfl, rfl, rfl⟩

theorem Mgmt.running_modSlot (m : Mgmt) (f : Slot → Slot) : (m.modSlot m.runSlot f).running = f m.running := by
  unfold Mgmt.running Mgmt.modSlot
  cases m.runSlot <;> simp

/-- MIN_VER after a trial that is confirmed: the greater of MIN_VER and the image's SEC_VER (R580). -/
def Mgmt.raisedMin (m : Mgmt) (w : BitVec 8) : Option (BitVec 8) := if m.minVersion.toNat < w.toNat then some w else m.minVer

theorem Mgmt.raisedMin_le {m n : Mgmt} {w : BitVec 8} (h : n.minVer = m.raisedMin w) :
    m.minVersion.toNat ≤ n.minVersion.toNat ∧ w.toNat ≤ n.minVersion.toNat := by
  have hmin : n.minVersion = (m.raisedMin w).getD Config.otpMinVer := by rw [Mgmt.minVersion, h]
  rw [hmin, Mgmt.raisedMin]
  split
  · next hlt => exact ⟨by rw [Option.getD_some]; omega, by rw [Option.getD_some]⟩
  · next hge =>
    have heq : m.minVer.getD Config.otpMinVer = m.minVersion := rfl
    rw [heq]
    exact ⟨le_refl _, by omega⟩

theorem State.trialConfirm_completes (hup : s.coreUp = true) (hfree : s.flashFree = true) (htrial : s.mgmt.upd = .trial)
    (hlong : 600 * 32768 ≤ s.clk.ht - s.mgmt.zorHt) : Completes .trialConfirm s fun t =>
      t.mgmt.running.confirm = true ∧ t.mgmt.upd = .idle ∧ t.mgmt.updEvt = true ∧
      s.mgmt.minVersion.toNat ≤ t.mgmt.minVersion.toNat ∧ s.mgmt.running.secVer.toNat ≤ t.mgmt.minVersion.toNat ∧
      Same [.arr, .mgmt, .mport, .int] s t := by
  have hexec : exec .trialConfirm s = Machine.event
      (s.coreUp && s.flashFree && s.mgmt.upd == .trial && decide (600 * 32768 ≤ s.clk.ht - s.mgmt.zorHt)) s
      (((s.programControl s.mgmt.runSlot (s.mgmt.slot s.mgmt.runSlot) { s.mgmt.slot s.mgmt.runSlot with confirm := true }).modMgmt
        fun m => { m.modSlot s.mgmt.runSlot (fun x => { x with confirm := true }) with
          minVer := if m.minVersion.toNat < s.mgmt.running.secVer.toNat then some s.mgmt.running.secVer else m.minVer }).setUpd
        .idle) := rfl
  refine .event hexec (by rw [hup, hfree, htrial, decide_eq_true hlong]; rfl) ?_
  have hkept := State.programControl_noStores s.mgmt.runSlot (s.mgmt.slot s.mgmt.runSlot)
    { s.mgmt.slot s.mgmt.runSlot with confirm := true } s
  have hmask : (s.programControl s.mgmt.runSlot (s.mgmt.slot s.mgmt.runSlot)
      { s.mgmt.slot s.mgmt.runSlot with confirm := true }).mask [.arr, .mgmt, .mport] = s.mask [.arr, .mgmt, .mport] := by simp
  generalize s.programControl s.mgmt.runSlot (s.mgmt.slot s.mgmt.runSlot)
    { s.mgmt.slot s.mgmt.runSlot with confirm := true } = v at hkept hmask ⊢
  have hrun : v.mgmt.runSlot = s.mgmt.runSlot := (congrArg Mgmt.runSlot hkept :)
  have hupd : v.mgmt.upd = .trial := (congrArg Mgmt.upd hkept :).trans htrial
  have hmin : v.mgmt.minVer = s.mgmt.minVer := (congrArg Mgmt.minVer hkept :)
  generalize hw : s.mgmt.running.secVer = w
  obtain ⟨w', hw', hwupd, hwmin, hwrun, hwmask⟩ : ∃ w',
      (v.modMgmt fun m => { m.modSlot s.mgmt.runSlot (fun x => { x with confirm := true }) with
        minVer := if m.minVersion.toNat < w.toNat then some w else m.minVer }) = w' ∧ w'.mgmt.upd = v.mgmt.upd ∧
      w'.mgmt.minVer = v.mgmt.raisedMin w ∧ w'.mgmt.running.confirm = true ∧
      w'.mask [.arr, .mgmt, .mport] = v.mask [.arr, .mgmt, .mport] := by
    refine ⟨_, rfl, ?_, rfl, ?_, by simp⟩
    · rw [State.modMgmt_mgmt]
      cases s.mgmt.runSlot <;> rfl
    · have hset := v.mgmt.running_modSlot fun x => { x with confirm := true }
      rw [hrun] at hset
      exact congrArg Slot.confirm hset
  rw [hw']
  obtain ⟨h1, h2, h3, h4⟩ := State.setUpd_changes (s := w') (w := .idle) (by rw [hwupd, hupd]; decide)
  obtain ⟨h5, h6⟩ := Mgmt.raisedMin_le (h3.trans hwmin)
  have hmin' : v.mgmt.minVersion = s.mgmt.minVersion := by rw [Mgmt.minVersion, Mgmt.minVersion, hmin]
  rw [hmin'] at h5
  rw [State.arbitrate_mgmt]
  refine ⟨by rw [h4]; exact hwrun, h1, h2, h5, h6, ?_⟩
  have hmask' := (State.mask_mono (qs := [.arr, .mgmt, .mport, .int]) hwmask (by decide)).trans (State.mask_mono hmask
      (by decide))
  simp [Same, hmask']

/-! ### What a boot keeps -/

/-- What the steps of a boot keep of the management part, but for those that write it (R565, R587, R613). -/
structure CoreMgmt where
  zor : Bool
  runSlot : Bool
  entry : Word
  restore : List (Nat × Word)
  rescue : Twin (List LogRec)
  autoA : Option Bool
  autoB : Option Bool

/-- What the steps of a boot keep, but for those that write it (R134, R539). -/
structure CoreView where
  mgmt : CoreMgmt
  size : BitVec 5
  mapLoaded : Bool

def Mgmt.coreView (m : Mgmt) : CoreMgmt :=
  ⟨m.zor, m.runSlot, m.entry, m.restore, m.rescue, m.cfgA.map CfgStore.auto, m.cfgB.map CfgStore.auto⟩

def State.coreView (s : State) : CoreView := ⟨s.mgmt.coreView, s.mport.size, s.arr.mapLoaded⟩

theorem State.coreView_of (hm : t.mgmt.coreView = s.mgmt.coreView) (hp : t.mport.size = s.mport.size)
    (ha : t.arr.mapLoaded = s.arr.mapLoaded) : t.coreView = s.coreView := by
  rw [State.coreView, State.coreView, hm, hp, ha]

theorem State.coreView_mgmt (h : t.coreView = s.coreView) : t.mgmt.coreView = s.mgmt.coreView := congrArg CoreView.mgmt h

theorem Mgmt.coreView_of_noLog {m n : Mgmt} (h : m.noLog = n.noLog) : m.coreView = n.coreView :=
  (congrArg Mgmt.coreView h :)

/-- A store that loses its contents keeps AUTO of its list. -/
theorem auto_of_cfg (c : Bool) (o : Option CfgStore) :
    (if c then o.map fun x => { x with ok := false } else o).map CfgStore.auto =
    o.map CfgStore.auto := by
  cases c <;> cases o <;> rfl

theorem State.coreView_overwritten (e : Bool) (a n : Nat) (s : State) : (s.overwritten e a n).coreView = s.coreView := by
  refine State.coreView_of ?_ rfl rfl
  unfold State.overwritten
  dsimp only [State.modArr_mgmt, State.modMgmt_mgmt, Mgmt.coreView]
  rw [auto_of_cfg, auto_of_cfg]

theorem Mport.size_applySeq (q : PortSeq) (x : Mport) : (x.applySeq q).size = x.size := by
  cases q with
  | program b a bs => cases b <;> rfl
  | erase b a n => cases b <;> rfl

theorem Mport.size_endSeq (x : Mport) : x.endSeq.size = x.size := by
  unfold Mport.endSeq
  split
  · rfl
  · split
    · rfl
    · exact Mport.size_applySeq ..

theorem State.coreView_endSeq (s : State) : s.endSeq.coreView = s.coreView := by
  have hport : (s.modMport fun x => { x.endSeq with single := if x.waiting then x.single else none }).coreView = s.coreView :=
    State.coreView_of rfl (Mport.size_endSeq _) rfl
  have hchanged : ∀ q (t : State), (t.changedBy q).coreView = t.coreView := by
    intro q t
    cases q with
    | program b a bs =>
      cases b
      · exact State.coreView_overwritten ..
      · rfl
    | erase b a n =>
      cases b
      · exact State.coreView_overwritten ..
      · rfl
  unfold State.endSeq
  dsimp only
  split
  · exact (hchanged _ _).trans hport
  · exact hport

theorem State.coreView_flashWork (qs : List PortSeq) (s : State) : (s.flashWork qs).coreView = s.coreView := by
  have hfold : ∀ (l : List PortSeq) (x : Mport), (l.foldl Mport.applySeq x).size = x.size := by
    intro l
    induction l with
    | nil => exact fun x => rfl
    | cons q l ih => exact fun x => (ih _).trans (Mport.size_applySeq q x)
  refine Eq.trans ?_ s.coreView_endSeq
  exact State.coreView_of rfl (hfold qs s.endSeq.mport) rfl

theorem State.coreView_startSeq (q : PortSeq) (s : State) : (s.startSeq q).coreView = s.coreView :=
  Eq.trans (State.coreView_of rfl rfl rfl) s.coreView_endSeq

theorem Mgmt.coreView_writeRec (m : Mgmt) (r : LogRec) : (m.writeRec r).coreView = m.coreView := by
  unfold Mgmt.writeRec Mgmt.eraseAhead
  dsimp only
  split <;> rfl

theorem State.coreView_putRec (r : LogRec) (s : State) : (s.putRec r).coreView = s.coreView := by
  have hstart : ∀ (t : State) q, ((t.modMgmt fun m => m.writeRec r).startSeq q).coreView = t.coreView := fun t q =>
    (State.coreView_startSeq q _).trans (State.coreView_of (t.mgmt.coreView_writeRec r) rfl rfl)
  unfold State.putRec
  dsimp only
  split
  · exact (hstart _ _).trans (State.coreView_flashWork _ s)
  · exact (hstart _ _).trans s.coreView_endSeq

theorem State.coreView_log (cls c : BitVec 8) (d0 d1 d2 : Word) (s : State) : (s.log cls c d0 d1 d2).coreView = s.coreView :=
  State.coreView_of (Mgmt.coreView_of_noLog (State.noLog_log ..)) (by rw [State.log_mport]) (by rw [State.log_arr])

theorem State.coreView_raiseAlert (c : BitVec 8) (s : State) :
    (s.raiseAlert c).coreView = s.coreView := State.coreView_of rfl rfl rfl

theorem State.coreView_stick (k : Nat) (s : State) : (s.stick k).coreView = s.coreView := State.coreView_of rfl rfl rfl

theorem State.coreView_setUpd (w : UpdState) (s : State) : (s.setUpd w).coreView = s.coreView := by
  unfold State.setUpd
  split
  · rfl
  · exact (State.coreView_log ..).trans (State.coreView_of rfl rfl rfl)

theorem State.coreView_settleArray (s t : State) : (State.settleArray s t).coreView = t.coreView := by
  refine State.coreView_of (Mgmt.coreView_of_noLog (State.noLog_settleArray s t)) ?_ ?_
  · rw [State.mport_of_mask (ps := [.arr, .mgmt]) (State.mask_settleArray (by decide) (by decide) s t) (by decide)]
  · rw [State.settleArray_arr]

theorem State.coreView_programControl (b : Bool) (x y : Slot) (s : State) : (s.programControl b x y).coreView = s.coreView := by
  unfold State.programControl
  dsimp only
  split
  · rfl
  · exact State.coreView_flashWork ..

theorem State.coreView_learn (b : Bool) (f : ImageFound) (s : State) : (s.learn b f).coreView = s.coreView := by
  unfold State.learn
  split
  · rfl
  · refine State.coreView_of ?_ rfl rfl
    cases b <;> rfl

theorem State.coreView_noteImage (b ok : Bool) (s : State) : (s.noteImage b ok).coreView = s.coreView := by
  refine State.coreView_of ?_ rfl rfl
  cases b <;> rfl

theorem Mgmt.coreView_select (n : Nat) (m : Mgmt) : (Mgmt.select n m).1.coreView = m.coreView := by
  induction n generalizing m with
  | zero => rfl
  | succ n ih =>
    have hattempt : ∀ b, (m.attempt b).1.coreView = m.coreView := by
      intro b
      unfold Mgmt.attempt
      dsimp only
      split
      · rfl
      · split
        · cases b <;> rfl
        · cases b <;> rfl
    unfold Mgmt.select
    split
    · rfl
    · next b _ =>
      dsimp only
      split
      · exact hattempt b
      · exact (ih _).trans (hattempt b)

theorem State.coreView_checkSlots (a b : ImageFound) (s : State) : (s.checkSlots a b).coreView = s.coreView := by
  have hset : ∀ (okA okB : Bool) (t : State), (t.modMgmt fun m => { m with aOk := okA, bOk := okB }).coreView = t.coreView :=
    fun _ _ _ => State.coreView_of rfl rfl rfl
  unfold State.checkSlots
  dsimp only
  rw [hset, State.coreView_noteImage, State.coreView_noteImage, State.coreView_learn, State.coreView_learn]

theorem State.coreView_chooseImage (a b : ImageFound) (s : State) : (s.chooseImage a b).1.coreView = s.coreView := by
  have hselect := Mgmt.coreView_select 2 (s.checkSlots a b).mgmt
  have hprog : ∀ x y, (((s.checkSlots a b).programControl false (s.checkSlots a b).mgmt.slotA x).programControl true
      (s.checkSlots a b).mgmt.slotB y).coreView = (s.checkSlots a b).coreView := fun x y =>
    (State.coreView_programControl ..).trans (State.coreView_programControl ..)
  have hchosen : ((((s.checkSlots a b).programControl false (s.checkSlots a b).mgmt.slotA
      (Mgmt.select 2 (s.checkSlots a b).mgmt).1.slotA).programControl true (s.checkSlots a b).mgmt.slotB
      (Mgmt.select 2 (s.checkSlots a b).mgmt).1.slotB).modMgmt fun _ => (Mgmt.select 2 (s.checkSlots a b).mgmt).1).coreView =
      (s.checkSlots a b).coreView := by
    refine Eq.trans ?_ (hprog (Mgmt.select 2 (s.checkSlots a b).mgmt).1.slotA (Mgmt.select 2 (s.checkSlots a b).mgmt).1.slotB)
    exact State.coreView_of (hselect.trans (State.coreView_mgmt (hprog _ _)).symm) rfl rfl
  refine Eq.trans ?_ (State.coreView_checkSlots a b s)
  unfold State.chooseImage
  dsimp only
  split
  · exact (State.coreView_raiseAlert ..).trans hchosen
  · exact hchosen

/-! ### Zoruimen starts -/

/-- What the flash's programs leave of the array: the units, with the copies of the map alone to lose (R137). -/
theorem State.chooseImage_units (a b : ImageFound) (s : State) : (s.chooseImage a b).1.arr.units = s.arr.units := by
  have hend : ∀ t : State, t.endSeq.arr.units = t.arr.units := fun t => (State.noCopies_facts t.noCopies_endSeq).1
  have hprog : ∀ k x y (t : State), (t.programControl k x y).arr.units = t.arr.units := by
    intro k x y t
    unfold State.programControl
    dsimp only
    split
    · rfl
    · exact hend t
  have hcheck : (s.checkSlots a b).arr = s.arr := State.arr_of_mask (ps := [.mport, .mgmt]) (by simp) (by decide)
  have hchosen : ∀ m : Mgmt, ((((s.checkSlots a b).programControl false (s.checkSlots a b).mgmt.slotA m.slotA).programControl true
      (s.checkSlots a b).mgmt.slotB m.slotB).modMgmt fun _ => m).arr.units = s.arr.units := fun m => by
    rw [State.modMgmt_arr, hprog, hprog, hcheck]
  unfold State.chooseImage
  dsimp only
  split
  · exact hchosen _
  · exact hchosen _

theorem State.coreView_calCheck (s : State) : s.calCheck.coreView = s.coreView := State.coreView_of rfl rfl rfl

theorem State.coreView_stampWakes (s : State) : s.stampWakes.coreView = s.coreView := State.coreView_of rfl rfl rfl

theorem State.coreView_startTrims (s : State) : s.startTrims.coreView = s.coreView := by
  refine foldl_keeps (fun t : State => t.coreView = s.coreView) (fun t i h => Eq.trans ?_ h) _ rfl
  refine State.coreView_of rfl rfl ?_
  simp only [State.setTrim, State.modCluster, State.modArr_arr]
  split <;> rfl

/-- The map is loaded, and nothing else that State.coreView names moves. -/
theorem State.loadMap_facts (s : State) : s.loadMap.arr.mapLoaded = true ∧ s.loadMap.mgmt.coreView = s.mgmt.coreView ∧
    s.loadMap.mport = s.mport := by
  have htrims : ∀ t : State, t.startTrims.arr.mapLoaded = t.arr.mapLoaded ∧ t.startTrims.mgmt = t.mgmt ∧
      t.startTrims.mport = t.mport := by
    intro t
    have hview := congrArg CoreView.mapLoaded t.coreView_startTrims
    exact ⟨hview, State.mgmt_of_mask (ps := [.arr]) (by simp) (by decide), State.mport_of_mask (ps := [.arr]) (by simp)
        (by decide)⟩
  unfold State.loadMap
  split
  · next h => exact ⟨h, rfl, rfl⟩
  · split
    · next c _ =>
      obtain ⟨h1, h2, h3⟩ := htrims (s.modArr fun a =>
        { a with mapLoaded := true, units := c.units.map fun h => h.credited s.clk.ht, cl := c.cl })
      exact ⟨h1.trans rfl, congrArg Mgmt.coreView (h2.trans (State.modArr_mgmt ..)), h3.trans (State.modArr_mport ..)⟩
    · obtain ⟨h1, h2, h3⟩ := htrims (s.modArr fun a =>
        { a with mapLoaded := true, units := Vector.ofFn fun u => (s.factoryUnit u.val).credited s.clk.ht,
                 cl := Vector.replicate 39 {} })
      have halert : ∀ t : State, (t.raiseAlert 0x04#8).arr = t.arr ∧ (t.raiseAlert 0x04#8).mgmt.coreView = t.mgmt.coreView ∧
          (t.raiseAlert 0x04#8).mport = t.mport := fun t => ⟨rfl, rfl, rfl⟩
      obtain ⟨g1, g2, g3⟩ := halert (s.modArr fun a => { a with
        mapLoaded := true, units := Vector.ofFn fun u => (s.factoryUnit u.val).credited s.clk.ht,
        cl := Vector.replicate 39 {} }).startTrims
      exact ⟨(congrArg Arr.mapLoaded g1).trans (h1.trans (congrArg Arr.mapLoaded (State.modArr_arr ..))),
        g2.trans (congrArg Mgmt.coreView (h2.trans (State.modArr_mgmt ..))), g3.trans (h3.trans (State.modArr_mport ..))⟩

/-- The health map at a boot: loaded afterwards, at the latest. -/
theorem State.bootMap_facts (c : CopiesFound) (s : State) : (s.bootMap c).arr.mapLoaded = true ∧
    (s.bootMap c).mgmt.coreView = s.mgmt.coreView ∧ (s.bootMap c).mport.size = s.mport.size := by
  unfold State.bootMap
  split
  · next h =>
    have hview := (State.coreView_settleArray s s.calCheck).trans s.coreView_calCheck
    exact ⟨(congrArg CoreView.mapLoaded hview).trans h, State.coreView_mgmt hview, congrArg CoreView.size hview⟩
  · have hdrop : ∀ t : State, (t.modArr fun a => a.dropBad c).calCheck.mgmt.coreView = t.mgmt.coreView ∧
        (t.modArr fun a => a.dropBad c).calCheck.mport = t.mport := fun t => ⟨rfl, rfl⟩
    obtain ⟨hd1, hd2⟩ := hdrop s
    obtain ⟨h1, h2, h3⟩ := ((s.modArr fun a => a.dropBad c).calCheck).loadMap_facts
    generalize ((s.modArr fun a => a.dropBad c).calCheck).loadMap = v at h1 h2 h3 ⊢
    have hview := (State.coreView_stampWakes _).trans (State.coreView_settleArray s v)
    exact ⟨(congrArg CoreView.mapLoaded hview).trans h1, (State.coreView_mgmt hview).trans (h2.trans hd1),
      (congrArg CoreView.size hview).trans (by rw [State.coreView, h3, hd2])⟩

theorem State.coreView_putRecs (l : List LogRec) (s : State) : (l.foldl (fun u r => State.putRec r u) s).coreView = s.coreView :=
  foldl_keeps (fun t : State => t.coreView = s.coreView) (fun t r h => (State.coreView_putRec r t).trans h) _ rfl

/-- The rescue area is empty afterwards, and nothing else that State.coreView names moves (R570, R587). -/
theorem State.rescued_facts (s : State) : s.rescued.mgmt.rescue.newest = [] ∧
    s.rescued.coreView = { s.coreView with mgmt := { s.mgmt.coreView with rescue := s.rescued.mgmt.rescue } } := by
  have hstick : (if s.mgmt.flushMark && !s.mgmt.flushOk then s.stick 15 else s).coreView = s.coreView := by
    split
    · exact State.coreView_stick ..
    · rfl
  have hput := (State.coreView_putRecs s.mgmt.rescue.newest (if s.mgmt.flushMark && !s.mgmt.flushOk then s.stick 15 else s)).trans
    hstick
  unfold State.rescued
  dsimp only
  generalize s.mgmt.rescue.newest.foldl (fun u r => State.putRec r u)
    (if s.mgmt.flushMark && !s.mgmt.flushOk then s.stick 15 else s) = v at hput ⊢
  have hclear : ∀ n : Nat, (n = 0 → s.mgmt.rescue.newest = []) →
      ∀ w : State, w.coreView = (v.modMgmt fun m =>
        { m with rescue := if n = 0 then m.rescue else m.rescue.write [], flushMark := false, flushOk := false }).coreView →
      w.mgmt.rescue.newest = [] ∧
      w.coreView = { s.coreView with mgmt := { s.mgmt.coreView with rescue := w.mgmt.rescue } } := by
    intro n hn w hw
    have hrescue : w.mgmt.rescue = if n = 0 then v.mgmt.rescue else v.mgmt.rescue.write [] := congrArg (·.mgmt.rescue) hw
    have hsame : v.mgmt.rescue = s.mgmt.rescue := congrArg (·.mgmt.rescue) hput
    have hview : (v.modMgmt fun m =>
        { m with rescue := if n = 0 then m.rescue else m.rescue.write [], flushMark := false, flushOk := false }).coreView =
        { v.coreView with mgmt := { v.coreView.mgmt with
          rescue := if n = 0 then v.mgmt.rescue else v.mgmt.rescue.write [] } } := rfl
    refine ⟨?_, ?_⟩
    · rw [hrescue, hsame]
      split
      · next h0 => exact hn h0
      · rfl
    · rw [hw, hview, ← hrescue, hput]
      rfl
  have hlen : s.mgmt.rescue.newest.length = 0 → s.mgmt.rescue.newest = [] := List.eq_nil_of_length_eq_zero
  have hend : ∀ (n : Nat) (w : State), (if n = 0 then w else (w.log 0x0A#8 0x02#8 (BitVec.ofNat 32 n) 0#32 0#32).raiseAlert
      0x06#8).coreView = w.coreView := by
    intro n w
    split
    · rfl
    · exact (State.coreView_raiseAlert ..).trans (State.coreView_log ..)
  exact hclear _ hlen _ (hend _ _)

theorem State.coreView_checkStores (c : CopiesFound) (s : State) : (s.checkStores c).coreView = s.coreView := by
  have hok : ∀ (o : Option CfgStore) b, (o.map fun x => { x with ok := b }).map CfgStore.auto = o.map CfgStore.auto := by
    intro o b
    cases o <;> rfl
  have hset : (s.modMgmt fun m =>
      { m with cfgA := m.cfgA.map fun x => { x with ok := c.cfgA }, cfgB := m.cfgB.map fun x => { x with ok := c.cfgB } }).coreView =
      s.coreView := by
    refine State.coreView_of ?_ rfl rfl
    dsimp only [State.modMgmt_mgmt, Mgmt.coreView]
    rw [hok, hok]
  unfold State.checkStores
  dsimp only
  split
  · exact (State.coreView_raiseAlert ..).trans hset
  · exact hset

/-- Where no store has AUTO, the newer one has not. -/
theorem Mgmt.newerCfg_auto {m : Mgmt} {x : CfgStore} (hA : m.cfgA.map CfgStore.auto ≠ some true)
    (hB : m.cfgB.map CfgStore.auto ≠ some true) (h : m.newerCfg = some x) : x.auto = false := by
  have hin : m.cfgA = some x ∨ m.cfgB = some x := by
    have hA' : ∀ y, m.cfgA.filter CfgStore.ok = some y → m.cfgA = some y := fun y hy => (Option.filter_eq_some_iff.mp hy).1
    have hB' : ∀ y, m.cfgB.filter CfgStore.ok = some y → m.cfgB = some y := fun y hy => (Option.filter_eq_some_iff.mp hy).1
    unfold Mgmt.newerCfg at h
    split at h
    · next a b ha hb =>
      split at h
      · exact .inr (hB' x (by rw [hb, Option.some.inj h]))
      · exact .inl (hA' x (by rw [ha, Option.some.inj h]))
    · next a ha _ => exact .inl (hA' x (by rw [ha, Option.some.inj h]))
    · exact .inr (hB' x h)
  rcases hin with h | h
  · rw [h] at hA
    simpa using hA
  · rw [h] at hB
    simpa using hB

/-- The state in which Zoruimen is known to run, before the map (R550, R613). -/
def State.coreStarts (sl : Bool) (f : FlashFound) (s : State) : State :=
  let t := s.modMgmt fun m => { m with zor := true, zorHt := s.clk.ht, runSlot := sl, entry := s.imageWord sl 5 }
  let t := t.modMport fun x => x.flash1Found f
  if hasFlash1 t.mport.portWord && !t.mport.flash1 then t.raiseAlert 0x02#8 else t

@[simp] theorem State.mask_coreStarts {ps : List Part} (h0 : Part.mport ∈ ps) (h1 : Part.mgmt ∈ ps) (sl : Bool) (f : FlashFound)
    (s : State) : (s.coreStarts sl f).mask ps = s.mask ps := by
  unfold State.coreStarts
  dsimp only
  split
  · simp [h0, h1]
  · simp [h0, h1]

theorem State.coreStarts_view (sl : Bool) (f : FlashFound) (s : State) : (s.coreStarts sl f).coreView =
    { s.coreView with mgmt := { s.mgmt.coreView with zor := true, runSlot := sl, entry := s.imageWord sl 5 } } := by
  unfold State.coreStarts
  dsimp only
  split
  · exact (State.coreView_raiseAlert ..).trans rfl
  · rfl

/-- The state in which UPD_STATE is known (R578). -/
def State.coreChecked (c : CopiesFound) (s : State) : State :=
  let t := (s.bootMap c).rescued.checkStores c
  t.setUpd t.mgmt.bootState

@[simp] theorem State.mask_coreChecked {ps : List Part} (h0 : Part.arr ∈ ps) (h1 : Part.pwr ∈ ps) (h2 : Part.host ∈ ps)
    (h3 : Part.mport ∈ ps) (h4 : Part.mgmt ∈ ps) (c : CopiesFound) (s : State) : (s.coreChecked c).mask ps = s.mask ps := by
  unfold State.coreChecked
  simp [h0, h1, h2, h3, h4]

theorem State.coreChecked_view (c : CopiesFound) (s : State) : (s.coreChecked c).mgmt.rescue.newest = [] ∧
    (s.coreChecked c).coreView =
      { s.coreView with mgmt := { s.mgmt.coreView with rescue := (s.coreChecked c).mgmt.rescue }, mapLoaded := true } := by
  obtain ⟨hmap, hbm, hbs⟩ := s.bootMap_facts c
  obtain ⟨hnew, hresc⟩ := (s.bootMap c).rescued_facts
  have hlast : (s.coreChecked c).coreView = (s.bootMap c).rescued.coreView :=
    (State.coreView_setUpd _ _).trans (State.coreView_checkStores c (s.bootMap c).rescued)
  have hsame : (s.coreChecked c).mgmt.rescue = (s.bootMap c).rescued.mgmt.rescue := congrArg (·.mgmt.rescue) hlast
  refine ⟨by rw [hsame]; exact hnew, ?_⟩
  rw [hlast, hresc, ← hsame, hbm, State.coreView, hmap, hbs]
  rfl

theorem State.startCore_eq (sl : Bool) (f : FlashFound) (c : CopiesFound) (s : State) : s.startCore sl f c =
    match ((s.coreStarts sl f).coreChecked c).mgmt.newerCfg with
    | some x => if x.auto then ((s.coreStarts sl f).coreChecked c).restoreStart x.list else (s.coreStarts sl f).coreChecked c
    | none => (s.coreStarts sl f).coreChecked c := rfl

/-- Where no store has AUTO, Zoruimen runs from the slot, with the map loaded. -/
theorem State.startCore_view {sl : Bool} (f : FlashFound) (c : CopiesFound) (hA : s.mgmt.cfgA.map CfgStore.auto ≠ some true)
    (hB : s.mgmt.cfgB.map CfgStore.auto ≠ some true) : (s.startCore sl f c).mgmt.rescue.newest = [] ∧
    (s.startCore sl f c).coreView = { s.coreView with
      mgmt := { s.mgmt.coreView with
        zor := true, runSlot := sl, entry := s.imageWord sl 5, rescue := (s.startCore sl f c).mgmt.rescue }
      mapLoaded := true } ∧
    (s.startCore sl f c).mask [.arr, .pwr, .host, .mport, .mgmt] = s.mask [.arr, .pwr, .host, .mport, .mgmt] := by
  have hview := s.coreStarts_view sl f
  obtain ⟨hnew, hdone⟩ := (s.coreStarts sl f).coreChecked_view c
  rw [hview, show (s.coreStarts sl f).mgmt.coreView = (s.coreStarts sl f).coreView.mgmt from rfl, hview] at hdone
  have hcfgA : ((s.coreStarts sl f).coreChecked c).mgmt.cfgA.map CfgStore.auto ≠ some true := by
    rw [show ((s.coreStarts sl f).coreChecked c).mgmt.cfgA.map CfgStore.auto = s.mgmt.cfgA.map CfgStore.auto from
      congrArg (·.mgmt.autoA) hdone]
    exact hA
  have hcfgB : ((s.coreStarts sl f).coreChecked c).mgmt.cfgB.map CfgStore.auto ≠ some true := by
    rw [show ((s.coreStarts sl f).coreChecked c).mgmt.cfgB.map CfgStore.auto = s.mgmt.cfgB.map CfgStore.auto from
      congrArg (·.mgmt.autoB) hdone]
    exact hB
  have heq : s.startCore sl f c = (s.coreStarts sl f).coreChecked c := by
    rw [State.startCore_eq]
    cases hcfg : ((s.coreStarts sl f).coreChecked c).mgmt.newerCfg with
    | none => rfl
    | some x =>
      dsimp only
      rw [Mgmt.newerCfg_auto hcfgA hcfgB hcfg, if_neg Bool.false_ne_true]
  rw [heq]
  exact ⟨hnew, hdone, by simp⟩

/-! ### BOOT -/

section
variable {f : FlashFound} {a b : ImageFound} {w : FlashFound} {c : CopiesFound}

theorem State.exec_boot (hst : (s.dom .mc).st = .waking) (hret : (s.dom .mc).fromRet = false) (hzor : s.mgmt.zor = false)
    (hlk : s.hasLk = true) (hfree : s.flashFree = true) (hans : f.answers = true) :
    exec (.boot f a b w c) s = if !flashUsable f then Machine.event true s (s.modMport fun x => x.discovered f)
      else Machine.event true s (match ((s.modMport fun x => x.discovered f).chooseImage a b).2 with
        | some sl => ((s.modMport fun x => x.discovered f).chooseImage a b).1.startCore sl w c
        | none => ((s.modMport fun x => x.discovered f).chooseImage a b).1) := by
  have hexec : exec (.boot f a b w c) s =
      if !flashUsable f then Machine.event ((s.dom .mc).st == .waking && !(s.dom .mc).fromRet && !s.mgmt.zor && s.hasLk &&
        s.flashFree && f.answers) s (s.modMport fun x => x.discovered f)
      else Machine.event ((s.dom .mc).st == .waking && !(s.dom .mc).fromRet && !s.mgmt.zor && s.hasLk && s.flashFree && f.answers) s
        (match ((s.modMport fun x => x.discovered f).chooseImage a b).2 with
        | some sl => ((s.modMport fun x => x.discovered f).chooseImage a b).1.startCore sl w c
        | none => ((s.modMport fun x => x.discovered f).chooseImage a b).1) := rfl
  have hok : ((s.dom .mc).st == .waking && !(s.dom .mc).fromRet && !s.mgmt.zor && s.hasLk && s.flashFree && f.answers) = true := by
    rw [hst, hret, hzor, hlk, hfree, hans]
    rfl
  rw [hexec, hok]

theorem State.canReport_mc (u : State) : (State.arbitrate u t).canReport .mc =
    ((t.dom .mc).fromRet || (t.mgmt.zor && t.mgmt.restore.isEmpty)) := by
  have heq : (State.arbitrate u t).canReport .mc = (((State.arbitrate u t).dom .mc).fromRet ||
      ((State.arbitrate u t).mgmt.zor && (State.arbitrate u t).mgmt.restore.isEmpty)) := rfl
  rw [heq, State.arbitrate_mgmt, arbitrate_dom]

theorem State.boot_starts {sl : Bool} (hst : (s.dom .mc).st = .waking) (hret : (s.dom .mc).fromRet = false)
    (hzor : s.mgmt.zor = false) (hlk : s.hasLk = true) (hfree : s.flashFree = true) (hans : f.answers = true)
    (hus : flashUsable f = true) (hsl : ((s.modMport fun x => x.discovered f).chooseImage a b).2 = some sl)
    (hrestore : s.mgmt.restore = []) (hauto : ∀ x, (s.mgmt.cfgA = some x ∨ s.mgmt.cfgB = some x) → x.auto = false) :
    Completes (.boot f a b w c) s fun t =>
      t.mgmt.zor = true ∧ t.mgmt.runSlot = sl ∧
      t.mgmt.entry = ((s.modMport fun x => x.discovered f).chooseImage a b).1.imageWord sl 5 ∧ t.arr.mapLoaded = true ∧
      t.canReport .mc = true ∧ t.mport.size = (match f.table with | some p => p.log2 | none => 23#5) ∧
      t.mgmt.rescue.newest = [] ∧ t.pending = s.pending ∧ t.link = s.link := by
  have hexec := State.exec_boot (a := a) (b := b) (w := w) (c := c) hst hret hzor hlk hfree hans
  rw [hus, Bool.not_true, if_neg Bool.false_ne_true, hsl] at hexec
  refine .event hexec rfl ?_
  dsimp only
  have hview := State.coreView_chooseImage a b (s.modMport fun x => x.discovered f)
  have hchoose : ((s.modMport fun x => x.discovered f).chooseImage a b).1.mask [.arr, .mport, .mgmt] =
      s.mask [.arr, .mport, .mgmt] := by simp
  have hsize : (s.modMport fun x => x.discovered f).mport.size = (match f.table with | some p => p.log2 | none => 23#5) := rfl
  generalize ((s.modMport fun x => x.discovered f).chooseImage a b).1 = v at hview hchoose ⊢
  have hnone : ∀ o : Option CfgStore, (∀ x, o = some x → x.auto = false) → o.map CfgStore.auto ≠ some true := by
    intro o ho
    cases o with
    | none => simp
    | some x => simp [ho x rfl]
  have hvA : v.mgmt.cfgA.map CfgStore.auto ≠ some true := by
    rw [show v.mgmt.cfgA.map CfgStore.auto = s.mgmt.cfgA.map CfgStore.auto from congrArg (·.mgmt.autoA) hview]
    exact hnone _ fun x hx => hauto x (.inl hx)
  have hvB : v.mgmt.cfgB.map CfgStore.auto ≠ some true := by
    rw [show v.mgmt.cfgB.map CfgStore.auto = s.mgmt.cfgB.map CfgStore.auto from congrArg (·.mgmt.autoB) hview]
    exact hnone _ fun x hx => hauto x (.inr hx)
  have hvr : v.mgmt.restore = [] := (congrArg (·.mgmt.restore) hview).trans hrestore
  obtain ⟨hnew, hdone, hmask⟩ := State.startCore_view (sl := sl) w c hvA hvB
  have hkept := hmask.trans (State.mask_mono hchoose (by decide))
  generalize v.startCore sl w c = t at hnew hdone hkept ⊢
  have hzor : t.mgmt.zor = true := congrArg (·.mgmt.zor) hdone
  have hres : t.mgmt.restore = [] := (congrArg (·.mgmt.restore) hdone).trans hvr
  refine ⟨?_, ?_, ?_, ?_, ?_, ?_, ?_, ?_, ?_⟩
  · rw [State.arbitrate_mgmt]
    exact hzor
  · rw [State.arbitrate_mgmt]
    exact congrArg (·.mgmt.runSlot) hdone
  · rw [State.arbitrate_mgmt]
    exact congrArg (·.mgmt.entry) hdone
  · rw [State.arbitrate_arr]
    exact congrArg (·.mapLoaded) hdone
  · rw [State.canReport_mc, hzor, hres]
    exact Bool.or_true _
  · rw [State.arbitrate_mport]
    exact (congrArg (·.size) hdone).trans ((congrArg (·.size) hview).trans hsize)
  · rw [State.arbitrate_mgmt]
    exact hnew
  · rw [State.arbitrate_pending]
    exact State.pending_of_mask hkept
  · rw [State.arbitrate_link]
    exact State.link_of_mask hkept (by decide)

theorem State.boot_waits (hst : (s.dom .mc).st = .waking) (hret : (s.dom .mc).fromRet = false) (hzor : s.mgmt.zor = false)
    (hlk : s.hasLk = true) (hfree : s.flashFree = true) (hans : f.answers = true) :
    (flashUsable f = true → ((s.modMport fun x => x.discovered f).chooseImage a b).2 = none →
      Completes (.boot f a b w c) s fun t =>
        t.mgmt.zor = false ∧ t.canReport .mc = false ∧ t.arr.units = s.arr.units ∧ Same [.arr, .mgmt, .mport, .int] s t) ∧
    (flashUsable f = false → Completes (.boot f a b w c) s fun t =>
      t.mport = s.mport.discovered f ∧ t.canReport .mc = false ∧ Same [.mport, .int] s t) := by
  have hexec := State.exec_boot (a := a) (b := b) (w := w) (c := c) hst hret hzor hlk hfree hans
  refine ⟨fun hus hnone => ?_, fun hus => ?_⟩
  · rw [hus, Bool.not_true, if_neg Bool.false_ne_true, hnone] at hexec
    refine .event hexec rfl ?_
    dsimp only
    have hview := State.coreView_chooseImage a b (s.modMport fun x => x.discovered f)
    have hunits := State.chooseImage_units a b (s.modMport fun x => x.discovered f)
    have hchoose : ((s.modMport fun x => x.discovered f).chooseImage a b).1.mask [.arr, .mport, .mgmt] =
        s.mask [.arr, .mport, .mgmt] := by simp
    generalize ((s.modMport fun x => x.discovered f).chooseImage a b).1 = v at hview hunits hchoose ⊢
    have hz : v.mgmt.zor = false := (congrArg (·.mgmt.zor) hview).trans hzor
    have hpwr : v.pwr = s.pwr := State.pwr_of_mask hchoose (by decide)
    refine ⟨by rw [State.arbitrate_mgmt]; exact hz, ?_, by rw [State.arbitrate_arr]; exact hunits, ?_⟩
    · rw [State.canReport_mc, hz, State.dom, hpwr]
      exact congrArg (· || false) hret
    · have hmask := State.mask_mono (qs := [.arr, .mgmt, .mport, .int]) hchoose (by decide)
      simp [Same, hmask]
  · rw [hus, Bool.not_false, if_pos rfl] at hexec
    refine .event hexec rfl ⟨by simp, ?_, by simp [Same]⟩
    rw [State.canReport_mc]
    have hz : (s.modMport fun x => x.discovered f).mgmt.zor = false := hzor
    rw [hz]
    exact congrArg (· || false) hret

end

end

/-- Settles O51: a record is one page program (`State.putRec_facts`), a confirmed trial raises MIN_VER (`Mgmt.raisedMin_le`),
and a boot
keeps `State.coreView` but for what the start of Zoruimen writes. -/
theorem coreWorkCompletes : Obligations.CoreWorkCompletes := by
  unfold Obligations.CoreWorkCompletes
  refine ⟨fun s r rs hup hfree hovf hq => State.logWrite_record hup hfree hovf hq,
    fun s hup hfree hovf => State.logWrite_overflow hup hfree hovf,
    fun s hup hfree htrial hlong => State.trialConfirm_completes hup hfree htrial hlong,
    fun s f a b w c r hst hret hzor hlk hfree hans hr => ?boot⟩
  case boot =>
    subst hr
    obtain ⟨hnone, hunusable⟩ := State.boot_waits (a := a) (b := b) (w := w) (c := c) hst hret hzor hlk hfree hans
    exact ⟨fun sl hus hsl hrestore hauto => State.boot_starts hst hret hzor hlk hfree hans hus hsl hrestore hauto, hnone,
        hunusable⟩

end Sys2Proof.Machine
end

section
/-!
PROOFS. CONFIG_STAGE while a reply is held back (R561 to R564).
-/

namespace Sys2Proof.Machine

open Sys2Proof

section

/-! ### A staging that finds a reply held back -/

/-- A module with every domain On, a whole CONFIG_STAGE in MBX_IN, no request in hand, and a reply that is held back. -/
def State.stageHeld : State :=
  { State.reset with
    clk := { pllm := .locked, lclkPresent := true, clken := 0xFFF#12 }
    pwr := { dom := Vector.replicate 9 { toRet := 0#16, toOff := 0#16, st := .on }, reqDue := false, booted := true }
    mgmt := { zor := true, inQ := [6#32], reply := some [] } }

theorem State.stageHeld_isOn (d : Dom) : State.stageHeld.isOn d = true := by
  have hdom : State.stageHeld.dom d = { toRet := 0#16, toOff := 0#16, st := .on } := Vector.getElem_replicate ..
  rw [State.isOn, hdom]
  rfl

theorem State.stageHeld_serves : State.stageHeld.Serves ⟨6#32, []⟩ 6#8 :=
  ⟨by simp only [State.coreUp, State.stageHeld_isOn]; decide, rfl, by decide, by decide⟩

/-- With every domain On no listed word waits (R564). -/
theorem State.stageHeld_waits : State.stageHeld.stageWaits false = [] := by
  refine List.filter_eq_nil_iff.mpr fun k _ => ?_
  have hwait : State.stageHeld.coreWaitsFor k = false := by
    unfold State.coreWaitsFor
    split
    · rw [State.stageHeld_isOn]
      rfl
    · rfl
  rw [hwait, Bool.and_false]
  exact Bool.false_ne_true

/-- The request is in hand, but with a reply held back it is not one that is being staged. -/
theorem State.stageHeld_exec : exec .configStage State.stageHeld =
    answer State.stageHeld (State.stageHeld.takeUpMessage ⟨6#32, []⟩) := by
  have hidle : State.stageHeld.staging = false := rfl
  have hstage : (State.stageHeld.takeUpMessage ⟨6#32, []⟩).stageFrom false = State.stageHeld.takeUpMessage ⟨6#32, []⟩ := rfl
  have hexec : exec .configStage State.stageHeld = if State.stageHeld.staging then answer State.stageHeld State.stageHeld.stageOn
      else State.stageHeld.serveMessage 6#8 (withLen 0 fun _ t => t.stageFrom false) := rfl
  rw [hexec, hidle, if_neg Bool.false_ne_true, State.stageHeld_serves.withLen (n := 0) _ rfl, hstage]

end

/-- Refutes O50: its first clause does not ask that no reply is held back, as its second and fourth clauses do. With one held
back the
request is taken up and stays in hand, since the model stages for a request without a reply only. -/
theorem not_workServicesComplete : ¬ Obligations.WorkServicesComplete := by
  unfold Obligations.WorkServicesComplete
  rintro ⟨hstage, -⟩
  obtain ⟨t, hexec, ⟨l, crc, -, -, hreplied⟩, -⟩ :=
    hstage State.stageHeld ⟨6#32, []⟩ State.stageHeld_serves rfl State.stageHeld_waits (by decide)
  obtain ⟨-, -, hreq, -⟩ := hreplied
  rw [State.stageHeld_exec, answer] at hexec
  cases hexec
  rw [State.arbitrate_mgmt] at hreq
  cases hreq

end Sys2Proof.Machine
end

section
/-!
PROOFS. Program and erase sequences of the port (R540, R544 to R548).
-/

namespace Sys2Proof.Machine

open Sys2Proof

section
variable {s t u v : State}

/-! ### The flash once all that is gathered has been programmed -/

/-- The bytes of flash 0 once the sequence in progress has ended. -/
def Mport.ended (x : Mport) : List Host.Cell :=
  match x.seq with
  | some (.program false a bs) => flashProgram x.flash a bs
  | _ => x.flash

/-- The bytes of flash 0 once the sequence in progress has ended and the page buffer is programmed. -/
def Mport.settled (x : Mport) : List Host.Cell :=
  match x.buffer with
  | some (a, bs) => flashProgram x.ended a bs
  | none => x.ended

theorem flashProgram_append (m : List Host.Cell) (a : Nat) (bs cs : List (BitVec 8)) :
    flashProgram m a (bs ++ cs) = flashProgram (flashProgram m a bs) (a + bs.length) cs := by
  induction bs generalizing m a with
  | nil => rfl
  | cons b bs ih =>
    rw [List.cons_append, flashProgram, flashProgram, ih, List.length_cons]
    congr 1
    omega

/-- t is a state in which core writes of s are gathered: no mode fault waits, and what is in progress programs flash 0. -/
structure State.Gathering (s t : State) : Prop where
  waiting : t.mport.waiting = false
  seq : t.mport.seq = none ∨ ∃ a bs, t.mport.seq = some (.program false a bs)
  flashB : t.mport.flashB = s.mport.flashB
  mgmt : t.mgmt.noStores = s.mgmt.noStores
  mask : t.mask [.arr, .mport, .mgmt] = s.mask [.arr, .mport, .mgmt]

theorem State.Gathering.of_start (hw : s.mport.waiting = false) (hseq : s.mport.seq = none) : s.Gathering s :=
  ⟨hw, .inl hseq, rfl, rfl, rfl⟩

/-- A step of the port alone that leaves waiting, the sequence and flash 1. -/
theorem State.Gathering.port (h : s.Gathering t) {f : Mport → Mport} (hw : (f t.mport).waiting = t.mport.waiting)
    (hs : (f t.mport).seq = t.mport.seq) (hb : (f t.mport).flashB = t.mport.flashB) : s.Gathering (t.modMport f) := by
  refine ⟨?_, ?_, ?_, h.mgmt, ?_⟩
  · rw [State.modMport_mport, hw]
    exact h.waiting
  · rw [State.modMport_mport, hs]
    exact h.seq
  · rw [State.modMport_mport, hb]
    exact h.flashB
  · rw [State.mask_modMport (by decide)]
    exact h.mask

/-- The end of the sequence: the bytes are programmed, the buffer stands. -/
theorem State.Gathering.endSeq (h : s.Gathering t) : s.Gathering t.endSeq ∧ t.endSeq.mport.seq = none ∧
    t.endSeq.mport.flash = t.mport.ended ∧ t.endSeq.mport.buffer = t.mport.buffer := by
  have hmgmt := (State.noStores_endSeq t).trans h.mgmt
  have hmask : t.endSeq.mask [.arr, .mport, .mgmt] = s.mask [.arr, .mport, .mgmt] := by simp [h.mask]
  have hport := t.endSeq_mport
  rcases h.seq with hnone | ⟨a, bs, hprog⟩
  · rw [Mport.endSeq_of_none hnone] at hport
    have hended : t.mport.ended = t.mport.flash := by rw [Mport.ended, hnone]
    rw [hended]
    refine ⟨⟨?_, .inl ?_, ?_, hmgmt, hmask⟩, ?_, ?_, ?_⟩
    all_goals rw [hport]
    · exact h.waiting
    · exact hnone
    · exact h.flashB
    · exact hnone
  · have heq : t.mport.endSeq = { t.mport.applySeq (.program false a bs) with seq := none, polling := false } := by
      unfold Mport.endSeq
      rw [h.waiting, if_neg Bool.false_ne_true, hprog]
    have hended : t.mport.ended = flashProgram t.mport.flash a bs := by rw [Mport.ended, hprog]
    rw [heq] at hport
    rw [hended]
    refine ⟨⟨?_, .inl ?_, ?_, hmgmt, hmask⟩, ?_, ?_, ?_⟩
    all_goals rw [hport]
    · exact h.waiting
    · exact h.flashB
    · rfl
    · rfl

theorem State.Gathering.startSeq (h : s.Gathering t) (a : Nat) (bs : List (BitVec 8)) :
    s.Gathering (t.startSeq (.program false a bs)) ∧ (t.startSeq (.program false a bs)).mport.flash = t.mport.ended ∧
    (t.startSeq (.program false a bs)).mport.seq = some (.program false a bs) ∧
    (t.startSeq (.program false a bs)).mport.buffer = t.mport.buffer := by
  obtain ⟨hg, -, hflash, hbuf⟩ := h.endSeq
  refine ⟨⟨hg.waiting, .inr ⟨a, bs, rfl⟩, hg.flashB, hg.mgmt, ?_⟩, hflash, rfl, hbuf⟩
  rw [State.startSeq, State.mask_modMport (by decide)]
  exact hg.mask

/-- A buffer that is closed is on its way to the flash. -/
theorem State.Gathering.closeBuffer (h : s.Gathering t) : s.Gathering t.closeBuffer ∧ t.closeBuffer.mport.buffer = none ∧
    t.closeBuffer.mport.settled = t.mport.settled := by
  unfold State.closeBuffer
  cases hb : t.mport.buffer with
  | none => exact ⟨h, hb, rfl⟩
  | some p =>
    obtain ⟨a, bs⟩ := p
    have hport : s.Gathering (t.modMport fun x => { x with buffer := none }) := h.port rfl rfl rfl
    obtain ⟨hg, hflash, hseq, hbuf⟩ := hport.startSeq a bs
    have hended : (t.modMport fun x => { x with buffer := none }).mport.ended = t.mport.ended := rfl
    dsimp only
    refine ⟨hg, hbuf, ?_⟩
    rw [Mport.settled, hbuf, Mport.settled, hb]
    dsimp only [State.modMport_mport]
    rw [Mport.ended, hseq, ← hended, ← hflash]

theorem Mport.settled_buffer {x : Mport} {a : Nat} {bs : List (BitVec 8)} (h : x.buffer = some (a, bs)) :
    x.settled = flashProgram x.ended a bs := by rw [Mport.settled, h]

theorem Mport.settled_idle {x : Mport} (hb : x.buffer = none) (hs : x.seq = none) : x.settled = x.flash := by
  rw [Mport.settled, hb, Mport.ended, hs]

/-- The port with one byte more in its buffer. -/
def Mport.gathered (x : Mport) (now : Tick) (a : Nat) (b : BitVec 8) : Mport :=
  { x with bufAt := now, buffer := some (match x.buffer with | some (f, l) => (f, l ++ [b]) | none => (a, [b])) }

theorem State.gather_eq (a : Nat) (b : BitVec 8) (s : State) : s.gather a b =
    let next := match s.mport.buffer with | some (f, l) => f + l.length == a | none => false
    let t := (if next then s else s.closeBuffer).modMport fun x => x.gathered s.clk.tsc a b
    if (a + 1) % s.mport.page = 0 then t.closeBuffer else t := rfl

/-- A byte that is gathered: once all is programmed it has cleared its bits (R545, R546). -/
theorem State.Gathering.gather (h : s.Gathering t) (a : Nat) (b : BitVec 8) : s.Gathering (t.gather a b) ∧
    (t.gather a b).mport.settled = flashProgram t.mport.settled a [b] := by
  have hjoin : ∀ w : State, s.Gathering w → w.mport.settled = t.mport.settled →
      (w.mport.buffer = none ∨ ∃ f l, w.mport.buffer = some (f, l) ∧ f + l.length = a) →
      s.Gathering (w.modMport fun x => x.gathered t.clk.tsc a b) ∧
      (w.modMport fun x => x.gathered t.clk.tsc a b).mport.settled = flashProgram t.mport.settled a [b] := by
    intro w hw hset hbuf
    refine ⟨hw.port rfl rfl rfl, ?_⟩
    rw [← hset, State.modMport_mport]
    have hended : (w.mport.gathered t.clk.tsc a b).ended = w.mport.ended := rfl
    rcases hbuf with hnone | ⟨f, l, hsome, rfl⟩
    · have hb : (w.mport.gathered t.clk.tsc a b).buffer = some (a, [b]) := by rw [Mport.gathered, hnone]
      have hset' : w.mport.settled = w.mport.ended := by rw [Mport.settled, hnone]
      rw [Mport.settled_buffer hb, hended, hset']
    · have hb : (w.mport.gathered t.clk.tsc (f + l.length) b).buffer = some (f, l ++ [b]) := by rw [Mport.gathered, hsome]
      rw [Mport.settled_buffer hb, hended, Mport.settled_buffer hsome, flashProgram_append]
  have hend : ∀ w : State, s.Gathering w → ∀ m, w.mport.settled = m →
      s.Gathering (if (a + 1) % t.mport.page = 0 then w.closeBuffer else w) ∧
      (if (a + 1) % t.mport.page = 0 then w.closeBuffer else w).mport.settled = m := by
    intro w hw m hm
    split
    · obtain ⟨hg, -, hset⟩ := hw.closeBuffer
      exact ⟨hg, hset.trans hm⟩
    · exact ⟨hw, hm⟩
  rw [State.gather_eq]
  dsimp only
  cases hb : t.mport.buffer with
  | none =>
    obtain ⟨hg, hnone, hset⟩ := h.closeBuffer
    dsimp only
    rw [if_neg Bool.false_ne_true]
    obtain ⟨h1, h2⟩ := hjoin _ hg hset (.inl hnone)
    exact hend _ h1 _ h2
  | some p =>
    obtain ⟨f, l⟩ := p
    dsimp only
    by_cases hnext : f + l.length = a
    · rw [if_pos (beq_iff_eq.mpr hnext)]
      obtain ⟨h1, h2⟩ := hjoin _ h rfl (.inr ⟨f, l, hb, hnext⟩)
      exact hend _ h1 _ h2
    · rw [if_neg fun hbeq => hnext (beq_iff_eq.mp hbeq)]
      obtain ⟨hg, hnone, hset⟩ := h.closeBuffer
      obtain ⟨h1, h2⟩ := hjoin _ hg hset (.inl hnone)
      exact hend _ h1 _ h2

theorem State.Gathering.gatherAll (bs : List (BitVec 8)) (a : Nat) (h : s.Gathering t) : s.Gathering (t.gatherAll a bs) ∧
    (t.gatherAll a bs).mport.settled = flashProgram t.mport.settled a bs := by
  induction bs generalizing t a with
  | nil => exact ⟨h, rfl⟩
  | cons b bs ih =>
    obtain ⟨h1, h2⟩ := h.gather a b
    obtain ⟨h3, h4⟩ := ih (a + 1) h1
    refine ⟨h3, ?_⟩
    rw [State.gatherAll, h4, h2]
    rfl

/-- The buffer closed and its programs ended (R545, R546). -/
theorem State.Gathering.bufferEnd (h : s.Gathering t) : s.Gathering (t.bufferEnd ⟨true, true⟩) ∧
    (t.bufferEnd ⟨true, true⟩).mport.seq = none ∧ (t.bufferEnd ⟨true, true⟩).mport.buffer = none ∧
    (t.bufferEnd ⟨true, true⟩).mport.flash = t.mport.settled := by
  have heq : t.bufferEnd ⟨true, true⟩ = t.closeBuffer.endSeq := rfl
  obtain ⟨hg, hbuf, hset⟩ := h.closeBuffer
  obtain ⟨hg', hseq, hflash, hbuf'⟩ := hg.endSeq
  rw [heq]
  refine ⟨hg', hseq, hbuf'.trans hbuf, ?_⟩
  rw [hflash, ← hset, Mport.settled, hbuf]

/-! ### A page that stays open -/

theorem add_mod_of_lt {a k p : Nat} (h : a % p + k < p) : (a + k) % p = a % p + k := by
  rw [← Nat.mod_add_mod, Nat.mod_eq_of_lt h]

theorem State.gather_first {a : Nat} (b : BitVec 8) (hb : s.mport.buffer = none) (hend : (a + 1) % s.mport.page ≠ 0) :
    s.gather a b = s.modMport fun x => { x with buffer := some (a, [b]), bufAt := s.clk.tsc } := by
  have hclose : s.closeBuffer = s := by rw [State.closeBuffer, hb]
  rw [State.gather_eq]
  dsimp only
  rw [hb]
  dsimp only
  rw [if_neg Bool.false_ne_true, if_neg hend, hclose]
  simp only [State.modMport, Mport.gathered, hb]

theorem State.gather_next {a f : Nat} {l : List (BitVec 8)} (b : BitVec 8) (hb : s.mport.buffer = some (f, l))
    (hf : f + l.length = a)
    (hend : (a + 1) % s.mport.page ≠ 0) : s.gather a b =
    s.modMport fun x => { x with buffer := some (f, l ++ [b]), bufAt := s.clk.tsc } := by
  rw [State.gather_eq]
  dsimp only
  rw [hb]
  dsimp only
  rw [if_pos (beq_iff_eq.mpr hf), if_neg hend]
  simp only [State.modMport, Mport.gathered, hb]

theorem State.gatherAll_open (bs : List (BitVec 8)) {a f : Nat} {l : List (BitVec 8)} (hb : s.mport.buffer = some (f, l))
    (hf : f + l.length = a) (hat : s.mport.bufAt = s.clk.tsc) (hend : ∀ i < bs.length, (a + i + 1) % s.mport.page ≠ 0) :
    s.gatherAll a bs = s.modMport fun x => { x with buffer := some (f, l ++ bs), bufAt := s.clk.tsc } := by
  induction bs generalizing s a l with
  | nil =>
    rw [State.gatherAll, List.append_nil, ← hb, ← hat]
    rfl
  | cons b bs ih =>
    have hnext := State.gather_next b hb hf (hend 0 (Nat.succ_pos _))
    rw [State.gatherAll, hnext]
    have hrest := ih (s := s.modMport fun x => { x with buffer := some (f, l ++ [b]), bufAt := s.clk.tsc }) (a := a + 1)
      (l := l ++ [b]) rfl (by rw [List.length_append, List.length_singleton]; omega) rfl (fun i hi => by
        have hpage : (s.modMport fun x => { x with buffer := some (f, l ++ [b]), bufAt := s.clk.tsc }).mport.page = s.mport.page := rfl
        rw [hpage, show a + 1 + i + 1 = a + (i + 1) + 1 from by omega]
        exact hend (i + 1) (by rw [List.length_cons]; omega))
    rw [hrest, List.append_assoc, List.singleton_append]
    rfl

/-! ### PAGE_PROGRAM and ERASE -/

theorem State.free_of_port (h : s.portFree = true) : s.flashFree = true := by
  rw [State.portFree, Bool.and_eq_true] at h
  exact h.2

theorem State.exec_pageWindow (h : s.portFree = true) (addr : BitVec 32) (bs : List (BitVec 8)) (e : BufferEnd) :
    exec (.pageProgram (.window addr) bs e) s = Machine.event true s (s.coreProgram addr.toNat bs e) := by
  have hexec : exec (.pageProgram (.window addr) bs e) s = Machine.event s.portFree s (s.coreProgram addr.toNat bs e) := rfl
  rw [hexec, h]

/-- What consecutive core writes leave, once the buffer is closed and its programs have ended (R544 to R546). -/
theorem State.coreProgram_ends (hfree : s.portFree = true) (hseq : s.mport.seq = none) (hbuf : s.mport.buffer = none)
    (addr : Nat) (bs : List (BitVec 8)) : ∃ t, s.Gathering t ∧ t.mport.seq = none ∧ t.mport.buffer = none ∧
      t.mport.flash = flashProgram s.mport.flash addr (bs.take (s.mport.window - addr)) ∧
      s.coreProgram addr bs ⟨true, true⟩ = if (bs.take (s.mport.window - addr)).length < bs.length then
        t.coreError (BitVec.ofNat 32 (max addr s.mport.window)) else t := by
  have hstart := State.Gathering.of_start (State.waiting_of_free (State.free_of_port hfree)) hseq
  obtain ⟨hg, hset⟩ := hstart.gatherAll (bs.take (s.mport.window - addr)) addr
  obtain ⟨hg', h1, h2, h3⟩ := hg.bufferEnd
  rw [hset, Mport.settled_idle hbuf hseq] at h3
  exact ⟨_, hg', h1, h2, h3, rfl⟩

theorem State.windowProgram_ends {addr : BitVec 32} {bs : List (BitVec 8)} (hfree : s.portFree = true) (hseq : s.mport.seq = none)
    (hbuf : s.mport.buffer = none) (hwf : flashWf s.mport.flash = true) (hin : addr.toNat + bs.length ≤ s.mport.window) :
    Completes (.pageProgram (.window addr) bs ⟨true, true⟩) s fun t =>
        (∀ b, flashGet t.mport.flash b =
          if addr.toNat ≤ b ∧ b < addr.toNat + bs.length
          then flashGet s.mport.flash b &&& bs.getD (b - addr.toNat) 0xFF#8 else flashGet s.mport.flash b) ∧
        t.mport.flashB = s.mport.flashB ∧ t.mport.seq = none ∧ t.mport.buffer = none ∧ Same [.arr, .mport, .mgmt, .int] s t := by
  refine .event (State.exec_pageWindow hfree addr bs _) rfl ?_
  obtain ⟨t, hg, h1, h2, h3, heq⟩ := State.coreProgram_ends hfree hseq hbuf addr.toNat bs
  rw [List.take_of_length_le (by omega)] at h3 heq
  rw [heq, if_neg (Nat.lt_irrefl _)]
  have hmask := State.mask_mono (qs := [.arr, .mport, .mgmt, .int]) hg.mask (by decide)
  rw [State.arbitrate_mport]
  refine ⟨fun b => ?_, hg.flashB, h1, h2, by simp [Same, hmask]⟩
  rw [h3, flashGet_program _ _ _ hwf]

theorem State.windowProgram_gathers {addr : BitVec 32} {bs : List (BitVec 8)} (hne : bs ≠ []) (hfree : s.portFree = true)
    (hbuf : s.mport.buffer = none) (hin : addr.toNat + bs.length ≤ s.mport.window)
    (hpage : addr.toNat % s.mport.page + bs.length < s.mport.page) :
    Completes (.pageProgram (.window addr) bs ⟨false, false⟩) s fun t =>
        t.mport = { s.mport with buffer := some (addr.toNat, bs), bufAt := s.clk.tsc } ∧ Same [.mport, .int] s t := by
  refine .event (State.exec_pageWindow hfree addr bs _) rfl ?_
  obtain ⟨b, cs, rfl⟩ := List.exists_cons_of_ne_nil hne
  rw [List.length_cons] at hin hpage
  have hend : ∀ i ≤ cs.length, (addr.toNat + i + 1) % s.mport.page ≠ 0 := by
    intro i hi
    rw [Nat.add_assoc, add_mod_of_lt (by omega)]
    omega
  have hgather : s.gatherAll addr.toNat (b :: cs) =
      s.modMport fun x => { x with buffer := some (addr.toNat, b :: cs), bufAt := s.clk.tsc } := by
    rw [State.gatherAll, State.gather_first b hbuf (hend 0 (Nat.zero_le _))]
    refine (State.gatherAll_open
        (s := s.modMport fun x => { x with buffer := some (addr.toNat, [b]), bufAt := s.clk.tsc }) cs rfl rfl
      rfl fun i hi => ?_).trans rfl
    have hsame : (s.modMport fun x => { x with buffer := some (addr.toNat, [b]), bufAt := s.clk.tsc }).mport.page = s.mport.page := rfl
    rw [hsame, show addr.toNat + [b].length = addr.toNat + 1 from rfl, show addr.toNat + 1 + i + 1 = addr.toNat +
        (i + 1) + 1 from by omega]
    exact hend (i + 1) hi
  have hcore : s.coreProgram addr.toNat (b :: cs) ⟨false, false⟩ =
      s.modMport fun x => { x with buffer := some (addr.toNat, b :: cs), bufAt := s.clk.tsc } := by
    unfold State.coreProgram
    dsimp only
    rw [List.take_of_length_le (by rw [List.length_cons]; omega), hgather, if_neg (Nat.lt_irrefl _)]
    rfl
  rw [hcore]
  exact ⟨by simp, by simp [Same]⟩

theorem State.windowProgram_above {addr : BitVec 32} {bs : List (BitVec 8)} (hfree : s.portFree = true)
    (hseq : s.mport.seq = none)
    (hbuf : s.mport.buffer = none) (hwf : flashWf s.mport.flash = true) (hne : 0 < bs.length)
    (hout : s.mport.window < addr.toNat + bs.length) (hq : s.mgmt.logQ.length < 16) :
    Completes (.pageProgram (.window addr) bs ⟨true, true⟩) s fun t =>
        s.Logged t 0x09#8 0x01#8 (BitVec.ofNat 32 (max addr.toNat s.mport.window)) 0#32 0#32 ∧
        (∀ b, s.mport.window ≤ b → flashGet t.mport.flash b = flashGet s.mport.flash b) ∧
        Same [.arr, .mport, .mgmt, .int] s t := by
  refine .event (State.exec_pageWindow hfree addr bs _) rfl ?_
  obtain ⟨t, hg, -, -, h3, heq⟩ := State.coreProgram_ends hfree hseq hbuf addr.toNat bs
  have hlen : (bs.take (s.mport.window - addr.toNat)).length = min (s.mport.window - addr.toNat) bs.length := List.length_take ..
  rw [heq, if_pos (by rw [hlen]; omega)]
  have hlogQ : t.mgmt.logQ = s.mgmt.logQ := (congrArg Mgmt.logQ hg.mgmt :)
  have hclk : t.clk = s.clk := State.clk_of_mask hg.mask (by decide)
  have hmask := State.mask_mono (qs := [.arr, .mport, .mgmt, .int]) hg.mask (by decide)
  refine ⟨State.logged_log (by rw [hlogQ]; exact hq) hlogQ (by rw [hclk]) (by rw [hclk]) s, fun b hb => ?_, ?_⟩
  · rw [State.arbitrate_mport, State.coreError, State.log_mport, h3, flashGet_program _ _ _ hwf, if_neg (by rw [hlen]; omega)]
  · simp [Same, State.coreError, hmask]

/-! #### Explicit commands -/

theorem State.exec_pageCommand {p : FlashPlace} {bs : List (BitVec 8)} (hfree : s.portFree = true)
    (hfits : pageFits s.mport.page p.addr bs = true) (hin : s.mport.reaches p bs.length = true) (e : BufferEnd) :
    exec (.pageProgram (.command p) bs e) s = Machine.event true s
      (s.closeBuffer.runSeq (.program p.flash1 p.addr.toNat bs) e.ends) := by
  have hexec : exec (.pageProgram (.command p) bs e) s = Machine.event
      (s.portFree && pageFits s.mport.page p.addr bs && s.mport.reaches p bs.length) s
      (s.closeBuffer.runSeq (.program p.flash1 p.addr.toNat bs) e.ends) := rfl
  rw [hexec, hfree, hfits, hin]
  rfl

theorem State.exec_erase {k : EraseKind} {p : FlashPlace} {e : EraseType} (hal : eraseAligned k p.addr = true)
    (hfree : s.portFree = true) (ht : s.mport.eraseType (eraseSize k) = some e) (hin : s.mport.reaches p (eraseSize k) = true)
    (ends : Bool) : exec (.erase k p ends) s = Machine.event true s
      (s.closeBuffer.runSeq (.erase p.flash1 p.addr.toNat (eraseSize k)) ends) := by
  have hexec : exec (.erase k p ends) s = Machine.event
      (s.portFree && eraseAligned k p.addr && (s.mport.eraseType (eraseSize k)).isSome && s.mport.reaches p (eraseSize k)) s
      (s.closeBuffer.runSeq (.erase p.flash1 p.addr.toNat (eraseSize k)) ends) := rfl
  rw [hexec, hfree, hal, ht, hin]
  rfl

theorem State.closeBuffer_of_none (h : s.mport.buffer = none) : s.closeBuffer = s := by rw [State.closeBuffer, h]

/-- A sequence that starts on a port at rest and has not ended (R546). -/
theorem State.runSeq_open (hseq : s.mport.seq = none) (q : PortSeq) : (s.runSeq q false).mport =
    { s.mport with
      single := (s.runSeq q false).mport.single, seq := some q, polling := s.mport.repoll, repoll := false, seqAt := s.clk.tsc
      sent := s.mport.sentPoll ++ s.mport.sentSeq q } ∧
    (s.runSeq q false).mask [.mport] = s.mask [.mport] := by
  have heq : s.runSeq q false = s.startSeq q := rfl
  have hmask := (State.startSeq_of_none hseq q).2.2
  rw [heq]
  refine ⟨?_, hmask⟩
  rw [State.startSeq, State.endSeq_of_none hseq, State.modMport_mport, State.modMport_mport, Mport.endSeq_of_none hseq]
  rfl

/-- A sequence that starts on a port at rest and has ended: its bytes are in the flash (R546, R547). -/
theorem State.runSeq_ended (hw : s.mport.waiting = false) (hseq : s.mport.seq = none) (q : PortSeq) :
    (s.runSeq q true).mport.seq = none ∧ (s.runSeq q true).mport.flash = (s.mport.applySeq q).flash ∧
    (s.runSeq q true).mport.flashB = (s.mport.applySeq q).flashB ∧
    (s.runSeq q true).mask [.arr, .mport, .mgmt] = s.mask [.arr, .mport, .mgmt] := by
  have heq : s.runSeq q true = (s.runSeq q false).endSeq := rfl
  obtain ⟨hopen, hmask⟩ := State.runSeq_open hseq q
  have hport := (s.runSeq q false).endSeq_mport
  rw [← heq] at hport
  have hended : (s.runSeq q false).mport.endSeq =
      { (s.runSeq q false).mport.applySeq q with seq := none, polling := false } := by
    unfold Mport.endSeq
    rw [hopen]
    dsimp only
    rw [hw, if_neg Bool.false_ne_true]
  have hmask' : (s.runSeq q true).mask [.arr, .mport, .mgmt] = s.mask [.arr, .mport, .mgmt] := by simp
  have hflash : ((s.runSeq q false).mport.applySeq q).flash = (s.mport.applySeq q).flash ∧
      ((s.runSeq q false).mport.applySeq q).flashB = (s.mport.applySeq q).flashB := by
    rw [hopen]
    cases q with
    | program b a bs => cases b <;> exact ⟨rfl, rfl⟩
    | erase b a n => cases b <;> exact ⟨rfl, rfl⟩
  refine ⟨?_, ?_, ?_, hmask'⟩
  all_goals rw [hport, hended]
  · exact hflash.1
  · exact hflash.2

theorem State.commandProgram_completes {p : FlashPlace} {bs : List (BitVec 8)} (hfree : s.portFree = true)
    (hseq : s.mport.seq = none) (hfits : pageFits s.mport.page p.addr bs = true) (hin : s.mport.reaches p bs.length = true) :
    (s.mport.buffer = none → Completes (.pageProgram (.command p) bs ⟨true, true⟩) s fun t =>
      t.mport.seq = none ∧ (p.flash1 = true → t.mport.flash = s.mport.flash ∧
        t.mport.flashB = flashProgram s.mport.flashB p.addr.toNat bs) ∧
      (p.flash1 = false → t.mport.flash = flashProgram s.mport.flash p.addr.toNat bs ∧ t.mport.flashB = s.mport.flashB) ∧
      Same [.arr, .mport, .mgmt, .int] s t) ∧
    (s.mport.buffer = none → Completes (.pageProgram (.command p) bs ⟨true, false⟩) s fun t =>
      t.mport.flash = s.mport.flash ∧ t.mport.flashB = s.mport.flashB ∧
      t.mport.seq = some (.program p.flash1 p.addr.toNat bs) ∧ t.mport.seqAt = s.clk.tsc ∧ Same [.mport, .int] s t) ∧
    (∀ a ds, s.mport.buffer = some (a, ds) → Completes (.pageProgram (.command p) bs ⟨true, false⟩) s fun t =>
      t.mport.flash = flashProgram s.mport.flash a ds ∧ t.mport.buffer = none ∧
      t.mport.seq = some (.program p.flash1 p.addr.toNat bs) ∧ Same [.arr, .mport, .mgmt, .int] s t) := by
  have hw := State.waiting_of_free (State.free_of_port hfree)
  refine ⟨fun hbuf => ?_, fun hbuf => ?_, fun a ds hbuf => ?_⟩
  · refine .event (State.exec_pageCommand hfree hfits hin _) rfl ?_
    obtain ⟨h1, h2, h3, hmask⟩ := State.runSeq_ended hw hseq (.program p.flash1 p.addr.toNat bs)
    rw [State.closeBuffer_of_none hbuf, State.arbitrate_mport]
    have hmask' := State.mask_mono (qs := [.arr, .mport, .mgmt, .int]) hmask (by decide)
    refine ⟨h1, fun hp => ?_, fun hp => ?_, by simp [Same, hmask']⟩
    · rw [hp] at h2 h3
      rw [hp]
      exact ⟨h2, h3⟩
    · rw [hp] at h2 h3
      rw [hp]
      exact ⟨h2, h3⟩
  · refine .event (State.exec_pageCommand hfree hfits hin _) rfl ?_
    obtain ⟨hport, hmask⟩ := State.runSeq_open hseq (.program p.flash1 p.addr.toNat bs)
    rw [State.closeBuffer_of_none hbuf, State.arbitrate_mport, hport]
    have hmask' := State.mask_mono (qs := [.mport, .int]) hmask (by decide)
    exact ⟨rfl, rfl, rfl, rfl, by simp [Same, hmask']⟩
  · refine .event (State.exec_pageCommand hfree hfits hin _) rfl ?_
    obtain ⟨hg, hnone, hset⟩ := (State.Gathering.of_start hw hseq).closeBuffer
    obtain ⟨hg', hend, hflash, hbuf'⟩ := hg.endSeq
    have hended : s.closeBuffer.mport.ended = flashProgram s.mport.flash a ds := by
      have hidle : s.mport.ended = s.mport.flash := by rw [Mport.ended, hseq]
      rw [Mport.settled_buffer hbuf, hidle] at hset
      rw [← hset, Mport.settled, hnone]
    have hrun : (s.closeBuffer.runSeq (.program p.flash1 p.addr.toNat bs) false).mport.flash = s.closeBuffer.endSeq.mport.flash ∧
        (s.closeBuffer.runSeq (.program p.flash1 p.addr.toNat bs) false).mport.buffer = s.closeBuffer.endSeq.mport.buffer ∧
        (s.closeBuffer.runSeq (.program p.flash1 p.addr.toNat bs) false).mport.seq =
          some (.program p.flash1 p.addr.toNat bs) := ⟨rfl, rfl, rfl⟩
    obtain ⟨h1, h2, h3⟩ := hrun
    rw [State.arbitrate_mport]
    exact ⟨h1.trans (hflash.trans hended), h2.trans (hbuf'.trans hnone), h3, by simp [Same]⟩

theorem State.erase_completes {k : EraseKind} {p : FlashPlace} {e : EraseType} (hal : eraseAligned k p.addr = true)
    (hfree : s.portFree = true) (hseq : s.mport.seq = none) (hbuf : s.mport.buffer = none) (hwf : flashWf s.mport.flash = true)
    (ht : s.mport.eraseType (eraseSize k) = some e) (hin : s.mport.reaches p (eraseSize k) = true) :
    (p.flash1 = false → Completes (.erase k p true) s fun t =>
      (∀ b, flashGet t.mport.flash b =
        if p.addr.toNat ≤ b ∧ b < p.addr.toNat + eraseSize k then 0xFF#8 else flashGet s.mport.flash b) ∧
      t.mport.flashB = s.mport.flashB ∧ t.mport.seq = none ∧ Same [.arr, .mport, .mgmt, .int] s t) ∧
    Completes (.erase k p false) s fun t =>
      t.mport.flash = s.mport.flash ∧ t.mport.flashB = s.mport.flashB ∧
      t.mport.seq = some (.erase p.flash1 p.addr.toNat (eraseSize k)) ∧
      t.mport.sent = s.mport.sentPoll ++ [sentEnable, msbFirst e.opcode ++ s.mport.addrBits p.addr.toNat, sentStatus] ∧
      Same [.mport, .int] s t := by
  refine ⟨fun hp => ?_, ?_⟩
  · refine .event (State.exec_erase hal hfree ht hin true) rfl ?_
    obtain ⟨h1, h2, h3, hmask⟩ := State.runSeq_ended (State.waiting_of_free (State.free_of_port hfree)) hseq
      (.erase p.flash1 p.addr.toNat (eraseSize k))
    rw [State.closeBuffer_of_none hbuf, State.arbitrate_mport]
    have hmask' := State.mask_mono (qs := [.arr, .mport, .mgmt, .int]) hmask (by decide)
    rw [hp] at h1 h2 h3 hmask' ⊢
    refine ⟨fun b => ?_, h3, h1, by simp [Same, hmask']⟩
    rw [h2]
    exact flashGet_erase b hwf
  · refine .event (State.exec_erase hal hfree ht hin false) rfl ?_
    obtain ⟨hport, hmask⟩ := State.runSeq_open hseq (.erase p.flash1 p.addr.toNat (eraseSize k))
    have hsent : s.mport.sentSeq (.erase p.flash1 p.addr.toNat (eraseSize k)) =
        [sentEnable, msbFirst e.opcode ++ s.mport.addrBits p.addr.toNat, sentStatus] := by
      rw [Mport.sentSeq, Mport.sentOp, ht]
    rw [State.closeBuffer_of_none hbuf, State.arbitrate_mport, hport, hsent]
    have hmask' := State.mask_mono (qs := [.mport, .int]) hmask (by decide)
    exact ⟨rfl, rfl, rfl, rfl, by simp [Same, hmask']⟩

/-! ### FLASH_TIMEOUT -/

/-- A program that timed out leaves bytes that have gained no bit, and those outside it as they were (R546, R548). -/
theorem State.cutFlash_facts {a : Nat} {bs : List (BitVec 8)} (hseq : s.mport.seq = some (.program false a bs))
    (hwf : flashWf s.mport.flash = true) :
    (∀ b, b < a ∨ a + bs.length ≤ b → flashGet (s.cutFlash s.mport).flash b = flashGet s.mport.flash b) ∧
    (∀ b, flashGet (s.cutFlash s.mport).flash b &&& flashGet s.mport.flash b = flashGet (s.cutFlash s.mport).flash b) ∧
    (s.mport.polling = true → (s.cutFlash s.mport).flash = s.mport.flash) := by
  have hsame : ∀ x : BitVec 8, x &&& x = x := fun x => BitVec.and_self
  by_cases hpoll : s.mport.polling = true
  · have heq : s.cutFlash s.mport = s.mport := if_pos hpoll
    rw [heq]
    exact ⟨fun _ _ => rfl, fun b => hsame _, fun _ => rfl⟩
  · have heq : (s.cutFlash s.mport).flash = flashProgram s.mport.flash a
        ((List.range bs.length).map fun i => bs.getD i 0xFF#8 ||| Config.flashByte s.fresh i) := by
      unfold State.cutFlash
      rw [if_neg hpoll, hseq]
      rfl
    rw [heq]
    refine ⟨fun b hb => ?_, fun b => ?_, fun h => absurd h hpoll⟩
    · rw [flashGet_program _ _ _ hwf, if_neg]
      rw [List.length_map, List.length_range]
      omega
    · rw [flashGet_program _ _ _ hwf]
      split
      · rw [BitVec.and_assoc, BitVec.and_comm _ (flashGet s.mport.flash b), ← BitVec.and_assoc, hsame]
      · exact hsame _

theorem State.flashTimeout_completes {a : Nat} {bs : List (BitVec 8)} (hseq : s.mport.seq = some (.program false a bs))
    (hover : s.seqOver = true) (hw : s.mport.waiting = false) (hlk : s.hasLk = true) (hwf : flashWf s.mport.flash = true)
    (hq : s.mgmt.logQ.length < 16) : Completes .flashTimeout s fun t =>
      (∀ b, b < a ∨ a + bs.length ≤ b → flashGet t.mport.flash b = flashGet s.mport.flash b) ∧
      (∀ b, flashGet t.mport.flash b &&& flashGet s.mport.flash b = flashGet t.mport.flash b) ∧
      (s.mport.polling = true → t.mport.flash = s.mport.flash) ∧
      t.mport.seq = none ∧ t.mport.repoll = true ∧ t.mgmt.alert = 0x01#8 ∧ t.mgmt.alertEvt = true ∧
      s.Logged t 0x09#8 0x02#8 (BitVec.ofNat 32 a) 0#32 0#32 ∧ Same [.arr, .mport, .mgmt, .fresh, .int] s t := by
  have hexec : exec .flashTimeout s = Machine.event (s.seqOver && !s.mport.waiting && s.hasLk) s
      (((match s.mport.seq with
        | some q => if s.mport.polling then { s with fresh := s.fresh + 1 }.modMport fun x =>
              { s.cutFlash x with seq := none, polling := false, repoll := true }
            else ({ s with fresh := s.fresh + 1 }.modMport fun x =>
              { s.cutFlash x with seq := none, polling := false, repoll := true }).changedBy q
        | none => { s with fresh := s.fresh + 1 }.modMport fun x =>
            { s.cutFlash x with seq := none, polling := false, repoll := true }).log 0x09#8 0x02#8 s.portAddress 0#32
        0#32).raiseAlert 0x01#8) := rfl
  refine .event hexec (by rw [hover, hw, hlk]; rfl) ?_
  have haddr : s.portAddress = BitVec.ofNat 32 a := by rw [State.portAddress, hseq]
  obtain ⟨h1, h2, h3⟩ := State.cutFlash_facts hseq hwf
  rw [hseq, haddr]
  dsimp only
  obtain ⟨v, hv, hport, hmgmt, hclk, hmask⟩ : ∃ v,
      (if s.mport.polling = true then { s with fresh := s.fresh + 1 }.modMport fun x =>
        { s.cutFlash x with seq := none, polling := false, repoll := true }
      else ({ s with fresh := s.fresh + 1 }.modMport fun x =>
        { s.cutFlash x with seq := none, polling := false, repoll := true }).changedBy (.program false a bs)) = v ∧
      v.mport = { s.cutFlash s.mport with seq := none, polling := false, repoll := true } ∧ v.mgmt.logQ = s.mgmt.logQ ∧
      v.clk = s.clk ∧ v.mask [.arr, .mport, .mgmt, .fresh] = s.mask [.arr, .mport, .mgmt, .fresh] := by
    refine ⟨_, rfl, ?_⟩
    split
    · exact ⟨rfl, rfl, rfl, by simp⟩
    · exact ⟨rfl, rfl, rfl, by simp⟩
  rw [hv]
  have halert : ∀ w : State, (w.raiseAlert 0x01#8).mport = w.mport ∧ (w.raiseAlert 0x01#8).mgmt.alert = 0x01#8 ∧
      (w.raiseAlert 0x01#8).mgmt.alertEvt = true ∧ (w.raiseAlert 0x01#8).mgmt.logQ = w.mgmt.logQ := fun w => ⟨rfl, rfl, rfl, rfl⟩
  obtain ⟨g1, g2, g3, g4⟩ := halert (v.log 0x09#8 0x02#8 (BitVec.ofNat 32 a) 0#32 0#32)
  rw [State.log_mport, hport] at g1
  have hlogged := State.logged_log (s := s) (t := v) (cls := 0x09#8) (code := 0x02#8) (d0 := BitVec.ofNat 32 a) (d1 := 0#32)
    (d2 := 0#32) (by rw [hmgmt]; exact hq) hmgmt (by rw [hclk]) (by rw [hclk]) s
  rw [State.Logged, State.arbitrate_mgmt] at hlogged
  rw [State.arbitrate_mport, State.arbitrate_mgmt, g1]
  have hmask' := State.mask_mono (qs := [.arr, .mport, .mgmt, .fresh, .int]) hmask (by decide)
  refine ⟨h1, h2, h3, rfl, rfl, g2, g3, ?_, by simp [Same, hmask']⟩
  rw [State.Logged, State.arbitrate_mgmt, g4]
  exact hlogged

end

/-- Settles O55: core writes keep what the flash will hold once all is programmed (`State.Gathering.gatherAll`); an explicit
command is one
sequence (`State.runSeq_open`, `State.runSeq_ended`), and one that timed out is cut (`State.cutFlash_facts`). -/
theorem flashSequencesComplete : Obligations.FlashSequencesComplete := by
  unfold Obligations.FlashSequencesComplete
  exact ⟨fun s addr bs hne hfree hseq hbuf hwf => ⟨fun hin => State.windowProgram_ends hfree hseq hbuf hwf hin,
      fun hin hpage => State.windowProgram_gathers hne hfree hbuf hin hpage,
      fun hout hq => State.windowProgram_above hfree hseq hbuf hwf (List.length_pos_iff.mpr hne) hout hq⟩,
    fun s p bs hfree hseq hfits hin => State.commandProgram_completes hfree hseq hfits hin,
    fun s k p e hal hfree hseq hbuf hwf ht hin => State.erase_completes hal hfree hseq hbuf hwf ht hin,
    fun s a bs hseq hover hw hlk hwf hq => State.flashTimeout_completes hseq hover hw hlk hwf hq⟩

end Sys2Proof.Machine
end

section
/-!
PROOFS. Scarecrow (chapter 07).
-/

namespace Sys2Proof.Machine

open Sys2Proof

/-- What completes with one claim completes with any that follows from it. -/
theorem Completes.imp {c : Instr} {s : State} {P Q : State → Prop} (h : Completes c s P) (hpq : ∀ t, P t →
    Q t) : Completes c s Q := by
  obtain ⟨t, hexec, hp⟩ := h
  exact ⟨t, hexec, hpq t hp⟩

section
variable (s : State) (high : Bool) (axes : BitVec 3)

/-! ### Trips (R282, R285, R286) -/

/-- What a trip sets, before the wakes it asks for (R282, R286). -/
def Scar.tripped (x : Scar) (high : Bool) (axes : BitVec 3) (ht : Nat) : Scar :=
  let x := { x with trip := true, high := high, axes := if high then axes else 0#3, tripHt := BitVec.ofNat 32 ht }
  let x := if x.classify then { x.open_ with pendHt := ht } else x
  { x with wakeHold := x.autowake && x.classify }

theorem Scar.tripped_facts (x : Scar) (ht : Nat) :
    let y := x.tripped high axes ht
    y.trip = true ∧ y.high = high ∧ y.axes = (if high then axes else 0#3) ∧ y.tripHt = BitVec.ofNat 32 ht ∧
    (x.classify = true → y.pend = true ∧ y.winCount = 0 ∧ y.pendHt = ht) ∧ (x.classify = false → y.pend = x.pend) ∧
    y.wakeHold = (x.autowake && x.classify) ∧ y.armed = x.armed := by
  unfold Scar.tripped
  dsimp only
  cases hc : x.classify
  · exact ⟨rfl, rfl, rfl, rfl, fun h => absurd h Bool.false_ne_true, fun _ => rfl, by simp, rfl⟩
  · exact ⟨rfl, rfl, rfl, rfl, fun _ => ⟨rfl, rfl, rfl⟩, fun h => absurd h.symm Bool.false_ne_true, by simp [Scar.open_], rfl⟩

/-- The state after a trip, before the wakes it asks for. -/
def State.tripped : State := s.modScar fun x => x.tripped high axes s.clk.ht

theorem State.exec_trip : exec (.scarTrip high axes) s = event (s.scarMay high) s
    (if !s.scar.autowake then s.tripped high axes
      else if s.clk.park != .running then (s.tripped high axes).modScar fun x => { x with wakeOwed := true }
      else (s.tripped high axes).scarWake).refreshPaths := rfl

variable {s high axes}

/-- Without AUTOWAKE a trip asks for no wake (R285). -/
theorem State.trip_asleep (hmay : s.scarMay high = true) (hauto : s.scar.autowake = false) :
    Completes (.scarTrip high axes) s fun t => t.scar = s.scar.tripped high axes s.clk.ht ∧ Same [.scar, .harrow, .int] s t := by
  refine .event (State.exec_trip s high axes) hmay ?_
  rw [hauto, Bool.not_false, if_pos rfl]
  have hscar : (s.tripped high axes).refreshPaths.scar = (s.tripped high axes).scar :=
    State.scar_of_mask (ps := [.harrow]) (by simp) (by decide)
  exact ⟨by rw [State.arbitrate_scar, hscar]; rfl, by simp [Same, State.tripped]⟩

theorem State.trip_parked (hmay : s.scarMay high = true) (hauto : s.scar.autowake = true) (hpark : s.clk.park ≠ .running) :
    Completes (.scarTrip high axes) s fun t =>
      t.scar = { s.scar.tripped high axes s.clk.ht with wakeOwed := true } ∧ Same [.scar, .harrow, .int] s t := by
  refine .event (State.exec_trip s high axes) hmay ?_
  rw [hauto, Bool.not_true, if_neg Bool.false_ne_true, if_pos (bne_iff_ne.mpr hpark)]
  refine ⟨?_, by simp [Same, State.tripped]⟩
  rw [State.arbitrate_scar, State.scar_of_mask (State.mask_refreshPaths (ps := [.harrow]) (by decide) _) (by decide)]
  rfl

theorem State.trip_awake (hmay : s.scarMay high = true) (hauto : s.scar.autowake = true) (hpark : s.clk.park = .running)
    {P : State → Prop} (hp : P (State.arbitrate s (s.tripped high axes).scarWake.refreshPaths)) :
    Completes (.scarTrip high axes) s P := by
  refine .event (State.exec_trip s high axes) hmay ?_
  rw [hauto, Bool.not_true, if_neg Bool.false_ne_true, if_neg (by rw [hpark]; decide)]
  exact hp

/-! ### The wakes a trip asks for (R285) -/

/-- The demands of a trip change no part but that of the domains. -/
theorem State.demands_tripped (t : State) : ((t.demand .af).demand .en).mask [.pwr] = t.mask [.pwr] := by simp

/-- A demand of a domain that starts with it waits to be taken up (R423). -/
theorem State.demandDue_of_starts {d : Dom} {t : State} (h : t.demandStarts d = true) :
    ((t.demand d).dom d).demandDue = true := by
  unfold State.demandStarts at h
  unfold State.demand
  split at h
  · rename_i hst; rw [hst]; simp
  · rename_i hst; rw [hst]; simp
  · rename_i hst; rw [hst]; simp
  · cases h

/-- A demand leaves whether another one waits (R423). -/
theorem State.demand_dom_ne {d e : Dom} (h : e ≠ d) (t : State) : (t.demand d).dom e = t.dom e := by
  unfold State.demand
  split <;> try split
  all_goals simp [State.dom_modDom, h]

theorem State.trip_rests (hmay : s.scarMay high = true) (hauto : s.scar.autowake = true) (hpark : s.clk.park = .running)
    (haf : s.demandStarts .af = false) (hen : s.demandStarts .en = false) :
    Completes (.scarTrip high axes) s fun t =>
      t.scar = s.scar.tripped high axes s.clk.ht ∧ t.pwr.wakeSrc = s.pwr.wakeSrc ∧ Same [.scar, .harrow, .pwr, .int] s t := by
  refine State.trip_awake hmay hauto hpark ?_
  have hwake : (s.tripped high axes).scarWake = ((s.tripped high axes).demand .af).demand .en := by
    unfold State.scarWake
    dsimp only
    rw [show (s.tripped high axes).demandStarts .af = false from haf, show
        (s.tripped high axes).demandStarts .en = false from hen]
    exact if_neg Bool.false_ne_true
  rw [hwake]
  have hmask := State.demands_tripped (s.tripped high axes)
  obtain ⟨haf, -, -⟩ := State.demand_wake .af (s.tripped high axes)
  obtain ⟨hen, -, -⟩ := State.demand_wake .en ((s.tripped high axes).demand .af)
  refine ⟨?_, ?_, ?_⟩
  · rw [State.arbitrate_scar, State.scar_of_mask (State.mask_refreshPaths (ps := [.harrow]) (by decide) _) (by decide),
      State.scar_of_mask hmask (by decide)]
    rfl
  · rw [State.arbitrate_pwr, State.pwr_of_mask (State.mask_refreshPaths (ps := [.harrow]) (by decide) _) (by decide), hen, haf]
    rfl
  · simp [Same, State.tripped]

/-- A trip that starts a domain records SCARECROW in WAKE_REC (R285, R451). -/
theorem State.trip_wakes (hmay : s.scarMay high = true) (hauto : s.scar.autowake = true) (hpark : s.clk.park = .running)
    (hstarts : (s.demandStarts .af || s.demandStarts .en) = true) :
    Completes (.scarTrip high axes) s fun t =>
      t.scar = s.scar.tripped high axes s.clk.ht ∧
      (s.demandStarts .af = true → (t.dom .af).demandDue = true) ∧ (s.demandStarts .en = true → (t.dom .en).demandDue = true) ∧
      t.pwr.wakeSrc = 0x04#8 ∧ t.pwr.wakeDet = (if high then axes else 0#3).setWidth 8 ∧
      t.pwr.wakeHt = BitVec.ofNat 16 s.clk.ht ∧ Same [.scar, .harrow, .pwr, .mgmt, .int] s t := by
  refine State.trip_awake hmay hauto hpark ?_
  obtain ⟨-, -, haxes, -⟩ := s.scar.tripped_facts high axes s.clk.ht
  have hwake : (s.tripped high axes).scarWake = (((s.tripped high axes).demand .af).demand .en).wakeRec 0x04#8
      ((s.scar.tripped high axes s.clk.ht).axes.setWidth 8) := if_pos hstarts
  have hmask := State.demands_tripped (s.tripped high axes)
  obtain ⟨u, hu, hus, huc, haf, hen⟩ : ∃ u, ((s.tripped high axes).demand .af).demand .en = u ∧
      u.scar = s.scar.tripped high axes s.clk.ht ∧ u.clk = s.clk ∧
      (s.demandStarts .af = true → (u.dom .af).demandDue = true) ∧ (s.demandStarts .en = true →
          (u.dom .en).demandDue = true) := by
    refine ⟨_, rfl, State.scar_of_mask hmask (by decide),
      (State.clk_of_mask hmask (by decide) : _ = (s.tripped high axes).clk), fun h => ?_, fun h => ?_⟩
    · rw [State.demand_dom_ne (by decide)]
      exact State.demandDue_of_starts h
    · refine State.demandDue_of_starts ?_
      unfold State.demandStarts at h ⊢
      rw [State.demand_dom_ne (by decide)]
      exact h
  rw [hwake, haxes, hu]
  have hsame : u.mask [.scar, .pwr] = s.mask [.scar, .pwr] := by rw [← hu]; simp [State.tripped]
  have hr : ∀ v : State, v.refreshPaths.mask [.harrow] = v.mask [.harrow] := State.mask_refreshPaths (by decide)
  refine ⟨?_, fun h => ?_, fun h => ?_, ?_, ?_, ?_, ?_⟩
  · rw [State.arbitrate_scar, State.scar_of_mask (hr _) (by decide), State.wakeRec, State.log_scar]
    exact hus
  · rw [State.arbitrate_dom, State.dom, State.pwr_of_mask (hr _) (by decide), State.wakeRec, State.log_pwr]
    exact haf h
  · rw [State.arbitrate_dom, State.dom, State.pwr_of_mask (hr _) (by decide), State.wakeRec, State.log_pwr]
    exact hen h
  · rw [State.arbitrate_pwr, State.pwr_of_mask (hr _) (by decide), State.wakeRec, State.log_pwr]
    rfl
  · rw [State.arbitrate_pwr, State.pwr_of_mask (hr _) (by decide), State.wakeRec, State.log_pwr]
    rfl
  · rw [State.arbitrate_pwr, State.pwr_of_mask (hr _) (by decide), State.wakeRec, State.log_pwr, ← huc]
    rfl
  · have hmask' := State.mask_mono (qs := [.scar, .harrow, .pwr, .mgmt, .int]) hsame (by decide)
    simp [Same, hmask']

end

/-! ### Arming and the clear of SCAR_TRIP (R252, R282) -/

section
variable {s : State}

theorem State.scarArmed_completes (hclk : s.clken 11 = true) (harm : s.scar.armed = false) (hrun : s.clk.inReset = false) :
    Completes .scarArmed s fun t => t.scar = { s.scar with armed := true } ∧ Same [.scar, .int] s t := by
  refine .event (u := s) (t := s.modScar fun x => { x with armed := true }) rfl (by rw [hclk, harm, hrun]; rfl) ?_
  exact ⟨by simp, by simp [Same]⟩

/-- SCAR_REARM writes bit 6 of EVT_STAT alone (R252). -/
theorem State.writeEvtStat_rearm (htrip : s.scar.trip = true) :
    s.writeEvtStat (flg true 6) = s.modScar fun x => { x with trip := false, armed := false } := by
  have hw : ∀ (b : Bool) (k : Nat), k ≠ 6 → w1c b (flg true 6) k = b := by
    intro b k hk
    rw [w1c, bitAt_flg_ne hk, Bool.not_false, Bool.and_true]
  have hf : ∀ x : BitVec 6, w1cField x (flg true 6) 0 = x := by
    intro x
    unfold w1cField
    rw [show bits (flg true 6) 0 6 = 0#6 from by decide, BitVec.not_zero, BitVec.and_allOnes]
  unfold State.writeEvtStat Scar.clearTrip State.modScar State.modRecog State.modCap
  simp only [htrip, hf, hw _ 9 (by decide), hw _ 7 (by decide), hw _ 8 (by decide), hw _ 10 (by decide),
      bitAt_flg_self _ 6 (by decide), if_true]

theorem State.clearTrip_completes (hreach : s.Reaches 32) (htrip : s.scar.trip = true) : Completes .scarRearm s fun t =>
    t.scar = { s.scar with trip := false, armed := false } ∧ t.recog = s.recog ∧ t.cap = s.cap ∧
    t.host = { s.host with done := true, valid := false } ∧ Same [.scar, .host, .int] s t := by
  have hexec : exec .scarRearm s = Machine.answer s (s.hostWrite 32 (flg true 6)) := rfl
  refine .answer hexec ?_
  rw [State.hostWrite_plain (i := 32) hreach rfl]
  have hreg : s.writeReg (32 : Fin 64).val (flg true 6) 0#12 = s.writeEvtStat (flg true 6) := rfl
  rw [hreg, State.writeEvtStat_rearm htrip]
  exact ⟨by simp, by simp, by simp, by simp, by simp [Same]⟩

/-! ### Classification (R286, R287) -/

theorem State.scarWrite_scar (cclass : BitVec 3) (axis : BitVec 2) (neg : Bool) (peak mean : Grain) (ts : Tick)
    (hfr : s.recog.scarFr = false) :
    (s.scarWrite cclass axis neg peak mean ts).scar =
      { s.scar with
        pend := false, cls := true, wakeHold := false, cclass := cclass, axis := axis, neg := neg, peak := peak
        mean := mean, ts := ts } ∧
    Same [.scar, .harrow, .int] s (State.arbitrate s (s.scarWrite cclass axis neg peak mean ts)) := by
  unfold State.scarWrite
  dsimp only
  rw [if_neg (by rw [hfr]; decide)]
  exact ⟨State.scar_of_mask (State.mask_refreshPaths (ps := [.harrow]) (by decide) _) (by decide), by simp [Same]⟩

/-- CLASS of a full window (R286, R287). -/
def State.scarClass (s : State) : BitVec 3 :=
  let mean := intGrain (quotient (s.scar.winSum : Int) s.scar.winCount)
  if s.scar.lo ≠ 0#8 ∧ !s.lowOff ∧ mean.toNat < s.scarGrains s.scar.loCode then 2#3
  else if s.scar.hi ≠ 0#8 ∧ s.scarGrains s.scar.hiCode ≤ s.scar.winPeak.toNat then 1#3
  else 0#3

theorem State.scarClass_facts :
    let mean := intGrain (quotient (s.scar.winSum : Int) s.scar.winCount)
    (s.scar.lo ≠ 0#8 → s.lowOff = false → mean.toNat < s.scarGrains s.scar.loCode → s.scarClass = 2#3) ∧
    (s.scar.lo = 0#8 ∨ s.lowOff = true ∨ s.scarGrains s.scar.loCode ≤ mean.toNat →
      (s.scar.hi ≠ 0#8 → s.scarGrains s.scar.hiCode ≤ s.scar.winPeak.toNat → s.scarClass = 1#3) ∧
      (s.scar.hi = 0#8 ∨ s.scar.winPeak.toNat < s.scarGrains s.scar.hiCode → s.scarClass = 0#3)) := by
  unfold State.scarClass
  dsimp only
  refine ⟨fun hlo hoff hmean => if_pos ⟨hlo, by rw [hoff]; rfl, hmean⟩, fun hnot => ?_⟩
  rw [if_neg]
  · refine ⟨fun hhi hpeak => if_pos ⟨hhi, hpeak⟩, fun hnot => if_neg fun ⟨hhi, hpeak⟩ => ?_⟩
    rcases hnot with h | h
    · exact hhi h
    · omega
  · rintro ⟨hlo, hoff, hmean⟩
    rcases hnot with h | h | h
    · exact hlo h
    · rw [h] at hoff; cases hoff
    · omega

theorem State.scarClassify_completes (hpend : s.scar.pend = true) (hfull : s.scar.window ≤ s.scar.winCount)
    (hen : s.isOn .en = true) (hsm : s.hasSm = true) (hfr : s.recog.scarFr = false) :
    let mean := intGrain (quotient (s.scar.winSum : Int) s.scar.winCount)
    Completes .scarClassify s fun t =>
      t.scar.pend = false ∧ t.scar.cls = true ∧ t.scar.wakeHold = false ∧ t.scar.axis = s.scar.winAxis ∧
      t.scar.neg = s.scar.winNeg ∧ t.scar.peak = s.scar.winPeak ∧ t.scar.mean = mean ∧ t.scar.ts = s.scar.winLast ∧
      (s.scar.lo ≠ 0#8 → s.lowOff = false → mean.toNat < s.scarGrains s.scar.loCode → t.scar.cclass = 2#3) ∧
      (s.scar.lo = 0#8 ∨ s.lowOff = true ∨ s.scarGrains s.scar.loCode ≤ mean.toNat →
        (s.scar.hi ≠ 0#8 → s.scarGrains s.scar.hiCode ≤ s.scar.winPeak.toNat → t.scar.cclass = 1#3) ∧
        (s.scar.hi = 0#8 ∨ s.scar.winPeak.toNat < s.scarGrains s.scar.hiCode → t.scar.cclass = 0#3)) ∧
      t.scar.trip = s.scar.trip ∧ Same [.scar, .harrow, .int] s t := by
  have hexec : exec .scarClassify s = Machine.event
      (s.scar.pend && decide (s.scar.window ≤ s.scar.winCount) && s.isOn .en && s.hasSm) s
      (s.scarWrite s.scarClass s.scar.winAxis s.scar.winNeg s.scar.winPeak
        (intGrain (quotient (s.scar.winSum : Int) s.scar.winCount)) s.scar.winLast) := rfl
  refine .event hexec (by rw [hpend, hen, hsm, decide_eq_true hfull]; rfl) ?_
  obtain ⟨hscar, hsame⟩ := State.scarWrite_scar s.scarClass s.scar.winAxis s.scar.winNeg s.scar.winPeak
    (intGrain (quotient (s.scar.winSum : Int) s.scar.winCount)) s.scar.winLast hfr
  obtain ⟨hlow, hnot⟩ := s.scarClass_facts
  rw [State.arbitrate_scar, hscar]
  exact ⟨rfl, rfl, rfl, rfl, rfl, rfl, rfl, rfl, hlow, hnot, rfl, hsame⟩

theorem State.scarTimeout_completes (hpend : s.scar.pend = true) (hopen : s.scar.winCount < s.scar.window)
    (hpark : s.clk.park = .running) (hlate : s.scarLate = true) (hfr : s.recog.scarFr = false) :
    Completes .scarClassTimeout s fun t =>
      t.scar.pend = false ∧ t.scar.cls = true ∧ t.scar.cclass = 4#3 ∧ t.scar.wakeHold = false ∧ t.scar.ts = s.clk.tsc ∧
      t.scar.trip = s.scar.trip ∧ Same [.scar, .harrow, .int] s t := by
  have hexec : exec .scarClassTimeout s = Machine.event
      (s.scar.pend && decide (s.scar.winCount < s.scar.window) && s.clk.park == .running && s.scarLate) s
      (s.scarWrite 4#3 0#2 false 0#24 0#24 s.clk.tsc) := rfl
  refine .event hexec (by rw [hpend, hpark, hlate, decide_eq_true hopen]; rfl) ?_
  obtain ⟨hscar, hsame⟩ := State.scarWrite_scar 4#3 0#2 false 0#24 0#24 s.clk.tsc hfr
  rw [State.arbitrate_scar, hscar]
  exact ⟨rfl, rfl, rfl, rfl, rfl, rfl, hsame⟩

end

/-- Settles O24: a trip is `Scar.tripped` followed by the wakes it asks for (`State.trip_wakes`), a classification
`State.scarWrite`. -/
theorem scarecrowCompletes : Obligations.ScarecrowCompletes := by
  unfold Obligations.ScarecrowCompletes
  refine ⟨fun s high axes hmay hauto => ?_, fun s high axes hmay hauto hpark => ⟨fun haf hen => ?_, fun haf => ?_, fun hen => ?_⟩,
    fun s high axes hmay hauto hpark => ?_, fun s => State.scarArmed_completes, fun s => State.clearTrip_completes,
    fun s mean hp hw hen hsm hfr hmean => hmean ▸ State.scarClassify_completes hp hw hen hsm hfr,
    fun s => State.scarTimeout_completes⟩
  · obtain ⟨h1, h2, h3, h4, h5, h6, h7, h8⟩ := s.scar.tripped_facts high axes s.clk.ht
    refine (State.trip_asleep hmay hauto).imp fun t ⟨hscar, hsame⟩ => ?_
    rw [hscar]
    exact ⟨h1, h2, h3, h4, h5, h6, by rw [h7, hauto, Bool.false_and], h8, hsame⟩
  · obtain ⟨h1, h2, -, -, -, -, h7, -⟩ := s.scar.tripped_facts high axes s.clk.ht
    refine (State.trip_rests hmay hauto hpark haf hen).imp fun t ⟨hscar, hsrc, hsame⟩ => ?_
    rw [hscar]
    exact ⟨h1, h2, by rw [h7, hauto, Bool.true_and], hsrc, hsame⟩
  · obtain ⟨h1, h2, -, -, -, -, h7, -⟩ := s.scar.tripped_facts high axes s.clk.ht
    refine (State.trip_wakes hmay hauto hpark (by rw [haf, Bool.true_or])).imp fun t ⟨hscar, hdue, _, hsrc, hdet, hht,
        hsame⟩ => ?_
    rw [hscar]
    exact ⟨h1, h2, by rw [h7, hauto, Bool.true_and], hdue haf, hsrc, hdet, hht, hsame⟩
  · obtain ⟨h1, h2, -, -, -, -, h7, -⟩ := s.scar.tripped_facts high axes s.clk.ht
    refine (State.trip_wakes hmay hauto hpark (by rw [hen, Bool.or_true])).imp fun t ⟨hscar, _, hdue, hsrc, _, _, hsame⟩ => ?_
    rw [hscar]
    exact ⟨h1, h2, by rw [h7, hauto, Bool.true_and], hdue hen, hsrc, hsame⟩
  · obtain ⟨h1, h2, -⟩ := s.scar.tripped_facts high axes s.clk.ht
    refine (State.trip_parked hmay hauto hpark).imp fun t ⟨hscar, hsame⟩ => ?_
    rw [hscar]
    exact ⟨h1, h2, rfl, hsame⟩

end Sys2Proof.Machine
end

section
/-!
PROOFS. Capture control and directory (chapter 07).
-/

namespace Sys2Proof.Machine

open Sys2Proof

/-! ### Words of CAP_CTRL -/

theorem bits_setField (w : Word) (lo : Nat) {n m k : Nat} (v : BitVec n) (hlt : k + m ≤ 32) (hout : k + m ≤ lo ∨ lo + n ≤ k) :
    bits (setField w lo v) k m = bits w k m := by
  apply BitVec.eq_of_getLsbD_eq
  intro i hi
  rw [getLsbD_bits, getLsbD_bits, bitAt_setField w lo v (by omega), if_neg (by omega)]

theorem bits_setField_self (w : Word) (lo : Nat) {n : Nat} (v : BitVec n) (hlt : lo + n ≤ 32) :
    bits (setField w lo v) lo n = v := by
  apply BitVec.eq_of_getLsbD_eq
  intro i hi
  rw [getLsbD_bits, bitAt_setField w lo v (by omega), if_pos (by omega), Nat.add_sub_cancel_left, decide_eq_true hi,
      Bool.true_and]

section
variable (s : State)

theorem State.capKeep_bit {k : Nat} (hk : k < 4 ∨ k = 7) :
    bitAt s.capKeep k = if k = 0 then s.cap.arm else if k = 3 then s.cap.owner else if k = 7 then s.cap.spillAuto else false := by
  have hslots : bitAt (fld s.cap.slots 4) k = false := bitAt_fld_out _ (by omega)
  unfold State.capKeep
  rw [bitAt_or, bitAt_or, bitAt_or, hslots]
  obtain rfl | rfl | rfl | rfl | rfl : k = 0 ∨ k = 1 ∨ k = 2 ∨ k = 3 ∨ k = 7 := by omega
  all_goals simp [bitAt_flg]

theorem State.capKeep_slots : bits s.capKeep 4 3 = s.cap.slots := by
  unfold State.capKeep
  rw [bits_or, bits_or, bits_or, bits_flg_apart _ (by omega), bits_flg_apart _ (by omega), bits_fld_self _ (by omega),
    bits_flg_below _ (by omega)]
  simp

/-- A word of CAP_CTRL that leaves the RW fields but ARM as they stand. -/
def State.KeepsCap (s : State) (w : Word) : Prop :=
  bitAt w 3 = s.cap.owner ∧ bits w 4 3 = s.cap.slots ∧ bitAt w 7 = s.cap.spillAuto

theorem State.keepsCap_flg {k : Nat} (hk : k < 3) : s.KeepsCap (s.capKeep ||| flg true k) := by
  refine ⟨?_, ?_, ?_⟩
  · rw [bitAt_or, State.capKeep_bit s (by omega), bitAt_flg_ne (by omega), Bool.or_false]; rfl
  · rw [bits_or, State.capKeep_slots, bits_flg_apart _ (by omega), BitVec.or_zero]
  · rw [bitAt_or, State.capKeep_bit s (by omega), bitAt_flg_ne (by omega), Bool.or_false]; rfl

theorem State.bitAt_capKeep_flg {j k : Nat} (hj : j < 3) (hk : k < 3) :
    bitAt (s.capKeep ||| flg true k) j = (if j = 0 then s.cap.arm || decide (k = 0) else decide (j = k)) := by
  rw [bitAt_or, State.capKeep_bit s (by omega)]
  obtain rfl | rfl | rfl : j = 0 ∨ j = 1 ∨ j = 2 := by omega
  all_goals obtain rfl | rfl | rfl : k = 0 ∨ k = 1 ∨ k = 2 := by omega
  all_goals simp [bitAt_flg]

/-! ### What a write of CAP_CTRL does -/

/-- OWNER, SLOTS and SPILL_AUTO of a write of CAP_CTRL (R43, R275). -/
def State.capFields (w : Word) : State :=
  s.modCap fun c =>
    { (if s.spec.mode == .capture then c else c.setSlots (bits w 4 3)) with
      spillAuto := bitAt w 7, owner := if s.cap.capturing || s.spec.mode == .capture then s.cap.owner else bitAt w 3 }

/-- ABORT, ARM and TRIG of a write of CAP_CTRL, in this order (R277, R278, R281). -/
def State.capActs (arm trig abort : Bool) : State :=
  let s := if abort then s.abortCapture else s
  let s := s.modCap fun c =>
    if abort then c
    else if arm then (if c.arm then c else c.armOn s.capPorts s.fastCode)
    else if c.capturing then { c with arm := false }
    else { c with arm := false, full := false, recording := none }
  if trig && s.isOn .en then s.trigger 0#8 (s.clk.tsc + 1#64) s.clk.tsc 0#32 0#32 else s

theorem State.writeCapCtrl_eq (w : Word) : s.writeCapCtrl w = (s.capFields w).capActs (bitAt w 0) (bitAt w 1) (bitAt w 2) := rfl

theorem Cap.setSlots_same (c : Cap) : c.setSlots c.slots = c := if_pos (Or.inl rfl)

theorem State.modCap_self {s : State} {f : Cap → Cap} (h : f s.cap = s.cap) : s.modCap f = s := by
  unfold State.modCap
  rw [h]

theorem State.modCap_congr {s : State} {f g : Cap → Cap} (h : f s.cap = g s.cap) : s.modCap f = s.modCap g := by
  unfold State.modCap
  rw [h]

theorem State.capFields_keeps {s : State} {w : Word} (h : s.KeepsCap w) : s.capFields w = s := by
  obtain ⟨howner, hslots, hspill⟩ := h
  refine State.modCap_self ?_
  rw [hslots, Cap.setSlots_same, howner, hspill, ite_self, ite_self]

@[simp] theorem State.mask_capActs (h : Part.cap ∈ ps) (arm trig : Bool) : (s.capActs arm trig false).mask ps = s.mask ps := by
  unfold State.capActs
  dsimp only
  rw [if_neg Bool.false_ne_true]
  split <;> simp [h]

end

section
variable {s : State}

/-- A host write of CAP_CTRL (R462). -/
theorem State.hostWrite_capCtrl (hreach : s.Reaches 39) (w : Word) : s.hostWrite 39 w = (s.writeCapCtrl w).finishWrite :=
  State.hostWrite_plain (i := 39) hreach rfl w

/-- A write that keeps the RW fields sets one of ARM, TRIG and ABORT. -/
theorem State.hostWrite_capKeep (hreach : s.Reaches 39) {k : Nat} (hk : k < 3) : s.hostWrite 39 (s.capKeep ||| flg true k) =
    (s.capActs (s.cap.arm || decide (k = 0)) (decide (1 = k)) (decide (2 = k))).finishWrite := by
  rw [State.hostWrite_capCtrl hreach, State.writeCapCtrl_eq, State.capFields_keeps (s.keepsCap_flg hk),
    s.bitAt_capKeep_flg (by decide) hk, s.bitAt_capKeep_flg (by decide) hk, s.bitAt_capKeep_flg (by decide) hk]
  rfl

theorem State.exec_arm (hreach : s.Reaches 39) (harm : s.cap.arm = false) : exec .arm s =
    answer s (s.modCap fun c => c.armOn s.capPorts s.fastCode).finishWrite := by
  have hexec : exec .arm s = answer s (s.hostWrite 39 (s.capKeep ||| flg true 0)) := rfl
  rw [hexec, State.hostWrite_capKeep hreach (by decide), harm]
  have hacts : s.capActs (false || decide (0 = 0)) (decide (1 = 0)) (decide (2 = 0)) =
      s.modCap fun c => if c.arm then c else c.armOn s.capPorts s.fastCode := rfl
  have hset : (s.modCap fun c => if c.arm then c else c.armOn s.capPorts s.fastCode) = s.modCap fun c => c.armOn s.capPorts s.fastCode :=
    State.modCap_congr (if_neg (by rw [harm]; decide))
  rw [hacts, hset]

theorem State.exec_trig (hreach : s.Reaches 39) (harm : s.cap.arm = true) : exec .trig s =
    answer s (if s.isOn .en then s.trigger 0#8 (s.clk.tsc + 1#64) s.clk.tsc 0#32 0#32 else s).finishWrite := by
  have hexec : exec .trig s = answer s (s.hostWrite 39 (s.capKeep ||| flg true 1)) := rfl
  have hsame : (s.modCap fun c => if c.arm then c else c.armOn s.capPorts s.fastCode) = s := State.modCap_self (if_pos harm)
  have hacts : s.capActs (true || decide (1 = 0)) (decide (1 = 1)) (decide (2 = 1)) =
      let t := s.modCap fun c => if c.arm then c else c.armOn s.capPorts s.fastCode
      if t.isOn .en then t.trigger 0#8 (t.clk.tsc + 1#64) t.clk.tsc 0#32 0#32 else t := rfl
  rw [hexec, State.hostWrite_capKeep hreach (by decide), harm, hacts, hsame]

theorem State.exec_abort (hreach : s.Reaches 39) : exec .abort s = answer s s.abortCapture.finishWrite := by
  have hexec : exec .abort s = answer s (s.hostWrite 39 (s.capKeep ||| flg true 2)) := rfl
  have hacts : ∀ b, s.capActs b (decide (1 = 2)) (decide (2 = 2)) = s.abortCapture := fun _ => rfl
  rw [hexec, State.hostWrite_capKeep hreach (by decide), hacts]

/-! ### ARM (R277, R278) -/

theorem Cap.armOn_ok {c : Cap} (hok : c.armOk = true) (hcap : c.capturing = false) (ports : Bool) (rate : BitVec 4) :
    c.armOn ports rate = Cap.restart { c with arm := true, err := false } ports rate := by
  unfold Cap.armOn
  rw [if_pos hok]
  exact if_neg (by rw [hcap]; decide)

theorem State.captureArm_completes (hreach : s.Reaches 39) (harm : s.cap.arm = false) (hcap : s.cap.capturing = false)
    (hok : s.cap.armOk = true) {P : State → Prop} (hp : ∀ t,
        t.cap = Cap.restart { s.cap with arm := true, err := false } s.capPorts s.fastCode →
      t.host = { s.host with done := true, valid := false } → Same [.cap, .host, .int] s t → P t) : Completes .arm s P := by
  refine .answer (State.exec_arm hreach harm) (hp _ ?_ (by simp) (by simp [Same]))
  rw [State.arbitrate_cap, State.finishWrite_cap, State.modCap_cap, Cap.armOn_ok hok hcap]

theorem State.captureArm_starts (hreach : s.Reaches 39) (harm : s.cap.arm = false) (hcap : s.cap.capturing = false)
    (hok : s.cap.armOk = true) (hports : s.capPorts = true) {k : Nat} (hfree : s.cap.lowestFree = some k) :
    Completes .arm s fun t =>
      t.cap.arm = true ∧ t.cap.err = false ∧ t.cap.full = false ∧ t.cap.cur = BitVec.ofNat 4 k ∧
      t.cap.recording =
        some { mask := s.cap.mask, src := s.cap.src, pre := s.cap.pre.toNat, post := s.cap.post.toNat, rate := s.fastCode } ∧
      t.cap.dir = s.cap.dir ∧ t.cap.slots = s.cap.slots ∧ t.cap.owner = s.cap.owner ∧
      t.host = { s.host with done := true, valid := false } ∧ Same [.cap, .host, .int] s t := by
  refine State.captureArm_completes hreach harm hcap hok fun t hc hhost hsame => ?_
  have hfree' : Cap.lowestFree { s.cap with arm := true, err := false } = some k := hfree
  rw [hports, Cap.restart, if_pos rfl, Cap.begin, hfree'] at hc
  rw [hc]
  exact ⟨rfl, rfl, rfl, rfl, rfl, rfl, rfl, rfl, hhost, hsame⟩

theorem State.captureArm_full (hreach : s.Reaches 39) (harm : s.cap.arm = false) (hcap : s.cap.capturing = false)
    (hok : s.cap.armOk = true) (hports : s.capPorts = true) (hfree : s.cap.lowestFree = none) :
    Completes .arm s fun t =>
      t.cap.arm = true ∧ t.cap.err = false ∧ t.cap.full = true ∧ t.cap.recording = none ∧ t.cap.dir = s.cap.dir ∧
      Same [.cap, .host, .int] s t := by
  refine State.captureArm_completes hreach harm hcap hok fun t hc _ hsame => ?_
  have hfree' : Cap.lowestFree { s.cap with arm := true, err := false } = none := hfree
  rw [hports, Cap.restart, if_pos rfl, Cap.begin, hfree'] at hc
  rw [hc]
  exact ⟨rfl, rfl, rfl, rfl, rfl, hsame⟩

theorem State.captureArm_rests (hreach : s.Reaches 39) (harm : s.cap.arm = false) (hcap : s.cap.capturing = false)
    (hok : s.cap.armOk = true) (hrec : s.cap.recording = none) (hports : s.capPorts = false) :
    Completes .arm s fun t =>
      t.cap = { s.cap with arm := true, err := false, full := false } ∧ Same [.cap, .host, .int] s t := by
  refine State.captureArm_completes hreach harm hcap hok fun t hc _ hsame => ⟨?_, hsame⟩
  rw [hc, hports, Cap.restart, if_neg Bool.false_ne_true]
  dsimp only
  rw [← hrec]

theorem State.captureArm_invalid (hreach : s.Reaches 39) (harm : s.cap.arm = false) (hok : s.cap.armOk = false) :
    Completes .arm s fun t => t.cap.arm = false ∧ t.cap.err = true ∧ t.cap.dir = s.cap.dir ∧ Same [.cap, .host, .int] s t := by
  refine .answer (State.exec_arm hreach harm) ?_
  have hset : s.cap.armOn s.capPorts s.fastCode = { s.cap with err := true } := if_neg (by rw [hok]; decide)
  rw [State.arbitrate_cap, State.finishWrite_cap, State.modCap_cap, hset]
  exact ⟨harm, rfl, rfl, by simp [Same]⟩

/-! ### TRIG (R278, R438) -/

theorem State.trig_unseen (hreach : s.Reaches 39) (harm : s.cap.arm = true) (hen : s.isOn .en = false) :
    Completes .trig s fun t => t.cap = s.cap ∧ Same [.cap, .host, .int] s t := by
  refine .answer (State.exec_trig hreach harm) ?_
  rw [if_neg (by rw [hen]; decide)]
  exact ⟨by simp, by simp [Same]⟩

/-- A trigger that has found its sample is the trigger it was (R278). -/
theorem bindTrigger_facts (r : Recording) (g : Trigger) :
    (bindTrigger r g).source = g.source ∧ (bindTrigger r g).at_ = g.at_ ∧ (bindTrigger r g).came = g.came := by
  unfold bindTrigger
  dsimp only
  split <;> exact ⟨rfl, rfl, rfl⟩

/-- A trigger during pre-trigger recording makes it a capture (R278). -/
theorem State.trigger_captures {r : Recording} (harm : s.cap.arm = true) (hfull : s.cap.full = false)
    (hrec : s.cap.recording = some r) (htrig : r.trig = none) (source : BitVec 8) (at_ came : Tick) (r8 r9 : Word) :
    s.trigger source at_ came r8 r9 = s.modCap fun c =>
      { c with
        capturing := true
        triggers := satInc c.triggers
        recording := some { r with trig := some (bindTrigger r ⟨came, at_, source, r8, r9, none, 0, 0, 0⟩) } } := by
  unfold State.trigger
  rw [hrec]
  dsimp only
  rw [harm, hfull, if_neg (by decide), htrig]

theorem State.trig_captures {r : Recording} (hreach : s.Reaches 39) (harm : s.cap.arm = true) (hen : s.isOn .en = true)
    (hfull : s.cap.full = false) (hrec : s.cap.recording = some r) (htrig : r.trig = none) :
    Completes .trig s fun t =>
      t.cap.capturing = true ∧ t.cap.triggers = satInc s.cap.triggers ∧ t.cap.missed = s.cap.missed ∧
      (∃ q g, t.cap.recording = some q ∧ q.trig = some g ∧ g.source = 0#8 ∧ g.at_ = s.clk.tsc + 1#64 ∧
        g.came = s.clk.tsc ∧ q.mask = r.mask) ∧
      t.cap.dir = s.cap.dir ∧ t.cap.store = s.cap.store ∧ Same [.cap, .host, .int] s t := by
  refine .answer (State.exec_trig hreach harm) ?_
  rw [if_pos hen, State.trigger_captures harm hfull hrec htrig, State.arbitrate_cap, State.finishWrite_cap, State.modCap_cap]
  obtain ⟨hsource, hat, hcame⟩ := bindTrigger_facts r ⟨s.clk.tsc, s.clk.tsc + 1#64, 0#8, 0#32, 0#32, none, 0, 0, 0⟩
  exact ⟨rfl, rfl, rfl, ⟨_, _, rfl, rfl, hsource, hat, hcame, rfl⟩, rfl, rfl, by simp [Same]⟩

/-! ### Completion and ABORT (R278, R281) -/

theorem Cap.entry_modEntry (c : Cap) {k : Nat} (hk : k < 16) (f : Dir → Dir) (j : Nat) :
    (c.modEntry k f).entry j = if j = k then f (c.entry k) else c.entry j := by
  unfold Cap.modEntry Cap.entry
  rw [dif_pos hk]
  by_cases hj : j < 16
  · rw [dif_pos hj, dif_pos hj, Vector.getElem_set, dif_pos hk]
    by_cases hjk : k = j
    · rw [if_pos hjk, if_pos hjk.symm]
    · rw [if_neg hjk, if_neg (Ne.symm hjk)]
  · rw [dif_neg hj, dif_neg hj, if_neg (by omega)]

/-- The capture store once a capture is complete, before recording starts anew (R278, R280). -/
def Cap.completed (c : Cap) (r : Recording) (g : Trigger) (at_ : Tick) (aborted : Bool) : Cap :=
  { c.modEntry c.cur.toNat fun d => { d with used := true, spilled := false } with
    store := Mem.putList 0#32 c.store (slotBase c.slots c.cur.toNat) (c.header r g at_ aborted)
    seq := c.seq + 1#32
    capDone := true
    capturing := false
    recording := none
    arm := c.arm && !aborted }

/-- A capture that is not armed again is complete (R278, R281). -/
theorem State.completeCapture_ends {r : Recording} {g : Trigger} (hrec : s.cap.recording = some r) (htrig : r.trig = some g)
    {aborted : Bool} (hend : (s.cap.arm && !aborted) = false) :
    ∃ g' at_, s.completeCapture aborted = { s with cap := s.cap.completed r g' at_ aborted, fresh := s.fresh + 1 } := by
  refine ⟨if g.sample.isSome then g else { g with kept := min r.pre r.held },
    (if g.sample.isSome then g else { g with kept := min r.pre r.held }).sample.getD (Config.noTriggerSample s.fresh), ?_⟩
  unfold State.completeCapture
  rw [hrec]
  dsimp only
  rw [htrig]
  dsimp only
  rw [if_neg (by rw [hend]; decide)]
  rfl

/-- What stands in the capture store once a capture is complete (R278). -/
theorem Cap.completed_facts (c : Cap) (r : Recording) (g : Trigger) (at_ : Tick) (aborted : Bool) :
    let d := c.completed r g at_ aborted
    (d.entry c.cur.toNat).used = true ∧ (d.entry c.cur.toNat).spilled = false ∧ d.capDone = true ∧ d.seq = c.seq + 1#32 ∧
    d.capturing = false ∧ d.recording = none ∧ (∀ j, j ≠ c.cur.toNat → d.entry j = c.entry j) := by
  have hentry : ∀ j, (c.completed r g at_ aborted).entry j =
      (c.modEntry c.cur.toNat fun d => { d with used := true, spilled := false }).entry j := fun _ => rfl
  refine ⟨?_, ?_, rfl, rfl, rfl, rfl, fun j hj => ?_⟩
  · rw [hentry, Cap.entry_modEntry _ c.cur.isLt, if_pos rfl]
  · rw [hentry, Cap.entry_modEntry _ c.cur.isLt, if_pos rfl]
  · rw [hentry, Cap.entry_modEntry _ c.cur.isLt, if_neg hj]

/-- The header of an aborted capture has ABORTED (R280, R281). -/
theorem Cap.completed_header {c : Cap} (hwf : Mem.wf 0#32 c.store = true) (r : Recording) (g : Trigger) (at_ : Tick) :
    bitAt (Mem.get 0#32 (c.completed r g at_ true).store (slotBase c.slots c.cur.toNat)) 22 = true := by
  have hstore : (c.completed r g at_ true).store =
      Mem.putList 0#32 c.store (slotBase c.slots c.cur.toNat) (c.header r g at_ true) := rfl
  have hlen : (c.header r g at_ true).length = 16 := rfl
  rw [hstore, Mem.get_putList _ _ _ hwf, if_pos ⟨Nat.le_refl _, by rw [hlen]; omega⟩, Nat.sub_self]
  unfold Cap.header
  dsimp only
  rw [List.getD_cons_zero, bitAt_or, bitAt_or, bitAt_flg_self _ _ (by decide), Bool.or_true, Bool.true_or]

theorem State.captureDone_completes {r : Recording} {g : Trigger} (hrec : s.cap.recording = some r) (htrig : r.trig = some g)
    (hpost : r.post ≤ g.post) (harm : s.cap.arm = false) (hsm : s.hasSm = true) :
    Completes .captureDone s fun t =>
      (t.cap.entry s.cap.cur.toNat).used = true ∧ (t.cap.entry s.cap.cur.toNat).spilled = false ∧ t.cap.capDone = true ∧
      t.cap.seq = s.cap.seq + 1#32 ∧ t.cap.capturing = false ∧ t.cap.recording = none ∧
      (∀ j, j ≠ s.cap.cur.toNat → t.cap.entry j = s.cap.entry j) ∧ Same [.cap, .int, .fresh] s t := by
  have hexec : exec .captureDone s = Machine.event ((match s.cap.recording with
      | some r => (match r.trig with | some g => decide (r.post ≤ g.post) | none => false)
      | none => false) && s.hasSm) s (s.completeCapture false) := rfl
  rw [hrec] at hexec
  dsimp only at hexec
  rw [htrig] at hexec
  refine .event hexec (by dsimp only; rw [decide_eq_true hpost, hsm]; rfl) ?_
  obtain ⟨g', at_, hdone⟩ := State.completeCapture_ends hrec htrig (aborted := false) (by rw [harm]; rfl)
  obtain ⟨h1, h2, h3, h4, h5, h6, h7⟩ := s.cap.completed_facts r g' at_ false
  have hsame : Same [.cap, .int, .fresh] s (State.arbitrate s (s.completeCapture false)) := by simp [Same]
  rw [hdone] at hsame ⊢
  rw [State.arbitrate_cap]
  exact ⟨h1, h2, h3, h4, h5, h6, h7, hsame⟩

theorem State.abort_discards {r : Recording} (hreach : s.Reaches 39) (hrec : s.cap.recording = some r) (htrig : r.trig = none) :
    Completes .abort s fun t =>
      t.cap.arm = false ∧ t.cap.full = false ∧ t.cap.recording = none ∧ t.cap.dir = s.cap.dir ∧ t.cap.seq = s.cap.seq ∧
      t.cap.capDone = s.cap.capDone ∧ Same [.cap, .host, .int] s t := by
  refine .answer (State.exec_abort hreach) ?_
  have habort : s.abortCapture = s.modCap fun c => { c with arm := false, full := false, recording := none } := by
    unfold State.abortCapture
    rw [hrec]
    dsimp only
    rw [htrig]
    exact if_neg (by decide)
  rw [habort, State.arbitrate_cap, State.finishWrite_cap]
  exact ⟨rfl, rfl, rfl, rfl, rfl, rfl, by simp [Same]⟩

theorem State.abort_captures {r : Recording} {g : Trigger} (hreach : s.Reaches 39) (hrec : s.cap.recording = some r)
    (htrig : r.trig = some g) (hwf : Mem.wf 0#32 s.cap.store = true) :
    Completes .abort s fun t =>
      t.cap.arm = false ∧ t.cap.full = false ∧ t.cap.recording = none ∧ t.cap.capturing = false ∧ t.cap.capDone = true ∧
      t.cap.seq = s.cap.seq + 1#32 ∧ (t.cap.entry s.cap.cur.toNat).used = true ∧
      bitAt (Mem.get 0#32 t.cap.store (slotBase s.cap.slots s.cap.cur.toNat)) 22 = true ∧
      Same [.cap, .host, .int, .fresh] s t := by
  refine .answer (State.exec_abort hreach) ?_
  obtain ⟨g', at_, hdone⟩ := State.completeCapture_ends hrec htrig (aborted := true) (by rw [Bool.not_true, Bool.and_false])
  have habort : s.abortCapture = (s.completeCapture true).modCap fun c => { c with arm := false, full := false } := by
    unfold State.abortCapture
    rw [hrec]
    dsimp only
    rw [htrig]
    exact if_pos rfl
  obtain ⟨h1, -, h3, h4, h5, h6, -⟩ := s.cap.completed_facts r g' at_ true
  have hsame : Same [.cap, .host, .int, .fresh] s (State.arbitrate s s.abortCapture.finishWrite) := by simp [Same]
  rw [habort, hdone] at hsame ⊢
  rw [State.arbitrate_cap, State.finishWrite_cap]
  exact ⟨rfl, rfl, h6, h5, h3, h4, h1, Cap.completed_header hwf r g' at_, hsame⟩

/-! ### RELEASE, OWNER and SLOTS (R43, R275, R277) -/

theorem State.tsWrite_dir {k : Nat} (hk : k < 16) (w : Word) :
    s.tsWrite (0x4080 + k) w = if bitAt w 2 then s.releaseSlot k else s := by
  have hblock : (0x4080 + k) / 4096 = 4 := by omega
  have hoff : (0x4080 + k) % 4096 = 0x80 + k := by omega
  have hk' : (0x80 + k) % 16 = k := by omega
  unfold State.tsWrite
  dsimp only
  rw [hblock, hoff]
  unfold State.writeRecog
  dsimp only
  rw [if_neg (by omega), if_neg (by omega), if_neg (by omega), if_pos (by omega), hk']
  rfl

/-- RELEASE of a slot that is neither recorded nor analysed, while no recording waits (R277). -/
theorem State.releaseSlot_frees (hrec : s.cap.recording = none) (hmode : s.spec.mode ≠ .capture) (hfull : s.cap.full = false)
    (k : Nat) : s.releaseSlot k = s.modCap fun c => c.modEntry k fun _ => {} := by
  have hstill : (s.cap.modEntry k fun _ => {}).full = false := by
    unfold Cap.modEntry
    split <;> exact hfull
  unfold State.releaseSlot
  dsimp only
  rw [hrec, beq_eq_false_iff_ne.mpr hmode]
  rw [if_neg (by simp)]
  exact State.modCap_congr (if_neg (by rw [hstill, Bool.false_and]; decide))

theorem State.release_completes (k : Fin 16) (hreach : s.ReachesTs (0x4080 + k.val)) (hrec : s.cap.recording = none)
    (hmode : s.spec.mode ≠ .capture) (hfull : s.cap.full = false) :
    Completes (.release k) s fun t =>
      t.cap.entry k.val = {} ∧ (∀ j, j ≠ k.val → t.cap.entry j = s.cap.entry j) ∧ t.cap.store = s.cap.store ∧
      t.cap.seq = s.cap.seq ∧ Same [.cap, .pwr, .host, .int] s t := by
  refine .answer (congrArg (answer s) (State.hostTs_reaches hreach (flg true 2))) ?_
  rw [State.tsWrite_dir k.isLt, if_pos (bitAt_flg_self true 2 (by decide)),
    State.releaseSlot_frees (by rw [State.touchTs_cap]; exact hrec) (by rw [State.touchTs_spec]; exact hmode)
      (by rw [State.touchTs_cap]; exact hfull)]
  simp only [State.arbitrate_cap, State.finishWrite_cap, State.winNext_cap, State.modCap_cap, State.touchTs_cap]
  refine ⟨?_, fun j hj => ?_, ?_, ?_, by simp [Same]⟩
  · rw [Cap.entry_modEntry _ k.isLt, if_pos rfl]
  · rw [Cap.entry_modEntry _ k.isLt, if_neg hj]; rfl
  · rw [Cap.modEntry, dif_pos k.isLt]; rfl
  · rw [Cap.modEntry, dif_pos k.isLt]; rfl

/-- A write of OWNER or SLOTS leaves ARM, TRIG and ABORT as they stand. -/
theorem State.hostWrite_capSet (hreach : s.Reaches 39) {n : Nat} (v : BitVec n) {lo : Nat} (hlo : 3 ≤ lo) :
    s.hostWrite 39 (setField s.capKeep lo v) =
      ((s.capFields (setField s.capKeep lo v)).capActs s.cap.arm false false).finishWrite := by
  have hbit : ∀ k, k < 3 → bitAt (setField s.capKeep lo v) k = if k = 0 then s.cap.arm else false := by
    intro k hk
    rw [bitAt_setField _ _ _ (by omega), if_neg (by omega), State.capKeep_bit s (by omega)]
    obtain rfl | rfl | rfl : k = 0 ∨ k = 1 ∨ k = 2 := by omega
    all_goals rfl
  rw [State.hostWrite_capCtrl hreach, State.writeCapCtrl_eq, hbit 0 (by decide), hbit 1 (by decide), hbit 2 (by decide)]
  rfl

/-- While no capture runs, a write with ARM 0 ends pre-trigger recording alone (R278). -/
theorem State.capActs_rests (hcap : s.cap.capturing = false) :
    s.capActs false false false = s.modCap fun c => { c with arm := false, full := false, recording := none } := by
  have hacts : s.capActs false false false = s.modCap fun c =>
      if c.capturing then { c with arm := false } else { c with arm := false, full := false, recording := none } := rfl
  rw [hacts]
  exact State.modCap_congr (if_neg (by rw [hcap]; decide))

theorem State.owner_changes (hreach : s.Reaches 39) (hcap : s.cap.capturing = false) (hmode : s.spec.mode ≠ .capture)
    (harm : s.cap.arm = false) (v : Bool) : Completes (.ownerChange v) s fun t =>
      t.cap.owner = v ∧ t.cap.slots = s.cap.slots ∧ t.cap.dir = s.cap.dir ∧ t.cap.store = s.cap.store ∧
      Same [.cap, .host, .int] s t := by
  have hexec : exec (.ownerChange v) s = Machine.answer s (s.hostWrite 39 (setField s.capKeep 3 (BitVec.ofBool v))) := rfl
  rw [State.hostWrite_capSet hreach _ (Nat.le_refl 3), harm] at hexec
  have hfields : (s.capFields (setField s.capKeep 3 (BitVec.ofBool v))) = s.modCap fun c => { c with owner := v } := by
    have hslots : bits (setField s.capKeep 3 (BitVec.ofBool v)) 4 3 = s.cap.slots := by
      rw [bits_setField _ _ _ (by decide) (Or.inr (by decide)), State.capKeep_slots]
    have hspill : bitAt (setField s.capKeep 3 (BitVec.ofBool v)) 7 = s.cap.spillAuto := by
      rw [bitAt_setField _ _ _ (by decide), if_neg (by decide), State.capKeep_bit s (Or.inr rfl)]
      rfl
    have howner : (if s.cap.capturing || s.spec.mode == .capture then s.cap.owner
        else bitAt (setField s.capKeep 3 (BitVec.ofBool v)) 3) = v := by
      rw [hcap, beq_eq_false_iff_ne.mpr hmode, Bool.or_false, if_neg Bool.false_ne_true, bitAt_setField _ _ _ (by decide),
          if_pos (by decide)]
      cases v <;> rfl
    refine State.modCap_congr ?_
    rw [hslots, Cap.setSlots_same, hspill, howner, ite_self]
  have hrests := State.capActs_rests (s := s.modCap fun c => { c with owner := v }) hcap
  rw [hfields, hrests] at hexec
  refine .answer hexec ?_
  rw [State.arbitrate_cap, State.finishWrite_cap]
  exact ⟨rfl, rfl, rfl, rfl, by simp [Same]⟩

theorem State.owner_stands (hreach : s.Reaches 39) (hcap : s.cap.capturing = true) (v : Bool) :
    Completes (.ownerChange v) s fun t => t.cap = { s.cap with arm := t.cap.arm } ∧ Same [.cap, .host, .int] s t := by
  have hexec : exec (.ownerChange v) s = Machine.answer s (s.hostWrite 39 (setField s.capKeep 3 (BitVec.ofBool v))) := rfl
  rw [State.hostWrite_capSet hreach _ (Nat.le_refl 3)] at hexec
  have hfields : (s.capFields (setField s.capKeep 3 (BitVec.ofBool v))) = s := by
    have hslots : bits (setField s.capKeep 3 (BitVec.ofBool v)) 4 3 = s.cap.slots := by
      rw [bits_setField _ _ _ (by decide) (Or.inr (by decide)), State.capKeep_slots]
    have hspill : bitAt (setField s.capKeep 3 (BitVec.ofBool v)) 7 = s.cap.spillAuto := by
      rw [bitAt_setField _ _ _ (by decide), if_neg (by decide), State.capKeep_bit s (Or.inr rfl)]
      rfl
    refine State.modCap_self ?_
    rw [hslots, Cap.setSlots_same, hspill, hcap, ite_self]
    rfl
  have hacts : (s.capActs s.cap.arm false false).cap = { s.cap with arm := (s.capActs s.cap.arm false false).cap.arm } := by
    have heq : (s.capActs s.cap.arm false false).cap = if s.cap.arm then (if s.cap.arm then s.cap else
        s.cap.armOn s.capPorts s.fastCode) else if s.cap.capturing then { s.cap with arm := false }
        else { s.cap with arm := false, full := false, recording := none } := rfl
    rw [heq, hcap]
    split <;> rfl
  rw [hfields] at hexec
  refine .answer hexec ⟨?_, by simp [Same]⟩
  rw [State.arbitrate_cap, State.finishWrite_cap]
  exact hacts

theorem State.slots_change (hreach : s.Reaches 39) (hcap : s.cap.capturing = false) (hmode : s.spec.mode ≠ .capture)
    (harm : s.cap.arm = false) {v : BitVec 3} (hv : v ≠ s.cap.slots) : Completes (.slotsChange v) s fun t =>
      t.cap.slots = v ∧ (∀ k, t.cap.entry k = {}) ∧ t.cap.store = [] ∧ t.cap.owner = s.cap.owner ∧
      t.cap.seq = s.cap.seq ∧ Same [.cap, .host, .int] s t := by
  have hexec : exec (.slotsChange v) s = Machine.answer s (s.hostWrite 39 (setField s.capKeep 4 v)) := rfl
  rw [State.hostWrite_capSet hreach _ (by decide), harm] at hexec
  have hfields : (s.capFields (setField s.capKeep 4 v)) = s.modCap fun c =>
      { c with slots := v, dir := Vector.replicate 16 {}, store := [], full := false, recording := none } := by
    have howner : bitAt (setField s.capKeep 4 v) 3 = s.cap.owner := by
      rw [bitAt_setField _ _ _ (by decide), if_neg (by decide), State.capKeep_bit s (Or.inl (by decide))]
      rfl
    have hspill : bitAt (setField s.capKeep 4 v) 7 = s.cap.spillAuto := by
      rw [bitAt_setField _ _ _ (by decide), if_neg (by decide), State.capKeep_bit s (Or.inr rfl)]
      rfl
    have hset : s.cap.setSlots v =
        { s.cap with slots := v, dir := Vector.replicate 16 {}, store := [], full := false, recording := none } :=
      if_neg (by rw [harm, hcap]; simp [hv])
    refine State.modCap_congr ?_
    rw [bits_setField_self _ _ _ (by decide), hset, hspill, howner, ite_self, beq_eq_false_iff_ne.mpr hmode]
    rfl
  rw [hfields, State.capActs_rests (by exact hcap)] at hexec
  refine .answer hexec ?_
  rw [State.arbitrate_cap, State.finishWrite_cap]
  refine ⟨rfl, fun k => ?_, rfl, rfl, rfl, by simp [Same]⟩
  unfold Cap.entry
  split
  · exact Vector.getElem_replicate _
  · rfl

end

/-- Settles O23: a write of CAP_CTRL sets its fields and acts (`State.writeCapCtrl_eq`), and a capture that ends is
`Cap.completed`. -/
theorem capturesComplete : Obligations.CapturesComplete := by
  unfold Obligations.CapturesComplete
  exact ⟨fun s hreach harm hcap hok hrec => ⟨fun hports k hfree => State.captureArm_starts hreach harm hcap hok hports hfree,
      fun hports hfree => State.captureArm_full hreach harm hcap hok hports hfree,
      fun hports => State.captureArm_rests hreach harm hcap hok hrec hports⟩,
    fun s hreach harm _ hok => State.captureArm_invalid hreach harm hok,
    fun s hreach harm hen => State.trig_unseen hreach harm hen,
    fun s r hreach harm hen hfull hrec htrig _ => State.trig_captures hreach harm hen hfull hrec htrig,
    fun s r hreach hrec htrig _ => State.abort_discards hreach hrec htrig,
    fun s r g hreach hrec htrig _ hwf => State.abort_captures hreach hrec htrig hwf,
    fun s k hreach hrec hmode hfull => State.release_completes k hreach hrec hmode hfull,
    fun s v hreach hcap hmode harm => State.owner_changes hreach hcap hmode harm v,
    fun s v hreach hcap => State.owner_stands hreach hcap v,
    fun s v hreach hcap hmode harm hv => State.slots_change hreach hcap hmode harm hv,
    fun s r g hrec htrig hpost harm hsm => State.captureDone_completes hrec htrig hpost harm hsm⟩

end Sys2Proof.Machine
end

section
/-!
PROOFS. Controls of the spectral engine (chapter 08).
-/

namespace Sys2Proof.Machine

open Sys2Proof

/-! ### Words of SPEC_CTRL (R312) -/

theorem Spec.show_eq (x : Spec) : x.show = { x with shown := if x.hold then x.shown else x.newest } := by
  unfold Spec.show
  split <;> rfl

section
variable (x : Spec)

theorem Spec.ctrl_bit {k : Nat} (hk : k < 5) : bitAt x.ctrl k =
    if k = 0 then x.mode == .stream else if k = 3 then x.hold else if k = 4 then x.page else false := by
  have hslot : bitAt (fld x.capSlot 8) k = false := bitAt_fld_out _ (by omega)
  unfold Spec.ctrl
  rw [bitAt_or, bitAt_or, bitAt_or, hslot]
  obtain rfl | rfl | rfl | rfl | rfl : k = 0 ∨ k = 1 ∨ k = 2 ∨ k = 3 ∨ k = 4 := by omega
  all_goals simp [bitAt_flg]

theorem Spec.ctrl_slot : bits x.ctrl 8 4 = x.capSlot := by
  unfold Spec.ctrl
  rw [bits_or, bits_or, bits_or, bits_flg_apart _ (by omega), bits_flg_apart _ (by omega), bits_flg_apart _ (by omega),
    bits_fld_self _ (by omega)]
  simp

/-- HOLD, PAGE and SLOT of a write of SPEC_CTRL (R302, R307). -/
def Spec.fields (w : Word) : Spec := { x with hold := bitAt w 3, page := bitAt w 4, capSlot := bits w 8 4 }.show

/-- A write that sets RUN, CAP_GO or ABORT and keeps the other fields. -/
theorem Spec.fields_flg {k : Nat} (hk : k < 3) : x.fields (x.ctrl ||| flg true k) = x.show := by
  unfold Spec.fields
  rw [bitAt_or, bitAt_or, bits_or, bitAt_flg_ne (by omega), bitAt_flg_ne (by omega), bits_flg_apart _ (by omega), Spec.ctrl_slot,
    Spec.ctrl_bit x (by omega), Spec.ctrl_bit x (by omega), BitVec.or_zero, Bool.or_false, Bool.or_false]
  rfl

end

/-! ### What a write of SPEC_CTRL does -/

/-- ABORT, RUN and CAP_GO of a write of SPEC_CTRL, in this order (R307, R311). -/
def State.specActs (run go abort : Bool) (s : State) : State :=
  let s := if abort then s.modSpec fun x => x.endCapture false else s
  let s :=
    if run then s.specRun
    else if s.spec.mode = .stream then s.modSpec Spec.stopStream
    else s
  if go then s.specCapGo else s

theorem State.writeSpecCtrl_eq (w : Word) (s : State) : s.writeSpecCtrl w =
    ((s.modSpec fun x => x.fields w).specActs (bitAt w 0) (bitAt w 1) (bitAt w 2)).refreshPaths := rfl

@[simp] theorem State.mask_specActs (h : Part.spec ∈ ps) (hp : Part.pwr ∈ ps) (run go abort : Bool) (s : State) :
    (s.specActs run go abort).mask ps = s.mask ps := by
  have hend : ∀ u : State, (if u.spec.mode = .stream then u.modSpec Spec.stopStream else u).mask ps = u.mask ps := by
    intro u
    split <;> simp [h]
  unfold State.specActs
  dsimp only
  cases go <;> cases run <;> cases abort <;> simp [h, hp, hend]

section
variable {s : State}

/-- The state on which a write of SPEC_CTRL acts: its domain reached, its fields taken. -/
def State.specAs (y : Spec) (s : State) : State := (s.touch .sp).modSpec fun _ => y

/-- A write of SPEC_CTRL completes with what the acts leave in the spectral part (R462). -/
theorem State.specWrite_completes {c : Instr} {w : Word} {y : Spec} {run go abort : Bool} (hreach : s.Reaches 37)
    (hexec : exec c s = answer s (s.hostWrite 37 w)) (hy : s.spec.fields w = y) (hrun : bitAt w 0 = run) (hgo : bitAt w 1 = go)
    (habort : bitAt w 2 = abort) {P : State → Prop} (hp : ∀ t, t.spec = ((s.specAs y).specActs run go abort).spec →
      Same [.spec, .harrow, .pwr, .host, .int] s t → P t) : Completes c s P := by
  have hwrite : s.hostWrite 37 w = ((s.touch .sp).writeSpecCtrl w).finishWrite := State.hostWrite_reaches (i := 37) hreach w
  have hset : ((s.touch .sp).modSpec fun x => x.fields w) = s.specAs y := by
    rw [← hy]
    rfl
  rw [hwrite, State.writeSpecCtrl_eq, hset, hrun, hgo, habort] at hexec
  refine .answer hexec (hp _ ?_ (by simp [Same, State.specAs]))
  rw [State.arbitrate_spec, State.finishWrite_spec]
  exact State.spec_of_mask (State.mask_refreshPaths (ps := [.harrow]) (by decide) _) (by decide)

/-- A write that sets one of RUN, CAP_GO and ABORT and keeps the other fields. -/
theorem State.specFlag_completes {c : Instr} {k : Nat} (hk : k < 3) (hreach : s.Reaches 37)
    (hexec : exec c s = answer s (s.hostWrite 37 (s.spec.ctrl ||| flg true k))) {P : State → Prop} (hp : ∀ t,
      t.spec = ((s.specAs s.spec.show).specActs (s.spec.mode == .stream || decide (k = 0)) (decide (k = 1)) (decide
          (k = 2))).spec →
      Same [.spec, .harrow, .pwr, .host, .int] s t → P t) : Completes c s P := by
  refine State.specWrite_completes hreach hexec (Spec.fields_flg _ hk) ?_ ?_ ?_ hp
  · rw [bitAt_or, Spec.ctrl_bit _ (by omega), bitAt_flg]
    simp [eq_comm]
  · rw [bitAt_or, Spec.ctrl_bit _ (by omega), bitAt_flg]
    simp [eq_comm]
  · rw [bitAt_or, Spec.ctrl_bit _ (by omega), bitAt_flg]
    simp [eq_comm]

@[simp] theorem State.specAs_spec (y : Spec) : (s.specAs y).spec = y := rfl

section
variable {y : Spec}

theorem State.specActs_run (s : State) : s.specActs true false false = s.specRun := rfl

theorem State.specActs_rest (h : s.spec.mode ≠ .stream) : s.specActs false false false = s := if_neg h

theorem State.specActs_stop (h : y.mode = .stream) : ((s.specAs y).specActs false false false).spec = y.stopStream := by
  have hacts : (s.specAs y).specActs false false false = (s.specAs y).modSpec Spec.stopStream := if_pos h
  rw [hacts, State.modSpec_spec, State.specAs_spec]

theorem State.specActs_go (h : s.spec.mode ≠ .stream) : s.specActs false true false = s.specCapGo :=
  congrArg State.specCapGo (State.specActs_rest h)

theorem State.specActs_abort (h : y.mode = .capture) : ((s.specAs y).specActs false false true).spec =
    { y.abandon false with mode := .idle, capWait := false } := by
  have hacts : (s.specAs y).specActs false false true =
      ((s.specAs y).modSpec fun x => x.endCapture false).specActs false false false := rfl
  have hend : ((s.specAs y).modSpec fun x => x.endCapture false).spec = { y.abandon false with mode := .idle, capWait := false } :=
    if_pos h
  rw [hacts, State.specActs_rest (by rw [hend]; exact SpecMode.noConfusion), hend]

end

/-! ### RUN (R291, R309 to R311) -/

theorem State.specRun_completes (hreach : s.Reaches 37) {P : State → Prop} (hp : ∀ t,
    t.spec = (s.specAs s.spec.show).specRun.spec → Same [.spec, .harrow, .pwr, .host, .int] s t → P t) :
    Completes .specRun s P := by
  refine State.specFlag_completes (k := 0) (by decide) hreach rfl fun t hspec hsame => hp t ?_ hsame
  rw [hspec, decide_eq_true rfl, Bool.or_true]
  exact congrArg State.spec (State.specActs_run _)

/-- What RUN does to the spectral part (R309 to R311). -/
def Spec.ran (x : Spec) (coast : Bool) (rate : BitVec 4) : Spec :=
  match x.mode with
  | .stream => if x.stage.check ≠ 0#3 then { x.stopStream with err := x.stage.check } else x
  | .capture => { x with err := if x.stage.check ≠ 0#3 then x.stage.check else 3#3 }
  | .idle =>
    if x.stage.check ≠ 0#3 then { x with err := x.stage.check }
    else { x.begin .stream with waiting := coast, rate := rate }

theorem State.specRun_spec (s : State) :
    s.specRun.spec = s.spec.ran s.clk.coast (BitVec.ofNat 4 (rateCode s.buf.fast.rate)) := by
  unfold State.specRun
  rw [State.modSpec_spec]
  rfl

section
variable {x : Spec}

theorem Spec.ran_starts (hmode : x.mode = .idle) (hok : x.stage.check = 0#3) (b : Bool) (r : BitVec 4) :
    x.ran b r = { x.begin .stream with waiting := b, rate := r } := by
  rw [Spec.ran, hmode]
  exact if_neg fun h => h hok

theorem Spec.ran_fails (hmode : x.mode = .idle) (hbad : x.stage.check ≠ 0#3) (b : Bool) (r : BitVec 4) :
    x.ran b r = { x with err := x.stage.check } := by
  rw [Spec.ran, hmode]
  exact if_pos hbad

theorem Spec.ran_ends (hmode : x.mode = .stream) (hbad : x.stage.check ≠ 0#3) (b : Bool) (r : BitVec 4) :
    x.ran b r = { x.stopStream with err := x.stage.check } := by
  rw [Spec.ran, hmode]
  exact if_pos hbad

theorem Spec.ran_goes (hmode : x.mode = .stream) (hok : x.stage.check = 0#3) (b : Bool) (r : BitVec 4) : x.ran b r = x := by
  rw [Spec.ran, hmode]
  exact if_neg fun h => h hok

end

theorem State.run_starts (hreach : s.Reaches 37) (hmode : s.spec.mode = .idle) (hok : s.spec.stage.check = 0#3) :
    Completes .specRun s fun t =>
      t.spec.mode = .stream ∧ t.spec.act = s.spec.stage ∧ t.spec.err = 0#3 ∧
      t.spec.cycles = BitVec.ofNat 32 s.spec.stage.cycles ∧ t.spec.segs = 0 ∧ t.spec.waiting = s.clk.coast ∧
      t.spec.hold = s.spec.hold ∧ t.spec.counts = s.spec.counts ∧ t.spec.newest = s.spec.newest ∧
      Same [.spec, .harrow, .pwr, .host, .int] s t := by
  refine State.specRun_completes hreach fun t hspec hsame => ?_
  rw [State.specRun_spec, State.specAs_spec, Spec.show_eq] at hspec
  rw [hspec.trans (Spec.ran_starts (by exact hmode) (by exact hok) _ _)]
  exact ⟨rfl, rfl, rfl, rfl, rfl, rfl, rfl, rfl, rfl, hsame⟩

theorem State.run_fails (hreach : s.Reaches 37) (hmode : s.spec.mode = .idle) (hbad : s.spec.stage.check ≠ 0#3) :
    Completes .specRun s fun t =>
      t.spec.mode = .idle ∧ t.spec.err = s.spec.stage.check ∧ t.spec.act = s.spec.act ∧ t.spec.counts = s.spec.counts ∧
      Same [.spec, .harrow, .pwr, .host, .int] s t := by
  refine State.specRun_completes hreach fun t hspec hsame => ?_
  rw [State.specRun_spec, State.specAs_spec, Spec.show_eq] at hspec
  rw [hspec.trans (Spec.ran_fails (by exact hmode) (by exact hbad) _ _)]
  exact ⟨hmode, rfl, rfl, rfl, hsame⟩

theorem State.run_ends (hreach : s.Reaches 37) (hmode : s.spec.mode = .stream) (hbad : s.spec.stage.check ≠ 0#3) :
    Completes .specRun s fun t =>
      t.spec.mode = .idle ∧ t.spec.err = s.spec.stage.check ∧ t.spec.newest = s.spec.newest ∧
      Same [.spec, .harrow, .pwr, .host, .int] s t := by
  refine State.specRun_completes hreach fun t hspec hsame => ?_
  rw [State.specRun_spec, State.specAs_spec, Spec.show_eq] at hspec
  rw [hspec.trans (Spec.ran_ends (by exact hmode) (by exact hbad) _ _)]
  exact ⟨rfl, rfl, rfl, hsame⟩

/-! ### RUN = 0 and ABORT (R311) -/

theorem State.specStop_completes (hreach : s.Reaches 37) (hmode : s.spec.mode = .stream) :
    Completes .specStop s fun t =>
      t.spec.mode = .idle ∧ t.spec.waiting = false ∧ t.spec.segs = 0 ∧
      t.spec.counts = s.spec.counts.setIfInBounds 5 (satInc (s.spec.counts.getD 5 0#32)) ∧
      t.spec.abortEvt = s.spec.abortEvt ∧ t.spec.newest = s.spec.newest ∧ Same [.spec, .harrow, .pwr, .host, .int] s t := by
  have hbit : ∀ k, 0 < k → k < 5 → bitAt (s.spec.ctrl &&& ~~~flg true 0) k = bitAt s.spec.ctrl k := by
    intro k h0 _
    rw [bitAt_clear_zero, decide_eq_true (by omega), Bool.and_true]
  have hy : s.spec.fields (s.spec.ctrl &&& ~~~flg true 0) = s.spec.show := by
    unfold Spec.fields
    rw [hbit 3 (by decide) (by decide), hbit 4 (by decide) (by decide), bits_clear_apart _ _ (by decide) (by decide),
      Spec.ctrl_slot, Spec.ctrl_bit _ (by decide), Spec.ctrl_bit _ (by decide)]
    rfl
  refine State.specWrite_completes (w := s.spec.ctrl &&& ~~~flg true 0) (run := false) (go := false)
      (abort := false) hreach rfl hy
    (by rw [bitAt_clear_zero, decide_eq_false (by decide), Bool.and_false])
    (by rw [hbit 1 (by decide) (by decide), Spec.ctrl_bit _ (by decide)]; rfl)
    (by rw [hbit 2 (by decide) (by decide), Spec.ctrl_bit _ (by decide)]; rfl) fun t hspec hsame => ?_
  rw [Spec.show_eq] at hspec
  rw [hspec.trans (State.specActs_stop (by exact hmode))]
  exact ⟨rfl, rfl, rfl, rfl, Bool.or_false _, rfl, hsame⟩

theorem State.specAbort_completes (hreach : s.Reaches 37) (hmode : s.spec.mode = .capture) :
    Completes .specAbort s fun t =>
      t.spec.mode = .idle ∧ t.spec.segs = 0 ∧
      t.spec.counts = s.spec.counts.setIfInBounds 5 (satInc (s.spec.counts.getD 5 0#32)) ∧
      t.spec.abortEvt = s.spec.abortEvt ∧ t.spec.doneEvt = s.spec.doneEvt ∧ t.spec.newest = s.spec.newest ∧
      Same [.spec, .harrow, .pwr, .host, .int] s t := by
  refine State.specFlag_completes (k := 2) (by decide) hreach rfl fun t hspec hsame => ?_
  rw [hmode, Spec.show_eq] at hspec
  rw [hspec.trans (State.specActs_abort hmode)]
  exact ⟨rfl, rfl, rfl, Bool.or_false _, rfl, rfl, hsame⟩

/-! ### CAP_GO (R307 to R310) -/

theorem State.specGo_completes (k : Fin 16) (hreach : s.Reaches 37) (hmode : s.spec.mode = .idle) {P : State → Prop}
    (hp : ∀ t, t.spec = (s.specAs { s.spec with
        capSlot := BitVec.ofNat 4 k.val, shown := if s.spec.hold then s.spec.shown else s.spec.newest }).specCapGo.spec →
      Same [.spec, .harrow, .pwr, .host, .int] s t → P t) : Completes (.capGo k) s P := by
  have hbit : ∀ j, j < 5 → bitAt (setField s.spec.ctrl 8 (BitVec.ofNat 4 k.val) ||| flg true 1) j =
      (bitAt s.spec.ctrl j || decide (j = 1)) := by
    intro j hj
    rw [bitAt_or, bitAt_setField _ _ _ (by omega), if_neg (by omega), bitAt_flg]
    simp only [Bool.true_and, decide_eq_true (show j < 32 by omega), Bool.and_true]
  have hy : s.spec.fields (setField s.spec.ctrl 8 (BitVec.ofNat 4 k.val) ||| flg true 1) = { s.spec with
      capSlot := BitVec.ofNat 4 k.val, shown := if s.spec.hold then s.spec.shown else s.spec.newest } := by
    unfold Spec.fields
    rw [hbit 3 (by decide), hbit 4 (by decide), bits_or, bits_setField_self _ _ _ (by decide), bits_flg_apart _ (by decide),
      BitVec.or_zero, Spec.ctrl_bit _ (by decide), Spec.ctrl_bit _ (by decide), Spec.show_eq, decide_eq_false (by decide),
      decide_eq_false (by decide), Bool.or_false, Bool.or_false]
    rfl
  refine State.specWrite_completes (w := setField s.spec.ctrl 8 (BitVec.ofNat 4 k.val) ||| flg true 1) (run := false) (go := true)
    (abort := false) hreach rfl hy (by rw [hbit 0 (by decide), Spec.ctrl_bit _ (by decide), hmode]; rfl)
    (by rw [hbit 1 (by decide), decide_eq_true rfl, Bool.or_true])
    (by rw [hbit 2 (by decide), Spec.ctrl_bit _ (by decide)]; rfl) fun t hspec hsame => hp t ?_ hsame
  rw [hspec, State.specActs_go]
  exact fun h => by cases hmode.symm.trans h

/-- A state whose slot register names slot k checks that slot. -/
theorem State.specCapGo_fails {k : Nat} (hslot : s.spec.capSlot.toNat = k) (hbad : s.capGoCheck k ≠ 0#3) :
    s.specCapGo.spec = { s.spec with err := s.capGoCheck k } := by
  unfold State.specCapGo
  dsimp only
  rw [hslot, if_pos hbad]
  rfl

/-- CAP_GO of a slot that passes the check starts its analysis (R307, R308, R310). -/
theorem State.specCapGo_starts {k : Nat} (hslot : s.spec.capSlot.toNat = k) (hok : s.capGoCheck k = 0#3)
    (hmode : s.spec.mode ≠ .capture) : ∃ rate, s.specCapGo.spec = { s.spec.begin .capture with
      anSlot := s.spec.capSlot, capWait := !s.isOn .cs, capTotal := s.capSegments k, rate := rate } := by
  refine ⟨bits (Mem.get 0#32 s.cap.store (slotBase s.cap.slots k)) 16 4, ?_⟩
  unfold State.specCapGo
  dsimp only
  rw [hslot, if_neg fun h => h hok, if_neg hmode]
  split
  · exact State.spec_of_mask (State.mask_demand (ps := [.pwr]) (by decide) _ _) (by decide)
  · rfl

theorem State.capGo_starts (k : Fin 16) (hreach : s.Reaches 37) (hmode : s.spec.mode = .idle) (hok : s.capGoCheck k.val = 0#3) :
    Completes (.capGo k) s fun t =>
      t.spec.mode = .capture ∧ t.spec.act = s.spec.stage ∧ t.spec.err = 0#3 ∧ t.spec.capWait = (!s.isOn .cs) ∧
      t.spec.capSlot = BitVec.ofNat 4 k.val ∧ t.spec.anSlot = BitVec.ofNat 4 k.val ∧ t.spec.capTotal = s.capSegments k.val ∧
      t.spec.capSeen = 0 ∧ Same [.spec, .harrow, .pwr, .host, .int] s t := by
  refine State.specGo_completes k hreach hmode fun t hspec hsame => ?_
  obtain ⟨rate, hstarts⟩ := State.specCapGo_starts (k := k.val)
    (s := s.specAs { s.spec with
      capSlot := BitVec.ofNat 4 k.val, shown := if s.spec.hold then s.spec.shown else s.spec.newest })
    (by exact BitVec.toNat_ofNat .. |>.trans (Nat.mod_eq_of_lt k.isLt)) (by exact hok)
    (fun h => by cases hmode.symm.trans h)
  rw [hspec, hstarts]
  refine ⟨rfl, rfl, rfl, ?_, rfl, rfl, rfl, rfl, hsame⟩
  exact congrArg (!·) (State.isOn_touch .sp .cs s)

theorem State.capGo_fails (k : Fin 16) (hreach : s.Reaches 37) (hmode : s.spec.mode = .idle) (hbad : s.capGoCheck k.val ≠ 0#3) :
    Completes (.capGo k) s fun t =>
      t.spec.mode = .idle ∧ t.spec.err = s.capGoCheck k.val ∧ t.spec.act = s.spec.act ∧
      Same [.spec, .harrow, .pwr, .host, .int] s t := by
  refine State.specGo_completes k hreach hmode fun t hspec hsame => ?_
  have hfails := State.specCapGo_fails (k := k.val)
    (s := s.specAs { s.spec with
      capSlot := BitVec.ofNat 4 k.val, shown := if s.spec.hold then s.spec.shown else s.spec.newest })
    (by exact BitVec.toNat_ofNat .. |>.trans (Nat.mod_eq_of_lt k.isLt)) (by exact hbad)
  rw [hspec, hfails]
  exact ⟨hmode, rfl, rfl, hsame⟩

/-! ### HOLD, the counters and LEARN (R302, R306, R314) -/

theorem State.hold_completes (hreach : s.Reaches 37) (v : Bool) (hcheck : s.spec.mode = .stream → s.spec.stage.check = 0#3) :
    Completes (.hold v) s fun t =>
      t.spec = { s.spec with hold := v, shown := if v then s.spec.shown else s.spec.newest } ∧
      Same [.spec, .harrow, .pwr, .host, .int] s t := by
  have hbit : ∀ j, j < 5 → bitAt (setField s.spec.ctrl 3 (BitVec.ofBool v)) j = if j = 3 then v else bitAt s.spec.ctrl j := by
    intro j hj
    rw [bitAt_setField _ _ _ (by omega)]
    obtain rfl | rfl | rfl | rfl | rfl : j = 0 ∨ j = 1 ∨ j = 2 ∨ j = 3 ∨ j = 4 := by omega
    all_goals cases v <;> rfl
  have hy : s.spec.fields (setField s.spec.ctrl 3 (BitVec.ofBool v)) =
      { s.spec with hold := v, shown := if v then s.spec.shown else s.spec.newest } := by
    unfold Spec.fields
    rw [hbit 3 (by decide), hbit 4 (by decide), bits_setField _ _ _ (by decide) (Or.inr (by decide)), Spec.ctrl_slot,
      Spec.show_eq, Spec.ctrl_bit _ (by decide), Spec.ctrl_bit _ (by decide)]
    rfl
  refine State.specWrite_completes (w := setField s.spec.ctrl 3 (BitVec.ofBool v)) (run := s.spec.mode == .stream) (go := false)
    (abort := false) hreach rfl hy (by rw [hbit 0 (by decide), Spec.ctrl_bit _ (by decide)]; rfl)
    (by rw [hbit 1 (by decide), Spec.ctrl_bit _ (by decide)]; rfl)
    (by rw [hbit 2 (by decide), Spec.ctrl_bit _ (by decide)]; rfl) fun t hspec hsame => ⟨?_, hsame⟩
  by_cases hm : s.spec.mode = .stream
  · have hran : ∀ x : Spec, x.mode = .stream → x.stage.check = 0#3 → ∀ b r, x.ran b r = x := by
      intro x hm hc b r
      rw [Spec.ran, hm]
      exact if_neg fun h => h hc
    rw [beq_iff_eq.mpr hm, State.specActs_run, State.specRun_spec, State.specAs_spec] at hspec
    exact hspec.trans (Spec.ran_goes (by exact hm) (by exact hcheck hm) _ _)
  · rw [beq_eq_false_iff_ne.mpr hm, State.specActs_rest (by exact hm)] at hspec
    exact hspec

theorem State.tsWrite_spec {o : Nat} (ho : o < 4096) (w : Word) :
    s.tsWrite (0xB000 + o) w = s.modSpec fun x => x.writeWord o w := by
  have hblock : (0xB000 + o) / 4096 = 11 := by omega
  have hoff : (0xB000 + o) % 4096 = o := by omega
  unfold State.tsWrite
  dsimp only
  rw [hblock, hoff]
  rfl

/-- A host write of a word of the engine's block (R313, R472). -/
theorem State.specWord_completes {c : Instr} {o : Nat} (ho : o < 4096) {w : Word} (hreach : s.ReachesTs (0xB000 + o))
    (hexec : exec c s = answer s (s.hostTs (0xB000 + o) w)) :
    Completes c s fun t => t.spec = s.spec.writeWord o w ∧ Same [.spec, .pwr, .host, .int] s t := by
  rw [State.hostTs_reaches hreach, State.tsWrite_spec ho] at hexec
  refine .answer hexec ⟨?_, by simp [Same]⟩
  rw [State.arbitrate_spec, State.finishWrite_spec, State.winNext_spec, State.modSpec_spec, State.touchTs_spec]
  rfl

end

/-- Settles O25: a write of SPEC_CTRL takes its fields and acts (`State.specWrite_completes`), each act once on the spectral
part. -/
theorem spectralControlsComplete : Obligations.SpectralControlsComplete := by
  unfold Obligations.SpectralControlsComplete
  refine ⟨fun s hreach hmode => ⟨State.run_starts hreach hmode, State.run_fails hreach hmode⟩,
    fun s hreach hmode hbad => State.run_ends hreach hmode hbad, fun s hreach hmode => State.specStop_completes hreach hmode,
    fun s k hreach hmode => ⟨fun hok hcs => ?_, fun hok hcs => ?_, State.capGo_fails k hreach hmode⟩,
    fun s hreach hmode => State.specAbort_completes hreach hmode, fun s v hreach hcheck => State.hold_completes hreach v hcheck,
    fun s hreach => State.specWord_completes (o := 16) (w := 0#32) (by decide) hreach rfl, fun s hreach => ?_⟩
  · refine (State.capGo_starts k hreach hmode hok).imp fun t ⟨h1, h2, h3, h4, h5, h6, h7, h8, hsame⟩ => ?_
    exact ⟨h1, h2, h3, by rw [h4, hcs]; rfl, h5, h6, h7, h8, hsame⟩
  · refine (State.capGo_starts k hreach hmode hok).imp fun t ⟨h1, _, _, h4, _, _, _, _, hsame⟩ => ?_
    exact ⟨h1, by rw [h4, hcs]; rfl, hsame⟩
  · refine (State.specWord_completes (o := 12) (w := flg true 0) (by decide) hreach rfl).imp fun t ⟨hspec, hsame⟩ => ⟨?_, hsame⟩
    have hlearn : (s.spec.learning || bitAt (flg true 0) 0) = true := Bool.or_true _
    rw [hspec]
    exact congrArg (fun b => { s.spec with learning := b }) hlearn

end Sys2Proof.Machine
end

section
/-!
PROOFS. Ticks of the state machines (R321 to R329).
-/

namespace Sys2Proof.Machine

open Sys2Proof

section
variable {s u v : State} {m : Nat} {q : Smc}

/-! ### What one machine's tick leaves of the others -/

/-- Of the machines only m has changed, into q; the programs and the ticks that are due stand. -/
def State.Turned (m : Nat) (q : Smc) (s u : State) : Prop :=
  u.machine m = q ∧ (∀ j, j ≠ m → u.machine j = s.machine j) ∧ u.smc.prog = s.smc.prog ∧ u.smc.ticks = s.smc.ticks

theorem State.Turned.refl (s : State) (m : Nat) : s.Turned m (s.machine m) s := ⟨rfl, fun _ _ => rfl, rfl, rfl⟩

theorem State.Turned.modMachine (h : State.Turned m q s u) (hm : m < 8) (f : Smc → Smc) :
    State.Turned m (f q) s (u.modMachine m f) := by
  obtain ⟨hself, hothers, hprog, hticks⟩ := h
  have hkept : (u.modMachine m f).smc.prog = u.smc.prog ∧ (u.modMachine m f).smc.ticks = u.smc.ticks := by
    unfold State.modMachine
    rw [State.modSmc_smc, dif_pos hm]
    exact ⟨rfl, rfl⟩
  refine ⟨?_, fun j hj => ?_, hkept.1.trans hprog, hkept.2.trans hticks⟩
  · rw [State.machine_modMachine_self hm, hself]
  · rw [State.machine_modMachine_ne hj, hothers j hj]

/-- What leaves the machines, their programs and their ticks. -/
theorem State.Turned.of_eq (h : State.Turned m q s u) (hmach : v.smc.m = u.smc.m) (hprog : v.smc.prog = u.smc.prog)
    (hticks : v.smc.ticks = u.smc.ticks) : State.Turned m q s v := by
  have hsame : ∀ j, v.machine j = u.machine j := fun j => by rw [State.machine, State.machine, hmach]
  obtain ⟨hself, hothers, hp, ht⟩ := h
  exact ⟨(hsame m).trans hself, fun j hj => (hsame j).trans (hothers j hj), hprog.trans hp, hticks.trans ht⟩

theorem State.Turned.of_smc (h : State.Turned m q s u) (hsmc : v.smc = u.smc) : State.Turned m q s v :=
  h.of_eq (congrArg Smcs.m hsmc) (congrArg Smcs.prog hsmc) (congrArg Smcs.ticks hsmc)

theorem State.Turned.trans {q' : Smc} (h : State.Turned m q s u) (h' : State.Turned m q' u v) : State.Turned m q' s v := by
  obtain ⟨-, hothers, hprog, hticks⟩ := h
  obtain ⟨hself, hothers', hprog', hticks'⟩ := h'
  exact ⟨hself, fun j hj => (hothers' j hj).trans (hothers j hj), hprog'.trans hprog, hticks'.trans hticks⟩

theorem State.Turned.event (h : State.Turned m q s u) (k : Nat) : State.Turned m q s (u.smEvent k) := h.of_eq rfl rfl rfl

/-! ### Entry (R325, R331 to R340) -/

/-- The machine has entered state st from a state, with its cause, at the tick of instant t (R325). -/
def Smc.Entered (q : Smc) (st src : BitVec 6) (cause : BitVec 2) (t : Tick) : Prop :=
  q.state = st ∧ q.entState = st ∧ q.entFrom = src ∧ q.entCause = cause ∧ q.ts = t ∧ q.age = 0#24

/-- HALT stops the machine in the state it entered (R337). -/
theorem Smc.Entered.halt {st src : BitVec 6} {cause : BitVec 2} {t : Tick} (h : q.Entered st src cause t) :
    Smc.Entered { q with halted := true, running := false } st src cause t := h

/-- The machine after the counters, the timer starts and the flag of the state it enters (R325, R338 to R340). -/
def State.entering (m : Nat) (st : BitVec 6) (cause : BitVec 2) (t : Tick) (s : State) : Smc :=
  let old := s.machine m
  let w2 := s.program m st.toNat 2
  let w3 := s.program m st.toNat 3
  let q := (Smc.counters { old with state := st, age := 0#24, runA := 0#9, runB := 0#9 } (bits w3 25 3).toNat).1
  let q := if bitAt w2 30 then { q with timer0 := 0#24, t0run := true } else q
  let q := if bitAt w2 31 then { q with timer1 := 0#24, t1run := true } else q
  { q with
    entState := st, entFrom := old.state, entCause := cause, detC0 := q.c0
    detFlags := flagOp s.smc.flags (bits w3 28 2).toNat (bits w3 30 2).toNat, ts := t
    actDrop := q.actDrop || ((bitAt w3 24 && !s.clken 10) || (bitAt w3 18 && !s.clken 7)) }

theorem State.entering_entered (m : Nat) (st : BitVec 6) (cause : BitVec 2) (t : Tick) (s : State) :
    (s.entering m st cause t).Entered st (s.machine m).state cause t := by
  unfold State.entering
  dsimp only
  split <;> split <;> exact ⟨rfl, rfl, rfl, rfl, rfl, rfl⟩

/-- An entry changes the machine that enters alone; its actions change no machine but for HALT (R331 to R337). -/
theorem State.smEnter_turned (hm : m < 8) (st : BitVec 6) (cause : BitVec 2) (t due : Tick) (s : State) :
    ∃ q, q.Entered st (s.machine m).state cause t ∧ State.Turned m q s (s.smEnter m st cause t due) := by
  have hset : State.Turned m (s.entering m st cause t) s (s.modMachine m fun _ => s.entering m st cause t) :=
    (State.Turned.refl s m).modMachine hm _
  have hbuf : ∀ (w : State) (a : BitVec 6) (ts : Tick) (b c : Word) (r : Tick), (w.queueEvent a ts b c r).smc = w.smc :=
    fun w a ts b c r => State.smc_of_mask (ps := [.buf]) (by simp) (by decide)
  have hcap : ∀ (w : State) (a : BitVec 8) (x y : Tick) (b c : Word), (w.trigger a x y b c).smc = w.smc :=
    fun w a x y b c => State.smc_of_mask (ps := [.cap]) (by simp) (by decide)
  have hent := s.entering_entered m st cause t
  unfold State.smEnter
  extract_lets old w2 w3 q0 c q1 q2 q3 flags drop q u0 u1 u2 u3 u4
  have h0 : State.Turned m q s u0 := hset.of_eq rfl rfl rfl
  have h1 : State.Turned m q s u1 := by
    unfold u1
    split
    · exact h0.of_smc rfl
    · exact h0
  have h2 : State.Turned m q s u2 := by
    unfold u2
    split
    · exact h1.of_smc (hbuf ..)
    · exact h1
  have h3 : State.Turned m q s u3 := by
    unfold u3
    split
    · exact h2.of_smc (hcap ..)
    · exact h2
  have h4 : State.Turned m q s u4 := by
    unfold u4
    split
    · exact h3.event m
    · exact h3
  split
  · exact ⟨_, hent.halt, h4.modMachine hm _⟩
  · exact ⟨_, hent, h4⟩

/-! ### One machine's tick (R324 to R328, R345) -/

/-- Machine m has turned from what it is in the snapshot into q, on the tick of instant t. -/
def State.Ticked (s : State) (m : Nat) (t : Tick) (q : Smc) : Prop :=
  ((s.machine m).startReq = true → ∃ src, q.Entered ((s.machine m).cfg.setWidth 6) src 3#2 t) ∧
  ((s.machine m).startReq = false →
    (∀ st c, (s.smEvaluate m).2 = some (st, c) → q.Entered st (s.machine m).state c t) ∧
    ((s.smEvaluate m).2 = none →
      q.state = (s.machine m).state ∧ q.age = satInc (s.machine m).age ∧ q.running = (s.machine m).running))

/-- The timers of a tick, and nothing else of the machine (R338). -/
theorem State.smTimers_turned (h : State.Turned m q s u) (hm : m < 8) (o : Option (BitVec 6)) : ∃ t0 r0 t1 r1,
    State.Turned m { q with timer0 := t0, t0run := r0, timer1 := t1, t1run := r1 } s (u.smTimers m o) := by
  obtain ⟨w2, hw2⟩ : ∃ w2, u.smTimers m o = u.modMachine m fun q =>
      if !q.running then q
      else
        let a := advance q.timer0 q.t0run (bitAt w2 30)
        let b := advance q.timer1 q.t1run (bitAt w2 31)
        { q with timer0 := a.1, t0run := a.2, timer1 := b.1, t1run := b.2 } := ⟨_, rfl⟩
  have hset := h.modMachine hm fun q =>
    if !q.running then q
    else
      let a := advance q.timer0 q.t0run (bitAt w2 30)
      let b := advance q.timer1 q.t1run (bitAt w2 31)
      { q with timer0 := a.1, t0run := a.2, timer1 := b.1, t1run := b.2 }
  rw [hw2]
  dsimp only at hset
  split at hset
  · exact ⟨_, _, _, _, hset⟩
  · exact ⟨_, _, _, _, hset⟩

/-- What one machine's tick does depends on the snapshot alone (R329). -/
theorem State.smTickOne_turned (s0 : State) (hm : m < 8) (t due : Tick) :
    ∃ q, s0.Ticked m t q ∧ State.Turned m q s (s0.smTickOne m t due s) := by
  unfold State.smTickOne
  dsimp only
  split
  case isTrue hstart =>
    have hreset := (State.Turned.refl s m).modMachine hm fun q =>
      { q with startReq := false, timer0 := 0#24, timer1 := 0#24, t0run := false, t1run := false, inval := false, pulse := 0#6 }
    obtain ⟨q, hq, hturn⟩ := State.smEnter_turned hm ((s0.machine m).cfg.setWidth 6) 3#2 t due (s.modMachine m fun q =>
      { q with startReq := false, timer0 := 0#24, timer1 := 0#24, t0run := false, t1run := false, inval := false, pulse := 0#6 })
    exact ⟨q, ⟨fun _ => ⟨_, hq⟩, fun h => absurd hstart (by rw [h]; decide)⟩, hreset.trans hturn⟩
  case isFalse hgoes =>
    have heval := (State.Turned.refl s m).modMachine hm fun _ => (s0.smEvaluate m).1
    split
    case h_1 st c hnext =>
      obtain ⟨q, hq, hturn⟩ := State.smEnter_turned hm st c t due (s.modMachine m fun _ => (s0.smEvaluate m).1)
      rw [heval.1] at hq
      obtain ⟨t0, r0, t1, r1, htime⟩ := State.smTimers_turned (heval.trans hturn) hm (some st)
      refine ⟨_, ⟨fun h => absurd h hgoes, fun _ => ⟨fun st' c' h => ?_, fun h => ?_⟩⟩, htime⟩
      · obtain ⟨rfl, rfl⟩ := Prod.mk.inj (Option.some.inj (hnext.symm.trans h))
        exact hq
      · exact absurd (hnext.symm.trans h) (by simp)
    case h_2 hnext =>
      obtain ⟨t0, r0, t1, r1, htime⟩ := State.smTimers_turned heval hm none
      refine ⟨_, ?_, htime⟩
      refine ⟨fun h => absurd h hgoes, fun _ => ⟨fun st' c' h => ?_, fun _ => ⟨rfl, rfl, rfl⟩⟩⟩
      exact absurd (hnext.symm.trans h) (by simp)

/-- The transition of cause 2 goes to TO_NEXT (R328). -/
theorem State.smEvaluate_timeout {st : BitVec 6} (h : (s.smEvaluate m).2 = some (st, 2#2)) :
    st = bits (s.program m (s.machine m).state.toNat 3) 0 6 := by
  unfold State.smEvaluate at h
  dsimp only at h
  split at h
  · exact absurd (Prod.mk.inj (Option.some.inj h)).2 (by decide)
  · split at h
    · exact absurd (Prod.mk.inj (Option.some.inj h)).2 (by decide)
    · split at h
      · exact (Prod.mk.inj (Option.some.inj h)).1.symm
      · cases h

/-! ### A moment of a rate (R321, R329) -/

/-- What machine m becomes in an evaluation moment of a rate. -/
def State.InMoment (s : State) (rate : Nat) (t : Tick) (m : Nat) (q : Smc) : Prop :=
  if (s.machine m).running && (s.machine m).rate == rate then s.Ticked m t q else q = s.machine m

theorem State.smMoment_fold (rate : Nat) (t due : Tick) (s : State) {n : Nat} (hn : n ≤ 8) :
    let u := foldUpto (fun u m => if (s.machine m).running && (s.machine m).rate == rate then s.smTickOne m t due u else u) s n
    (∀ m < n, s.InMoment rate t m (u.machine m)) ∧ (∀ m, n ≤ m → u.machine m = s.machine m) ∧ u.smc.prog = s.smc.prog ∧
    u.smc.ticks = s.smc.ticks := by
  dsimp only
  induction n with
  | zero => exact ⟨fun m hm => absurd hm (Nat.not_lt_zero m), fun m _ => rfl, rfl, rfl⟩
  | succ n ih =>
    obtain ⟨hbefore, hafter, hprog, hticks⟩ := ih (by omega)
    rw [foldUpto]
    generalize hv : foldUpto (fun u m => if (s.machine m).running &&
        (s.machine m).rate == rate then s.smTickOne m t due u else u) s n = v
      at hbefore hafter hprog hticks ⊢
    split
    case isTrue hrate =>
      obtain ⟨q, hq, hself, hothers, hprog', hticks'⟩ := State.smTickOne_turned (s := v) (m := n) s (by omega) t due
      refine ⟨fun m hm => ?_, fun m hm => ?_, hprog'.trans hprog, hticks'.trans hticks⟩
      · rcases Nat.lt_succ_iff_lt_or_eq.mp hm with hlt | rfl
        · rw [hothers m (by omega)]
          exact hbefore m hlt
        · rw [hself, State.InMoment, if_pos hrate]
          exact hq
      · exact (hothers m (by omega)).trans (hafter m (by omega))
    case isFalse hrate =>
      refine ⟨fun m hm => ?_, fun m hm => hafter m (by omega), hprog, hticks⟩
      rcases Nat.lt_succ_iff_lt_or_eq.mp hm with hlt | rfl
      · exact hbefore m hlt
      · rw [State.InMoment, if_neg hrate]
        exact hafter m (Nat.le_refl m)

/-- The tick of a rate that is next and due (R322, R324, R329). -/
theorem State.smTick_facts {rate : Fin 3} {t due : Tick} (hdue : s.smc.ticks[rate] = some (t, due))
    (hno : s.recog.noReports = true) :
    (∀ m < 8, s.InMoment rate.val t m ((s.smTick rate).machine m)) ∧ (s.smTick rate).smc.ticks = s.smc.ticks.set rate none ∧
    (s.smTick rate).smc.prog = s.smc.prog ∧ Same [.smc, .cap, .buf, .host, .int] s (State.arbitrate s (s.smTick rate)) := by
  have heq : s.smTick rate =
      State.smMoment rate.val t due (s.modSmc fun x => { x with ticks := x.ticks.set rate none }) := by
    unfold State.smTick
    rw [hdue]
    dsimp only
    rw [State.flushReports_of_noReports (by exact hno)]
  have hsame : Same [.smc, .cap, .buf, .host, .int] s (State.arbitrate s
      (State.smMoment rate.val t due (s.modSmc fun x => { x with ticks := x.ticks.set rate none }))) := by simp [Same]
  obtain ⟨hmach, -, hprog, hticks⟩ := (s.modSmc fun x => { x with ticks := x.ticks.set rate none }).smMoment_fold rate.val t due
    (Nat.le_refl 8)
  rw [heq]
  exact ⟨hmach, hticks, hprog, hsame⟩

theorem State.tickIs_next {rate : Fin 3} {t due : Tick} (hnext : s.nextRate = some rate)
    (hdue : s.smc.ticks[rate] = some (t, due)) : s.tickIs rate.val t = true := by
  unfold State.tickIs
  rw [hnext]
  dsimp only
  rw [hdue]
  simp

end

/-- Settles O28: the fold over the machines keeps that each has its own tick, from the snapshot before the moment
(State.smMoment_fold). -/
theorem machineTicksComplete : Obligations.MachineTicksComplete := by
  unfold Obligations.MachineTicksComplete
  refine ⟨fun s rate t due hruns hnext hdue hno => ?tick,
      fun s m rate t due st hruns hrun hstart heval hrate hnext hdue hno => ?timeout⟩
  case tick =>
    have hexec : exec (.smTick rate t) s = event (s.smRuns && s.tickIs rate.val t) s (s.smTick rate) := rfl
    refine .event hexec (by rw [hruns, State.tickIs_next hnext hdue]; rfl) ?_
    obtain ⟨hmach, hticks, hprog, hsame⟩ := State.smTick_facts hdue hno
    have hself : ∀ m : Nat, (State.arbitrate s (s.smTick rate)).machine m = (s.smTick rate).machine m :=
      fun m => State.machine_congr (State.arbitrate_smc ..) m
    refine ⟨fun m hm => ?_, fun m hrun hrate => ?_, ?_, ?_, hsame⟩
    · have h := hmach m m.isLt
      rw [State.InMoment, if_neg (by rcases hm with h | h <;> simp [h])] at h
      exact (hself m).trans h
    · have h := hmach m m.isLt
      rw [State.InMoment, if_pos (by simp [hrun, hrate])] at h
      rw [hself]
      obtain ⟨hstart, hgoes⟩ := h
      refine ⟨fun hs => ?_, fun hs => ?_⟩
      · obtain ⟨src, hstate, -, -, hcause, hts, hage⟩ := hstart hs
        exact ⟨hstate, hcause, hts, hage⟩
      · obtain ⟨hmoves, hstays⟩ := hgoes hs
        refine ⟨fun st c heval => hmoves st c heval, fun hnone => ?_⟩
        obtain ⟨hstate, hage, hrun'⟩ := hstays hnone
        exact ⟨hstate, hage, hrun'.trans hrun⟩
    · rw [State.arbitrate_smc, hticks]
    · rw [State.arbitrate_smc, hprog]
  case timeout =>
    have hexec : exec (.smTimeout m t) s = event (s.smRuns && (s.machine m.val).running && !(s.machine m.val).startReq &&
        (match (s.smEvaluate m.val).2 with | some (_, cause) => cause == 2#2 | none => false) && s.tickIs
            (s.machine m.val).rate t) s
        (match s.nextRate with | some r => s.smTick r | none => s) := rfl
    rw [heval, hnext] at hexec
    refine .event hexec (by rw [hruns, hrun, hstart, hrate, State.tickIs_next hnext hdue]; rfl) ?_
    obtain ⟨hmach, -, -, hsame⟩ := State.smTick_facts hdue hno
    have h := hmach m m.isLt
    rw [State.InMoment, if_pos (by simp [hrun, hrate])] at h
    obtain ⟨hstate, -, -, hcause, hts, -⟩ := (h.2 hstart).1 st 2#2 heval
    have hself : (State.arbitrate s (s.smTick rate)).machine m = (s.smTick rate).machine m :=
      State.machine_congr (State.arbitrate_smc ..) m
    dsimp only
    rw [hself]
    exact ⟨State.smEvaluate_timeout heval, hstate, hcause, hts, hsame⟩

end Sys2Proof.Machine
end

section
/-!
PROOFS. Segments and publications of the spectral engine (chapter 08).
-/

namespace Sys2Proof.Machine

open Sys2Proof

section
variable {s : State} {x : Spec} {g : Segment}

/-! ### Segments (R294, R297, R307) -/

theorem vector_getD_of_lt {α : Type} {n k : Nat} (v : Vector α n) (h : k < n) {d : α} : v.getD k d = v[k] := by
  simp [Vector.getD, h]

/-- An input that is not enabled spoils no segment; an enabled one with an invalid sample does (R294). -/
theorem SpecCfg.spoils_false {c : SpecCfg} (h : ∀ f ∈ g.frames, ∀ i : Fin 8, c.enabled i.val = true → f[i] ≠ none) :
    c.spoils g = false := by
  unfold SpecCfg.spoils
  rw [List.any_eq_false]
  intro f hf
  rw [Bool.not_eq_true]
  refine anyUpto_eq_false fun k hk => ?_
  by_cases hen : c.enabled k = true
  · have hvalid := h f hf ⟨k, hk⟩ hen
    rw [Fin.getElem_fin, ← Option.isSome_iff_ne_none] at hvalid
    rw [hen, vector_getD_of_lt f hk, Bool.true_and, Option.isNone_eq_false_iff]
    exact hvalid
  · rw [Bool.not_eq_true] at hen
    rw [hen, Bool.false_and]

theorem SpecCfg.spoils_true {c : SpecCfg} (h : ∃ f ∈ g.frames, ∃ i : Fin 8, c.enabled i.val = true ∧ f[i] = none) :
    c.spoils g = true := by
  obtain ⟨f, hf, i, hen, hnone⟩ := h
  unfold SpecCfg.spoils
  refine List.any_eq_true.mpr ⟨f, hf, anyUpto_eq_true.mpr ⟨i.val, i.isLt, ?_⟩⟩
  rw [Fin.getElem_fin] at hnone
  rw [hen, vector_getD_of_lt f i.isLt, hnone]
  rfl

/-- A segment is named by its validity, its instants and its flags (R294). -/
theorem Spec.names_self (x : Spec) (g : Segment) {valid : Bool} (h : valid = !x.act.spoils g) :
    x.names g valid false g.firstT g.lastT g.flags = true := by
  unfold Spec.names
  rw [h]
  simp

/-- A segment with an invalid sample counts in DROP_INVALID (R294). -/
theorem Spec.take_spoiled (h : x.act.spoils g = true) : x.take g = x.count 1 := if_pos h

/-- A valid segment counts in SEGMENTS and enters the averages (R297). -/
theorem Spec.take_valid (h : x.act.spoils g = false) :
    let y := x.take g
    y.segs = x.segs + 1 ∧ y.sincePub = x.sincePub + 1 ∧
    y.counts = x.counts.setIfInBounds 0 (satInc (x.counts.getD 0 0#32)) ∧
    (x.act.expo = false → y.acc = average (1 / ((x.segs + 1 : Nat) : Rat)) x.acc (x.act.estimate x.rate.toNat g.frames)) ∧
    y.firstT = (if x.segs = 0 then g.firstT else x.firstT) ∧ y.lastT = g.lastT ∧ y.flags = x.flags ||| g.flags ∧
    y.newest = x.newest ∧ y.shown = x.shown ∧ y.mode = x.mode ∧ y.seg = x.seg ∧ y.capSeen = x.capSeen := by
  have htake : x.take g = _ := if_neg (by rw [h]; decide)
  dsimp only
  rw [htake]
  refine ⟨rfl, rfl, rfl, fun hexpo => ?_, rfl, rfl, rfl, rfl, rfl, rfl, rfl, rfl⟩
  dsimp only
  rw [hexpo, Bool.false_and, Bool.false_and, if_neg Bool.false_ne_true]

theorem State.exec_segment_stream (hmode : s.spec.mode = .stream) (hseg : s.spec.seg = some g) (valid late : Bool) (t0 t1 : Tick)
    (flags : BitVec 3) : exec (.segmentDone valid late t0 t1 flags) s =
      event (s.specClocked && !s.spec.due && s.spec.names g valid late t0 t1 flags) s
        (s.modSpec fun x => { x.take g with seg := none }) := by
  have hexec : exec (.segmentDone valid late t0 t1 flags) s = execSegmentDone valid late t0 t1 flags s := rfl
  rw [hexec, execSegmentDone, hmode, hseg]

theorem State.exec_segment_capture (hmode : s.spec.mode = .capture) (valid late : Bool) (t0 t1 : Tick) (flags : BitVec 3) :
    exec (.segmentDone valid late t0 t1 flags) s =
      event (s.specClocked && s.isOn .cs && !s.spec.capWait && decide (s.spec.capSeen < s.spec.capTotal) &&
        s.spec.names s.capSegment valid late t0 t1 flags) s
        (s.modSpec fun x => { x.take s.capSegment with capSeen := x.capSeen + 1 }) := by
  have hexec : exec (.segmentDone valid late t0 t1 flags) s = execSegmentDone valid late t0 t1 flags s := rfl
  rw [hexec, execSegmentDone, hmode]

theorem State.segment_counts (hclk : s.specClocked = true) (hmode : s.spec.mode = .stream) (hseg : s.spec.seg = some g)
    (hdue : s.spec.due = false) (hvalid : s.spec.act.spoils g = false) :
    Completes (.segmentDone true false g.firstT g.lastT g.flags) s fun t =>
      t.spec.seg = none ∧ t.spec.segs = s.spec.segs + 1 ∧ t.spec.sincePub = s.spec.sincePub + 1 ∧
      t.spec.counts = s.spec.counts.setIfInBounds 0 (satInc (s.spec.counts.getD 0 0#32)) ∧
      (s.spec.act.expo = false →
        t.spec.acc = average (1 / ((s.spec.segs + 1 : Nat) : Rat)) s.spec.acc (s.spec.act.estimate s.spec.rate.toNat g.frames)) ∧
      t.spec.firstT = (if s.spec.segs = 0 then g.firstT else s.spec.firstT) ∧ t.spec.lastT = g.lastT ∧
      t.spec.flags = s.spec.flags ||| g.flags ∧ t.spec.newest = s.spec.newest ∧ t.spec.shown = s.spec.shown ∧
      Same [.spec, .int] s t := by
  refine .event (State.exec_segment_stream hmode hseg ..) ?_ ?_
  · rw [hclk, hdue, Spec.names_self _ _ (by rw [hvalid]; rfl)]
    rfl
  · obtain ⟨h1, h2, h3, h4, h5, h6, h7, h8, h9, -⟩ := Spec.take_valid hvalid
    rw [State.arbitrate_spec, State.modSpec_spec]
    exact ⟨rfl, h1, h2, h3, h4, h5, h6, h7, h8, h9, by simp [Same]⟩

theorem State.segment_drops (hclk : s.specClocked = true) (hmode : s.spec.mode = .stream) (hseg : s.spec.seg = some g)
    (hdue : s.spec.due = false) (hbad : s.spec.act.spoils g = true) :
    Completes (.segmentDone false false g.firstT g.lastT g.flags) s fun t =>
      t.spec = { s.spec with
        seg := none
        counts := s.spec.counts.setIfInBounds 1 (satInc (s.spec.counts.getD 1 0#32)) } ∧ Same [.spec, .int] s t := by
  refine .event (State.exec_segment_stream hmode hseg ..) ?_ ⟨?_, by simp [Same]⟩
  · rw [hclk, hdue, Spec.names_self _ _ (by rw [hbad]; rfl)]
    rfl
  · rw [State.arbitrate_spec, State.modSpec_spec, Spec.take_spoiled hbad]
    rfl

theorem State.segment_capture (hclk : s.specClocked = true) (hmode : s.spec.mode = .capture) (hcs : s.isOn .cs = true)
    (hwait : s.spec.capWait = false) (hseen : s.spec.capSeen < s.spec.capTotal) (hg : s.capSegment = g) :
    Completes (.segmentDone (!s.spec.act.spoils g) false g.firstT g.lastT g.flags) s fun t =>
      t.spec.capSeen = s.spec.capSeen + 1 ∧ t.spec.mode = .capture ∧ t.spec.newest = s.spec.newest ∧
      (s.spec.act.spoils g = false → t.spec.segs = s.spec.segs + 1 ∧ t.spec.lastT = g.lastT ∧
        t.spec.counts = s.spec.counts.setIfInBounds 0 (satInc (s.spec.counts.getD 0 0#32))) ∧
      (s.spec.act.spoils g = true → t.spec.segs = s.spec.segs ∧ t.spec.acc = s.spec.acc ∧
        t.spec.counts = s.spec.counts.setIfInBounds 1 (satInc (s.spec.counts.getD 1 0#32))) ∧
      Same [.spec, .int] s t := by
  refine .event (State.exec_segment_capture hmode ..) ?_ ?_
  · rw [hclk, hcs, hwait, decide_eq_true hseen, hg, Spec.names_self _ _ rfl]
    rfl
  · rw [State.arbitrate_spec, State.modSpec_spec, hg]
    have hsame : Same [.spec, .int] s (State.arbitrate s (s.modSpec fun x => { x.take g with capSeen := x.capSeen + 1 })) := by
      simp [Same]
    by_cases hbad : s.spec.act.spoils g = true
    · rw [Spec.take_spoiled hbad]
      exact ⟨rfl, hmode, rfl, fun h => absurd (hbad.symm.trans h) (by decide), fun _ => ⟨rfl, rfl, rfl⟩, hsame⟩
    · rw [Bool.not_eq_true] at hbad
      obtain ⟨h1, -, h3, -, -, h6, -, h8, -, h10, -⟩ := Spec.take_valid hbad
      exact ⟨rfl, h10.trans hmode, h8, fun _ => ⟨h1, h6, h3⟩, fun h => absurd (hbad.symm.trans h) (by decide), hsame⟩

/-! ### Publication (R301, R302, R304) -/

/-- SEQ stands in the lowest half of the first word of the header (R304). -/
theorem Spec.header_seq (x : Spec) (seq : BitVec 16) (input : Nat) : bits ((x.header seq input).getD 0 0#32) 0 16 = seq := by
  unfold Spec.header
  dsimp only
  rw [vector_getD_of_lt _ (by decide), Vector.getElem_ofFn, if_pos (by decide), List.cons_append, List.cons_append,
      List.getD_cons_zero]
  rw [bits_or, bits_or, bits_or, bits_or, bits_or, bits_or, bits_fld_zero _ (by decide), bits_flg_below _ (by decide),
    bits_fld_apart _ (Or.inl (by decide)) (by decide), bits_fld_apart _ (Or.inl (by decide)) (by decide),
    bits_fld_apart _ (Or.inl (by decide)) (by decide), bits_flg_below _ (by decide), bits_flg_below _ (by decide)]
  simp only [BitVec.or_zero]

/-- The engine with the result in its newest bank, before the window follows and the average ends (R301, R306, R314). -/
def Spec.published (x : Spec) (input : Nat) : Spec :=
  let learn := x.learning && x.mode == SpecMode.stream
  let y := { (x.count 3) with
    seq := x.seq + 1#16
    serial := x.serial + 1
    doneEvt := true
    newest := { id := x.serial + 1, hdr := x.header (x.seq + 1#16) input, body := x.act.sections x.means }
    bands := if learn then
        Vector.ofFn fun (i : Fin 64) => if i.val % 2 = 1 then wordOf (x.energy input (i.val / 2)) else x.bands[i]
      else x.bands
    learning := x.learning && !learn }
  if x.newer then y.count 4 else y

theorem Spec.publish_eq (x : Spec) (input : Nat) : x.publish input =
    match x.mode with
    | .capture => { (x.published input).show.clearWork with mode := .idle }
    | _ => if x.act.expo then { (x.published input).show with sincePub := 0 } else (x.published input).show.clearAvg := rfl

theorem Spec.published_facts (x : Spec) (input : Nat) :
    let y := x.published input
    y.seq = x.seq + 1#16 ∧ y.doneEvt = true ∧ y.newest.id = x.serial + 1 ∧ y.newest.seq = x.seq + 1#16 ∧
    y.newest.body = x.act.sections x.means ∧ y.hold = x.hold ∧ y.shown = x.shown ∧ y.mode = x.mode := by
  unfold Spec.published
  dsimp only
  split
  · exact ⟨rfl, rfl, rfl, Spec.header_seq .., rfl, rfl, rfl, rfl⟩
  · exact ⟨rfl, rfl, rfl, Spec.header_seq .., rfl, rfl, rfl, rfl⟩

/-- What a publication leaves in the engine (R301, R302). -/
theorem Spec.publish_facts (x : Spec) (input : Nat) :
    let y := x.publish input
    y.seq = x.seq + 1#16 ∧ y.doneEvt = true ∧ y.newest.id = x.serial + 1 ∧ y.newest.seq = x.seq + 1#16 ∧
    y.newest.body = x.act.sections x.means ∧ y.hold = x.hold ∧ (x.hold = false → y.shown = y.newest) ∧
    (x.hold = true → y.shown = x.shown) ∧ y.mode = (if x.mode = .capture then .idle else x.mode) := by
  obtain ⟨h1, h2, h3, h4, h5, h6, h7, h8⟩ := x.published_facts input
  dsimp only
  rw [Spec.publish_eq, Spec.show_eq]
  generalize x.published input = y at h1 h2 h3 h4 h5 h6 h7 h8 ⊢
  have hshow : (x.hold = false → (if y.hold then y.shown else y.newest) = y.newest) ∧
      (x.hold = true → (if y.hold then y.shown else y.newest) = x.shown) := by
    rw [h6, h7]
    exact ⟨fun h => if_neg (by rw [h]; decide), fun h => if_pos h⟩
  split
  case h_1 hmode => exact ⟨h1, h2, h3, h4, h5, h6, hshow.1, hshow.2, (if_pos hmode).symm⟩
  case h_2 =>
    split
    · exact ⟨h1, h2, h3, h4, h5, h6, hshow.1, hshow.2, h8⟩
    · exact ⟨h1, h2, h3, h4, h5, h6, hshow.1, hshow.2, h8⟩

theorem State.specPublish_completes (hdue : s.spec.due = true) (hclk : s.specClocked = true) :
    Completes .specPublish s fun t =>
      t.spec = s.spec.publish (bits (s.recog.param 5 0) 0 3).toNat ∧
      (s.spec.mode = .capture ∨ s.recog.live.getLsbD 5 = false → Same [.spec, .harrow, .int] s t) ∧
      Same [.spec, .harrow, .recog, .smc, .buf, .cap, .int] s t := by
  obtain ⟨r, hexec⟩ : ∃ r : Rec × Report, exec .specPublish s = Machine.event (s.spec.due && s.specClocked) s
      (if s.spec.mode == .stream && s.recog.live.getLsbD 5 && s.spec.act.enabled (bits (s.recog.param 5 0) 0 3).toNat then
        ((s.modSpec fun x => x.publish (bits (s.recog.param 5 0) 0 3).toNat).modRecog fun _ => r.1).report 5 r.2
      else s.modSpec fun x => x.publish (bits (s.recog.param 5 0) 0 3).toNat).refreshPaths := ⟨_, rfl⟩
  refine .event hexec (by rw [hdue, hclk]; rfl) ⟨?_, fun hquiet => ?_, ?_⟩
  · rw [State.arbitrate_spec, State.spec_of_mask (State.mask_refreshPaths (ps := [.harrow]) (by decide) _) (by decide)]
    split
    · have hreport : ∀ v : State, (v.report 5 r.2).spec = v.spec := fun v =>
        State.spec_of_mask (ps := [.recog, .smc, .buf, .cap]) (by simp) (by decide)
      exact hreport _
    · rfl
  · have hnone : (s.spec.mode == .stream && s.recog.live.getLsbD 5) = false := by
      rcases hquiet with h | h
      · rw [h]; rfl
      · rw [h, Bool.and_false]
    rw [hnone, Bool.false_and, if_neg Bool.false_ne_true]
    simp [Same]
  · split <;> simp [Same]

end

/-- Settles O26: a segment is taken by `Spec.take`, which counts it or drops it (`Spec.take_valid`, `Spec.take_spoiled`), and a
publication is `Spec.publish`. -/
theorem spectralResultsComplete : Obligations.SpectralResultsComplete := by
  unfold Obligations.SpectralResultsComplete
  refine ⟨fun s g hclk hmode hseg hdue => ⟨fun h => State.segment_counts hclk hmode hseg hdue (SpecCfg.spoils_false h),
      fun h => State.segment_drops hclk hmode hseg hdue (SpecCfg.spoils_true h)⟩,
    fun s g hclk hmode hcs hwait hseen hg => State.segment_capture hclk hmode hcs hwait hseen hg, fun s hdue hclk => ?_⟩
  refine (State.specPublish_completes hdue hclk).imp fun t ⟨hspec, hquiet, hsame⟩ => ?_
  obtain ⟨h1, h2, h3, h4, h5, h6, h7, h8, h9⟩ := s.spec.publish_facts (bits (s.recog.param 5 0) 0 3).toNat
  rw [hspec]
  exact ⟨h1, h2, h3, h4, h5, h6, h7, h8, h9, hquiet, hsame⟩

end Sys2Proof.Machine
end

section
/-!
PROOFS. Outputs of the paths (R64, R230, R245, R247, R356, R357).
-/

namespace Sys2Proof.Machine

open Sys2Proof

section
variable {s u : State} {k : PathKind} {ch : Nat}

/-! ### Stages 5 and 6 (R233, R240, R247) -/

/-- The path of a channel runs and is suppressed, with no run before it (R247, R357). -/
def Path.Mute (p : Path) : Prop := p.running = true ∧ p.sup = true ∧ p.keep = none

theorem State.sampleIn_mute (h : ((s.chan ch).path k).Mute) (t : Tick) (raw : Stage4) : s.sampleIn ch k t raw = none := by
  obtain ⟨hrun, hsup, hkeep⟩ := h
  have hsup' : ∀ v, s.suppressedAt ch k v = true := by
    intro v
    unfold State.suppressedAt
    dsimp only
    rw [hrun, hkeep, hsup]
    rfl
  unfold State.sampleIn
  dsimp only
  rw [hsup', Bool.or_true, Bool.true_or, Bool.true_or, Bool.true_or, if_pos rfl]

/-- A suppressed channel is invalid after stage 5, and so is every axis of its triad after stage 6 (R240, R247). -/
theorem State.stages56_mute (h : ((s.chan ch).path k).Mute) (hch : ch < 24) (t : Tick) (raw : Stage4) :
    (s.stages56 k t raw).1.getD ch none = none := by
  unfold State.stages56
  lift_lets
  intro want lin tri
  have hlin : (lin.getD ch (none, false)).1 = none := by
    unfold lin
    rw [vector_getD_of_lt _ hch, Vector.getElem_ofFn]
    split
    · rfl
    · rw [State.sampleIn_mute h]
  have htri : ∀ (gyro : Bool) (j i : Nat), i < 3 → (lin.getD ((if gyro then 3 else 0) + i) (none, false)).1 = none →
      tri gyro j = none := by
    intro gyro j i hi hnone
    unfold tri
    dsimp only
    split
    · next h0 h1 h2 =>
      obtain rfl | rfl | rfl : i = 0 ∨ i = 1 ∨ i = 2 := by omega
      · exact absurd (hnone.symm.trans h0) (by simp)
      · exact absurd (hnone.symm.trans h1) (by simp)
      · exact absurd (hnone.symm.trans h2) (by simp)
    · rfl
  clear_value lin tri
  rw [vector_getD_of_lt _ hch, Vector.getElem_ofFn]
  dsimp only
  split
  · exact htri false ch ch (by omega) (by rw [if_neg Bool.false_ne_true, Nat.zero_add]; exact hlin)
  · split
    · refine htri true (ch - 3) (ch - 3) (by omega) ?_
      rw [if_pos rfl, show 3 + (ch - 3) = ch by omega]
      exact hlin
    · exact hlin

/-! ### Stages 7 and 8 of one channel (R241, R245) -/

/-- A channel with the flags that stage 5 of an output sets (R233, R246). -/
def State.flagged (k : PathKind) (t : Tick) (raw : Stage4) (s : State) (ch : Nat) : Chan :=
  let c := s.chan ch
  let c := if (s.stages56 k t raw).2.getLsbD ch && !s.repeats ch k t then { c with linClamp := true } else c
  let stale := (withTriads (s.runningPaths k)).getLsbD ch && (s.sampleIn ch k t raw).isSome &&
      (s.tempSource ch).isSome && !c.thetaOk
  if stale then { c with tsrcStale := true } else c

theorem State.flagged_kept (k : PathKind) (t : Tick) (raw : Stage4) (s : State) (ch : Nat) :
    (s.flagged k t raw ch).path = (s.chan ch).path ∧ (s.flagged k t raw ch).lastRec = (s.chan ch).lastRec := by
  unfold State.flagged
  dsimp only
  split <;> split <;> exact ⟨rfl, rfl⟩

/-- A channel and its grain after one output of a kind of path. -/
def State.chainOne (k : PathKind) (t : Tick) (raw : Stage4) (s : State) (ch : Nat) : Chan × Grain :=
  let c := s.flagged k t raw ch
  if !(c.path k).running then (c, invalidGrain)
  else if s.repeats ch k t then (c, s.repeatedGrain ch c.lastT)
  else
    let r := c.stages78 k ((s.stages56 k t raw).1.getD ch none)
    if k = .recog then ({ r.1 with lastRec := r.2, lastT := s.valueAt ch k t }, r.2) else r

theorem State.chainOutput_eq (k : PathKind) (t : Tick) (raw : Stage4) (s : State) : s.chainOutput k t raw =
    (s.modHarrow fun h => { h with chan := (Vector.ofFn fun ch : Fin 24 => s.chainOne k t raw ch.val).map Prod.fst },
      (Vector.ofFn fun ch : Fin 24 => s.chainOne k t raw ch.val).map Prod.snd) := rfl

/-- A path that does not run puts out the invalid grain; its channel keeps its latest one (R245). -/
theorem State.chainOne_stopped (h : ((s.chan ch).path k).running = false) (t : Tick) (raw : Stage4) :
    (s.chainOne k t raw ch).2 = invalidGrain ∧ (s.chainOne k t raw ch).1.lastRec = (s.chan ch).lastRec := by
  obtain ⟨hpath, hlast⟩ := s.flagged_kept k t raw ch
  unfold State.chainOne
  dsimp only
  rw [if_pos (by rw [hpath, h]; rfl)]
  exact ⟨rfl, hlast⟩

theorem Chan.stages78_none (c : Chan) (k : PathKind) : (c.stages78 k none).2 = invalidGrain := by cases k <;> rfl

/-- A suppressed path puts out the invalid grain (R247). -/
theorem State.chainOne_mute (h : ((s.chan ch).path k).Mute) (hch : ch < 24) {t : Tick} (hrep : s.repeats ch k t = false)
    (raw : Stage4) : (s.chainOne k t raw ch).2 = invalidGrain ∧ (k = .recog →
        (s.chainOne k t raw ch).1.lastRec = invalidGrain) := by
  obtain ⟨hpath, -⟩ := s.flagged_kept k t raw ch
  have hrun : ((s.flagged k t raw ch).path k).running = true := by rw [hpath]; exact h.1
  have hnone := Chan.stages78_none (s.flagged k t raw ch) k
  unfold State.chainOne
  dsimp only
  rw [if_neg (by rw [hrun]; decide), if_neg (by rw [hrep]; decide), State.stages56_mute h hch]
  split
  · exact ⟨hnone, fun _ => hnone⟩
  · next hk => exact ⟨hnone, fun h => absurd h hk⟩

/-- An output changes the channels alone of the part of Harrow (R245). -/
theorem State.chainOutput_facts (k : PathKind) (t : Tick) (raw : Stage4) (s : State) :
    (∃ chan, (s.chainOutput k t raw).1.harrow = { s.harrow with chan := chan }) ∧
    (∀ ch < 24, (s.chainOutput k t raw).1.chan ch = (s.chainOne k t raw ch).1) ∧
    (∀ ch : Fin 24, (s.chainOutput k t raw).2[ch] = (s.chainOne k t raw ch.val).2) := by
  rw [State.chainOutput_eq]
  refine ⟨⟨_, rfl⟩, fun ch hch => ?_, fun ch => ?_⟩
  · simp [State.chan, hch]
  · simp

/-! ### The output of a path (R64, R230) -/

theorem State.settleTicks_rests (h : s.nextRate = none) (rate : Fin 3) : State.settleTicks rate s = s := by
  unfold State.settleTicks
  dsimp only
  split
  · exact foldUpto_fixed (fun _ => by rw [h]) 3
  · rfl

/-- The state in which an output of a kind of path comes: the next one lies one period on (R64). -/
def State.outputStart (k : PathKind) (s : State) : State := s.modNext k (· + BitVec.ofNat 64 (s.period k))

@[simp] theorem State.mask_outputStart {ps : List Part} (h : Part.harrow ∈ ps) (k : PathKind) (s : State) :
    (s.outputStart k).mask ps = s.mask ps := by simp [State.outputStart, h]

theorem State.exec_pathOutput (hnext : s.nextRate = none) (k : PathKind) (cl : Vector Int 36) (aux : Vector Raw 18) :
    exec (.pathOutput k cl aux) s = event (s.outputsCome k && s.outputDue k) s
      (((s.outputStart k).pathOutput k (s.next k) ⟨cl, aux⟩).oweTick k (s.next k)) := by
  have hexec : exec (.pathOutput k cl aux) s = event (s.outputsCome k && s.outputDue k) s
      (((((State.settleTicks (kindRate k) s)).modNext k (· + BitVec.ofNat 64 (s.period k))).pathOutput k (s.next k)
        ⟨cl, aux⟩).oweTick k (s.next k)) := rfl
  rw [hexec, State.settleTicks_rests hnext]
  rfl

theorem State.modNext_facts (k : PathKind) (f : Tick → Tick) (s : State) :
    (s.modNext k f).harrow.chan = s.harrow.chan ∧ (s.modNext k f).harrow.fastOut = s.harrow.fastOut ∧
    (s.modNext k f).harrow.slowOut = s.harrow.slowOut ∧ (s.modNext k f).next k = f (s.next k) ∧ (s.modNext k f).aux = s.aux := by
  cases k <;> exact ⟨rfl, rfl, rfl, rfl, rfl⟩

/-- What the coming of an output changes is the instant of the next one (R64). -/
theorem State.outputStart_facts (k : PathKind) (s : State) :
    (s.outputStart k).harrow.fastOut = s.harrow.fastOut ∧ (s.outputStart k).harrow.slowOut = s.harrow.slowOut ∧
    (s.outputStart k).next k = s.next k + BitVec.ofNat 64 (s.period k) := by
  obtain ⟨-, hfast, hslow, hnext, -⟩ := s.modNext_facts k (· + BitVec.ofNat 64 (s.period k))
  exact ⟨hfast, hslow, hnext⟩

theorem State.chan_outputStart (k : PathKind) (s : State) (ch : Nat) : (s.outputStart k).chan ch = s.chan ch := by
  obtain ⟨hchan, -⟩ := s.modNext_facts k (· + BitVec.ofNat 64 (s.period k))
  unfold State.chan State.outputStart
  rw [hchan]

theorem State.repeated_congr {t : State} (h : t.aux = s.aux) (ch : Nat) : t.repeated ch = s.repeated ch := by
  unfold State.repeated State.fastestCode
  rw [h]

theorem State.repeats_outputStart (k : PathKind) (s : State) {ch : Nat} (h : k = .recog → s.repeated ch = false) (t : Tick) :
    (s.outputStart k).repeats ch k t = false := by
  cases k
  case recog =>
    obtain ⟨-, -, -, -, haux⟩ := s.modNext_facts .recog (· + BitVec.ofNat 64 (s.period .recog))
    have hrep : (s.outputStart .recog).repeated ch = s.repeated ch := State.repeated_congr haux ch
    rw [State.repeats, hrep, h rfl, Bool.and_false, Bool.false_and]
  case fast => rfl
  case slow => rfl

/-! ### The recogniser path (R230, R245) -/

theorem State.refreshTheta_facts (out : Vector Grain 24) (s : State) :
    (∃ chan, (s.refreshTheta out).harrow = { s.harrow with chan := chan }) ∧
    (∀ ch < 24, ((s.refreshTheta out).chan ch).lastRec = (s.chan ch).lastRec) := by
  refine ⟨⟨_, rfl⟩, fun ch hch => ?_⟩
  unfold State.refreshTheta
  rw [State.chan_mapChans, if_pos hch]
  split
  · dsimp only
    split <;> rfl
  · rfl

theorem State.pathOutput_recog (t : Tick) (raw : Stage4) (s : State) : s.pathOutput .recog t raw =
    let r := s.chainOutput .recog t raw
    (((((r.1.modHarrow fun h => { h with recT := t, gyroLast := (#v[r.2[3], r.2[4], r.2[5]] :: h.gyroLast).take 5 }).refreshTheta
      r.2).feedCapture .recog t r.2).scarSample t r.2[0] r.2[1] r.2[2]).recogSample t r.2) := rfl

theorem State.recogOutput_facts (u : State) (t : Tick) (raw : Stage4) :
    (u.pathOutput .recog t raw).harrow.recT = t ∧ (u.pathOutput .recog t raw).harrow.recNext = u.harrow.recNext ∧
    (u.pathOutput .recog t raw).harrow.fastOut = u.harrow.fastOut ∧
    (u.pathOutput .recog t raw).harrow.slowOut = u.harrow.slowOut ∧
    (∀ ch < 24, ((u.pathOutput .recog t raw).chan ch).lastRec = (u.chainOne .recog t raw ch).1.lastRec) ∧
    (u.pathOutput .recog t raw).mask [.harrow, .recog, .cap, .scar, .smc, .buf] =
      u.mask [.harrow, .recog, .cap, .scar, .smc, .buf] := by
  obtain ⟨⟨chan, hchain⟩, hchan, -⟩ := u.chainOutput_facts .recog t raw
  have hmask : (u.chainOutput .recog t raw).1.mask [.harrow] = u.mask [.harrow] := by simp
  rw [State.pathOutput_recog]
  generalize u.chainOutput .recog t raw = r at hchain hchan hmask ⊢
  dsimp only
  obtain ⟨v, hv⟩ : ∃ v, r.1.modHarrow
      (fun h => { h with recT := t, gyroLast := (#v[r.2[3], r.2[4], r.2[5]] :: h.gyroLast).take 5 }) = v :=
    ⟨_, rfl⟩
  obtain ⟨⟨chan', htheta⟩, hlast⟩ := v.refreshTheta_facts r.2
  have hvchan : ∀ ch, v.chan ch = r.1.chan ch := fun ch => by rw [← hv]; rfl
  have hvharrow : v.harrow = { u.harrow with
      chan := chan, recT := t, gyroLast := (#v[r.2[3], r.2[4], r.2[5]] :: u.harrow.gyroLast).take 5 } := by
    rw [← hv, State.modHarrow_harrow, hchain]
  have hend : ∀ w : State,
      (((w.feedCapture .recog t r.2).scarSample t r.2[0] r.2[1] r.2[2]).recogSample t r.2).harrow = w.harrow :=
    fun w => State.harrow_of_mask (ps := [.recog, .cap, .scar, .smc, .buf]) (by simp) (by decide)
  rw [hv, hend, htheta, hvharrow]
  refine ⟨rfl, rfl, rfl, rfl, fun ch hch => ?_, ?_⟩
  · rw [State.chan_congr (hend _), hlast ch hch, hvchan, hchan ch hch]
  · have hmask' := State.mask_mono (qs := [.harrow, .recog, .cap, .scar, .smc, .buf]) hmask (by decide)
    rw [← hmask', ← hv]
    simp

theorem State.recogOutput_completes (hcome : s.outputsCome .recog = true) (hdue : s.outputDue .recog = true)
    (hnext : s.nextRate = none) (cl : Vector Int 36) (aux : Vector Raw 18) :
    Completes (.pathOutput .recog cl aux) s fun t =>
      t.harrow.recT = s.harrow.recNext ∧ t.harrow.recNext = s.harrow.recNext + BitVec.ofNat 64 (s.period .recog) ∧
      t.harrow.fastOut = s.harrow.fastOut ∧ t.harrow.slowOut = s.harrow.slowOut ∧
      (∀ ch, ch < 24 → (s.chan ch).recog.running = true → (s.chan ch).recog.sup = true → (s.chan ch).recog.keep = none →
        s.repeated ch = false → (t.chan ch).lastRec = 0x800000#24) ∧
      (∀ ch, ch < 24 → (s.chan ch).recog.running = false → (t.chan ch).lastRec = (s.chan ch).lastRec) ∧
      Same [.harrow, .recog, .cap, .scar, .smc, .buf, .int] s t := by
  refine .event (State.exec_pathOutput hnext .recog cl aux) (by rw [hcome, hdue]; rfl) ?_
  obtain ⟨hrecT, hrecNext, hfast, hslow, hlast, hmask⟩ :=
    (s.outputStart .recog).recogOutput_facts (s.next .recog) ⟨cl, aux⟩
  have howe : ∀ v : State, (v.oweTick .recog (s.next .recog)).harrow = v.harrow := fun v =>
    State.harrow_of_mask (ps := [.smc]) (by simp) (by decide)
  have hchan : ∀ v : State, ∀ ch, (State.arbitrate s (v.oweTick .recog (s.next .recog))).chan ch = v.chan ch := fun v =>
    State.chan_congr ((State.arbitrate_harrow ..).trans (howe v))
  obtain ⟨hfast', hslow', hstart⟩ := s.outputStart_facts .recog
  rw [State.arbitrate_harrow, howe]
  refine ⟨hrecT, hrecNext.trans hstart, hfast.trans hfast', hslow.trans hslow', fun ch hch hrun hsup hkeep hrep => ?_,
      fun ch hch hrun => ?_, ?_⟩
  · have hmute : (((s.outputStart .recog).chan ch).path .recog).Mute := by
      rw [State.chan_outputStart]
      exact ⟨hrun, hsup, hkeep⟩
    rw [hchan, hlast ch hch]
    exact (State.chainOne_mute hmute hch (State.repeats_outputStart .recog s (fun _ => hrep) _) _).2 rfl
  · rw [hchan, hlast ch hch, (State.chainOne_stopped (by rw [State.chan_outputStart]; exact hrun) _ _).2, State.chan_outputStart]
  · have hmask' := State.mask_mono (qs := [.harrow, .recog, .cap, .scar, .smc, .buf, .int]) hmask (by decide)
    simp [Same, hmask']

/-! ### The stream paths (R245, R356, R357) -/

/-- The latest output of a group, from which its machines and its data frames take their values (R317, R321). -/
def State.setLast (g : Group) (o : GroupOut) (s : State) : State :=
  s.modHarrow fun h => match g with | .fast => { h with fastLast := some o } | .slow => { h with slowLast := some o }

/-- An output of a group that writes, in one layout, waits to be placed (R356, R357). -/
theorem State.queueOutput_adds {g : Group} (hw : s.buf.writing = true) (hmask : (s.group g).mask ≠ 0#24)
    (holds : (s.group g).olds = []) {t : Tick} (hstart : 0 < (t - (s.group g).startAt).toInt) (k : PathKind)
        (out : Vector Grain 24) :
    ∃ o : GroupOut, o.t = t ∧ o.mask = (s.group g).mask ∧ o.relaid = false ∧ o.grains = out ∧
      s.queueOutput g k t out = ((s.modGroup g fun y => { y with timeNext := false }).setOuts g
          (s.outs g ++ [o])).setLast g o := by
  have hlay : (s.group g).layoutAt t = ((s.group g).mask, false) := by
    unfold Grp.layoutAt Grp.ahead
    rw [holds]
    rfl
  refine ⟨{
    t := t, mask := (s.group g).mask, relaid := false, grains := out, untimed := s.untimedAt t
    degraded := s.maskDegraded (s.group g).mask, unsettled := s.maskUnsettled k (s.group g).mask t
    supply := s.maskSupply k (s.group g).mask t, quality := s.qualityAt t, ready := s.clk.tsc, timed := (s.group g).timeNext },
    rfl, rfl, rfl, rfl, ?_⟩
  unfold State.queueOutput
  dsimp only
  rw [hlay, holds, hw]
  dsimp only
  have hopen : ¬((!true || (s.group g).mask == 0#24 || decide ((t - (s.group g).startAt).toInt ≤ 0)) = true) := by
    rw [Bool.not_true, Bool.false_or, beq_eq_false_iff_ne.mpr hmask, Bool.false_or, decide_eq_true_eq]
    omega
  rw [List.isEmpty_nil, if_pos rfl, if_neg hopen]
  rfl

theorem State.feedCapture_slow (t : Tick) (out : Vector Grain 24) (s : State) : s.feedCapture .slow t out = s := by
  unfold State.feedCapture
  split
  · rfl
  · exact if_neg (by simp)

theorem State.feedSpec_slow (t : Tick) (out : Vector Grain 24) (s : State) : s.feedSpec .slow t out = s := rfl

/-- What an output feeds before it waits to be placed: a capture and the engine, from the fast paths (R277, R292). -/
def State.fed (k : PathKind) (t : Tick) (raw : Stage4) (s : State) : State :=
  ((s.chainOutput k t raw).1.feedCapture k t (s.chainOutput k t raw).2).feedSpec k t (s.chainOutput k t raw).2

theorem State.fed_facts (k : PathKind) (t : Tick) (raw : Stage4) (s : State) :
    (∃ chan, (s.fed k t raw).harrow = { s.harrow with chan := chan }) ∧ (s.fed k t raw).buf = s.buf ∧
    (s.fed k t raw).mask [.harrow, .cap, .spec] = s.mask [.harrow, .cap, .spec] ∧
    (k = .slow → (s.fed k t raw).mask [.harrow] = s.mask [.harrow]) := by
  obtain ⟨⟨chan, hchain⟩, -, -⟩ := s.chainOutput_facts k t raw
  have hfed : (s.fed k t raw).harrow = (s.chainOutput k t raw).1.harrow :=
    State.harrow_of_mask (ps := [.cap, .spec]) (by simp [State.fed]) (by decide)
  refine ⟨⟨chan, hfed.trans hchain⟩, ?_, by simp [State.fed], fun hk => ?_⟩
  · exact State.buf_of_mask (ps := [.harrow, .cap, .spec]) (by simp [State.fed]) (by decide)
  · subst hk
    rw [State.fed, State.feedCapture_slow, State.feedSpec_slow]
    simp

theorem State.pathOutput_fast (t : Tick) (raw : Stage4) (s : State) : s.pathOutput .fast t raw =
    (s.fed .fast t raw).queueOutput .fast .fast t (s.chainOutput .fast t raw).2 := rfl

theorem State.pathOutput_slow (t : Tick) (raw : Stage4) (s : State) : s.pathOutput .slow t raw =
    (s.fed .slow t raw).queueOutput .slow .slow t (s.chainOutput .slow t raw).2 := rfl

/-- The grain of a channel that is suppressed, or does not run, is invalid in the output (R245, R247). -/
theorem State.output_invalid (hk : k ≠ .recog) (t : Tick) (raw : Stage4) (s : State) (ch : Fin 24) :
    (((s.chan ch.val).path k).Mute → ((s.outputStart k).chainOutput k t raw).2[ch] = 0x800000#24) ∧
    (((s.chan ch.val).path k).running = false → ((s.outputStart k).chainOutput k t raw).2[ch] = 0x800000#24) := by
  obtain ⟨-, -, hout⟩ := (s.outputStart k).chainOutput_facts k t raw
  rw [hout, ← State.chan_outputStart k s]
  exact ⟨fun h => (State.chainOne_mute h ch.isLt (State.repeats_outputStart k s (fun h => absurd h hk) t) raw).1,
    fun h => (State.chainOne_stopped h t raw).1⟩

theorem State.fastOutput_completes (hcome : s.outputsCome .fast = true) (hdue : s.outputDue .fast = true)
    (hnext : s.nextRate = none) (hw : s.buf.writing = true) (hmask : s.buf.fast.mask ≠ 0#24) (holds : s.buf.fast.olds = [])
    (hstart : 0 < (s.harrow.fastNext - s.buf.fast.startAt).toInt) (cl : Vector Int 36) (aux : Vector Raw 18) :
    Completes (.pathOutput .fast cl aux) s fun t =>
      (∃ o, t.harrow.fastOut = s.harrow.fastOut ++ [o] ∧ o.t = s.harrow.fastNext ∧ o.mask = s.buf.fast.mask ∧ o.relaid = false ∧
        (∀ ch : Fin 24, (s.chan ch.val).fast.running = true → (s.chan ch.val).fast.sup = true →
          (s.chan ch.val).fast.keep = none → o.grains[ch] = 0x800000#24) ∧
        (∀ ch : Fin 24, (s.chan ch.val).fast.running = false → o.grains[ch] = 0x800000#24)) ∧
      t.harrow.fastNext = s.harrow.fastNext + BitVec.ofNat 64 (s.period .fast) ∧
      t.harrow.slowOut = s.harrow.slowOut ∧ t.buf = { s.buf with fast := { s.buf.fast with timeNext := false } } ∧
      Same [.harrow, .cap, .spec, .smc, .buf, .int] s t := by
  refine .event (State.exec_pathOutput hnext .fast cl aux) (by rw [hcome, hdue]; rfl) ?_
  have hgrains := State.output_invalid (k := .fast) (by decide) (s.next .fast) ⟨cl, aux⟩ s
  obtain ⟨⟨chan, hharrow⟩, hbuf, hfed, -⟩ := (s.outputStart .fast).fed_facts .fast (s.next .fast) ⟨cl, aux⟩
  rw [State.pathOutput_fast]
  generalize (s.outputStart .fast).fed .fast (s.next .fast) ⟨cl, aux⟩ = v at hharrow hbuf hfed ⊢
  generalize ((s.outputStart .fast).chainOutput .fast (s.next .fast) ⟨cl, aux⟩).2 = out at hgrains ⊢
  have hbuf' : v.buf = s.buf := hbuf
  obtain ⟨hfast, hslow, hnext'⟩ := s.outputStart_facts .fast
  obtain ⟨o, ht, hm, hrelaid, hg, hq⟩ := State.queueOutput_adds (s := v) (g := .fast) (t := s.next .fast)
      (by rw [hbuf']; exact hw)
    (by rw [State.group, hbuf']; exact hmask) (by rw [State.group, hbuf']; exact holds)
    (by rw [State.group, hbuf']; exact hstart) .fast out
  have howe : ∀ w : State, (w.oweTick .fast (s.next .fast)).mask [.smc] = w.mask [.smc] := fun w => by simp
  rw [State.arbitrate_harrow, State.arbitrate_buf, State.harrow_of_mask (howe _) (by decide), State.buf_of_mask (howe _)
      (by decide), hq]
  refine ⟨⟨o, ?_, ht, ?_, hrelaid, fun ch hrun hsup hkeep => ?_, fun ch hrun => ?_⟩, ?_, ?_, ?_, ?_⟩
  · exact congrArg (· ++ [o]) ((congrArg Harrow.fastOut hharrow).trans hfast)
  · rw [hm, State.group, hbuf']
  · rw [hg]
    exact (hgrains ch).1 ⟨hrun, hsup, hkeep⟩
  · rw [hg]
    exact (hgrains ch).2 hrun
  · exact (congrArg Harrow.fastNext hharrow).trans hnext'
  · exact (congrArg Harrow.slowOut hharrow).trans hslow
  · exact congrArg (fun b : Buf => { b with fast := { b.fast with timeNext := false } }) hbuf'
  · have hfed' := State.mask_mono (qs := [.harrow, .cap, .spec, .smc, .buf, .int]) hfed (by decide)
    rw [← hq]
    simp [Same, hfed']

theorem State.slowOutput_completes (hcome : s.outputsCome .slow = true) (hdue : s.outputDue .slow = true)
    (hnext : s.nextRate = none) (hw : s.buf.writing = true) (hmask : s.buf.slow.mask ≠ 0#24) (holds : s.buf.slow.olds = [])
    (hstart : 0 < (s.harrow.slowNext - s.buf.slow.startAt).toInt) (cl : Vector Int 36) (aux : Vector Raw 18) :
    Completes (.pathOutput .slow cl aux) s fun t =>
      (∃ o, t.harrow.slowOut = s.harrow.slowOut ++ [o] ∧ o.t = s.harrow.slowNext ∧ o.mask = s.buf.slow.mask ∧ o.relaid = false) ∧
      t.harrow.slowNext = s.harrow.slowNext + BitVec.ofNat 64 (s.period .slow) ∧
      t.harrow.fastOut = s.harrow.fastOut ∧ t.buf = { s.buf with slow := { s.buf.slow with timeNext := false } } ∧
      Same [.harrow, .smc, .buf, .int] s t := by
  refine .event (State.exec_pathOutput hnext .slow cl aux) (by rw [hcome, hdue]; rfl) ?_
  obtain ⟨⟨chan, hharrow⟩, hbuf, -, hfed⟩ := (s.outputStart .slow).fed_facts .slow (s.next .slow) ⟨cl, aux⟩
  rw [State.pathOutput_slow]
  generalize (s.outputStart .slow).fed .slow (s.next .slow) ⟨cl, aux⟩ = v at hharrow hbuf hfed ⊢
  have hbuf' : v.buf = s.buf := hbuf
  obtain ⟨hfast, hslow, hnext'⟩ := s.outputStart_facts .slow
  obtain ⟨o, ht, hm, hrelaid, -, hq⟩ := State.queueOutput_adds (s := v) (g := .slow) (t := s.next .slow) (by rw [hbuf']; exact hw)
    (by rw [State.group, hbuf']; exact hmask) (by rw [State.group, hbuf']; exact holds)
    (by rw [State.group, hbuf']; exact hstart) .slow ((s.outputStart .slow).chainOutput .slow (s.next .slow) ⟨cl, aux⟩).2
  have howe : ∀ w : State, (w.oweTick .slow (s.next .slow)).mask [.smc] = w.mask [.smc] := fun w => by simp
  rw [State.arbitrate_harrow, State.arbitrate_buf, State.harrow_of_mask (howe _) (by decide), State.buf_of_mask (howe _)
      (by decide), hq]
  refine ⟨⟨o, ?_, ht, ?_, hrelaid⟩, ?_, ?_, ?_, ?_⟩
  · exact congrArg (· ++ [o]) ((congrArg Harrow.slowOut hharrow).trans hslow)
  · rw [hm, State.group, hbuf']
  · exact (congrArg Harrow.slowNext hharrow).trans hnext'
  · exact (congrArg Harrow.fastOut hharrow).trans hfast
  · exact congrArg (fun b : Buf => { b with slow := { b.slow with timeNext := false } }) hbuf'
  · have hfed' := State.mask_mono (qs := [.harrow, .smc, .buf, .int]) (hfed rfl) (by decide)
    rw [← hq]
    simp [Same, hfed']

end

/-- Settles O20: one output is `State.chainOne` per channel, where a suppressed one is invalid from stage 5 on
(`State.stages56_mute`); a group that writes then queues it (`State.queueOutput_adds`). -/
theorem pathOutputsComplete : Obligations.PathOutputsComplete := by
  unfold Obligations.PathOutputsComplete
  exact ⟨fun s cl aux hcome hdue hnext => State.recogOutput_completes hcome hdue hnext cl aux,
    fun s cl aux hcome hdue hnext hw hmask holds hstart => State.fastOutput_completes hcome hdue hnext hw hmask holds hstart cl aux,
    fun s cl aux hcome hdue hnext hw hmask holds hstart => State.slowOutput_completes hcome hdue hnext hw hmask holds hstart cl aux⟩

end Sys2Proof.Machine
end
